-- ==== Sys2Proof/Word.lean ====
section
/-!
DEFINITION. Bytes and the byte orders of R7.
-/

namespace Sys2Proof

/-- One byte of memory or of a message. -/
abbrev Byte := BitVec 8

/-- One 32-bit register word. -/
abbrev Word := BitVec 32

end Sys2Proof
end

