-- ==== Sys2Proof/Operand.lean ====
section
/-!
DEFINITION. The types of command operands.
-/

namespace Sys2Proof

/-- The three logs of R72: the verdict log (WCH), the stage event log (SWD) and the fault log (SNG). -/
inductive LogId where
  | verdict | event | fault
  deriving DecidableEq, Repr

/-- A request that the command engine has accepted (R367): its session, REQ_ID, RETRY flag and payload (big-endian, R7). -/
structure Req where
  session : Nat
  reqId : Nat
  retry : Bool
  payload : List Byte
  deriving DecidableEq, Repr

/-- Dies of Table 01.1 that carry a collector, and the S-die. -/
inductive Die where
  | c0 | c1 | x | s
  deriving DecidableEq, Repr

/-- One UDP datagram as the command endpoint sees it (R359): source address and port, and its bytes. -/
structure Datagram where
  srcAddr : Nat
  srcPort : Nat
  bytes : List Byte
  deriving DecidableEq, Repr

/-- The fuses, both copies of each bit (R448, Table 14.2), without UDS and UID. Owner digests are 512-bit numbers. -/
structure Fuses where
  arb : Nat × Nat
  ownerRevoke : Nat × Nat
  vendorRevoke : Nat × Nat
  hwStart : Nat × Nat
  debugDisable : Nat × Nat
  owner0 : Nat × Nat
  owner1 : Nat × Nat
  deriving DecidableEq, Repr

/-- No bit is blown. -/
def Fuses.blank : Fuses := ⟨(0, 0), (0, 0), (0, 0), (0, 0), (0, 0), (0, 0), (0, 0)⟩

/-- What the world outside decides at a boot (R448, R452): the level of TWIN_EN, the fuses found, the containers found in the flashes (none: as
the device last left them), the containers at other places of the flashes (chip, offset, bytes), comparators
that miss a pattern, whether the entropy test passes, and whether HBM training succeeds, with the lanes it finds bad. -/
structure BootEnv where
  twinEn : Bool
  fuses : Fuses
  flashFw : Option (List Byte × List Byte)
  flashTc : Option (List Byte × List Byte)
  comparatorMiss : Nat
  entropyOk : Bool
  hbmOk : Bool
  badLanes : List Nat
  flashModels : List (Nat × Nat × List Byte)
  deriving DecidableEq, Repr

/-- Queues of the array sequencer (R156). -/
inductive ArrQueue where
  | plan | background
  deriving DecidableEq, Repr

/-- What the check bits of a byte show: sound, one bit wrong (corrected at every read, R224), or uncorrectable (R226). -/
inductive Check where
  | sound | single | double
  deriving DecidableEq, Repr
/-- What an engine's SRAM reads for one tile meet (R224, R226): no error, a corrected one, or an uncorrectable one, with its physical address and,
where it lies in a staged input, the place of the record that holds it. -/
inductive TileRead where
  | sound | corrected (addr : Nat) | uncorrectable (addr : Nat) (entry : Option Nat)
  deriving DecidableEq, Repr
/-- What a DMA read meets in the memory cells that it reads (R224, R225), by physical address: a corrected error, an HBM line that is clean on its
second read, with the lane that failed (R248), or an uncorrectable error. -/
inductive ReadErr where
  | corrected (addr : Nat) | retried (addr lane : Nat) | uncorrectable (addr : Nat)
  deriving DecidableEq, Repr

/-- The state of a tile boundary: whether the two halves of its inputs and state agree (R240), and what the tile's reads met. -/
structure TileEnd where
  agree : Bool
  read : TileRead
  deriving DecidableEq, Repr

/-- What the Skim unit's reads for one record meet: the link buffer (R281) and the tables (R108). -/
structure SkimReads where
  data : Check
  table : Check
  deriving DecidableEq, Repr

/-- One of a numbered set of registers, read by a master (R385). -/
structure ByMaster where
  mid : Nat
  index : Nat
  deriving DecidableEq, Repr

/-- One record of the Fjovauz link or of BOND: the header of Table 08.6, payload and trailer (R266). `reserved` is nonzero when a reserved
header bit is 1, and `padZero` says that the pad bytes are 0. -/
structure LinkRecord where
  kind : Nat
  vc : Nat
  watch : Nat
  frame : Nat
  slot : Nat
  fmt : Nat
  length : Nat
  offset : Nat
  arg : Nat
  linkTag : Nat
  reserved : Nat
  payload : List Byte
  trailer : Nat
  padZero : Bool
  deriving DecidableEq, Repr

/-- The control blocks that act on a port's link layer (Table 08.3). -/
inductive LossKind where
  | headers | deskew
  deriving DecidableEq, Repr

/-- An AAF packet as a listener's engine takes it (R296, R297): Ethernet port, stream ID, format code, nsr code, sequence_num, avtp_timestamp, and its samples as
raw words, one row per sample position. -/
structure AafPacket where
  port : Nat
  id : Nat
  format : Nat
  nsr : Nat
  seq : Nat
  time : Nat
  rows : List (List Nat)
  deriving DecidableEq, Repr

/-- What a received frame carries beyond its header, where the device treats it apart: neighbour discovery (R322), a Pdelay request (R343), or
anything else. -/
inductive RxKind where
  | other | neighbour | pdelayReq
  deriving DecidableEq, Repr

/-- The timestamps of one Pdelay exchange in ns, as the MACs take them (R344): the request leaves the device and reaches the peer, the answer
leaves the peer and reaches the device. The peer's two are on its own clock, corrected for its own latencies. -/
structure PdelayTimes where
  sent : Int
  peerGot : Int
  peerSent : Int
  got : Int
  deriving DecidableEq, Repr

/-- A received Ethernet frame as the port sees it (R320 to R333): its length, whether its FCS holds, addresses, VLAN tag, EtherType, R-TAG,
SecTAG with the outcome of its integrity check, and the stream it belongs to where it is an AVTP frame. -/
structure RxFrame where
  len : Nat
  fcsOk : Bool
  dst : Nat
  src : Nat
  vid : Option Nat
  pcp : Nat
  etherType : Nat
  sdu : Nat
  rtag : Option Nat
  /-- SCI, AN, PN, integrity check passed. -/
  sec : Option (Nat × Nat × Nat × Bool)
  stream : Option Nat
  kind : RxKind
  deriving DecidableEq, Repr

/-- A handshake message as its last packet completes it (R364): peer, REQ_ID, RETRY, the header's VERSION, and the payload. -/
structure Hand where
  addr : Nat
  port : Nat
  reqId : Nat
  retry : Bool
  version : Nat
  payload : List Byte
  deriving DecidableEq, Repr

/-- An outbound store that waits in a pair's queue (R384): a register write, a watchdog service, a DMA post or a write of memory. -/
inductive PairStore where
  | reg (addr value : Nat) | mem (addr : Nat) (byte : Byte)
  deriving DecidableEq, Repr

/-- What one copy of a pair does, as its MISR folds it (R382): an instruction retires, a register takes a value that the core computed, a register
takes the next inbound value that the pair captured, or a store retires. -/
inductive CoreEvent where
  | retire (addr : Nat) | write (reg value : Nat) | load (reg : Nat) | store (x : PairStore)
  deriving DecidableEq, Repr

/-- What a pair's bus side brings to a comparison: the inbound values captured for both copies, and a load with side effects that waits for it
(R382, R385). -/
structure PairBus where
  inbound : List Nat
  load : Option Nat
  deriving DecidableEq, Repr

/-- What the debugger asks of a halted pair: a write of a target, or a step with what the main copy does in it (R395). -/
inductive DebugMove where
  | write (target value : Nat) | step (events : List CoreEvent)
  deriving DecidableEq, Repr

/-- An action as the replay log keeps it (R395): a write of a target, or a step of the main copy with the inbound values that it received. -/
inductive DebugAct where
  | write (target value : Nat) | step (inbound : List Nat) (events : List CoreEvent)
  deriving DecidableEq, Repr

end Sys2Proof
end

