-- ==== Sys2Proof/Syntax.lean ====
section
/-!
DEFINITION. The commands: one constructor per row of the spec's table of operations and events.
-/

namespace Sys2Proof

/-- A command: an operation or an event of the device. -/
inductive Instr where
  /-- REGISTER_WRITE (R9): A host write to any register field that has no row of its own takes effect according to the field's access type. -/
  | registerWrite (mid : Nat) (addr : Nat) (value : Nat) (bytes : Nat)
  /-- TCK_COMMIT (R12): A write to TCK_COMMIT captures every staged copy and the staged arm list, or extends a capture still pending; while the tick unit is stopped the capture validates and applies at once. -/
  | tckCommit
  /-- TICK_RUN_START (R350): A write of 1 to TCK_CTRL.RUN starts the tick unit, locked to a time base when LOCK_EN is set, refuses the start with START_ERR when MARGIN exceeds LEN, or cancels a pending stop. -/
  | tickRunStart (hz : Nat)
  /-- TICK_RUN_STOP (R215): A write of 0 to TCK_CTRL.RUN requests that the tick unit stop at the next tick boundary. -/
  | tickRunStop
  /-- SAMPLE_TICK (R28): A sample tick of rate Fs elapses, and each output channel emits one sample of released, passed, ramped or substitution content. -/
  | sampleTick (ownIn : Bool) (bad : List Nat)
  /-- TICK_BOUNDARY (R29): A frame tick ends: FRAME_NO increments, and captured commits, arm lists, plans and epoch swaps apply. -/
  | tickBoundary (failed : List Nat)
  /-- RELEASE_POINT (R302): At RP(k) the gate decides frame k of each HOLD channel once, releasing it or substituting it. -/
  | releasePoint (bad : List Nat)
  /-- EVALUATION_FINAL (R56): At E(k) a watch's evaluation becomes final: the verdict and coverage are computed and recorded, and the persistence filter advances. -/
  | evaluationFinal (watch frame : Nat)
  /-- LATE_RESULT (R56): A job result that arrives at or after E(k) is recorded and flagged as late and releases nothing. -/
  | lateResult (watch frame code detail : Nat)
  /-- ARM_ENTRY_APPEND (R48): A write of WCH_ARM_OP with OP ARM appends an ARM entry to the staged list, or sets LIST_FULL when the list is full. -/
  | armEntryAppend (watch : Nat)
  /-- RETIRE_ENTRY_APPEND (R48): A write of WCH_ARM_OP with OP RETIRE appends a RETIRE entry to the staged list. -/
  | retireEntryAppend (watch : Nat)
  /-- ARM_LIST_CLEAR (R48): A write of 1 to WCH_ARM_CLEAR empties the staged arm list. -/
  | armListClear (value : Nat)
  /-- DESCRIPTOR_WRITE (R51): A host write to a watch descriptor stores the host bytes while the watch is IDLE and not captured, and is otherwise discarded with CFG_WRITE_ACTIVE. -/
  | descriptorWrite (watch word value : Nat)
  /-- WCH_INJ (R70): A write to WCH_INJ arms a forced verdict code for the next final evaluation of one watch. -/
  | wchInj (value : Nat)
  /-- LOG_RD_ADVANCE (R72): A host write that advances the read index of the verdict, stage event or fault log frees records and clears FULL. -/
  | logRdAdvance (log : LogId) (index : Nat)
  /-- CLR_LOST (R72): A write of 1 to CLR_LOST of a log sets its LOST count to 0. -/
  | clrLost (log : LogId)
  /-- SKIM_RECORD_PROCESS (R90): A Skim unit processes one accepted record, once the job's tables are loaded, adding it to the running projection sums or skipping it. -/
  | skimRecordProcess (port vc : Nat) (read : SkimReads)
  /-- KNOWN_ANSWER_TEST (R102): A Skim unit completes its known-answer test on the next tables, passing or raising SKM_KAT_FAIL. -/
  | knownAnswerTest (unit : Nat) (pass : Bool)
  /-- SKM_EPOCH_OVERRUN (R100): 2 × T_eff passes without a swap, raising SKM_EPOCH_OVERRUN and setting OVERRUN. -/
  | skmEpochOverrun
  /-- SKM_REKEY (R98): A write of 1 to SKM_REKEY makes the next swap skip the T_eff wait. -/
  | skmRekey (value : Nat)
  /-- SKM_U_INJ (R108): A write to SKM_U_INJ arms a forced projection failure in the next checked unit of a watch. -/
  | skmUInj (unit value : Nat)
  /-- SIGNAL_CHECK_RESULT (R110): A signal checker completes a BND, CON, DIV or PRS evaluation of a frame. -/
  | signalCheckResult (watch frame : Nat)
  /-- WINDOW_EVALUATION (R115): At the end of each block of 16 instants, the checkers evaluate every window that ends there against its energy tests. -/
  | windowEvaluation (block : Nat)
  /-- LIVENESS_LIMIT (R141): A SEQ watch reaches its liveness limit with no counted arrival, and the evaluation fails LIVENESS. -/
  | livenessLimit (watch frame : Nat)
  /-- WCH_SIG_INJ (R147): A write to WCH_SIG_INJ arms an injected signal-check failure for one watch. -/
  | wchSigInj (value : Nat)
  /-- ARRAY_OPERATION_ISSUE (R186): The sequencer issues the highest-ranked ready PLAN stage, or a BACKGROUND operation when PLAN has none ready. -/
  | arrayOperationIssue (fault : Option (Nat × Nat × Nat)) (agree : Bool)
  /-- TILE_BOUNDARY (R157): An engine completes a tile; checksum lanes are compared, and pre-emption or abort may take effect. -/
  | tileBoundary (pass : Bool) (tile : TileEnd)
  /-- ARRAY_OPERATION_COMPLETE (R165): An operation completes, and the sequencer instances compare TAG and descriptor signature at the boundary. -/
  | arrayOperationComplete (seqOk vecOk : Bool) (exc : Nat)
  /-- MTX_INJ (R169): A write to MTX_INJ arms an injected array detection. -/
  | mtxInj (value : Nat)
  /-- STENCIL_SEND_POINT (R204): At the send point of a due stencil instance, the device sends its input or defers it. -/
  | stencilSendPoint (watch : Nat)
  /-- STAGE_WINDOW_OPEN (R207): A stage-window instance opens at B(j) + OPEN. -/
  | stageWindowOpen (window frame : Nat)
  /-- STAGE_WINDOW_CLOSE (R209): A stage-window instance closes, computes MISSING, and on an error logs an event and sets SWD_STAGE. -/
  | stageWindowClose (window : Nat)
  /-- SWD_CHECKIN (R208): A firmware write to SWD_CHECKIN checks a task into a window, or is counted as BADSRC or STRAY. -/
  | swdCheckin (mid value : Nat)
  /-- SWD_INJ (R211): A write to SWD_INJ arms an injected MISSING or DUPLICATE check-in. -/
  | swdInj (value : Nat)
  /-- DMA_DESCRIPTOR_POST (R235): A master posts a descriptor to a PLAN or BACKGROUND DMA ring, or receives an error response. -/
  | dmaDescriptorPost (mid engine : Nat) (ring : ArrQueue) (words : List Nat)
  /-- DMA_DESCRIPTOR_COMPLETE (R237): A DMA descriptor completes with status OK, UE, XLATE, DESC or DROPPED. -/
  | dmaDescriptorComplete (engine : Nat) (ring : ArrQueue) (errors : List ReadErr)
  /-- MEM_PAGE_RETIRED (R245): A page retirement completes and raises MEM_PAGE_RETIRED. -/
  | memPageRetired (page : Nat)
  /-- MEM_XLT_INV (R234): A write to MEM_XLT_INV starts invalidating the translation cache for one context or for all. -/
  | memXltInv (value : Nat)
  /-- XLT_INVALIDATE_DONE (R234): A translation invalidation completes, and BUSY clears. -/
  | xltInvalidateDone
  /-- MEM_ERR_CLR (R227): A write to MEM_ERR_CLR clears the VALID bit of the UE or translation-fault record. -/
  | memErrClr (value : Nat)
  /-- MEM_INJ (R227): A write to MEM_INJ arms an injected memory error or translation fault. -/
  | memInj (value : Nat)
  /-- FJL_PORT_ENABLE (R258): Setting FJL_CTRL.EN bit p moves the port from DISABLED to DETECT. -/
  | fjlPortEnable (port : Nat)
  /-- FJL_PORT_DISABLE (R286): Clearing FJL_CTRL.EN bit p puts the port in DISABLED, ends the epoch and discards records not yet accepted. -/
  | fjlPortDisable (port : Nat)
  /-- TRAINING_STATE_EXIT (R258): A training state's exit condition holds and the peer reports DONE, so the port moves to its next state. -/
  | trainingStateExit (port polarity : Nat) (reversed : Bool) (config : List Nat)
  /-- TRAINING_TIMEOUT (R259): A training state times out; the training fails, counts in FAILS, and may take the port to DOWN. -/
  | trainingTimeout (port : Nat)
  /-- ACK (R274): A received ACK control block frees the replay entries it covers. -/
  | ack (port vc nextSeq : Nat) (resync : Bool)
  /-- NACK (R276): A received NACK, once NACKs for all channels are held, makes the device finish, pad, set RESYNC and replay. -/
  | nack (port vc nextSeq cause : Nat) (resync : Bool)
  /-- CREDIT (R264): A received CREDIT block raises the channel's credit limit. -/
  | credit (port vc limit : Nat)
  /-- MARK (R256): A received MARK block is checked for its epoch and RESYNC flag. -/
  | mark (port epoch : Nat) (resync : Bool)
  /-- RESET_BLOCK (R282): A received RESET block starts a link reset with DESKEW and CONFIG in a new epoch. -/
  | resetBlock (port reason : Nat)
  /-- RECORD_RECEIVED (R274): A record's trailer arrives; it passes the link layer and is acknowledged, or it starts a loss of framing. -/
  | recordReceived (port : Nat) (record : LinkRecord)
  /-- BLOCK_LOCK_LOSS (R282): Invalid sync headers, reserved control types or a loss of deskew on a lane take the port into RETRAIN. -/
  | blockLockLoss (port : Nat)
  /-- DATA (R279): An accepted DATA record is checked for window, watch and kind, and then delivered to its watch or discarded. -/
  | data (port vc : Nat)
  /-- HEARTBEAT (R140): A HEARTBEAT record is accepted and counted for its SEQ watch, or is discarded. -/
  | heartbeat (port : Nat)
  /-- CHECKIN (R208): A CHECKIN record on CONTROL checks a task into a stage window. -/
  | checkin (port : Nat)
  /-- IDENT_RSP (R271): An IDENT_RSP stores its 64 identification bytes in FJL_P_IDENT. -/
  | identRsp (port : Nat)
  /-- PEER_ALERT (R271): A PEER_ALERT stores its code in FJL_P_PEER and raises FJL_PEER_ALERT. -/
  | peerAlert (port : Nat)
  /-- RECORD_TRANSMIT (R264): The device starts sending a record once enough credits and replay space are available. -/
  | recordTransmit (port : Nat)
  /-- FJL_CMD_RETRAIN (R258): A write of FJL_P_CMD.RETRAIN starts a retrain, or restarts training from DOWN. -/
  | fjlCmdRetrain (port : Nat)
  /-- FJL_CMD_RESET (R282): A write of FJL_P_CMD.RESET starts a link reset with reason 2. -/
  | fjlCmdReset (port : Nat)
  /-- CLR_PEER (R283): A write of FJL_P_CMD.CLR_PEER clears FJL_P_PEER and ends the cause of FJL_PEER_ALERT. -/
  | clrPeer (port : Nat)
  /-- FJL_P_INJ (R286): A write to FJL_P_INJ arms an injected link error. -/
  | fjlPInj (port value : Nat)
  /-- TDM_INPUT_FRAME (R294): A TDM frame's FSYNC edge delivers the slot samples of a port, or causes a clock fault. -/
  | tdmInputFrame (port : Nat) (edge : Option Nat) (second : Bool) (slots : List Nat)
  /-- PORT_LOCK (R294): A SLAVE port completes 16 frames of phase measurement and sets LOCKED. -/
  | portLock (port : Nat)
  /-- AVTP_LISTENER_PACKET (R297): A received AAF packet places its samples at their sample ticks, or is discarded, with late samples counted. -/
  | avtpListenerPacket (listener : Nat) (packet : AafPacket)
  /-- AVT_STREAM_LOST (R297): A listener stream with no accepted packet for 1 ms raises AVT_STREAM_LOST. -/
  | avtStreamLost (listener : Nat)
  /-- SGT_PORT_ENABLE (R317): Setting a PORT_EN bit enables a TDM port, which starts its lock. -/
  | sgtPortEnable (port : Nat)
  /-- SGT_PORT_DISABLE (R317): Clearing a PORT_EN bit drives MUTE_n low and puts SDO and FSO at 0 at once. -/
  | sgtPortDisable (port : Nat)
  /-- SGT_INJ (R317): A write to SGT_INJ arms an injected gate substitution, VALID drop or buffer error. -/
  | sgtInj (value : Nat)
  /-- ETH_LINK_CHANGE (R355): A port's link goes up or down, setting or ending the cause of ETH_LINK_DOWN. -/
  | ethLinkChange (port : Nat) (up : Bool) (speed : Nat)
  /-- ETH_FRAME_RECEIVED (R320): An Ethernet frame is received, filtered, metered, MACsec-checked and recovered, and then dispatched or dropped. -/
  | ethFrameReceived (port : Nat) (frame : RxFrame)
  /-- CB_RECOVERY_TIMEOUT (R332): A recovery function's reset timeout expires and resets its history. -/
  | cbRecoveryTimeout (recovery : Nat)
  /-- NEIGHBOUR_SOLICITATION (R321): The device answers an ARP request or IPv6 neighbour solicitation for its addresses. -/
  | neighbourSolicitation (port : Nat) (ipv6 : Bool) (target : Nat)
  /-- ECHO_REQUEST (R321): The device answers an ICMP or ICMPv6 echo request when ICMP_EN is 1. -/
  | echoRequest (port : Nat) (ipv6 : Bool) (target : Nat) (body : List Byte)
  /-- GATE_CONTROL_GO (R324): A write of GO starts a gate list configuration change. -/
  | gateControlGo (port : Nat)
  /-- GATE_LIST_ADOPT (R325): At its cycle start the pending gate list becomes operational, or is refused with ETH_GATE_ERR. -/
  | gateListAdopt (port : Nat)
  /-- PREEMPTION_VERIFY (R327): The IEEE 802.3br verification exchange succeeds and sets PRE_ACTIVE. -/
  | preemptionVerify (port : Nat) (ok : Bool)
  /-- MACSEC_INSTALL (R334): A write of ETH_P_MS_INSTALL.GO installs the selected SA and clears the key registers. -/
  | macsecInstall (port : Nat)
  /-- TX_AN_SELECT (R334): A write of TX_AN switches the transmit SA at the next frame boundary. -/
  | txAnSelect (port : Nat) (an : Nat)
  /-- SAFETY_STATUS_TIMER (R376): While the tick unit is stopped, a SAFETY_STATUS is sent every 1 ms. -/
  | safetyStatusTimer
  /-- ETH_STATUS_LATE (R337): A SAFETY_STATUS not sent 200 µs after its trigger raises ETH_STATUS_LATE. -/
  | ethStatusLate (port : Nat)
  /-- TIM_TB_STEP (R342): A write to TIM_TB_STEP adds signed nanoseconds to a FREE time base, or is discarded. -/
  | timTbStep (tb : Nat) (value : Nat)
  /-- TB_LATCH_READ (R340): A read of TIM_TB_NS latches the whole value of the time base. -/
  | tbLatchRead (tb : ByMaster)
  /-- CAPTURE_EDGE (R354): A CAP input edge captures the time base into its queue, or is dropped with TIM_CAP_OVF. -/
  | captureEdge (input : Nat) (rise : Bool) (pulseNs : Nat)
  /-- CAP_NS_READ (R354): A read of TIM_CAP_NS latches the oldest capture entry. -/
  | capNsRead (input : ByMaster)
  /-- CAP_SEC_HI_READ (R354): A read of TIM_CAP_SEC_HI removes the oldest capture entry. -/
  | capSecHiRead (input : ByMaster)
  /-- SYNC_EDGE (R352): A SYNC output places its next pulse or edge at its programmed instant. -/
  | syncEdge (output : Nat)
  /-- PTP_SYNC (R346): A gPTP Sync is received, and the servo and Δ measurement update. -/
  | ptpSync (inst : Nat) (time : Int) (rate : Int) (gap : Nat)
  /-- PTP_ANNOUNCE (R345): A gPTP Announce from the grandmaster is received. -/
  | ptpAnnounce (inst : Nat) (grandmaster : Nat) (gap : Nat)
  /-- PDELAY (R343): A Pdelay exchange completes and updates the mean link delay and asCapable. -/
  | pdelay (port : Nat) (times : PdelayTimes)
  /-- TIM_SYNC_LOSS (R345): A PTP instance loses validity, raising TIM_SYNC_LOSS and switching or holding its time bases. -/
  | timSyncLoss (inst : Nat)
  /-- TIME_BASE_REVERT (R349): The primary source has been valid for REVERT_S seconds, and the time base reverts to it. -/
  | timeBaseRevert (tb : Nat)
  /-- COMMAND_PACKET (R361): A UDP command packet is received, checked and authenticated, then reassembled or dropped. -/
  | commandPacket (packet : Datagram)
  /-- FRAGMENT_TIMEOUT (R360): A request whose fragments do not all arrive within 100 ms is discarded. -/
  | fragmentTimeout
  /-- HANDSHAKE_TIMEOUT (R364): A handshake not completed 1 s after its HELLO is discarded. -/
  | handshakeTimeout
  /-- SESSION_IDLE_TIMEOUT (R366): A session with no accepted request for SESS_IDLE seconds ends with SESSION_END. -/
  | sessionIdleTimeout
  /-- PING (R372): PING returns an empty reply. -/
  | ping (req : Req)
  /-- HELLO (R364): HELLO starts a session handshake and returns the device's key shares and signatures. -/
  | hello (hand : Hand)
  /-- AUTH (R364): AUTH verifies the host signatures and opens the session with derived keys. -/
  | auth (hand : Hand)
  /-- CLOSE (R366): CLOSE ends the session after its reply. -/
  | close (req : Req)
  /-- DEVICE_INFO (R372): DEVICE_INFO returns the device identity, revision, firmware and state. -/
  | deviceInfo (req : Req)
  /-- STATUS_GET (R375): STATUS_GET returns the SAFETY_STATUS payload with TRIGGER 5. -/
  | statusGet (req : Req)
  /-- SUBSCRIBE (R377): SUBSCRIBE sets which events the session receives. -/
  | subscribe (req : Req)
  /-- OP_QUERY (R377): OP_QUERY returns the status of an operation of the session. -/
  | opQuery (req : Req)
  /-- ATTEST (R471): ATTEST returns a signed attestation report over the given challenge. -/
  | attest (req : Req)
  /-- SESSION_LIST (R372): SESSION_LIST returns the role, key and open state of each session. -/
  | sessionList (req : Req)
  /-- REG_READ (R373): REG_READ returns the values of the listed registers. -/
  | regRead (req : Req)
  /-- REG_WRITE (R373): REG_WRITE writes the listed registers in order, stopping at an error response. -/
  | regWrite (req : Req)
  /-- REG_MODIFY (R373): REG_MODIFY read-modify-writes each listed register as one step. -/
  | regModify (req : Req)
  /-- REG_READ_BLOCK (R373): REG_READ_BLOCK returns consecutive register words. -/
  | regReadBlock (req : Req)
  /-- COMMIT (R374): COMMIT writes TCK_COMMIT and replies with the outcome after the capture applies or is rejected. -/
  | commit (req : Req)
  /-- WATCH_DEFINE (R374): WATCH_DEFINE writes the host bytes of up to six IDLE watch descriptors. -/
  | watchDefine (req : Req)
  /-- WATCH_READ (R372): WATCH_READ returns one 256-byte descriptor. -/
  | watchRead (req : Req)
  /-- ARM_LIST (R374): ARM_LIST appends arm entries, optionally clearing the list first and committing in the same step. -/
  | armList (req : Req)
  /-- LOG_READ (R372): LOG_READ returns verdict log records and optionally advances the read index. -/
  | logRead (req : Req)
  /-- COVERAGE_GET (R372): COVERAGE_GET returns coverage and last verdicts of a range of watches. -/
  | coverageGet (req : Req)
  /-- MODEL_LOAD (R176): MODEL_LOAD starts verifying and loading a staged model image and replies PENDING. -/
  | modelLoad (req : Req)
  /-- MODEL_LOAD_DONE (R176): A model load completes with a load status, and OP_DONE is sent. -/
  | modelLoadDone (model : Nat)
  /-- MODEL_UNLOAD (R177): MODEL_UNLOAD removes a model, or is refused with MODEL_IN_USE. -/
  | modelUnload (req : Req)
  /-- MODEL_INFO (R372): MODEL_INFO returns the model's directory entry. -/
  | modelInfo (req : Req)
  /-- PORT_STATUS (R372): PORT_STATUS returns the TDM port and AVTP stream status registers. -/
  | portStatus (req : Req)
  /-- GATE_STATUS (R372): GATE_STATUS returns the substitution bitmaps and gate demand. -/
  | gateStatus (req : Req)
  /-- FALLBACK_STATUS (R372): FALLBACK_STATUS returns the fallback slot registers. -/
  | fallbackStatus (req : Req)
  /-- FAULT_LIST (R372): FAULT_LIST returns the set sources with severity and cause. -/
  | faultList (req : Req)
  /-- FAULT_CLEAR (R374): FAULT_CLEAR clears each listed source in order and reports cleared, refused or not set. -/
  | faultClear (req : Req)
  /-- FAULT_LOG_READ (R429): FAULT_LOG_READ returns fault log records and optionally advances the read index. -/
  | faultLogRead (req : Req)
  /-- WDG_EVIDENCE (R443): WDG_EVIDENCE returns the retained watchdog registers. -/
  | wdgEvidence (req : Req)
  /-- LADDER_CLEAR (R441): LADDER_CLEAR writes WDG_CMD.LADDER_CLR to unlock the ladder, or is refused with STATE. -/
  | ladderClear (req : Req)
  /-- TIME_GET (R372): TIME_GET returns FRAME_NO and all four time bases latched in one cycle. -/
  | timeGet (req : Req)
  /-- TIME_STEP (R372): TIME_STEP steps a time base through TIM_TB_STEP, or replies STATE. -/
  | timeStep (req : Req)
  /-- CAPTURE_READ (R372): CAPTURE_READ returns and removes capture entries. -/
  | captureRead (req : Req)
  /-- IMG_OPEN (R374): IMG_OPEN opens an image stage of the given kind and size. -/
  | imgOpen (req : Req)
  /-- IMG_CHUNK (R374): IMG_CHUNK writes a chunk into an open stage. -/
  | imgChunk (req : Req)
  /-- IMG_CLOSE (R374): IMG_CLOSE closes a stage. -/
  | imgClose (req : Req)
  /-- FW_INSTALL (R459): FW_INSTALL verifies a staged firmware container and starts writing it to the inactive slot. -/
  | fwInstall (req : Req)
  /-- FW_INSTALL_DONE (R459): A firmware install completes, and OP_DONE is sent. -/
  | fwInstallDone (ok : Bool)
  /-- TOPCOAT_INSTALL (R459): TOPCOAT_INSTALL verifies a staged Topcoat and starts writing it to the named slot. -/
  | topcoatInstall (req : Req)
  /-- TOPCOAT_INSTALL_DONE (R459): A Topcoat install completes, clears that slot's TC_FAIL bit, and sends OP_DONE. -/
  | topcoatInstallDone (ok : Bool)
  /-- SLOT_SELECT (R457): SLOT_SELECT sets NEXT and TRIAL for the next boot. -/
  | slotSelect (req : Req)
  /-- RESTART (R372): RESTART replies and then performs a warm restart 1 ms later. -/
  | restart (req : Req)
  /-- MAINT_ENTER (R466): MAINT with 1 enters maintenance state, setting SEC_MAINT and ending sessions, or is refused with STATE. -/
  | maintEnter (req : Req)
  /-- MAINT_LEAVE (R466): MAINT with 0 leaves maintenance state through a warm restart with cause 3. -/
  | maintLeave (req : Req)
  /-- SEAL_BREAK (R465): SEAL_BREAK opens the seal with a verified UNSEAL token in maintenance state. -/
  | sealBreak (req : Req)
  /-- DEBUG_OPEN (R468): DEBUG_OPEN opens the debug port with a verified DEBUG token and sets SEC_DEBUG_OPEN. -/
  | debugOpen (req : Req)
  /-- HPPR (R247): HPPR starts a post-package repair of logged rows in maintenance state. -/
  | hppr (req : Req)
  /-- HPPR_DONE (R247): A post-package repair completes, and OP_DONE is sent. -/
  | hpprDone
  /-- TWIN_STATUS (R501): TWIN_STATUS returns the twin status registers. -/
  | twinStatus (req : Req)
  /-- TWIN_HANDOVER (R497): TWIN_HANDOVER proposes a planned handover at frame h. -/
  | twinHandover (req : Req)
  /-- TWIN_PAIR (R504): TWIN_PAIR with 1 sets TWN_CTRL.PAIR, and BOND trains. -/
  | twinPair (req : Req)
  /-- TWIN_UNPAIR (R504): TWIN_PAIR with 0 clears TWN_CTRL.PAIR. -/
  | twinUnpair (req : Req)
  /-- INJECT (R373): INJECT writes an injection register on behalf of a MAINTAINER session. -/
  | inject (req : Req)
  /-- SELFTEST_STATUS (R501): SELFTEST_STATUS returns the rotation and engine states. -/
  | selftestStatus (req : Req)
  /-- STATUS_TEST (R372): STATUS_TEST sends one SAFETY_STATUS with TRIGGER 6 at once. -/
  | statusTest (req : Req)
  /-- ETH_CMD_INJ (R379): A write to ETH_CMD_INJ arms an injected tag failure or a delayed status message. -/
  | ethCmdInj (value : Nat)
  /-- LOCKSTEP_COMPARE (R383): At the end of a window or a checkpoint the pair's MISRs are compared, and queued stores are released or the pair halts. -/
  | lockstepCompare (pair : Nat) (main chk : List CoreEvent) (window : Bool) (bus : PairBus) (job : Option (Nat × Nat))
  /-- SELFTEST_SLICE_DONE (R386): The 40 µs self-test slices end, and the pair restarts, runs single or is fenced. -/
  | selftestSliceDone (pair : Nat) (mainOk : Bool) (chkOk : Bool)
  /-- UNFENCE (R390): A write of LCK_P_CMD.UNFENCE self-tests the fenced copies and resets the pair into LOCKED if they pass. -/
  | unfence (mid : Nat) (pair : Nat) (mainOk : Bool) (chkOk : Bool)
  /-- PAIR_RESET (R390): A write of LCK_P_CMD.RESET resets a pair. -/
  | pairReset (mid : Nat) (pair : Nat)
  /-- LCK_INJ (R407): A write to LCK_INJ arms an injected MISR or self-test failure. -/
  | lckInj (value : Nat)
  /-- DEBUG_HALT (R394): A debug halt request stops both copies at the next comparison. -/
  | debugHalt (pair : Nat)
  /-- DEBUG_ACTION (R395): A debugger write or step on a halted pair is applied and logged, or refused when the log is full. -/
  | debugAction (pair : Nat) (action : DebugMove) (inbound : List Nat)
  /-- DEBUG_RESUME (R395): Resume replays the log on the checker, compares the MISRs and releases or handles the queued stores. -/
  | debugResume (pair : Nat) (chk : List CoreEvent) (job : Option (Nat × Nat))
  /-- MBX_TX (R397): A post to MBX_TX enqueues a word and may ring the doorbell, or is discarded when the queue is full. -/
  | mbxTx (mid : Nat) (channel : Nat) (value : Nat)
  /-- MBX_RX (R398): A read of MBX_RX consumes the head word of the inbound queue. -/
  | mbxRx (mid : Nat) (channel : Nat)
  /-- MBX_DB_RING (R399): A write of MBX_DB.RING sets the peer's doorbell pending bit. -/
  | mbxDbRing (mid : Nat) (channel : Nat)
  /-- MBX_DB_CLEAR (R399): A write of 1 to MBX_DB.IN clears the inbound doorbell. -/
  | mbxDbClear (mid : Nat) (channel : Nat)
  /-- MBX_STALL (R400): A channel whose sides have both not consumed for ACK_TIMEOUT is reported stalled. -/
  | mbxStall (channel : Nat)
  /-- MBX_INJ (R408): A write to MBX_INJ arms an injected stall or binding violation. -/
  | mbxInj (value : Nat)
  /-- CRC_START (R404): A write of CRC_CMD.START loads INIT and folds sequence and address as configured. -/
  | crcStart (mid : Nat) (channel : Nat)
  /-- CRC_DATA (R404): A write to CRC_DATA processes four bytes into the running CRC. -/
  | crcData (mid : Nat) (channel : Nat) (value : Nat)
  /-- CRC_END (R404): A write of CRC_CMD.END finishes the block with the counted bytes of the last word. -/
  | crcEnd (mid : Nat) (channel : Nat) (bytes : Nat)
  /-- CRC_BLOCK_DONE (R405): The CRC result is ready, and in CHECK mode MATCH or MISMATCH is set and CRC_MISMATCH may be raised. -/
  | crcBlockDone (channel : Nat)
  /-- CRC_RUN_WRITE (R403): A write to CRC_RUN sets the running value while idle, or is discarded while busy. -/
  | crcRunWrite (mid : Nat) (channel : Nat) (high : Bool) (value : Nat)
  /-- SNAG_SOURCE_DETECT (R412): A hardware detector fires, its source is set, and the reaction of its severity follows. -/
  | snagSourceDetect (die : Die) (source detail : Nat) (lasting : Bool)
  /-- ALARM_ASSERT (R416): A die's ALARM line is asserted, and the S-die enters the safe state. -/
  | alarmAssert (die : Die) (source : Nat) (detail : Nat)
  /-- COLLECTOR_REPORT (R416): A source number arrives from a die collector over REPORT or the hub and is set in SNG_SET. -/
  | collectorReport (die : Die) (source : Nat)
  /-- DIE_HEARTBEAT_LOSS (R417): No HB edge from a die for 60 ns sets that die's DIE_LOST source. -/
  | dieHeartbeatLoss (die : Die) (reachable : Bool)
  /-- SNG_FL_FAULT (R417): The ALARM rails stay equal for 20 ns, taken as an alarm, and SNG_FL_FAULT is raised. -/
  | sngFlFault (die : Die) (cycles : Nat)
  /-- SEV_MIRROR_CHECK (R418): Each 1 ms each collector compares its severity copy with SNG_SEV and raises SNG_SEV_MIRROR on a difference. -/
  | sevMirrorCheck (die : Die) (upset : List (Nat × Nat))
  /-- TB0_SHADOW_RELOAD (R430): The S-die reloads its TB0 shadow from the X-die every 1 µs. -/
  | tb0ShadowReload
  /-- RESUME (R423): A write of SNG_CMD.RESUME is accepted when its conditions hold, or is refused with RESUME_REFUSED. -/
  | resume (fuseOk : Bool)
  /-- SNG_SET_CLEAR (R426): A write of 1 bits to SNG_SET clears each source in ascending order, or refuses it while its cause is present. -/
  | sngSetClear (mid : Nat) (word : Nat) (bits : Nat)
  /-- SNG_SEV_WRITE (R413): A write to SNG_SEV changes severities, entering the safe state for a set source raised to SAFE. -/
  | sngSevWrite (word : Nat) (value : Nat)
  /-- SNG_INJ (R431): A write to SNG_INJ arms an injected source, status parity error or fault-line event. -/
  | sngInj (mid : Nat) (value : Nat)
  /-- RESTART_DELAY_EXPIRY (R412): 250 µs after a RESTART source or ladder step 2, the device performs a warm restart. -/
  | restartDelayExpiry (env : BootEnv)
  /-- WDG_START (R436): A write of WDG_CFG.EN = 1 starts a watchdog, or is rejected for bad limits. -/
  | wdgStart (watchdog : Nat)
  /-- WDG_SERVICE (R434): A service write to WDG_SERVICE is accepted or is an early-service fault. -/
  | wdgService (mid : Nat) (watchdog : Nat) (key : Nat) (pc : Nat) (mainOk : Bool) (chkOk : Bool)
  /-- WATCHDOG_WINDOW_CLOSE (R433): A watchdog window reaches its closing cycle and starts a new window or expires. -/
  | watchdogWindowClose (watchdog : Nat) (pc : Nat) (mainOk : Bool) (chkOk : Bool)
  /-- WATCHDOG_WARN (R438): A watchdog count reaches WARN and raises the pair's watchdog interrupt. -/
  | watchdogWarn (watchdog : Nat)
  /-- LADDER_CLR (R441): A write of WDG_CMD.LADDER_CLR by master 18 unlocks the ladder. -/
  | ladderClr (mid : Nat)
  /-- TRIES_CALM_RESET (R442): CALM_S seconds without a ladder event return TRIES to 0. -/
  | triesCalmReset
  /-- WDG_INJ (R446): A write to WDG_INJ arms an injected expiry, early service or S_CORE loss. -/
  | wdgInj (value : Nat)
  /-- S_CORE_LOSS (R444): The S_RC monitor sees S_CORE out of limits for 1 µs and forces the safe state directly. -/
  | sCoreLoss
  /-- S_CORE_RECOVERY (R444): S_CORE is within limits for 10 µs, and the monitor starts a warm restart with cause CLOCK. -/
  | sCoreRecovery (env : BootEnv)
  /-- POWER_ON_RESET (R516): PORST_n held low is taken as a power-on reset, and boot runs its steps on release. -/
  | powerOnReset (env : BootEnv)
  /-- WARM_RESTART (R518): A warm restart holds the dies in reset for 20 µs and then runs boot from step 1. -/
  | warmRestart (env : BootEnv)
  /-- WRST_PIN (R516): WRST_n held low is taken as a warm restart with cause 5 when WRST_EN is 1. -/
  | wrstPin (env : BootEnv)
  /-- XSPI_RELEASE (R454): 10 ms after a boot halt the xSPI pins go to high impedance. -/
  | xspiRelease
  /-- BOOT_DONE (R464): A write of SEC_CMD.BOOT_DONE locks the seal, extends the measurement and accepts sessions. -/
  | bootDone (mid : Nat)
  /-- TRIAL_TIMEOUT (R457): A trial boot without BOOT_DONE within TRIAL_S reverts NEXT to the previous slot. -/
  | trialTimeout
  /-- NEW_CHAL (R467): A write of SEC_CMD.NEW_CHAL draws a new token challenge. -/
  | newChal (mid : Nat)
  /-- DEBUG_CLOSE (R468): A write of SEC_CMD.DEBUG_CLOSE closes debug, which is a warm restart with cause 3. -/
  | debugClose (mid : Nat) (env : BootEnv)
  /-- DEBUG_EXPIRE (R468): The debug token's DURATION expires, and debug closes with a warm restart. -/
  | debugExpire (env : BootEnv)
  /-- ARB_ADVANCE (R458): A write of ARB_ADVANCE in maintenance state blows fuse bits up to the running ARB_STEP. -/
  | arbAdvance (mid : Nat) (ok : Bool)
  /-- SEC_BOOT_SEL_WRITE (R457): A write to SEC_BOOT_SEL by master 0, 1 or 18 sets NEXT and TRIAL. -/
  | secBootSelWrite (mid : Nat) (value : Nat)
  /-- ENTROPY_HEALTH_TEST (R455): Every 10 ms the entropy source repeats its health test, raising or ending SEC_ENTROPY_FAIL. -/
  | entropyHealthTest (ok : Bool)
  /-- SEC_INJ (R474): A write to SEC_INJ arms an injected image, entropy or key-store fault. -/
  | secInj (value : Nat)
  /-- HAIRLINE_SAMPLE (R475): Each 1 µs every hairline monitor reports its slack. -/
  | hairlineSample (slacks : List Nat)
  /-- TEMPERATURE_SAMPLE (R476): A temperature reading is compared with the grade limits and with the other sensors of its die. -/
  | temperatureSample (sensor value : Nat)
  /-- VOLTAGE_SAMPLE (R477): A voltage monitor reading is compared with the ±3 % and ±6 % limits. -/
  | voltageSample (monitor mv : Nat) (lasting : Bool)
  /-- MARGIN_LOOP (R479): Every 10 ms the margin loop steps the rail voltage or C_ARITH by the first applicable row of Table 15.2. -/
  | marginLoop
  /-- PMBUS_TRANSACTION_DONE (R478): A PMBus command and read-back completes, or raises HLN_PMBUS_FAIL. -/
  | pmbusTransactionDone (ack : Bool) (readback : Nat)
  /-- SELFTEST_SEGMENT_DONE (R484): A rotating self-test segment completes; a failing engine becomes SUSPECT, and SRAM errors are reported. -/
  | selftestSegmentDone (ok chkOk : Bool) (addr : Nat)
  /-- HLN_INJ (R503): A write to HLN_INJ arms an injected segment failure, slack reading or PMBus mismatch. -/
  | hlnInj (value : Nat)
  /-- AGREE_DECISION (R498): At D(k) the device takes its release decision and sends an AGREE record with its release bitmap. -/
  | agreeDecision
  /-- AGREE (R499): A received AGREE record is compared with the own bitmap, and disagreements feed TWN_FILT. -/
  | agree
  /-- SYNC (R500): A received SYNC record gives the peer's tick boundary time for readiness. -/
  | sync
  /-- STATE (R500): A received STATE record updates the peer's state, digest and identity. -/
  | state
  /-- STATE_SEND (R500): Every 250 µs the device sends a STATE record on BOND. -/
  | stateSend
  /-- HANDOVER (R497): A received HANDOVER record proposes, confirms or refuses a planned handover. -/
  | handover
  /-- TWN_CMD_HANDOVER (R497): A write of TWN_CMD.HANDOVER proposes a handover at frame TWN_HANDOVER. -/
  | twnCmdHandover (mid : Nat)
  /-- TWN_CTRL_PAIR (R504): A write of TWN_CTRL.PAIR enables or disables pairing, or is rejected when TWIN_EN is latched 0. -/
  | twnCtrlPair (mid value : Nat)
  /-- PEER_OK_CHANGE (R494): TWN_PEER_OK changes level, and TWN_PEER_LOST is raised or ended. -/
  | peerOkChange (level : Bool)
  /-- PEER_HB_LOSS (R502): TWN_PEER_HB makes no edge for 150 µs, raising TWN_PEER_LOST. -/
  | peerHbLoss (edge : Bool)
  /-- PEER_STATE_TIMEOUT (R491): The peer's STATE records are absent for 1 ms, and the device enters SEEKING. -/
  | peerStateTimeout
  /-- GIVE_BACK (R497): The preferred peer has been READY for GB_S seconds, and the lead proposes a handover by itself. -/
  | giveBack
  /-- TWN_INJ (R504): A write to TWN_INJ arms an injected AGREE fault or OWN_IN reading. -/
  | twnInj (value : Nat)
  /-- MCLK_MEASURE (R515): Each 1 ms REFCLK_SYS measures MCLK_AUD, raising PWR_MCLK_AUD when it is out of range. -/
  | mclkMeasure (hz : Nat)
  /-- PWR_REFCLK_SYS (R515): S_RC finds REFCLK_SYS out of range or stopped, raising PWR_REFCLK_SYS. -/
  | pwrRefclkSys
  /-- PLL_LOCK_LOSS (R515): A PLL loses lock and raises its source. -/
  | pllLockLoss (pll : Nat)
  /-- STRAP_CHANGE (R506): The TWIN_EN pin differs from its latched level, raising PWR_STRAP_CHANGE. -/
  | strapChange (level : Bool)
  /-- PWR_INJ (R528): A write to PWR_INJ arms an injected PLL loss of lock or MCLK measurement fault. -/
  | pwrInj (value : Nat)
  /-- TIM_INJ (R357): A write to TIM_INJ arms an injected time-base copy error, a lost Sync of instance A, or an added tick error. -/
  | timInj (value : Nat)
  /-- DIE_HEARTBEAT_RETURN (R417): HB of a lost die runs again and its blocks become reachable, which ends the cause of its DIE_LOST source. -/
  | dieHeartbeatReturn (die : Die)
  /-- PLL_RELOCK (R515): A PLL regains lock, which ends the cause of its source and sets its LOCKED bit. -/
  | pllRelock (pll : Nat)
  /-- REFCLK_SYS_RETURN (R515): S_RC finds REFCLK_SYS back in range, which ends the cause of PWR_REFCLK_SYS and sets REFCLK_SYS_OK. -/
  | refclkSysReturn
  /-- SUPPLY_LOSS (R512): An unplanned loss of supply rails stops the affected dies, and the pull-downs hold the released pins at their safe levels. -/
  | supplyLoss (dies : Nat)
  /-- SERVICE_ROW_TRANSMIT (R265): At each of its service-row slots the device sends the ACK or NACK and the CREDIT block of the rotation's channel on every link port. -/
  | serviceRowTransmit (port : Nat)
  /-- SAFE_HB_EDGE (R420): Outside the safe state SAFE_HB makes an edge every 50 µs, the first one 50 µs after SAFE_OK rises. -/
  | safeHbEdge
  /-- ETH_FRAME_TRANSMIT (R323): A queued Ethernet frame is selected by strict priority among queues with open gates and permitting shapers, sent with its tags and MACsec, and completes. -/
  | ethFrameTransmit (port : Nat)
  /-- GATE_ENTRY_INTERVAL_END (R323): The interval of the operational gate control list entry ends and the next entry's gate states take effect. -/
  | gateEntryIntervalEnd (port : Nat)
  /-- TIME_BASE_SRC_WRITE (R346): A write of a tracked SRC to TIM_TB_CFG puts the time base in ACQUIRE, where it may step once to its target. -/
  | timeBaseSrcWrite (tb : Nat) (value : Nat)
  deriving DecidableEq, Repr

end Sys2Proof
end

