-- ==== Sys2Proof/Config.lean ====
section
/-!
DEFINITION. What one part or one implementation fixes, and the free values: constants with no body, so that no
proof can rest on a value of them.
-/

namespace Sys2Proof.Config

/-- Unique identifier words, fused at test (Table 14.10, reset "fuse"). Log entry 4. -/
opaque fuseUid : Nat → Nat
/-- Ordering grade, fused (R1, Table 14.10): 0 AQ, 1 AX. Log entry 4. -/
opaque fuseGrade : Nat
/-- The `n`-th 32-bit word that the device's DRBG yields (R95, R455). Log entry 5. -/
opaque drbg : Nat → Nat
/-- The `n`-th free value: a value that the spec does not state, drawn with a counter of the state. Log entry 6. -/
opaque free : Nat → Nat

/-- A 64-bit MISR after it folds one more word (R382): the spec gives no polynomial. Log entry 107. -/
opaque misr : Nat → Nat → Nat

/-- Entry `i` of secret vector `p` drawn at DRBG position `seed` (R95, R80): the secret vectors never leave the device. Log entry 10. -/
opaque secret : Nat → Nat → Nat → Nat
/-- Place `i` of the permutation of 0 to `d - 1` keyed by a sampling key and a frame (R104, R133, R201): argument list seed, frame, d, i. Log entry 10. -/
opaque secretOrder : Nat → Nat → Nat → Nat → Nat
/-- The FP32 word of a sum of exact terms (significand, exponent) in the order in which the implementation adds them (R154, R155). Log entry 11. -/
opaque floatSum : List (Int × Int) → Nat
/-- The FP32 reference of a nonlinear step (R166): operation, function, parameters, inputs, element. Log entry 11. -/
opaque reference : Nat → Nat → List Nat → List Nat → Nat → Nat
/-- The Hann window of BAND_LSD (R136) is the symmetric one; otherwise the periodic one. Log entry 104. -/
opaque hannSymmetric : Bool
/-- The scale of a bin of an inverse DFT (Table 05.5), which the spec does not state: format, L, bin; significand and negated exponent in one word.
Log entry 103. -/
opaque inverseScale : Nat → Nat → Nat → Nat
/-- Array clocks of the measure of an SHD watch (Table 06.2): kind area, N, engines. Log entry 12. -/
opaque measureClk : List Nat → Nat → Nat → Nat

/-! Cryptography: functions of standards outside the spec. Log entry 19. -/

/-- SHA-512 as a 512-bit number, first byte most significant. -/
opaque sha512 : List Byte → Nat
/-- A signature verifies: 0 for Ed25519, 1 for ML-DSA-65; public key, message, signature. -/
opaque verify : Nat → List Byte → List Byte → List Byte → Bool
/-- A signature by the device identity key (R449): 0 for Ed25519, 1 for ML-DSA-65; message. -/
opaque identSign : Nat → List Byte → List Byte
/-- AES-256-GCM decryption: key, nonce, additional data, ciphertext with tag; none where the tag fails. -/
opaque gcmOpen : List Byte → List Byte → List Byte → List Byte → Option (List Byte)
/-- The 64-byte output of HKDF-SHA-512: input keying material, salt, info. -/
opaque hkdf : List Byte → List Byte → List Byte → List Byte
/-- The device's X25519 public key of handshake `n` and the secret it shares with a public key. -/
opaque ephemeral : Nat → List Byte
opaque sharedX : Nat → List Byte → List Byte
/-- ML-KEM-768 ciphertext and secret of handshake `n` for an encapsulation key. -/
opaque kemCipher : Nat → List Byte → List Byte
opaque kemSecret : Nat → List Byte → List Byte
/-- Digest of vendor firmware key `k` in boot ROM, and digest of the boot ROM (R447, R470). -/
opaque vendorDigest : Nat → Nat
opaque romDigest : List Byte
/-- Word `i` of the identity certificate (R449). -/
opaque idCert : Nat → Nat

end Sys2Proof.Config
end

