-- ==== Sys2Proof/Machine/RegMap.lean ====
section
/-!
DEFINITION. The register map: every register and field of the blocks of Table 01.9, with its
bits, access type (Table 00.4) and reset value, as the register tables of spec/ give them, and the
severities and floors that the Primer gives the Snag sources.
-/

namespace Sys2Proof.Machine

/-- Access types of Table 00.4 (R9). `rwStatic` is RW-S and `staged` is RWS. -/
inductive Acc where
  | ro | rw | rwStatic | staged | w1c | wo | rwl
  deriving DecidableEq, Repr

/-- One field of one register: the register's address, the field's bits `hi` to `lo` (R3), its access type and
its reset value. -/
structure Fld where
  addr : Nat
  hi : Nat
  lo : Nat
  acc : Acc
  reset : Nat
  deriving DecidableEq, Repr

/-- A register, or an array of registers with up to two index dimensions: offset in the block, stride and count of each
dimension, and its fields for each pair of indices. -/
structure RegDesc where
  off : Nat
  stride1 : Nat
  count1 : Nat
  stride2 : Nat
  count2 : Nat
  fields : Nat → Nat → List Fld

/-- The severities of Table 13.2. -/
abbrev sevLog : Nat := 0
abbrev sevNote : Nat := 1
abbrev sevDegrade : Nat := 2
abbrev sevSafe : Nat := 3
abbrev sevRestart : Nat := 4

/-- A range of Snag sources of one Primer severity and one floor (0 where none is given). -/
structure SrcRange where
  first : Nat
  last : Nat
  sev : Nat
  floor : Nat
  deriving DecidableEq, Repr

/-- The hardware sources of Table 13.1 with the Primer severities of that table and of the tables it names
(06.11, 03.10, 04.13, 05.10, 07.10, 08.9, 10.1, 12.4, R380, 14.9, 15.10, 16.12). Numbers in no range are reserved. -/
def srcRanges1 : List SrcRange := [
  ⟨0, 2, 1, 0⟩, ⟨3, 6, 3, 3⟩, ⟨7, 9, 2, 0⟩, ⟨10, 10, 3, 0⟩,
  ⟨16, 17, 3, 3⟩, ⟨18, 25, 2, 0⟩, ⟨26, 27, 3, 3⟩, ⟨28, 35, 2, 0⟩, ⟨36, 36, 3, 3⟩,
  ⟨64, 64, 2, 0⟩, ⟨65, 67, 1, 0⟩, ⟨68, 68, 2, 0⟩, ⟨69, 69, 1, 0⟩,
  ⟨70, 70, 3, 0⟩, ⟨71, 71, 2, 0⟩, ⟨72, 72, 1, 0⟩, ⟨73, 73, 3, 0⟩,
  ⟨74, 74, 3, 0⟩, ⟨75, 75, 2, 0⟩,
  ⟨76, 77, 2, 0⟩, ⟨78, 78, 3, 0⟩, ⟨79, 79, 1, 0⟩,
  ⟨80, 80, 0, 0⟩, ⟨81, 81, 2, 0⟩, ⟨82, 82, 0, 0⟩, ⟨83, 85, 2, 0⟩, ⟨86, 86, 1, 0⟩, ⟨87, 87, 2, 0⟩, ⟨88, 88, 3, 0⟩,
  ⟨96, 351, 2, 0⟩]

/-- The hardware sources from the link sources on. -/
def srcRanges2 : List SrcRange := [
  ⟨352, 355, 0, 0⟩, ⟨356, 359, 1, 0⟩, ⟨360, 367, 2, 0⟩, ⟨368, 375, 1, 0⟩, ⟨376, 379, 2, 0⟩,
  ⟨384, 390, 2, 0⟩, ⟨391, 391, 3, 3⟩, ⟨392, 407, 1, 0⟩, ⟨408, 408, 2, 0⟩,
  ⟨416, 417, 2, 0⟩, ⟨418, 421, 1, 0⟩, ⟨422, 422, 0, 0⟩, ⟨423, 423, 1, 0⟩, ⟨424, 424, 2, 0⟩, ⟨425, 425, 0, 0⟩,
  ⟨426, 428, 1, 0⟩, ⟨429, 434, 2, 0⟩, ⟨435, 435, 1, 0⟩,
  ⟨448, 457, 1, 0⟩, ⟨458, 459, 3, 3⟩, ⟨460, 477, 2, 0⟩, ⟨478, 479, 3, 3⟩, ⟨480, 487, 2, 0⟩,
  ⟨488, 488, 1, 0⟩, ⟨489, 489, 2, 0⟩, ⟨490, 490, 1, 0⟩,
  ⟨512, 512, 2, 0⟩, ⟨513, 514, 1, 0⟩, ⟨515, 517, 3, 3⟩, ⟨518, 518, 2, 0⟩, ⟨519, 520, 1, 0⟩, ⟨521, 522, 2, 0⟩,
  ⟨523, 523, 3, 3⟩,
  ⟨576, 576, 1, 0⟩, ⟨577, 579, 2, 0⟩, ⟨580, 580, 1, 0⟩, ⟨581, 581, 3, 2⟩, ⟨582, 583, 2, 0⟩, ⟨584, 584, 3, 3⟩,
  ⟨585, 585, 2, 0⟩, ⟨586, 586, 1, 0⟩, ⟨587, 588, 2, 0⟩,
  ⟨672, 673, 2, 0⟩, ⟨674, 674, 1, 0⟩, ⟨675, 675, 2, 0⟩, ⟨676, 678, 1, 0⟩, ⟨679, 679, 3, 3⟩, ⟨680, 680, 2, 0⟩,
  ⟨704, 704, 3, 3⟩, ⟨705, 705, 3, 0⟩, ⟨706, 706, 3, 3⟩, ⟨707, 707, 3, 0⟩, ⟨708, 715, 2, 0⟩, ⟨716, 716, 1, 0⟩,
  ⟨768, 1023, 2, 0⟩]

/-- Severity and floor of a source; none for a reserved number (R410, R411). -/
def srcInfo (n : Nat) : Option SrcRange :=
  if n < 352 then srcRanges1.find? (fun r => r.first ≤ n && n ≤ r.last)
  else srcRanges2.find? (fun r => r.first ≤ n && n ≤ r.last)

/-- The number is one of the sources that Table 13.1 and the chapters it names list. -/
def srcExists (n : Nat) : Bool := (srcInfo n).isSome

/-- Primer severity of a source; 0 for a reserved number (R410). -/
def primerSev (n : Nat) : Nat := match srcInfo n with | some r => r.sev | none => 0

/-- Floor of a source (Table 13.1); 0 where it has none. -/
def srcFloor (n : Nat) : Nat := match srcInfo n with | some r => r.floor | none => 0

/-! Block WCH at 0x010B0000. -/
/-- WCH_INFO, address (02 R72, Table 02.13). -/
abbrev WCH.INFO : Nat := 0x010B0000
def WCH.INFO_VERSION : Fld := ⟨WCH.INFO, 31, 24, .ro, 3⟩
def WCH.INFO_NUM_WATCH : Fld := ⟨WCH.INFO, 12, 0, .ro, 4096⟩
/-- WCH_LOG_CTRL, address (02 R72, Table 02.14). -/
abbrev WCH.LOG_CTRL : Nat := 0x010B0004
def WCH.LOG_CTRL_LOG_THIN : Fld := ⟨WCH.LOG_CTRL, 0, 0, .rw, 0⟩
/-- WCH_ARM_OP, address (02 R72, Table 02.15). -/
abbrev WCH.ARM_OP : Nat := 0x010B0010
def WCH.ARM_OP_OP : Fld := ⟨WCH.ARM_OP, 31, 30, .wo, 0⟩
def WCH.ARM_OP_WATCH_ID : Fld := ⟨WCH.ARM_OP, 11, 0, .wo, 0⟩
/-- WCH_ARM_COUNT, address (02 R72, Table 02.16). -/
abbrev WCH.ARM_COUNT : Nat := 0x010B0014
def WCH.ARM_COUNT_ENTRIES : Fld := ⟨WCH.ARM_COUNT, 8, 0, .ro, 0⟩
/-- WCH_ARM_CLEAR, address (02 R72, Table 02.16). -/
abbrev WCH.ARM_CLEAR : Nat := 0x010B0018
def WCH.ARM_CLEAR_CLEAR : Fld := ⟨WCH.ARM_CLEAR, 0, 0, .wo, 0⟩
/-- WCH_ARM_STATUS, address (02 R72, Table 02.17). -/
abbrev WCH.ARM_STATUS : Nat := 0x010B001C
def WCH.ARM_STATUS_LIST_FULL : Fld := ⟨WCH.ARM_STATUS, 31, 31, .ro, 0⟩
def WCH.ARM_STATUS_BAD_OP : Fld := ⟨WCH.ARM_STATUS, 30, 30, .ro, 0⟩
def WCH.ARM_STATUS_RESULT : Fld := ⟨WCH.ARM_STATUS, 29, 28, .ro, 0⟩
def WCH.ARM_STATUS_REASON : Fld := ⟨WCH.ARM_STATUS, 20, 16, .ro, 0⟩
def WCH.ARM_STATUS_WATCH_ID : Fld := ⟨WCH.ARM_STATUS, 11, 0, .ro, 0⟩
/-- WCH_STATE_CNT0, address (02 R72, Table 02.18). -/
abbrev WCH.STATE_CNT0 : Nat := 0x010B0020
def WCH.STATE_CNT0_ARMED : Fld := ⟨WCH.STATE_CNT0, 28, 16, .ro, 0⟩
def WCH.STATE_CNT0_IDLE : Fld := ⟨WCH.STATE_CNT0, 12, 0, .ro, 4096⟩
/-- WCH_STATE_CNT1, address (02 R72, Table 02.18). -/
abbrev WCH.STATE_CNT1 : Nat := 0x010B0024
def WCH.STATE_CNT1_FAILED : Fld := ⟨WCH.STATE_CNT1, 28, 16, .ro, 0⟩
def WCH.STATE_CNT1_RUNNING : Fld := ⟨WCH.STATE_CNT1, 12, 0, .ro, 0⟩
/-- WCH_STATE_CNT2, address (02 R72, Table 02.18). -/
abbrev WCH.STATE_CNT2 : Nat := 0x010B0028
def WCH.STATE_CNT2_RETIRING : Fld := ⟨WCH.STATE_CNT2, 12, 0, .ro, 0⟩
/-- WCH_COV_FRAME, address (02 R72, Table 02.19). -/
abbrev WCH.COV_FRAME : Nat := 0x010B0030
def WCH.COV_FRAME_FRAME_NO : Fld := ⟨WCH.COV_FRAME, 31, 0, .ro, 0⟩
/-- WCH_COV_LOW, address (02 R72, Table 02.19). -/
abbrev WCH.COV_LOW : Nat := 0x010B0034
def WCH.COV_LOW_COV : Fld := ⟨WCH.COV_LOW, 31, 16, .ro, 0⟩
def WCH.COV_LOW_WATCH_ID : Fld := ⟨WCH.COV_LOW, 11, 0, .ro, 0⟩
/-- WCH_GRP_TRIP, address (02 R72, Table 02.20). -/
abbrev WCH.GRP_TRIP (i : Nat) : Nat := 0x010B0040 + 4 * i
def WCH.GRP_TRIP_TRIP (i : Nat) : Fld := ⟨WCH.GRP_TRIP i, 31, 0, .ro, 0⟩
/-- WCH_LOG_WR, address (02 R72, Table 02.21). -/
abbrev WCH.LOG_WR : Nat := 0x010B0060
def WCH.LOG_WR_WR : Fld := ⟨WCH.LOG_WR, 9, 0, .ro, 0⟩
/-- WCH_LOG_RD, address (02 R72, Table 02.21). -/
abbrev WCH.LOG_RD : Nat := 0x010B0064
def WCH.LOG_RD_RD : Fld := ⟨WCH.LOG_RD, 9, 0, .rw, 0⟩
/-- WCH_LOG_STAT, address (02 R72, Table 02.21). -/
abbrev WCH.LOG_STAT : Nat := 0x010B0068
def WCH.LOG_STAT_FULL : Fld := ⟨WCH.LOG_STAT, 31, 31, .ro, 0⟩
def WCH.LOG_STAT_CLR_LOST : Fld := ⟨WCH.LOG_STAT, 30, 30, .wo, 0⟩
def WCH.LOG_STAT_LOST : Fld := ⟨WCH.LOG_STAT, 15, 0, .ro, 0⟩
/-- WCH_INJ, address (02 R72, Table 02.21). -/
abbrev WCH.INJ : Nat := 0x010B0070
def WCH.INJ_ARM : Fld := ⟨WCH.INJ, 31, 31, .rw, 0⟩
def WCH.INJ_CODE : Fld := ⟨WCH.INJ, 19, 16, .rw, 0⟩
def WCH.INJ_WATCH_ID : Fld := ⟨WCH.INJ, 11, 0, .rw, 0⟩
/-- WCH_GRP_FIRST_W, address (02 R72, Table 02.22). -/
abbrev WCH.GRP_FIRST_W (i : Nat) : Nat := 0x010B1000 + 8 * i
def WCH.GRP_FIRST_W_VALID (i : Nat) : Fld := ⟨WCH.GRP_FIRST_W i, 31, 31, .ro, 0⟩
def WCH.GRP_FIRST_W_CODE (i : Nat) : Fld := ⟨WCH.GRP_FIRST_W i, 19, 16, .ro, 0⟩
def WCH.GRP_FIRST_W_WATCH_ID (i : Nat) : Fld := ⟨WCH.GRP_FIRST_W i, 11, 0, .ro, 0⟩
/-- WCH_GRP_FIRST_F, address (02 R72, Table 02.22). -/
abbrev WCH.GRP_FIRST_F (i : Nat) : Nat := 0x010B1004 + 8 * i
def WCH.GRP_FIRST_F_FRAME_NO (i : Nat) : Fld := ⟨WCH.GRP_FIRST_F i, 31, 0, .ro, 0⟩
/-- WCH_SIG_USE0, address (04 R147, Table 04.14). -/
abbrev WCH.SIG_USE0 : Nat := 0x010B0080
def WCH.SIG_USE0_HIST : Fld := ⟨WCH.SIG_USE0, 20, 16, .ro, 0⟩
def WCH.SIG_USE0_ENTRIES : Fld := ⟨WCH.SIG_USE0, 9, 0, .ro, 0⟩
/-- WCH_SIG_USE1, address (04 R147, Table 04.14). -/
abbrev WCH.SIG_USE1 : Nat := 0x010B0084
def WCH.SIG_USE1_CORR : Fld := ⟨WCH.SIG_USE1, 10, 0, .ro, 0⟩
/-- WCH_SIG_INJ, address (04 R147, Table 04.14). -/
abbrev WCH.SIG_INJ : Nat := 0x010B0088
def WCH.SIG_INJ_ARM : Fld := ⟨WCH.SIG_INJ, 31, 31, .rw, 0⟩
def WCH.SIG_INJ_WATCH_ID : Fld := ⟨WCH.SIG_INJ, 27, 16, .rw, 0⟩
def WCH.SIG_INJ_MODE : Fld := ⟨WCH.SIG_INJ, 2, 0, .rw, 0⟩
def WCH.descs0 : List RegDesc := [
  ⟨0x0000, 0, 1, 0, 1, fun _ _ => [WCH.INFO_VERSION, WCH.INFO_NUM_WATCH]⟩,
  ⟨0x0004, 0, 1, 0, 1, fun _ _ => [WCH.LOG_CTRL_LOG_THIN]⟩,
  ⟨0x0010, 0, 1, 0, 1, fun _ _ => [WCH.ARM_OP_OP, WCH.ARM_OP_WATCH_ID]⟩,
  ⟨0x0014, 0, 1, 0, 1, fun _ _ => [WCH.ARM_COUNT_ENTRIES]⟩,
  ⟨0x0018, 0, 1, 0, 1, fun _ _ => [WCH.ARM_CLEAR_CLEAR]⟩,
  ⟨0x001C, 0, 1, 0, 1, fun _ _ => [WCH.ARM_STATUS_LIST_FULL, WCH.ARM_STATUS_BAD_OP, WCH.ARM_STATUS_RESULT, WCH.ARM_STATUS_REASON, WCH.ARM_STATUS_WATCH_ID]⟩,
  ⟨0x0020, 0, 1, 0, 1, fun _ _ => [WCH.STATE_CNT0_ARMED, WCH.STATE_CNT0_IDLE]⟩,
  ⟨0x0024, 0, 1, 0, 1, fun _ _ => [WCH.STATE_CNT1_FAILED, WCH.STATE_CNT1_RUNNING]⟩,
  ⟨0x0028, 0, 1, 0, 1, fun _ _ => [WCH.STATE_CNT2_RETIRING]⟩,
  ⟨0x0030, 0, 1, 0, 1, fun _ _ => [WCH.COV_FRAME_FRAME_NO]⟩,
  ⟨0x0034, 0, 1, 0, 1, fun _ _ => [WCH.COV_LOW_COV, WCH.COV_LOW_WATCH_ID]⟩,
  ⟨0x0040, 4, 8, 0, 1, fun i _ => [WCH.GRP_TRIP_TRIP i]⟩]
def WCH.descs1 : List RegDesc := [
  ⟨0x0060, 0, 1, 0, 1, fun _ _ => [WCH.LOG_WR_WR]⟩,
  ⟨0x0064, 0, 1, 0, 1, fun _ _ => [WCH.LOG_RD_RD]⟩,
  ⟨0x0068, 0, 1, 0, 1, fun _ _ => [WCH.LOG_STAT_FULL, WCH.LOG_STAT_CLR_LOST, WCH.LOG_STAT_LOST]⟩,
  ⟨0x0070, 0, 1, 0, 1, fun _ _ => [WCH.INJ_ARM, WCH.INJ_CODE, WCH.INJ_WATCH_ID]⟩,
  ⟨0x1000, 8, 256, 0, 1, fun i _ => [WCH.GRP_FIRST_W_VALID i, WCH.GRP_FIRST_W_CODE i, WCH.GRP_FIRST_W_WATCH_ID i]⟩,
  ⟨0x1004, 8, 256, 0, 1, fun i _ => [WCH.GRP_FIRST_F_FRAME_NO i]⟩,
  ⟨0x0080, 0, 1, 0, 1, fun _ _ => [WCH.SIG_USE0_HIST, WCH.SIG_USE0_ENTRIES]⟩,
  ⟨0x0084, 0, 1, 0, 1, fun _ _ => [WCH.SIG_USE1_CORR]⟩,
  ⟨0x0088, 0, 1, 0, 1, fun _ _ => [WCH.SIG_INJ_ARM, WCH.SIG_INJ_WATCH_ID, WCH.SIG_INJ_MODE]⟩]
/-- The registers of block WCH. -/
def WCH.descs : List RegDesc := WCH.descs0 ++ WCH.descs1

/-! Block SKM at 0x010C0000. -/
/-- SKM_INFO, address (03 R109, Table 03.12). -/
abbrev SKM.INFO : Nat := 0x010C0000
def SKM.INFO_VERSION : Fld := ⟨SKM.INFO, 31, 24, .ro, 2⟩
def SKM.INFO_UNITS : Fld := ⟨SKM.INFO, 19, 16, .ro, 4⟩
def SKM.INFO_MAX_PROJ : Fld := ⟨SKM.INFO, 15, 12, .ro, 8⟩
/-- SKM_CTRL, address (03 R109, Table 03.12). -/
abbrev SKM.CTRL : Nat := 0x010C0004
def SKM.CTRL_LINK_SAMPLE : Fld := ⟨SKM.CTRL, 11, 8, .rwStatic, 0⟩
def SKM.CTRL_EN : Fld := ⟨SKM.CTRL, 3, 0, .rwStatic, 0⟩
/-- SKM_EPOCH_LEN, address (03 R109, Table 03.12). -/
abbrev SKM.EPOCH_LEN : Nat := 0x010C0008
def SKM.EPOCH_LEN_EPOCH_MS : Fld := ⟨SKM.EPOCH_LEN, 15, 0, .staged, 250⟩
/-- SKM_EPOCH_MIN, address (03 R109, Table 03.12). -/
abbrev SKM.EPOCH_MIN : Nat := 0x010C000C
def SKM.EPOCH_MIN_MIN_MS : Fld := ⟨SKM.EPOCH_MIN, 15, 0, .ro, 50⟩
/-- SKM_EPOCH_NO, address (03 R109, Table 03.12). -/
abbrev SKM.EPOCH_NO : Nat := 0x010C0010
def SKM.EPOCH_NO_EPOCH : Fld := ⟨SKM.EPOCH_NO, 31, 0, .ro, 0⟩
/-- SKM_SWAP_FRAME, address (03 R109, Table 03.12). -/
abbrev SKM.SWAP_FRAME : Nat := 0x010C0014
def SKM.SWAP_FRAME_FRAME_NO : Fld := ⟨SKM.SWAP_FRAME, 31, 0, .ro, 0⟩
/-- SKM_REBUILD, address (03 R109, Table 03.13). -/
abbrev SKM.REBUILD : Nat := 0x010C0018
def SKM.REBUILD_NEXT_READY : Fld := ⟨SKM.REBUILD, 31, 31, .ro, 0⟩
def SKM.REBUILD_OVERRUN : Fld := ⟨SKM.REBUILD, 30, 30, .ro, 0⟩
def SKM.REBUILD_INVALID : Fld := ⟨SKM.REBUILD, 29, 29, .ro, 0⟩
def SKM.REBUILD_PROGRESS : Fld := ⟨SKM.REBUILD, 10, 0, .ro, 0⟩
/-- SKM_REKEY, address (03 R109, Table 03.13). -/
abbrev SKM.REKEY : Nat := 0x010C001C
def SKM.REKEY_REKEY : Fld := ⟨SKM.REKEY, 0, 0, .wo, 0⟩
/-- SKM_U_STAT, address (03 R109, Table 03.14). -/
abbrev SKM.U_STAT (i : Nat) : Nat := 0x010C0100 + 64 * i
def SKM.U_STAT_ACTIVE (i : Nat) : Fld := ⟨SKM.U_STAT i, 31, 31, .ro, 0⟩
def SKM.U_STAT_SAMPLED (i : Nat) : Fld := ⟨SKM.U_STAT i, 30, 30, .ro, 0⟩
def SKM.U_STAT_KAT_FAIL (i : Nat) : Fld := ⟨SKM.U_STAT i, 29, 29, .ro, 0⟩
/-- SKM_U_BYTES, address (03 R109, Table 03.14). -/
abbrev SKM.U_BYTES (i : Nat) : Nat := 0x010C0104 + 64 * i
def SKM.U_BYTES_BYTES (i : Nat) : Fld := ⟨SKM.U_BYTES i, 31, 0, .ro, 0⟩
/-- SKM_U_UNITS, address (03 R109, Table 03.14). -/
abbrev SKM.U_UNITS (i : Nat) : Nat := 0x010C0108 + 64 * i
def SKM.U_UNITS_CHECKED (i : Nat) : Fld := ⟨SKM.U_UNITS i, 31, 16, .ro, 0⟩
def SKM.U_UNITS_SKIPPED (i : Nat) : Fld := ⟨SKM.U_UNITS i, 15, 0, .ro, 0⟩
/-- SKM_U_FAILS, address (03 R109, Table 03.14). -/
abbrev SKM.U_FAILS (i : Nat) : Nat := 0x010C010C + 64 * i
def SKM.U_FAILS_FAILS (i : Nat) : Fld := ⟨SKM.U_FAILS i, 31, 0, .ro, 0⟩
/-- SKM_U_TBUF, address (03 R109, Table 03.14). -/
abbrev SKM.U_TBUF (i : Nat) : Nat := 0x010C0110 + 64 * i
def SKM.U_TBUF_USED (i : Nat) : Fld := ⟨SKM.U_TBUF i, 20, 0, .ro, 0⟩
/-- SKM_U_INJ, address (03 R109, Table 03.15). -/
abbrev SKM.U_INJ (i : Nat) : Nat := 0x010C0114 + 64 * i
def SKM.U_INJ_ARM (i : Nat) : Fld := ⟨SKM.U_INJ i, 31, 31, .rw, 0⟩
def SKM.U_INJ_WATCH_ID (i : Nat) : Fld := ⟨SKM.U_INJ i, 27, 16, .rw, 0⟩
def SKM.U_INJ_MODE (i : Nat) : Fld := ⟨SKM.U_INJ i, 1, 0, .rw, 0⟩
def SKM.descs0 : List RegDesc := [
  ⟨0x0000, 0, 1, 0, 1, fun _ _ => [SKM.INFO_VERSION, SKM.INFO_UNITS, SKM.INFO_MAX_PROJ]⟩,
  ⟨0x0004, 0, 1, 0, 1, fun _ _ => [SKM.CTRL_LINK_SAMPLE, SKM.CTRL_EN]⟩,
  ⟨0x0008, 0, 1, 0, 1, fun _ _ => [SKM.EPOCH_LEN_EPOCH_MS]⟩,
  ⟨0x000C, 0, 1, 0, 1, fun _ _ => [SKM.EPOCH_MIN_MIN_MS]⟩,
  ⟨0x0010, 0, 1, 0, 1, fun _ _ => [SKM.EPOCH_NO_EPOCH]⟩,
  ⟨0x0014, 0, 1, 0, 1, fun _ _ => [SKM.SWAP_FRAME_FRAME_NO]⟩,
  ⟨0x0018, 0, 1, 0, 1, fun _ _ => [SKM.REBUILD_NEXT_READY, SKM.REBUILD_OVERRUN, SKM.REBUILD_INVALID, SKM.REBUILD_PROGRESS]⟩,
  ⟨0x001C, 0, 1, 0, 1, fun _ _ => [SKM.REKEY_REKEY]⟩,
  ⟨0x0100, 64, 4, 0, 1, fun i _ => [SKM.U_STAT_ACTIVE i, SKM.U_STAT_SAMPLED i, SKM.U_STAT_KAT_FAIL i]⟩,
  ⟨0x0104, 64, 4, 0, 1, fun i _ => [SKM.U_BYTES_BYTES i]⟩,
  ⟨0x0108, 64, 4, 0, 1, fun i _ => [SKM.U_UNITS_CHECKED i, SKM.U_UNITS_SKIPPED i]⟩,
  ⟨0x010C, 64, 4, 0, 1, fun i _ => [SKM.U_FAILS_FAILS i]⟩]
def SKM.descs1 : List RegDesc := [
  ⟨0x0110, 64, 4, 0, 1, fun i _ => [SKM.U_TBUF_USED i]⟩,
  ⟨0x0114, 64, 4, 0, 1, fun i _ => [SKM.U_INJ_ARM i, SKM.U_INJ_WATCH_ID i, SKM.U_INJ_MODE i]⟩]
/-- The registers of block SKM. -/
def SKM.descs : List RegDesc := SKM.descs0 ++ SKM.descs1

/-! Block MTX at 0x010D0000. -/
/-- MTX_INFO, address (05 R179, Table 05.16). -/
abbrev MTX.INFO : Nat := 0x010D0000
def MTX.INFO_VERSION : Fld := ⟨MTX.INFO, 31, 24, .ro, 2⟩
def MTX.INFO_ENGINES : Fld := ⟨MTX.INFO, 20, 16, .ro, 16⟩
def MTX.INFO_SPARES : Fld := ⟨MTX.INFO, 10, 8, .ro, 4⟩
/-- MTX_CTRL, address (05 R179, Table 05.16). -/
abbrev MTX.CTRL : Nat := 0x010D0004
def MTX.CTRL_RES_PAGES : Fld := ⟨MTX.CTRL, 22, 16, .rwStatic, 64⟩
def MTX.CTRL_ACT_PAGES : Fld := ⟨MTX.CTRL, 14, 8, .rwStatic, 32⟩
def MTX.CTRL_BG_IDLE : Fld := ⟨MTX.CTRL, 0, 0, .rwStatic, 1⟩
/-- MTX_STAT, address (05 R179, Table 05.16). -/
abbrev MTX.STAT : Nat := 0x010D0008
def MTX.STAT_BUSY : Fld := ⟨MTX.STAT, 31, 31, .ro, 0⟩
def MTX.STAT_QUEUE : Fld := ⟨MTX.STAT, 30, 30, .ro, 0⟩
def MTX.STAT_SUSPENDED : Fld := ⟨MTX.STAT, 29, 29, .ro, 0⟩
def MTX.STAT_OPCODE : Fld := ⟨MTX.STAT, 7, 0, .ro, 0⟩
/-- MTX_TAG, address (05 R179, Table 05.16). -/
abbrev MTX.TAG : Nat := 0x010D000C
def MTX.TAG_TAG : Fld := ⟨MTX.TAG, 31, 0, .ro, 0⟩
/-- MTX_PLAN_CLK, address (05 R179, Table 05.17). -/
abbrev MTX.PLAN_CLK : Nat := 0x010D0010
def MTX.PLAN_CLK_CLK : Fld := ⟨MTX.PLAN_CLK, 31, 0, .ro, 0⟩
/-- MTX_BG_CLK, address (05 R179, Table 05.17). -/
abbrev MTX.BG_CLK : Nat := 0x010D0014
def MTX.BG_CLK_CLK : Fld := ⟨MTX.BG_CLK, 31, 0, .ro, 0⟩
/-- MTX_IDLE_CLK, address (05 R179, Table 05.17). -/
abbrev MTX.IDLE_CLK : Nat := 0x010D0018
def MTX.IDLE_CLK_CLK : Fld := ⟨MTX.IDLE_CLK, 31, 0, .ro, 0⟩
/-- MTX_PREEMPT, address (05 R179, Table 05.17). -/
abbrev MTX.PREEMPT : Nat := 0x010D001C
def MTX.PREEMPT_COUNT : Fld := ⟨MTX.PREEMPT, 31, 16, .ro, 0⟩
def MTX.PREEMPT_MAXLAT : Fld := ⟨MTX.PREEMPT, 15, 0, .ro, 0⟩
/-- MTX_EXC, address (05 R179, Table 05.17). -/
abbrev MTX.EXC : Nat := 0x010D0020
def MTX.EXC_SAT : Fld := ⟨MTX.EXC, 3, 3, .w1c, 0⟩
def MTX.EXC_OVF : Fld := ⟨MTX.EXC, 2, 2, .w1c, 0⟩
def MTX.EXC_INV : Fld := ⟨MTX.EXC, 1, 1, .w1c, 0⟩
def MTX.EXC_NONFINITE : Fld := ⟨MTX.EXC, 0, 0, .w1c, 0⟩
/-- MTX_EXC_TAG, address (05 R179, Table 05.17). -/
abbrev MTX.EXC_TAG : Nat := 0x010D0024
def MTX.EXC_TAG_TAG : Fld := ⟨MTX.EXC_TAG, 31, 0, .ro, 0⟩
/-- MTX_DIR, address (05 R179, Table 05.17). -/
abbrev MTX.DIR : Nat := 0x010D0028
def MTX.DIR_MODELS : Fld := ⟨MTX.DIR, 31, 22, .ro, 0⟩
def MTX.DIR_LAYERS : Fld := ⟨MTX.DIR, 16, 0, .ro, 0⟩
/-- MTX_HBM_USE, address (05 R179, Table 05.17). -/
abbrev MTX.HBM_USE : Nat := 0x010D002C
def MTX.HBM_USE_MIB : Fld := ⟨MTX.HBM_USE, 14, 0, .ro, 0⟩
/-- MTX_INJ, address (05 R179, Table 05.18). -/
abbrev MTX.INJ : Nat := 0x010D0030
def MTX.INJ_ARM : Fld := ⟨MTX.INJ, 31, 31, .rw, 0⟩
def MTX.INJ_MODE : Fld := ⟨MTX.INJ, 1, 0, .rw, 0⟩
/-- MTX_ENG_MAP, address (05 R179, Table 05.18). -/
abbrev MTX.ENG_MAP (i : Nat) : Nat := 0x010D0040 + 4 * i
def MTX.ENG_MAP_VALID (i : Nat) : Fld := ⟨MTX.ENG_MAP i, 31, 31, .ro, 1⟩
def MTX.ENG_MAP_CLUSTER (i : Nat) : Fld := ⟨MTX.ENG_MAP i, 4, 3, .ro, i / 4⟩
def MTX.ENG_MAP_CORE (i : Nat) : Fld := ⟨MTX.ENG_MAP i, 2, 0, .ro, i % 4⟩
def MTX.descs0 : List RegDesc := [
  ⟨0x0000, 0, 1, 0, 1, fun _ _ => [MTX.INFO_VERSION, MTX.INFO_ENGINES, MTX.INFO_SPARES]⟩,
  ⟨0x0004, 0, 1, 0, 1, fun _ _ => [MTX.CTRL_RES_PAGES, MTX.CTRL_ACT_PAGES, MTX.CTRL_BG_IDLE]⟩,
  ⟨0x0008, 0, 1, 0, 1, fun _ _ => [MTX.STAT_BUSY, MTX.STAT_QUEUE, MTX.STAT_SUSPENDED, MTX.STAT_OPCODE]⟩,
  ⟨0x000C, 0, 1, 0, 1, fun _ _ => [MTX.TAG_TAG]⟩,
  ⟨0x0010, 0, 1, 0, 1, fun _ _ => [MTX.PLAN_CLK_CLK]⟩,
  ⟨0x0014, 0, 1, 0, 1, fun _ _ => [MTX.BG_CLK_CLK]⟩,
  ⟨0x0018, 0, 1, 0, 1, fun _ _ => [MTX.IDLE_CLK_CLK]⟩,
  ⟨0x001C, 0, 1, 0, 1, fun _ _ => [MTX.PREEMPT_COUNT, MTX.PREEMPT_MAXLAT]⟩,
  ⟨0x0020, 0, 1, 0, 1, fun _ _ => [MTX.EXC_SAT, MTX.EXC_OVF, MTX.EXC_INV, MTX.EXC_NONFINITE]⟩,
  ⟨0x0024, 0, 1, 0, 1, fun _ _ => [MTX.EXC_TAG_TAG]⟩,
  ⟨0x0028, 0, 1, 0, 1, fun _ _ => [MTX.DIR_MODELS, MTX.DIR_LAYERS]⟩,
  ⟨0x002C, 0, 1, 0, 1, fun _ _ => [MTX.HBM_USE_MIB]⟩]
def MTX.descs1 : List RegDesc := [
  ⟨0x0030, 0, 1, 0, 1, fun _ _ => [MTX.INJ_ARM, MTX.INJ_MODE]⟩,
  ⟨0x0040, 4, 16, 0, 1, fun i _ => [MTX.ENG_MAP_VALID i, MTX.ENG_MAP_CLUSTER i, MTX.ENG_MAP_CORE i]⟩]
/-- The registers of block MTX. -/
def MTX.descs : List RegDesc := MTX.descs0 ++ MTX.descs1

/-! Block SWD at 0x01020000. -/
/-- SWD_INFO, address (06 R211, Table 06.7). -/
abbrev SWD.INFO : Nat := 0x01020000
def SWD.INFO_VERSION : Fld := ⟨SWD.INFO, 31, 24, .ro, 1⟩
def SWD.INFO_WINDOWS : Fld := ⟨SWD.INFO, 8, 0, .ro, 256⟩
/-- SWD_CHECKIN, address (06 R211, Table 06.7). -/
abbrev SWD.CHECKIN : Nat := 0x01020004
def SWD.CHECKIN_WINDOW : Fld := ⟨SWD.CHECKIN, 23, 16, .wo, 0⟩
def SWD.CHECKIN_TASK : Fld := ⟨SWD.CHECKIN, 4, 0, .wo, 0⟩
/-- SWD_STAT, address (06 R211, Table 06.7). -/
abbrev SWD.STAT : Nat := 0x01020008
def SWD.STAT_STRAY : Fld := ⟨SWD.STAT, 31, 16, .ro, 0⟩
def SWD.STAT_BADSRC : Fld := ⟨SWD.STAT, 15, 0, .ro, 0⟩
/-- SWD_EVT_WR, address (06 R211, Table 06.7). -/
abbrev SWD.EVT_WR : Nat := 0x01020010
def SWD.EVT_WR_WR : Fld := ⟨SWD.EVT_WR, 7, 0, .ro, 0⟩
/-- SWD_EVT_RD, address (06 R211, Table 06.7). -/
abbrev SWD.EVT_RD : Nat := 0x01020014
def SWD.EVT_RD_RD : Fld := ⟨SWD.EVT_RD, 7, 0, .rw, 0⟩
/-- SWD_EVT_STAT, address (06 R211, Table 06.7). -/
abbrev SWD.EVT_STAT : Nat := 0x01020018
def SWD.EVT_STAT_FULL : Fld := ⟨SWD.EVT_STAT, 31, 31, .ro, 0⟩
def SWD.EVT_STAT_CLR_LOST : Fld := ⟨SWD.EVT_STAT, 30, 30, .wo, 0⟩
def SWD.EVT_STAT_LOST : Fld := ⟨SWD.EVT_STAT, 15, 0, .ro, 0⟩
/-- SWD_INJ, address (06 R211, Table 06.7). -/
abbrev SWD.INJ : Nat := 0x01020020
def SWD.INJ_ARM : Fld := ⟨SWD.INJ, 31, 31, .rw, 0⟩
def SWD.INJ_MODE : Fld := ⟨SWD.INJ, 25, 24, .rw, 0⟩
def SWD.INJ_WINDOW : Fld := ⟨SWD.INJ, 23, 16, .rw, 0⟩
def SWD.INJ_TASK : Fld := ⟨SWD.INJ, 4, 0, .rw, 0⟩
/-- SWD_PEND, address (06 R211, Table 06.7). -/
abbrev SWD.PEND (i : Nat) : Nat := 0x01020040 + 4 * i
def SWD.PEND_PEND (i : Nat) : Fld := ⟨SWD.PEND i, 31, 0, .ro, 0⟩
/-- SWD_CFG, address (06 R211, Table 06.7). -/
abbrev SWD.CFG (i : Nat) : Nat := 0x01021000 + 32 * i
def SWD.CFG_EN (i : Nat) : Fld := ⟨SWD.CFG i, 31, 31, .staged, 0⟩
def SWD.CFG_SRC (i : Nat) : Fld := ⟨SWD.CFG i, 30, 29, .staged, 0⟩
def SWD.CFG_MID (i : Nat) : Fld := ⟨SWD.CFG i, 28, 24, .staged, 0⟩
def SWD.CFG_PORT (i : Nat) : Fld := ⟨SWD.CFG i, 23, 22, .staged, 0⟩
def SWD.CFG_PERIOD_M1 (i : Nat) : Fld := ⟨SWD.CFG i, 11, 0, .staged, 0⟩
/-- SWD_TIME, address (06 R211, Table 06.7). -/
abbrev SWD.TIME (i : Nat) : Nat := 0x01021004 + 32 * i
def SWD.TIME_CLOSE (i : Nat) : Fld := ⟨SWD.TIME i, 31, 16, .staged, 0⟩
def SWD.TIME_OPEN (i : Nat) : Fld := ⟨SWD.TIME i, 15, 0, .staged, 0⟩
/-- SWD_PHASE, address (06 R211, Table 06.7). -/
abbrev SWD.PHASE (i : Nat) : Nat := 0x01021008 + 32 * i
def SWD.PHASE_PHASE (i : Nat) : Fld := ⟨SWD.PHASE i, 11, 0, .staged, 0⟩
/-- SWD_EXPECT, address (06 R211, Table 06.7). -/
abbrev SWD.EXPECT (i : Nat) : Nat := 0x0102100C + 32 * i
def SWD.EXPECT_EXPECT (i : Nat) : Fld := ⟨SWD.EXPECT i, 31, 0, .staged, 0⟩
/-- SWD_LAST_F, address (06 R211, Table 06.7). -/
abbrev SWD.LAST_F (i : Nat) : Nat := 0x01021010 + 32 * i
def SWD.LAST_F_FRAME_NO (i : Nat) : Fld := ⟨SWD.LAST_F i, 31, 0, .ro, 0⟩
/-- SWD_LAST_MISS, address (06 R211, Table 06.7). -/
abbrev SWD.LAST_MISS (i : Nat) : Nat := 0x01021014 + 32 * i
def SWD.LAST_MISS_MISSING (i : Nat) : Fld := ⟨SWD.LAST_MISS i, 31, 0, .ro, 0⟩
/-- SWD_LAST_DUP, address (06 R211, Table 06.7). -/
abbrev SWD.LAST_DUP (i : Nat) : Nat := 0x01021018 + 32 * i
def SWD.LAST_DUP_DUPLICATE (i : Nat) : Fld := ⟨SWD.LAST_DUP i, 31, 0, .ro, 0⟩
def SWD.descs0 : List RegDesc := [
  ⟨0x0000, 0, 1, 0, 1, fun _ _ => [SWD.INFO_VERSION, SWD.INFO_WINDOWS]⟩,
  ⟨0x0004, 0, 1, 0, 1, fun _ _ => [SWD.CHECKIN_WINDOW, SWD.CHECKIN_TASK]⟩,
  ⟨0x0008, 0, 1, 0, 1, fun _ _ => [SWD.STAT_STRAY, SWD.STAT_BADSRC]⟩,
  ⟨0x0010, 0, 1, 0, 1, fun _ _ => [SWD.EVT_WR_WR]⟩,
  ⟨0x0014, 0, 1, 0, 1, fun _ _ => [SWD.EVT_RD_RD]⟩,
  ⟨0x0018, 0, 1, 0, 1, fun _ _ => [SWD.EVT_STAT_FULL, SWD.EVT_STAT_CLR_LOST, SWD.EVT_STAT_LOST]⟩,
  ⟨0x0020, 0, 1, 0, 1, fun _ _ => [SWD.INJ_ARM, SWD.INJ_MODE, SWD.INJ_WINDOW, SWD.INJ_TASK]⟩,
  ⟨0x0040, 4, 8, 0, 1, fun i _ => [SWD.PEND_PEND i]⟩,
  ⟨0x1000, 32, 256, 0, 1, fun i _ => [SWD.CFG_EN i, SWD.CFG_SRC i, SWD.CFG_MID i, SWD.CFG_PORT i, SWD.CFG_PERIOD_M1 i]⟩,
  ⟨0x1004, 32, 256, 0, 1, fun i _ => [SWD.TIME_CLOSE i, SWD.TIME_OPEN i]⟩,
  ⟨0x1008, 32, 256, 0, 1, fun i _ => [SWD.PHASE_PHASE i]⟩,
  ⟨0x100C, 32, 256, 0, 1, fun i _ => [SWD.EXPECT_EXPECT i]⟩]
def SWD.descs1 : List RegDesc := [
  ⟨0x1010, 32, 256, 0, 1, fun i _ => [SWD.LAST_F_FRAME_NO i]⟩,
  ⟨0x1014, 32, 256, 0, 1, fun i _ => [SWD.LAST_MISS_MISSING i]⟩,
  ⟨0x1018, 32, 256, 0, 1, fun i _ => [SWD.LAST_DUP_DUPLICATE i]⟩]
/-- The registers of block SWD. -/
def SWD.descs : List RegDesc := SWD.descs0 ++ SWD.descs1

/-! Block TCK at 0x01050000. -/
/-- TCK_INFO, address (06 R215, Table 06.10). -/
abbrev TCK.INFO : Nat := 0x01050000
def TCK.INFO_VERSION : Fld := ⟨TCK.INFO, 31, 24, .ro, 2⟩
/-- TCK_CTRL, address (06 R215, Table 06.10). -/
abbrev TCK.CTRL : Nat := 0x01050004
def TCK.CTRL_START_ERR : Fld := ⟨TCK.CTRL, 8, 8, .ro, 0⟩
def TCK.CTRL_RUN : Fld := ⟨TCK.CTRL, 0, 0, .rw, 0⟩
/-- TCK_FRAME, address (06 R215, Table 06.10). -/
abbrev TCK.FRAME : Nat := 0x01050008
def TCK.FRAME_FS_SEL : Fld := ⟨TCK.FRAME, 18, 16, .rwStatic, 2⟩
def TCK.FRAME_LEN : Fld := ⟨TCK.FRAME, 10, 0, .rwStatic, 128⟩
/-- TCK_RELEASE, address (06 R215, Table 06.10). -/
abbrev TCK.RELEASE : Nat := 0x0105000C
def TCK.RELEASE_MARGIN : Fld := ⟨TCK.RELEASE, 10, 0, .staged, 0⟩
/-- TCK_COMMIT, address (06 R215, Table 06.10). -/
abbrev TCK.COMMIT : Nat := 0x01050010
def TCK.COMMIT_COMMIT : Fld := ⟨TCK.COMMIT, 0, 0, .wo, 0⟩
/-- TCK_COMMIT_STATUS, address (06 R215, Table 06.10). -/
abbrev TCK.COMMIT_STATUS : Nat := 0x01050014
def TCK.COMMIT_STATUS_REJECTED : Fld := ⟨TCK.COMMIT_STATUS, 23, 16, .ro, 0⟩
def TCK.COMMIT_STATUS_GROUP : Fld := ⟨TCK.COMMIT_STATUS, 13, 8, .ro, 0⟩
def TCK.COMMIT_STATUS_PENDING : Fld := ⟨TCK.COMMIT_STATUS, 2, 2, .ro, 0⟩
def TCK.COMMIT_STATUS_RESULT : Fld := ⟨TCK.COMMIT_STATUS, 1, 0, .ro, 0⟩
/-- TCK_COMMIT_REJ0, address (06 R215, Table 06.10). -/
abbrev TCK.COMMIT_REJ0 : Nat := 0x01050018
def TCK.COMMIT_REJ0_REJ : Fld := ⟨TCK.COMMIT_REJ0, 31, 0, .ro, 0⟩
/-- TCK_COMMIT_REJ1, address (06 R215, Table 06.10). -/
abbrev TCK.COMMIT_REJ1 : Nat := 0x0105001C
def TCK.COMMIT_REJ1_REJ : Fld := ⟨TCK.COMMIT_REJ1, 31, 0, .ro, 0⟩
/-- TCK_COMMIT_FRAME, address (06 R215, Table 06.10). -/
abbrev TCK.COMMIT_FRAME : Nat := 0x01050020
def TCK.COMMIT_FRAME_FRAME_NO : Fld := ⟨TCK.COMMIT_FRAME, 31, 0, .ro, 0⟩
/-- TCK_FRAME_NO, address (06 R215, Table 06.10). -/
abbrev TCK.FRAME_NO : Nat := 0x01050024
def TCK.FRAME_NO_FRAME_NO : Fld := ⟨TCK.FRAME_NO, 31, 0, .ro, 0⟩
/-- TCK_BUDGET, address (06 R215, Table 06.10). -/
abbrev TCK.BUDGET : Nat := 0x01050030
def TCK.BUDGET_DMA_PCT : Fld := ⟨TCK.BUDGET, 30, 24, .staged, 25⟩
def TCK.BUDGET_LINK_PCT : Fld := ⟨TCK.BUDGET, 22, 16, .staged, 90⟩
def TCK.BUDGET_SKIM_PCT : Fld := ⟨TCK.BUDGET, 14, 8, .staged, 90⟩
def TCK.BUDGET_ARRAY_PCT : Fld := ⟨TCK.BUDGET, 6, 0, .staged, 80⟩
/-- TCK_PLAN_CTRL, address (06 R215, Table 06.10). -/
abbrev TCK.PLAN_CTRL : Nat := 0x01050034
def TCK.PLAN_CTRL_RESTART_MAX : Fld := ⟨TCK.PLAN_CTRL, 5, 4, .staged, 2⟩
def TCK.PLAN_CTRL_ALLOW_SAMPLE : Fld := ⟨TCK.PLAN_CTRL, 0, 0, .staged, 1⟩
/-- TCK_STENCIL, address (06 R215, Table 06.10). -/
abbrev TCK.STENCIL : Nat := 0x01050038
def TCK.STENCIL_STN_MAX_DEFER : Fld := ⟨TCK.STENCIL, 5, 0, .staged, 4⟩
/-- TCK_PORT_END, address (06 R215, Table 06.10). -/
abbrev TCK.PORT_END (i : Nat) : Nat := 0x01050040 + 4 * i
def TCK.PORT_END_END (i : Nat) : Fld := ⟨TCK.PORT_END i, 15, 0, .staged, 0⟩
/-- TCK_PLAN_STAT, address (06 R215, Table 06.10). -/
abbrev TCK.PLAN_STAT : Nat := 0x01050050
def TCK.PLAN_STAT_SHORT : Fld := ⟨TCK.PLAN_STAT, 31, 31, .ro, 0⟩
def TCK.PLAN_STAT_REPLAN : Fld := ⟨TCK.PLAN_STAT, 30, 30, .ro, 0⟩
def TCK.PLAN_STAT_VARIANTS : Fld := ⟨TCK.PLAN_STAT, 12, 0, .ro, 1⟩
/-- TCK_PLAN_ARRAY, address (06 R215, Table 06.10). -/
abbrev TCK.PLAN_ARRAY : Nat := 0x01050054
def TCK.PLAN_ARRAY_CLK : Fld := ⟨TCK.PLAN_ARRAY, 31, 0, .ro, 0⟩
/-- TCK_PLAN_DMA, address (06 R215, Table 06.10). -/
abbrev TCK.PLAN_DMA : Nat := 0x01050058
def TCK.PLAN_DMA_BYTES : Fld := ⟨TCK.PLAN_DMA, 31, 0, .ro, 0⟩
/-- TCK_PLAN_SKIM, address (06 R215, Table 06.10). -/
abbrev TCK.PLAN_SKIM (i : Nat) : Nat := 0x01050060 + 4 * i
def TCK.PLAN_SKIM_CYC (i : Nat) : Fld := ⟨TCK.PLAN_SKIM i, 31, 0, .ro, 0⟩
/-- TCK_STN_STAT, address (06 R215, Table 06.10). -/
abbrev TCK.STN_STAT : Nat := 0x01050070
def TCK.STN_STAT_DEFERRED : Fld := ⟨TCK.STN_STAT, 31, 16, .ro, 0⟩
def TCK.STN_STAT_FORCED : Fld := ⟨TCK.STN_STAT, 15, 0, .ro, 0⟩
/-- TCK_RESTART, address (06 R215, Table 06.10). -/
abbrev TCK.RESTART : Nat := 0x01050074
def TCK.RESTART_RESTARTS : Fld := ⟨TCK.RESTART, 31, 16, .ro, 0⟩
def TCK.RESTART_ABORTS : Fld := ⟨TCK.RESTART, 15, 0, .ro, 0⟩
/-- TCK_WASTE, address (06 R215, Table 06.10). -/
abbrev TCK.WASTE : Nat := 0x01050078
def TCK.WASTE_CLK : Fld := ⟨TCK.WASTE, 31, 0, .ro, 0⟩
def TCK.descs0 : List RegDesc := [
  ⟨0x0000, 0, 1, 0, 1, fun _ _ => [TCK.INFO_VERSION]⟩,
  ⟨0x0004, 0, 1, 0, 1, fun _ _ => [TCK.CTRL_START_ERR, TCK.CTRL_RUN]⟩,
  ⟨0x0008, 0, 1, 0, 1, fun _ _ => [TCK.FRAME_FS_SEL, TCK.FRAME_LEN]⟩,
  ⟨0x000C, 0, 1, 0, 1, fun _ _ => [TCK.RELEASE_MARGIN]⟩,
  ⟨0x0010, 0, 1, 0, 1, fun _ _ => [TCK.COMMIT_COMMIT]⟩,
  ⟨0x0014, 0, 1, 0, 1, fun _ _ => [TCK.COMMIT_STATUS_REJECTED, TCK.COMMIT_STATUS_GROUP, TCK.COMMIT_STATUS_PENDING, TCK.COMMIT_STATUS_RESULT]⟩,
  ⟨0x0018, 0, 1, 0, 1, fun _ _ => [TCK.COMMIT_REJ0_REJ]⟩,
  ⟨0x001C, 0, 1, 0, 1, fun _ _ => [TCK.COMMIT_REJ1_REJ]⟩,
  ⟨0x0020, 0, 1, 0, 1, fun _ _ => [TCK.COMMIT_FRAME_FRAME_NO]⟩,
  ⟨0x0024, 0, 1, 0, 1, fun _ _ => [TCK.FRAME_NO_FRAME_NO]⟩,
  ⟨0x0030, 0, 1, 0, 1, fun _ _ => [TCK.BUDGET_DMA_PCT, TCK.BUDGET_LINK_PCT, TCK.BUDGET_SKIM_PCT, TCK.BUDGET_ARRAY_PCT]⟩,
  ⟨0x0034, 0, 1, 0, 1, fun _ _ => [TCK.PLAN_CTRL_RESTART_MAX, TCK.PLAN_CTRL_ALLOW_SAMPLE]⟩]
def TCK.descs1 : List RegDesc := [
  ⟨0x0038, 0, 1, 0, 1, fun _ _ => [TCK.STENCIL_STN_MAX_DEFER]⟩,
  ⟨0x0040, 4, 4, 0, 1, fun i _ => [TCK.PORT_END_END i]⟩,
  ⟨0x0050, 0, 1, 0, 1, fun _ _ => [TCK.PLAN_STAT_SHORT, TCK.PLAN_STAT_REPLAN, TCK.PLAN_STAT_VARIANTS]⟩,
  ⟨0x0054, 0, 1, 0, 1, fun _ _ => [TCK.PLAN_ARRAY_CLK]⟩,
  ⟨0x0058, 0, 1, 0, 1, fun _ _ => [TCK.PLAN_DMA_BYTES]⟩,
  ⟨0x0060, 4, 4, 0, 1, fun i _ => [TCK.PLAN_SKIM_CYC i]⟩,
  ⟨0x0070, 0, 1, 0, 1, fun _ _ => [TCK.STN_STAT_DEFERRED, TCK.STN_STAT_FORCED]⟩,
  ⟨0x0074, 0, 1, 0, 1, fun _ _ => [TCK.RESTART_RESTARTS, TCK.RESTART_ABORTS]⟩,
  ⟨0x0078, 0, 1, 0, 1, fun _ _ => [TCK.WASTE_CLK]⟩]
/-- The registers of block TCK. -/
def TCK.descs : List RegDesc := TCK.descs0 ++ TCK.descs1

/-! Block MEM at 0x010E0000. -/
/-- MEM_INFO, address (07 R250, Table 07.12). -/
abbrev MEM.INFO : Nat := 0x010E0000
def MEM.INFO_VERSION : Fld := ⟨MEM.INFO, 31, 24, .ro, 1⟩
def MEM.INFO_HBM_GIB : Fld := ⟨MEM.INFO, 23, 16, .ro, 16⟩
def MEM.INFO_PCH : Fld := ⟨MEM.INFO, 13, 8, .ro, 32⟩
def MEM.INFO_DMA : Fld := ⟨MEM.INFO, 2, 0, .ro, 4⟩
/-- MEM_CTRL, address (07 R250, Table 07.12). -/
abbrev MEM.CTRL : Nat := 0x010E0004
def MEM.CTRL_RETIRE_EN : Fld := ⟨MEM.CTRL, 8, 8, .rwStatic, 1⟩
def MEM.CTRL_CE_ROW_THR : Fld := ⟨MEM.CTRL, 7, 0, .rwStatic, 4⟩
/-- MEM_HBM_STAT, address (07 R250, Table 07.12). -/
abbrev MEM.HBM_STAT : Nat := 0x010E0008
def MEM.HBM_STAT_TRAINED : Fld := ⟨MEM.HBM_STAT, 31, 31, .ro, 0⟩
def MEM.HBM_STAT_REMAPPED : Fld := ⟨MEM.HBM_STAT, 15, 8, .ro, 0⟩
def MEM.HBM_STAT_MARKED : Fld := ⟨MEM.HBM_STAT, 7, 0, .ro, 0⟩
/-- MEM_SRAM_CNT, address (07 R250, Table 07.12). -/
abbrev MEM.SRAM_CNT : Nat := 0x010E0010
def MEM.SRAM_CNT_UE : Fld := ⟨MEM.SRAM_CNT, 31, 16, .ro, 0⟩
def MEM.SRAM_CNT_CE : Fld := ⟨MEM.SRAM_CNT, 15, 0, .ro, 0⟩
/-- MEM_DRAM_CE, address (07 R250, Table 07.12). -/
abbrev MEM.DRAM_CE : Nat := 0x010E0014
def MEM.DRAM_CE_CE : Fld := ⟨MEM.DRAM_CE, 31, 16, .ro, 0⟩
def MEM.DRAM_CE_RETRY_OK : Fld := ⟨MEM.DRAM_CE, 15, 0, .ro, 0⟩
/-- MEM_DRAM_UE, address (07 R250, Table 07.12). -/
abbrev MEM.DRAM_UE : Nat := 0x010E0018
def MEM.DRAM_UE_UE : Fld := ⟨MEM.DRAM_UE, 15, 0, .ro, 0⟩
/-- MEM_UE_INFO, address (07 R250, Table 07.12). -/
abbrev MEM.UE_INFO : Nat := 0x010E0020
def MEM.UE_INFO_VALID : Fld := ⟨MEM.UE_INFO, 31, 31, .ro, 0⟩
def MEM.UE_INFO_MEMORY : Fld := ⟨MEM.UE_INFO, 30, 28, .ro, 0⟩
def MEM.UE_INFO_MID : Fld := ⟨MEM.UE_INFO, 20, 16, .ro, 0⟩
def MEM.UE_INFO_UNIT : Fld := ⟨MEM.UE_INFO, 12, 8, .ro, 0⟩
/-- MEM_UE_ADDR_LO, address (07 R250, Table 07.12). -/
abbrev MEM.UE_ADDR_LO : Nat := 0x010E0024
def MEM.UE_ADDR_LO_ADDR : Fld := ⟨MEM.UE_ADDR_LO, 31, 0, .ro, 0⟩
/-- MEM_UE_ADDR_HI, address (07 R250, Table 07.12). -/
abbrev MEM.UE_ADDR_HI : Nat := 0x010E0028
def MEM.UE_ADDR_HI_ADDR : Fld := ⟨MEM.UE_ADDR_HI, 1, 0, .ro, 0⟩
/-- MEM_XF_INFO, address (07 R250, Table 07.12). -/
abbrev MEM.XF_INFO : Nat := 0x010E0030
def MEM.XF_INFO_VALID : Fld := ⟨MEM.XF_INFO, 31, 31, .ro, 0⟩
def MEM.XF_INFO_CAUSE : Fld := ⟨MEM.XF_INFO, 27, 24, .ro, 0⟩
def MEM.XF_INFO_MID : Fld := ⟨MEM.XF_INFO, 20, 16, .ro, 0⟩
def MEM.XF_INFO_WRITE : Fld := ⟨MEM.XF_INFO, 8, 8, .ro, 0⟩
/-- MEM_XF_HANDLE, address (07 R250, Table 07.12). -/
abbrev MEM.XF_HANDLE : Nat := 0x010E0034
def MEM.XF_HANDLE_HANDLE : Fld := ⟨MEM.XF_HANDLE, 31, 0, .ro, 0⟩
/-- MEM_XF_OFFSET, address (07 R250, Table 07.12). -/
abbrev MEM.XF_OFFSET : Nat := 0x010E0038
def MEM.XF_OFFSET_OFFSET : Fld := ⟨MEM.XF_OFFSET, 31, 0, .ro, 0⟩
/-- MEM_ERR_CLR, address (07 R250, Table 07.12). -/
abbrev MEM.ERR_CLR : Nat := 0x010E0040
def MEM.ERR_CLR_XF : Fld := ⟨MEM.ERR_CLR, 1, 1, .wo, 0⟩
def MEM.ERR_CLR_UE : Fld := ⟨MEM.ERR_CLR, 0, 0, .wo, 0⟩
/-- MEM_XLT_INV, address (07 R250, Table 07.12). -/
abbrev MEM.XLT_INV : Nat := 0x010E0044
def MEM.XLT_INV_BUSY : Fld := ⟨MEM.XLT_INV, 31, 31, .ro, 0⟩
def MEM.XLT_INV_ALL : Fld := ⟨MEM.XLT_INV, 16, 16, .rw, 0⟩
def MEM.XLT_INV_CTX : Fld := ⟨MEM.XLT_INV, 12, 0, .rw, 0⟩
/-- MEM_SPARE, address (07 R250, Table 07.12). -/
abbrev MEM.SPARE : Nat := 0x010E0048
def MEM.SPARE_USED : Fld := ⟨MEM.SPARE, 26, 16, .ro, 0⟩
def MEM.SPARE_FREE : Fld := ⟨MEM.SPARE, 10, 0, .ro, 1024⟩
/-- MEM_DMA_STAT, address (07 R250, Table 07.12). -/
abbrev MEM.DMA_STAT (i : Nat) : Nat := 0x010E0050 + 8 * i
def MEM.DMA_STAT_PLAN_BUSY (i : Nat) : Fld := ⟨MEM.DMA_STAT i, 31, 31, .ro, 0⟩
def MEM.DMA_STAT_BG_BUSY (i : Nat) : Fld := ⟨MEM.DMA_STAT i, 30, 30, .ro, 0⟩
def MEM.DMA_STAT_PLAN_PEND (i : Nat) : Fld := ⟨MEM.DMA_STAT i, 23, 16, .ro, 0⟩
def MEM.DMA_STAT_LAST_STATUS (i : Nat) : Fld := ⟨MEM.DMA_STAT i, 2, 0, .ro, 0⟩
/-- MEM_DMA_LINES, address (07 R250, Table 07.12). -/
abbrev MEM.DMA_LINES (i : Nat) : Nat := 0x010E0054 + 8 * i
def MEM.DMA_LINES_LINES (i : Nat) : Fld := ⟨MEM.DMA_LINES i, 31, 0, .ro, 0⟩
/-- MEM_RETIRE_PAGE, address (07 R250, Table 07.12). -/
abbrev MEM.RETIRE_PAGE (i : Nat) : Nat := 0x010E0100 + 8 * i
def MEM.RETIRE_PAGE_VALID (i : Nat) : Fld := ⟨MEM.RETIRE_PAGE i, 31, 31, .ro, 0⟩
def MEM.RETIRE_PAGE_CAUSE (i : Nat) : Fld := ⟨MEM.RETIRE_PAGE i, 30, 30, .ro, 0⟩
def MEM.RETIRE_PAGE_PPN (i : Nat) : Fld := ⟨MEM.RETIRE_PAGE i, 17, 0, .ro, 0⟩
/-- MEM_RETIRE_SPARE, address (07 R250, Table 07.12). -/
abbrev MEM.RETIRE_SPARE (i : Nat) : Nat := 0x010E0104 + 8 * i
def MEM.RETIRE_SPARE_DONE (i : Nat) : Fld := ⟨MEM.RETIRE_SPARE i, 31, 31, .ro, 0⟩
def MEM.RETIRE_SPARE_PPN (i : Nat) : Fld := ⟨MEM.RETIRE_SPARE i, 17, 0, .ro, 0⟩
/-- MEM_INJ, address (07 R250, Table 07.12). -/
abbrev MEM.INJ : Nat := 0x010E0300
def MEM.INJ_ARM : Fld := ⟨MEM.INJ, 31, 31, .rw, 0⟩
def MEM.INJ_CLUSTER : Fld := ⟨MEM.INJ, 9, 8, .rw, 0⟩
def MEM.INJ_MODE : Fld := ⟨MEM.INJ, 2, 0, .rw, 0⟩
def MEM.descs0 : List RegDesc := [
  ⟨0x0000, 0, 1, 0, 1, fun _ _ => [MEM.INFO_VERSION, MEM.INFO_HBM_GIB, MEM.INFO_PCH, MEM.INFO_DMA]⟩,
  ⟨0x0004, 0, 1, 0, 1, fun _ _ => [MEM.CTRL_RETIRE_EN, MEM.CTRL_CE_ROW_THR]⟩,
  ⟨0x0008, 0, 1, 0, 1, fun _ _ => [MEM.HBM_STAT_TRAINED, MEM.HBM_STAT_REMAPPED, MEM.HBM_STAT_MARKED]⟩,
  ⟨0x0010, 0, 1, 0, 1, fun _ _ => [MEM.SRAM_CNT_UE, MEM.SRAM_CNT_CE]⟩,
  ⟨0x0014, 0, 1, 0, 1, fun _ _ => [MEM.DRAM_CE_CE, MEM.DRAM_CE_RETRY_OK]⟩,
  ⟨0x0018, 0, 1, 0, 1, fun _ _ => [MEM.DRAM_UE_UE]⟩,
  ⟨0x0020, 0, 1, 0, 1, fun _ _ => [MEM.UE_INFO_VALID, MEM.UE_INFO_MEMORY, MEM.UE_INFO_MID, MEM.UE_INFO_UNIT]⟩,
  ⟨0x0024, 0, 1, 0, 1, fun _ _ => [MEM.UE_ADDR_LO_ADDR]⟩,
  ⟨0x0028, 0, 1, 0, 1, fun _ _ => [MEM.UE_ADDR_HI_ADDR]⟩,
  ⟨0x0030, 0, 1, 0, 1, fun _ _ => [MEM.XF_INFO_VALID, MEM.XF_INFO_CAUSE, MEM.XF_INFO_MID, MEM.XF_INFO_WRITE]⟩,
  ⟨0x0034, 0, 1, 0, 1, fun _ _ => [MEM.XF_HANDLE_HANDLE]⟩,
  ⟨0x0038, 0, 1, 0, 1, fun _ _ => [MEM.XF_OFFSET_OFFSET]⟩]
def MEM.descs1 : List RegDesc := [
  ⟨0x0040, 0, 1, 0, 1, fun _ _ => [MEM.ERR_CLR_XF, MEM.ERR_CLR_UE]⟩,
  ⟨0x0044, 0, 1, 0, 1, fun _ _ => [MEM.XLT_INV_BUSY, MEM.XLT_INV_ALL, MEM.XLT_INV_CTX]⟩,
  ⟨0x0048, 0, 1, 0, 1, fun _ _ => [MEM.SPARE_USED, MEM.SPARE_FREE]⟩,
  ⟨0x0050, 8, 4, 0, 1, fun i _ => [MEM.DMA_STAT_PLAN_BUSY i, MEM.DMA_STAT_BG_BUSY i, MEM.DMA_STAT_PLAN_PEND i, MEM.DMA_STAT_LAST_STATUS i]⟩,
  ⟨0x0054, 8, 4, 0, 1, fun i _ => [MEM.DMA_LINES_LINES i]⟩,
  ⟨0x0100, 8, 64, 0, 1, fun i _ => [MEM.RETIRE_PAGE_VALID i, MEM.RETIRE_PAGE_CAUSE i, MEM.RETIRE_PAGE_PPN i]⟩,
  ⟨0x0104, 8, 64, 0, 1, fun i _ => [MEM.RETIRE_SPARE_DONE i, MEM.RETIRE_SPARE_PPN i]⟩,
  ⟨0x0300, 0, 1, 0, 1, fun _ _ => [MEM.INJ_ARM, MEM.INJ_CLUSTER, MEM.INJ_MODE]⟩]
/-- The registers of block MEM. -/
def MEM.descs : List RegDesc := MEM.descs0 ++ MEM.descs1

/-! Block FJL at 0x010A0000. -/
/-- FJL_INFO, address (08 R286, Table 08.11). -/
abbrev FJL.INFO : Nat := 0x010A0000
def FJL.INFO_VERSION : Fld := ⟨FJL.INFO, 31, 24, .ro, 1⟩
def FJL.INFO_PORTS : Fld := ⟨FJL.INFO, 3, 0, .ro, 4⟩
/-- FJL_CTRL, address (08 R286, Table 08.11). -/
abbrev FJL.CTRL : Nat := 0x010A0004
def FJL.CTRL_EN : Fld := ⟨FJL.CTRL, 3, 0, .rw, 0⟩
/-- FJL_P_CFG, address (08 R286, Table 08.11). -/
abbrev FJL.P_CFG (i : Nat) : Nat := 0x010A0100 + 256 * i
def FJL.P_CFG_LINK_TAG (i : Nat) : Fld := ⟨FJL.P_CFG i, 31, 16, .rwStatic, 0⟩
def FJL.P_CFG_RETRY_MAX (i : Nat) : Fld := ⟨FJL.P_CFG i, 15, 12, .rwStatic, 4⟩
def FJL.P_CFG_FAST_RETRAIN (i : Nat) : Fld := ⟨FJL.P_CFG i, 11, 11, .rwStatic, 1⟩
def FJL.P_CFG_EARLY (i : Nat) : Fld := ⟨FJL.P_CFG i, 10, 0, .rwStatic, 0⟩
/-- FJL_P_EQ, address (08 R286, Table 08.11). -/
abbrev FJL.P_EQ (i : Nat) : Nat := 0x010A0104 + 256 * i
def FJL.P_EQ_TRAIN_MAX (i : Nat) : Fld := ⟨FJL.P_EQ i, 27, 24, .rwStatic, 3⟩
def FJL.P_EQ_TX_PRESET (i : Nat) : Fld := ⟨FJL.P_EQ i, 19, 16, .rwStatic, 5⟩
def FJL.P_EQ_RX_ADAPT (i : Nat) : Fld := ⟨FJL.P_EQ i, 8, 8, .rwStatic, 1⟩
/-- FJL_P_STAT, address (08 R286, Table 08.11). -/
abbrev FJL.P_STAT (i : Nat) : Nat := 0x010A0108 + 256 * i
def FJL.P_STAT_EPOCH (i : Nat) : Fld := ⟨FJL.P_STAT i, 31, 24, .ro, 0⟩
def FJL.P_STAT_REVERSED (i : Nat) : Fld := ⟨FJL.P_STAT i, 8, 8, .ro, 0⟩
def FJL.P_STAT_STATE (i : Nat) : Fld := ⟨FJL.P_STAT i, 3, 0, .ro, 0⟩
/-- FJL_P_LANES, address (08 R286, Table 08.11). -/
abbrev FJL.P_LANES (i : Nat) : Nat := 0x010A010C + 256 * i
def FJL.P_LANES_POLARITY (i : Nat) : Fld := ⟨FJL.P_LANES i, 23, 16, .ro, 0⟩
def FJL.P_LANES_LOCKED (i : Nat) : Fld := ⟨FJL.P_LANES i, 15, 8, .ro, 0⟩
def FJL.P_LANES_SIGNAL (i : Nat) : Fld := ⟨FJL.P_LANES i, 7, 0, .ro, 0⟩
/-- FJL_P_RX_BYTES, address (08 R286, Table 08.11). -/
abbrev FJL.P_RX_BYTES (i : Nat) : Nat := 0x010A0110 + 256 * i
def FJL.P_RX_BYTES_BYTES (i : Nat) : Fld := ⟨FJL.P_RX_BYTES i, 31, 0, .ro, 0⟩
/-- FJL_P_TX_BYTES, address (08 R286, Table 08.11). -/
abbrev FJL.P_TX_BYTES (i : Nat) : Nat := 0x010A0114 + 256 * i
def FJL.P_TX_BYTES_BYTES (i : Nat) : Fld := ⟨FJL.P_TX_BYTES i, 31, 0, .ro, 0⟩
/-- FJL_P_LINKERR, address (08 R286, Table 08.11). -/
abbrev FJL.P_LINKERR (i : Nat) : Nat := 0x010A0118 + 256 * i
def FJL.P_LINKERR_FRAMING (i : Nat) : Fld := ⟨FJL.P_LINKERR i, 31, 16, .ro, 0⟩
def FJL.P_LINKERR_RETRAINS (i : Nat) : Fld := ⟨FJL.P_LINKERR i, 15, 8, .ro, 0⟩
def FJL.P_LINKERR_RESETS (i : Nat) : Fld := ⟨FJL.P_LINKERR i, 7, 0, .ro, 0⟩
/-- FJL_P_DROP, address (08 R286, Table 08.11). -/
abbrev FJL.P_DROP (i : Nat) : Nat := 0x010A011C + 256 * i
def FJL.P_DROP_WINDOW (i : Nat) : Fld := ⟨FJL.P_DROP i, 31, 16, .ro, 0⟩
def FJL.P_DROP_STRAY (i : Nat) : Fld := ⟨FJL.P_DROP i, 15, 0, .ro, 0⟩
/-- FJL_P_TRAIN, address (08 R286, Table 08.11). -/
abbrev FJL.P_TRAIN (i : Nat) : Nat := 0x010A0120 + 256 * i
def FJL.P_TRAIN_FULL (i : Nat) : Fld := ⟨FJL.P_TRAIN i, 31, 16, .ro, 0⟩
def FJL.P_TRAIN_FAILS (i : Nat) : Fld := ⟨FJL.P_TRAIN i, 15, 8, .ro, 0⟩
def FJL.P_TRAIN_LAST_FAIL (i : Nat) : Fld := ⟨FJL.P_TRAIN i, 3, 0, .ro, 0⟩
/-- FJL_P_CREDIT, address (08 R286, Table 08.11). -/
abbrev FJL.P_CREDIT (i : Nat) : Nat := 0x010A0124 + 256 * i
def FJL.P_CREDIT_TENSOR_FREE (i : Nat) : Fld := ⟨FJL.P_CREDIT i, 28, 16, .ro, 6144⟩
def FJL.P_CREDIT_STENCIL_FREE (i : Nat) : Fld := ⟨FJL.P_CREDIT i, 9, 0, .ro, 512⟩
/-- FJL_P_PEER, address (08 R286, Table 08.11). -/
abbrev FJL.P_PEER (i : Nat) : Nat := 0x010A0128 + 256 * i
def FJL.P_PEER_VALID (i : Nat) : Fld := ⟨FJL.P_PEER i, 31, 31, .ro, 0⟩
def FJL.P_PEER_CODE (i : Nat) : Fld := ⟨FJL.P_PEER i, 15, 0, .ro, 0⟩
/-- FJL_P_CMD, address (08 R286, Table 08.11). -/
abbrev FJL.P_CMD (i : Nat) : Nat := 0x010A012C + 256 * i
def FJL.P_CMD_CLR_PEER (i : Nat) : Fld := ⟨FJL.P_CMD i, 2, 2, .wo, 0⟩
def FJL.P_CMD_RESET (i : Nat) : Fld := ⟨FJL.P_CMD i, 1, 1, .wo, 0⟩
def FJL.P_CMD_RETRAIN (i : Nat) : Fld := ⟨FJL.P_CMD i, 0, 0, .wo, 0⟩
/-- FJL_P_INJ, address (08 R286, Table 08.11). -/
abbrev FJL.P_INJ (i : Nat) : Nat := 0x010A0130 + 256 * i
def FJL.P_INJ_ARM (i : Nat) : Fld := ⟨FJL.P_INJ i, 31, 31, .rw, 0⟩
def FJL.P_INJ_MODE (i : Nat) : Fld := ⟨FJL.P_INJ i, 2, 0, .rw, 0⟩
/-- FJL_P_IDENT, address (08 R286, Table 08.11). -/
abbrev FJL.P_IDENT (i j : Nat) : Nat := 0x010A0140 + 256 * i + 4 * j
def FJL.P_IDENT_IDENT (i j : Nat) : Fld := ⟨FJL.P_IDENT i j, 31, 0, .ro, 0⟩
def FJL.descs0 : List RegDesc := [
  ⟨0x0000, 0, 1, 0, 1, fun _ _ => [FJL.INFO_VERSION, FJL.INFO_PORTS]⟩,
  ⟨0x0004, 0, 1, 0, 1, fun _ _ => [FJL.CTRL_EN]⟩,
  ⟨0x0100, 256, 4, 0, 1, fun i _ => [FJL.P_CFG_LINK_TAG i, FJL.P_CFG_RETRY_MAX i, FJL.P_CFG_FAST_RETRAIN i, FJL.P_CFG_EARLY i]⟩,
  ⟨0x0104, 256, 4, 0, 1, fun i _ => [FJL.P_EQ_TRAIN_MAX i, FJL.P_EQ_TX_PRESET i, FJL.P_EQ_RX_ADAPT i]⟩,
  ⟨0x0108, 256, 4, 0, 1, fun i _ => [FJL.P_STAT_EPOCH i, FJL.P_STAT_REVERSED i, FJL.P_STAT_STATE i]⟩,
  ⟨0x010C, 256, 4, 0, 1, fun i _ => [FJL.P_LANES_POLARITY i, FJL.P_LANES_LOCKED i, FJL.P_LANES_SIGNAL i]⟩,
  ⟨0x0110, 256, 4, 0, 1, fun i _ => [FJL.P_RX_BYTES_BYTES i]⟩,
  ⟨0x0114, 256, 4, 0, 1, fun i _ => [FJL.P_TX_BYTES_BYTES i]⟩,
  ⟨0x0118, 256, 4, 0, 1, fun i _ => [FJL.P_LINKERR_FRAMING i, FJL.P_LINKERR_RETRAINS i, FJL.P_LINKERR_RESETS i]⟩,
  ⟨0x011C, 256, 4, 0, 1, fun i _ => [FJL.P_DROP_WINDOW i, FJL.P_DROP_STRAY i]⟩,
  ⟨0x0120, 256, 4, 0, 1, fun i _ => [FJL.P_TRAIN_FULL i, FJL.P_TRAIN_FAILS i, FJL.P_TRAIN_LAST_FAIL i]⟩,
  ⟨0x0124, 256, 4, 0, 1, fun i _ => [FJL.P_CREDIT_TENSOR_FREE i, FJL.P_CREDIT_STENCIL_FREE i]⟩]
def FJL.descs1 : List RegDesc := [
  ⟨0x0128, 256, 4, 0, 1, fun i _ => [FJL.P_PEER_VALID i, FJL.P_PEER_CODE i]⟩,
  ⟨0x012C, 256, 4, 0, 1, fun i _ => [FJL.P_CMD_CLR_PEER i, FJL.P_CMD_RESET i, FJL.P_CMD_RETRAIN i]⟩,
  ⟨0x0130, 256, 4, 0, 1, fun i _ => [FJL.P_INJ_ARM i, FJL.P_INJ_MODE i]⟩,
  ⟨0x0140, 256, 4, 4, 16, fun i j => [FJL.P_IDENT_IDENT i j]⟩]
/-- The registers of block FJL. -/
def FJL.descs : List RegDesc := FJL.descs0 ++ FJL.descs1

/-! Block SGT at 0x01080000. -/
/-- SGT_INFO, address (09 R317, Table 09.8). -/
abbrev SGT.INFO : Nat := 0x01080000
def SGT.INFO_VERSION : Fld := ⟨SGT.INFO, 31, 24, .ro, 1⟩
def SGT.INFO_PORTS : Fld := ⟨SGT.INFO, 2, 0, .ro, 6⟩
/-- SGT_CTRL, address (09 R317, Table 09.8). -/
abbrev SGT.CTRL : Nat := 0x01080004
def SGT.CTRL_PORT_EN : Fld := ⟨SGT.CTRL, 5, 0, .rw, 0⟩
/-- SGT_GATE_USE, address (09 R317, Table 09.8). -/
abbrev SGT.GATE_USE : Nat := 0x01080008
def SGT.GATE_USE_SAMPLES : Fld := ⟨SGT.GATE_USE, 18, 0, .ro, 0⟩
/-- SGT_SUBST, address (09 R317, Table 09.8). -/
abbrev SGT.SUBST (i : Nat) : Nat := 0x01080010 + 4 * i
def SGT.SUBST_SUBST (i : Nat) : Fld := ⟨SGT.SUBST i, 31, 0, .ro, 0⟩
/-- SGT_INJ, address (09 R317, Table 09.8). -/
abbrev SGT.INJ : Nat := 0x01080020
def SGT.INJ_ARM : Fld := ⟨SGT.INJ, 31, 31, .rw, 0⟩
def SGT.INJ_CHANNEL : Fld := ⟨SGT.INJ, 22, 16, .rw, 0⟩
def SGT.INJ_MODE : Fld := ⟨SGT.INJ, 1, 0, .rw, 0⟩
/-- SGT_P_CFG, address (09 R317, Table 09.8). -/
abbrev SGT.P_CFG (i : Nat) : Nat := 0x01080100 + 32 * i
def SGT.P_CFG_CLK (i : Nat) : Fld := ⟨SGT.P_CFG i, 19, 18, .rwStatic, 1⟩
def SGT.P_CFG_FOLLOW (i : Nat) : Fld := ⟨SGT.P_CFG i, 17, 15, .rwStatic, 0⟩
def SGT.P_CFG_BDIV (i : Nat) : Fld := ⟨SGT.P_CFG i, 14, 13, .rwStatic, 0⟩
def SGT.P_CFG_SLOTS_M1 (i : Nat) : Fld := ⟨SGT.P_CFG i, 11, 8, .rwStatic, 15⟩
def SGT.P_CFG_MUTE_SAFE (i : Nat) : Fld := ⟨SGT.P_CFG i, 4, 4, .rwStatic, 1⟩
def SGT.P_CFG_BCLK_EDGE (i : Nat) : Fld := ⟨SGT.P_CFG i, 3, 3, .rwStatic, 0⟩
def SGT.P_CFG_FS_WIDTH (i : Nat) : Fld := ⟨SGT.P_CFG i, 2, 2, .rwStatic, 0⟩
def SGT.P_CFG_FS_POL (i : Nat) : Fld := ⟨SGT.P_CFG i, 1, 1, .rwStatic, 0⟩
def SGT.P_CFG_DATA_DLY (i : Nat) : Fld := ⟨SGT.P_CFG i, 0, 0, .rwStatic, 1⟩
/-- SGT_P_VMASK, address (09 R317, Table 09.8). -/
abbrev SGT.P_VMASK (i : Nat) : Nat := 0x01080104 + 32 * i
def SGT.P_VMASK_VMASK (i : Nat) : Fld := ⟨SGT.P_VMASK i, 15, 0, .rwStatic, 65535⟩
/-- SGT_P_STAT, address (09 R317, Table 09.8). -/
abbrev SGT.P_STAT (i : Nat) : Nat := 0x01080108 + 32 * i
def SGT.P_STAT_LOCKED (i : Nat) : Fld := ⟨SGT.P_STAT i, 31, 31, .ro, 0⟩
def SGT.P_STAT_VALID (i : Nat) : Fld := ⟨SGT.P_STAT i, 30, 30, .ro, 0⟩
def SGT.P_STAT_MUTED (i : Nat) : Fld := ⟨SGT.P_STAT i, 29, 29, .ro, 1⟩
def SGT.P_STAT_DRIVING (i : Nat) : Fld := ⟨SGT.P_STAT i, 28, 28, .ro, 0⟩
def SGT.P_STAT_SUBFAIL (i : Nat) : Fld := ⟨SGT.P_STAT i, 27, 16, .ro, 0⟩
def SGT.P_STAT_CLKFAULTS (i : Nat) : Fld := ⟨SGT.P_STAT i, 15, 0, .ro, 0⟩
/-- SGT_IN, address (09 R317, Table 09.8). -/
abbrev SGT.IN (i : Nat) : Nat := 0x01080400 + 4 * i
def SGT.IN_EN (i : Nat) : Fld := ⟨SGT.IN i, 31, 31, .staged, 0⟩
def SGT.IN_TYPE (i : Nat) : Fld := ⟨SGT.IN i, 30, 30, .staged, 0⟩
def SGT.IN_UNIT (i : Nat) : Fld := ⟨SGT.IN i, 27, 24, .staged, 0⟩
def SGT.IN_SLOT (i : Nat) : Fld := ⟨SGT.IN i, 19, 16, .staged, 0⟩
def SGT.IN_LAG (i : Nat) : Fld := ⟨SGT.IN i, 10, 0, .staged, 0⟩
/-- SGT_OUT, address (09 R317, Table 09.8). -/
abbrev SGT.OUT (i : Nat) : Nat := 0x01080600 + 4 * i
def SGT.OUT_EN (i : Nat) : Fld := ⟨SGT.OUT i, 31, 31, .staged, 0⟩
def SGT.OUT_TYPE (i : Nat) : Fld := ⟨SGT.OUT i, 30, 30, .staged, 0⟩
def SGT.OUT_CLASS (i : Nat) : Fld := ⟨SGT.OUT i, 29, 29, .staged, 0⟩
def SGT.OUT_UNIT (i : Nat) : Fld := ⟨SGT.OUT i, 27, 24, .staged, 0⟩
def SGT.OUT_SLOT (i : Nat) : Fld := ⟨SGT.OUT i, 19, 16, .staged, 0⟩
def SGT.OUT_SRC (i : Nat) : Fld := ⟨SGT.OUT i, 14, 8, .staged, 0⟩
def SGT.OUT_POLICY (i : Nat) : Fld := ⟨SGT.OUT i, 5, 4, .staged, 0⟩
def SGT.OUT_RAMP (i : Nat) : Fld := ⟨SGT.OUT i, 2, 0, .staged, 2⟩
/-- SGT_SUB, address (09 R317, Table 09.8). -/
abbrev SGT.SUB (i : Nat) : Nat := 0x01080800 + 4 * i
def SGT.SUB_LOOP (i : Nat) : Fld := ⟨SGT.SUB i, 31, 31, .staged, 0⟩
def SGT.SUB_REF (i : Nat) : Fld := ⟨SGT.SUB i, 30, 24, .staged, 0⟩
def SGT.SUB_CHIME (i : Nat) : Fld := ⟨SGT.SUB i, 19, 16, .staged, 0⟩
def SGT.SUB_FB (i : Nat) : Fld := ⟨SGT.SUB i, 10, 8, .staged, 0⟩
def SGT.SUB_FB_OUT (i : Nat) : Fld := ⟨SGT.SUB i, 1, 0, .staged, 0⟩
/-- SGT_FB, address (09 R317, Table 09.8). -/
abbrev SGT.FB (i : Nat) : Nat := 0x01080A00 + 16 * i
def SGT.FB_EN (i : Nat) : Fld := ⟨SGT.FB i, 31, 31, .staged, 0⟩
def SGT.FB_MODEL_ID (i : Nat) : Fld := ⟨SGT.FB i, 9, 0, .staged, 0⟩
/-- SGT_FB_IN0, address (09 R317, Table 09.8). -/
abbrev SGT.FB_IN0 (i : Nat) : Nat := 0x01080A04 + 16 * i
def SGT.FB_IN0_IN (i : Nat) : Fld := ⟨SGT.FB_IN0 i, 31, 0, .staged, 0⟩
/-- SGT_FB_IN1, address (09 R317, Table 09.8). -/
abbrev SGT.FB_IN1 (i : Nat) : Nat := 0x01080A08 + 16 * i
def SGT.FB_IN1_IN (i : Nat) : Fld := ⟨SGT.FB_IN1 i, 31, 0, .staged, 0⟩
/-- SGT_CHIME, address (09 R317, Table 09.8). -/
abbrev SGT.CHIME (i : Nat) : Nat := 0x01080C00 + 4 * i
def SGT.CHIME_VALID (i : Nat) : Fld := ⟨SGT.CHIME i, 31, 31, .ro, 0⟩
def SGT.CHIME_FS_SEL (i : Nat) : Fld := ⟨SGT.CHIME i, 30, 28, .ro, 0⟩
def SGT.CHIME_LEN (i : Nat) : Fld := ⟨SGT.CHIME i, 17, 0, .ro, 0⟩
def SGT.descs0 : List RegDesc := [
  ⟨0x0000, 0, 1, 0, 1, fun _ _ => [SGT.INFO_VERSION, SGT.INFO_PORTS]⟩,
  ⟨0x0004, 0, 1, 0, 1, fun _ _ => [SGT.CTRL_PORT_EN]⟩,
  ⟨0x0008, 0, 1, 0, 1, fun _ _ => [SGT.GATE_USE_SAMPLES]⟩,
  ⟨0x0010, 4, 4, 0, 1, fun i _ => [SGT.SUBST_SUBST i]⟩,
  ⟨0x0020, 0, 1, 0, 1, fun _ _ => [SGT.INJ_ARM, SGT.INJ_CHANNEL, SGT.INJ_MODE]⟩,
  ⟨0x0100, 32, 6, 0, 1, fun i _ => [SGT.P_CFG_CLK i, SGT.P_CFG_FOLLOW i, SGT.P_CFG_BDIV i, SGT.P_CFG_SLOTS_M1 i, SGT.P_CFG_MUTE_SAFE i, SGT.P_CFG_BCLK_EDGE i, SGT.P_CFG_FS_WIDTH i, SGT.P_CFG_FS_POL i, SGT.P_CFG_DATA_DLY i]⟩,
  ⟨0x0104, 32, 6, 0, 1, fun i _ => [SGT.P_VMASK_VMASK i]⟩,
  ⟨0x0108, 32, 6, 0, 1, fun i _ => [SGT.P_STAT_LOCKED i, SGT.P_STAT_VALID i, SGT.P_STAT_MUTED i, SGT.P_STAT_DRIVING i, SGT.P_STAT_SUBFAIL i, SGT.P_STAT_CLKFAULTS i]⟩,
  ⟨0x0400, 4, 128, 0, 1, fun i _ => [SGT.IN_EN i, SGT.IN_TYPE i, SGT.IN_UNIT i, SGT.IN_SLOT i, SGT.IN_LAG i]⟩,
  ⟨0x0600, 4, 128, 0, 1, fun i _ => [SGT.OUT_EN i, SGT.OUT_TYPE i, SGT.OUT_CLASS i, SGT.OUT_UNIT i, SGT.OUT_SLOT i, SGT.OUT_SRC i, SGT.OUT_POLICY i, SGT.OUT_RAMP i]⟩,
  ⟨0x0800, 4, 128, 0, 1, fun i _ => [SGT.SUB_LOOP i, SGT.SUB_REF i, SGT.SUB_CHIME i, SGT.SUB_FB i, SGT.SUB_FB_OUT i]⟩,
  ⟨0x0A00, 16, 8, 0, 1, fun i _ => [SGT.FB_EN i, SGT.FB_MODEL_ID i]⟩]
def SGT.descs1 : List RegDesc := [
  ⟨0x0A04, 16, 8, 0, 1, fun i _ => [SGT.FB_IN0_IN i]⟩,
  ⟨0x0A08, 16, 8, 0, 1, fun i _ => [SGT.FB_IN1_IN i]⟩,
  ⟨0x0C00, 4, 16, 0, 1, fun i _ => [SGT.CHIME_VALID i, SGT.CHIME_FS_SEL i, SGT.CHIME_LEN i]⟩]
/-- The registers of block SGT. -/
def SGT.descs : List RegDesc := SGT.descs0 ++ SGT.descs1

/-! Block AVT at 0x01090000. -/
/-- AVT_INFO, address (09 R318, Table 09.9). -/
abbrev AVT.INFO : Nat := 0x01090000
def AVT.INFO_VERSION : Fld := ⟨AVT.INFO, 31, 24, .ro, 1⟩
/-- AVT_CTRL, address (09 R318, Table 09.9). -/
abbrev AVT.CTRL : Nat := 0x01090004
def AVT.CTRL_TALK_EN : Fld := ⟨AVT.CTRL, 31, 16, .rw, 0⟩
def AVT.CTRL_LIST_EN : Fld := ⟨AVT.CTRL, 15, 0, .rw, 0⟩
/-- AVT_L_ID_LO, address (09 R318, Table 09.9). -/
abbrev AVT.L_ID_LO (i : Nat) : Nat := 0x01090100 + 32 * i
def AVT.L_ID_LO_ID (i : Nat) : Fld := ⟨AVT.L_ID_LO i, 31, 0, .rwStatic, 0⟩
/-- AVT_L_ID_HI, address (09 R318, Table 09.9). -/
abbrev AVT.L_ID_HI (i : Nat) : Nat := 0x01090104 + 32 * i
def AVT.L_ID_HI_ID (i : Nat) : Fld := ⟨AVT.L_ID_HI i, 31, 0, .rwStatic, 0⟩
/-- AVT_L_CFG, address (09 R318, Table 09.9). -/
abbrev AVT.L_CFG (i : Nat) : Nat := 0x01090108 + 32 * i
def AVT.L_CFG_PORTS (i : Nat) : Fld := ⟨AVT.L_CFG i, 25, 24, .rwStatic, 0⟩
def AVT.L_CFG_FMT (i : Nat) : Fld := ⟨AVT.L_CFG i, 19, 16, .rwStatic, 2⟩
def AVT.L_CFG_CHANS_M1 (i : Nat) : Fld := ⟨AVT.L_CFG i, 10, 8, .rwStatic, 0⟩
def AVT.L_CFG_SPP_M1 (i : Nat) : Fld := ⟨AVT.L_CFG i, 5, 0, .rwStatic, 5⟩
/-- AVT_L_STAT, address (09 R318, Table 09.9). -/
abbrev AVT.L_STAT (i : Nat) : Nat := 0x0109010C + 32 * i
def AVT.L_STAT_LOCKED (i : Nat) : Fld := ⟨AVT.L_STAT i, 31, 31, .ro, 0⟩
/-- AVT_L_CNT, address (09 R318, Table 09.9). -/
abbrev AVT.L_CNT (i : Nat) : Nat := 0x01090110 + 32 * i
def AVT.L_CNT_LATE (i : Nat) : Fld := ⟨AVT.L_CNT i, 31, 16, .ro, 0⟩
def AVT.L_CNT_SEQ_GAP (i : Nat) : Fld := ⟨AVT.L_CNT i, 15, 0, .ro, 0⟩
/-- AVT_T_ID_LO, address (09 R318, Table 09.9). -/
abbrev AVT.T_ID_LO (i : Nat) : Nat := 0x01090400 + 32 * i
def AVT.T_ID_LO_ID (i : Nat) : Fld := ⟨AVT.T_ID_LO i, 31, 0, .rwStatic, 0⟩
/-- AVT_T_ID_HI, address (09 R318, Table 09.9). -/
abbrev AVT.T_ID_HI (i : Nat) : Nat := 0x01090404 + 32 * i
def AVT.T_ID_HI_ID (i : Nat) : Fld := ⟨AVT.T_ID_HI i, 31, 0, .rwStatic, 0⟩
/-- AVT_T_DA_LO, address (09 R318, Table 09.9). -/
abbrev AVT.T_DA_LO (i : Nat) : Nat := 0x01090408 + 32 * i
def AVT.T_DA_LO_DA (i : Nat) : Fld := ⟨AVT.T_DA_LO i, 31, 0, .rwStatic, 0⟩
/-- AVT_T_DA_HI, address (09 R318, Table 09.9). -/
abbrev AVT.T_DA_HI (i : Nat) : Nat := 0x0109040C + 32 * i
def AVT.T_DA_HI_VID (i : Nat) : Fld := ⟨AVT.T_DA_HI i, 27, 16, .rwStatic, 0⟩
def AVT.T_DA_HI_DA (i : Nat) : Fld := ⟨AVT.T_DA_HI i, 15, 0, .rwStatic, 0⟩
/-- AVT_T_CFG, address (09 R318, Table 09.9). -/
abbrev AVT.T_CFG (i : Nat) : Nat := 0x01090410 + 32 * i
def AVT.T_CFG_PORTS (i : Nat) : Fld := ⟨AVT.T_CFG i, 25, 24, .rwStatic, 0⟩
def AVT.T_CFG_PCP (i : Nat) : Fld := ⟨AVT.T_CFG i, 23, 21, .rwStatic, 3⟩
def AVT.T_CFG_CHANS_M1 (i : Nat) : Fld := ⟨AVT.T_CFG i, 10, 8, .rwStatic, 0⟩
def AVT.T_CFG_SPP_M1 (i : Nat) : Fld := ⟨AVT.T_CFG i, 5, 0, .rwStatic, 5⟩
/-- AVT_T_MTT, address (09 R318, Table 09.9). -/
abbrev AVT.T_MTT (i : Nat) : Nat := 0x01090414 + 32 * i
def AVT.T_MTT_MTT (i : Nat) : Fld := ⟨AVT.T_MTT i, 23, 0, .rwStatic, 2000000⟩
/-- AVT_T_STAT, address (09 R318, Table 09.9). -/
abbrev AVT.T_STAT (i : Nat) : Nat := 0x01090418 + 32 * i
def AVT.T_STAT_PKTS (i : Nat) : Fld := ⟨AVT.T_STAT i, 31, 0, .ro, 0⟩
def AVT.descs0 : List RegDesc := [
  ⟨0x0000, 0, 1, 0, 1, fun _ _ => [AVT.INFO_VERSION]⟩,
  ⟨0x0004, 0, 1, 0, 1, fun _ _ => [AVT.CTRL_TALK_EN, AVT.CTRL_LIST_EN]⟩,
  ⟨0x0100, 32, 16, 0, 1, fun i _ => [AVT.L_ID_LO_ID i]⟩,
  ⟨0x0104, 32, 16, 0, 1, fun i _ => [AVT.L_ID_HI_ID i]⟩,
  ⟨0x0108, 32, 16, 0, 1, fun i _ => [AVT.L_CFG_PORTS i, AVT.L_CFG_FMT i, AVT.L_CFG_CHANS_M1 i, AVT.L_CFG_SPP_M1 i]⟩,
  ⟨0x010C, 32, 16, 0, 1, fun i _ => [AVT.L_STAT_LOCKED i]⟩,
  ⟨0x0110, 32, 16, 0, 1, fun i _ => [AVT.L_CNT_LATE i, AVT.L_CNT_SEQ_GAP i]⟩,
  ⟨0x0400, 32, 16, 0, 1, fun i _ => [AVT.T_ID_LO_ID i]⟩,
  ⟨0x0404, 32, 16, 0, 1, fun i _ => [AVT.T_ID_HI_ID i]⟩,
  ⟨0x0408, 32, 16, 0, 1, fun i _ => [AVT.T_DA_LO_DA i]⟩,
  ⟨0x040C, 32, 16, 0, 1, fun i _ => [AVT.T_DA_HI_VID i, AVT.T_DA_HI_DA i]⟩,
  ⟨0x0410, 32, 16, 0, 1, fun i _ => [AVT.T_CFG_PORTS i, AVT.T_CFG_PCP i, AVT.T_CFG_CHANS_M1 i, AVT.T_CFG_SPP_M1 i]⟩]
def AVT.descs1 : List RegDesc := [
  ⟨0x0414, 32, 16, 0, 1, fun i _ => [AVT.T_MTT_MTT i]⟩,
  ⟨0x0418, 32, 16, 0, 1, fun i _ => [AVT.T_STAT_PKTS i]⟩]
/-- The registers of block AVT. -/
def AVT.descs : List RegDesc := AVT.descs0 ++ AVT.descs1

/-! Block ETH at 0x01070000. -/
/-- ETH_INFO, address (10 R356, Table 10.2). -/
abbrev ETH.INFO : Nat := 0x01070000
def ETH.INFO_VERSION : Fld := ⟨ETH.INFO, 31, 24, .ro, 1⟩
def ETH.INFO_PORTS : Fld := ⟨ETH.INFO, 3, 0, .ro, 2⟩
/-- ETH_CTRL, address (10 R356, Table 10.2). -/
abbrev ETH.CTRL : Nat := 0x01070004
def ETH.CTRL_EN : Fld := ⟨ETH.CTRL, 1, 0, .rw, 0⟩
/-- ETH_IP4, address (10 R356, Table 10.2). -/
abbrev ETH.IP4 : Nat := 0x01070010
def ETH.IP4_ADDR : Fld := ⟨ETH.IP4, 31, 0, .rwStatic, 0⟩
/-- ETH_IP6, address (10 R356, Table 10.2). -/
abbrev ETH.IP6 (i : Nat) : Nat := 0x01070014 + 4 * i
def ETH.IP6_ADDR (i : Nat) : Fld := ⟨ETH.IP6 i, 31, 0, .rwStatic, 0⟩
/-- ETH_IP_CFG, address (10 R356, Table 10.2). -/
abbrev ETH.IP_CFG : Nat := 0x01070024
def ETH.IP_CFG_VID : Fld := ⟨ETH.IP_CFG, 31, 20, .rwStatic, 0⟩
def ETH.IP_CFG_ICMP_EN : Fld := ⟨ETH.IP_CFG, 19, 19, .rwStatic, 0⟩
def ETH.IP_CFG_PCP : Fld := ⟨ETH.IP_CFG, 18, 16, .rwStatic, 7⟩
def ETH.IP_CFG_UDP_PORT : Fld := ⟨ETH.IP_CFG, 15, 0, .rwStatic, 45600⟩
/-- ETH_CB_CTRL, address (10 R356, Table 10.2). -/
abbrev ETH.CB_CTRL : Nat := 0x01070028
def ETH.CB_CTRL_CMD_GEN : Fld := ⟨ETH.CB_CTRL, 16, 16, .rwStatic, 1⟩
def ETH.CB_CTRL_TALK_GEN : Fld := ⟨ETH.CB_CTRL, 15, 0, .rwStatic, 0⟩
/-- ETH_STATUS_STAT, address (10 R356, Table 10.2). -/
abbrev ETH.STATUS_STAT : Nat := 0x01070030
def ETH.STATUS_STAT_LATE : Fld := ⟨ETH.STATUS_STAT, 31, 16, .ro, 0⟩
def ETH.STATUS_STAT_MAXLAT : Fld := ⟨ETH.STATUS_STAT, 15, 0, .ro, 0⟩
/-- ETH_P_CFG, address (10 R356, Table 10.2). -/
abbrev ETH.P_CFG (i : Nat) : Nat := 0x01071000 + 4096 * i
def ETH.P_CFG_MAXFRM (i : Nat) : Fld := ⟨ETH.P_CFG i, 27, 16, .rwStatic, 2304⟩
def ETH.P_CFG_SPEED (i : Nat) : Fld := ⟨ETH.P_CFG i, 1, 0, .rwStatic, 0⟩
/-- ETH_P_MAC_LO, address (10 R356, Table 10.2). -/
abbrev ETH.P_MAC_LO (i : Nat) : Nat := 0x01071004 + 4096 * i
def ETH.P_MAC_LO_MAC (i : Nat) : Fld := ⟨ETH.P_MAC_LO i, 31, 0, .rwStatic, 0⟩
/-- ETH_P_MAC_HI, address (10 R356, Table 10.2). -/
abbrev ETH.P_MAC_HI (i : Nat) : Nat := 0x01071008 + 4096 * i
def ETH.P_MAC_HI_MAC (i : Nat) : Fld := ⟨ETH.P_MAC_HI i, 15, 0, .rwStatic, 0⟩
/-- ETH_P_STAT, address (10 R356, Table 10.2). -/
abbrev ETH.P_STAT (i : Nat) : Nat := 0x0107100C + 4096 * i
def ETH.P_STAT_LINK (i : Nat) : Fld := ⟨ETH.P_STAT i, 31, 31, .ro, 0⟩
def ETH.P_STAT_PRE_ACTIVE (i : Nat) : Fld := ⟨ETH.P_STAT i, 30, 30, .ro, 0⟩
def ETH.P_STAT_SPEED (i : Nat) : Fld := ⟨ETH.P_STAT i, 1, 0, .ro, 0⟩
/-- ETH_P_LAT, address (10 R356, Table 10.2). -/
abbrev ETH.P_LAT (i : Nat) : Nat := 0x01071010 + 4096 * i
def ETH.P_LAT_TX_LAT (i : Nat) : Fld := ⟨ETH.P_LAT i, 31, 16, .rwStatic, 0⟩
def ETH.P_LAT_RX_LAT (i : Nat) : Fld := ⟨ETH.P_LAT i, 15, 0, .rwStatic, 0⟩
/-- ETH_P_PRE, address (10 R356, Table 10.2). -/
abbrev ETH.P_PRE (i : Nat) : Nat := 0x01071014 + 4096 * i
def ETH.P_PRE_EN (i : Nat) : Fld := ⟨ETH.P_PRE i, 31, 31, .rwStatic, 0⟩
def ETH.P_PRE_VERIFY (i : Nat) : Fld := ⟨ETH.P_PRE i, 10, 10, .rwStatic, 1⟩
def ETH.P_PRE_FRAG (i : Nat) : Fld := ⟨ETH.P_PRE i, 9, 8, .rwStatic, 0⟩
def ETH.P_PRE_EXPRESS (i : Nat) : Fld := ⟨ETH.P_PRE i, 7, 0, .rwStatic, 128⟩
/-- ETH_P_CBS, address (10 R356, Table 10.2). -/
abbrev ETH.P_CBS (i j : Nat) : Nat := 0x01071018 + 4096 * i + 4 * j
def ETH.P_CBS_EN (i j : Nat) : Fld := ⟨ETH.P_CBS i j, 31, 31, .rwStatic, 0⟩
def ETH.P_CBS_QUEUE (i j : Nat) : Fld := ⟨ETH.P_CBS i j, 30, 28, .rwStatic, 0⟩
def ETH.P_CBS_IDLE_KBPS (i j : Nat) : Fld := ⟨ETH.P_CBS i j, 23, 0, .rwStatic, 0⟩
/-- ETH_P_GATE_CTRL, address (10 R356, Table 10.2). -/
abbrev ETH.P_GATE_CTRL (i : Nat) : Nat := 0x01071020 + 4096 * i
def ETH.P_GATE_CTRL_EN (i : Nat) : Fld := ⟨ETH.P_GATE_CTRL i, 31, 31, .rw, 0⟩
def ETH.P_GATE_CTRL_GO (i : Nat) : Fld := ⟨ETH.P_GATE_CTRL i, 30, 30, .wo, 0⟩
def ETH.P_GATE_CTRL_TBSEL (i : Nat) : Fld := ⟨ETH.P_GATE_CTRL i, 29, 28, .rwStatic, 0⟩
def ETH.P_GATE_CTRL_ADMIN_LEN (i : Nat) : Fld := ⟨ETH.P_GATE_CTRL i, 8, 0, .rwStatic, 0⟩
/-- ETH_P_GATE_CYCLE, address (10 R356, Table 10.2). -/
abbrev ETH.P_GATE_CYCLE (i : Nat) : Nat := 0x01071024 + 4096 * i
def ETH.P_GATE_CYCLE_CYCLE (i : Nat) : Fld := ⟨ETH.P_GATE_CYCLE i, 29, 0, .rwStatic, 0⟩
/-- ETH_P_GATE_BASE_NS, address (10 R356, Table 10.2). -/
abbrev ETH.P_GATE_BASE_NS (i : Nat) : Nat := 0x01071028 + 4096 * i
def ETH.P_GATE_BASE_NS_NS (i : Nat) : Fld := ⟨ETH.P_GATE_BASE_NS i, 29, 0, .rwStatic, 0⟩
/-- ETH_P_GATE_BASE_SEC_LO, address (10 R356, Table 10.2). -/
abbrev ETH.P_GATE_BASE_SEC_LO (i : Nat) : Nat := 0x0107102C + 4096 * i
def ETH.P_GATE_BASE_SEC_LO_SEC (i : Nat) : Fld := ⟨ETH.P_GATE_BASE_SEC_LO i, 31, 0, .rwStatic, 0⟩
/-- ETH_P_GATE_BASE_SEC_HI, address (10 R356, Table 10.2). -/
abbrev ETH.P_GATE_BASE_SEC_HI (i : Nat) : Nat := 0x01071030 + 4096 * i
def ETH.P_GATE_BASE_SEC_HI_SEC (i : Nat) : Fld := ⟨ETH.P_GATE_BASE_SEC_HI i, 15, 0, .rwStatic, 0⟩
/-- ETH_P_GATE_STAT, address (10 R356, Table 10.2). -/
abbrev ETH.P_GATE_STAT (i : Nat) : Nat := 0x01071034 + 4096 * i
def ETH.P_GATE_STAT_PENDING (i : Nat) : Fld := ⟨ETH.P_GATE_STAT i, 31, 31, .ro, 0⟩
def ETH.P_GATE_STAT_ERR (i : Nat) : Fld := ⟨ETH.P_GATE_STAT i, 30, 30, .ro, 0⟩
def ETH.P_GATE_STAT_OPER_LEN (i : Nat) : Fld := ⟨ETH.P_GATE_STAT i, 8, 0, .ro, 0⟩
/-- ETH_P_RX_FRAMES, address (10 R356, Table 10.2). -/
abbrev ETH.P_RX_FRAMES (i : Nat) : Nat := 0x01071040 + 4096 * i
def ETH.P_RX_FRAMES_COUNT (i : Nat) : Fld := ⟨ETH.P_RX_FRAMES i, 31, 0, .ro, 0⟩
/-- ETH_P_RX_ERR, address (10 R356, Table 10.2). -/
abbrev ETH.P_RX_ERR (i : Nat) : Nat := 0x01071044 + 4096 * i
def ETH.P_RX_ERR_COUNT (i : Nat) : Fld := ⟨ETH.P_RX_ERR i, 31, 0, .ro, 0⟩
/-- ETH_P_TX_FRAMES, address (10 R356, Table 10.2). -/
abbrev ETH.P_TX_FRAMES (i : Nat) : Nat := 0x01071048 + 4096 * i
def ETH.P_TX_FRAMES_COUNT (i : Nat) : Fld := ⟨ETH.P_TX_FRAMES i, 31, 0, .ro, 0⟩
/-- ETH_P_MS_CTRL, address (10 R356, Table 10.2). -/
abbrev ETH.P_MS_CTRL (i : Nat) : Nat := 0x01071100 + 4096 * i
def ETH.P_MS_CTRL_EN (i : Nat) : Fld := ⟨ETH.P_MS_CTRL i, 31, 31, .rwStatic, 0⟩
def ETH.P_MS_CTRL_TX_AN (i : Nat) : Fld := ⟨ETH.P_MS_CTRL i, 9, 8, .rw, 0⟩
def ETH.P_MS_CTRL_RX_SC (i : Nat) : Fld := ⟨ETH.P_MS_CTRL i, 2, 0, .rwStatic, 0⟩
/-- ETH_P_MS_REPLAY, address (10 R356, Table 10.2). -/
abbrev ETH.P_MS_REPLAY (i : Nat) : Nat := 0x01071104 + 4096 * i
def ETH.P_MS_REPLAY_WINDOW (i : Nat) : Fld := ⟨ETH.P_MS_REPLAY i, 31, 0, .rwStatic, 0⟩
/-- ETH_P_MS_TX_SCI_LO, address (10 R356, Table 10.2). -/
abbrev ETH.P_MS_TX_SCI_LO (i : Nat) : Nat := 0x01071108 + 4096 * i
def ETH.P_MS_TX_SCI_LO_SCI (i : Nat) : Fld := ⟨ETH.P_MS_TX_SCI_LO i, 31, 0, .rwStatic, 0⟩
/-- ETH_P_MS_TX_SCI_HI, address (10 R356, Table 10.2). -/
abbrev ETH.P_MS_TX_SCI_HI (i : Nat) : Nat := 0x0107110C + 4096 * i
def ETH.P_MS_TX_SCI_HI_SCI (i : Nat) : Fld := ⟨ETH.P_MS_TX_SCI_HI i, 31, 0, .rwStatic, 0⟩
/-- ETH_P_MS_RX_SCI_LO, address (10 R356, Table 10.2). -/
abbrev ETH.P_MS_RX_SCI_LO (i j : Nat) : Nat := 0x01071110 + 4096 * i + 8 * j
def ETH.P_MS_RX_SCI_LO_SCI (i j : Nat) : Fld := ⟨ETH.P_MS_RX_SCI_LO i j, 31, 0, .rwStatic, 0⟩
/-- ETH_P_MS_RX_SCI_HI, address (10 R356, Table 10.2). -/
abbrev ETH.P_MS_RX_SCI_HI (i j : Nat) : Nat := 0x01071114 + 4096 * i + 8 * j
def ETH.P_MS_RX_SCI_HI_SCI (i j : Nat) : Fld := ⟨ETH.P_MS_RX_SCI_HI i j, 31, 0, .rwStatic, 0⟩
/-- ETH_P_MS_KSEL, address (10 R356, Table 10.2). -/
abbrev ETH.P_MS_KSEL (i : Nat) : Nat := 0x01071130 + 4096 * i
def ETH.P_MS_KSEL_SA (i : Nat) : Fld := ⟨ETH.P_MS_KSEL i, 4, 0, .wo, 0⟩
/-- ETH_P_MS_KEY, address (10 R356, Table 10.2). -/
abbrev ETH.P_MS_KEY (i j : Nat) : Nat := 0x01071140 + 4096 * i + 4 * j
def ETH.P_MS_KEY_KEY (i j : Nat) : Fld := ⟨ETH.P_MS_KEY i j, 31, 0, .wo, 0⟩
/-- ETH_P_MS_SALT, address (10 R356, Table 10.2). -/
abbrev ETH.P_MS_SALT (i j : Nat) : Nat := 0x01071160 + 4096 * i + 4 * j
def ETH.P_MS_SALT_SALT (i j : Nat) : Fld := ⟨ETH.P_MS_SALT i j, 31, 0, .wo, 0⟩
/-- ETH_P_MS_SSCI, address (10 R356, Table 10.2). -/
abbrev ETH.P_MS_SSCI (i : Nat) : Nat := 0x0107116C + 4096 * i
def ETH.P_MS_SSCI_SSCI (i : Nat) : Fld := ⟨ETH.P_MS_SSCI i, 31, 0, .wo, 0⟩
/-- ETH_P_MS_PN_LO, address (10 R356, Table 10.2). -/
abbrev ETH.P_MS_PN_LO (i : Nat) : Nat := 0x01071170 + 4096 * i
def ETH.P_MS_PN_LO_PN (i : Nat) : Fld := ⟨ETH.P_MS_PN_LO i, 31, 0, .wo, 0⟩
/-- ETH_P_MS_PN_HI, address (10 R356, Table 10.2). -/
abbrev ETH.P_MS_PN_HI (i : Nat) : Nat := 0x01071174 + 4096 * i
def ETH.P_MS_PN_HI_PN (i : Nat) : Fld := ⟨ETH.P_MS_PN_HI i, 31, 0, .wo, 0⟩
/-- ETH_P_MS_INSTALL, address (10 R356, Table 10.2). -/
abbrev ETH.P_MS_INSTALL (i : Nat) : Nat := 0x01071178 + 4096 * i
def ETH.P_MS_INSTALL_GO (i : Nat) : Fld := ⟨ETH.P_MS_INSTALL i, 0, 0, .wo, 0⟩
/-- ETH_P_MS_SA_STAT, address (10 R356, Table 10.2). -/
abbrev ETH.P_MS_SA_STAT (i : Nat) : Nat := 0x01071180 + 4096 * i
def ETH.P_MS_SA_STAT_VALID (i : Nat) : Fld := ⟨ETH.P_MS_SA_STAT i, 19, 0, .ro, 0⟩
/-- ETH_P_MS_CNT, address (10 R356, Table 10.2). -/
abbrev ETH.P_MS_CNT (i : Nat) : Nat := 0x01071184 + 4096 * i
def ETH.P_MS_CNT_ICV_FAIL (i : Nat) : Fld := ⟨ETH.P_MS_CNT i, 31, 16, .ro, 0⟩
def ETH.P_MS_CNT_DROP (i : Nat) : Fld := ⟨ETH.P_MS_CNT i, 15, 0, .ro, 0⟩
/-- ETH_P_GCL_GATES, address (10 R356, Table 10.2). -/
abbrev ETH.P_GCL_GATES (i j : Nat) : Nat := 0x01071400 + 4096 * i + 8 * j
def ETH.P_GCL_GATES_GATES (i j : Nat) : Fld := ⟨ETH.P_GCL_GATES i j, 7, 0, .rwStatic, 255⟩
/-- ETH_P_GCL_INT, address (10 R356, Table 10.2). -/
abbrev ETH.P_GCL_INT (i j : Nat) : Nat := 0x01071404 + 4096 * i + 8 * j
def ETH.P_GCL_INT_INTERVAL (i j : Nat) : Fld := ⟨ETH.P_GCL_INT i j, 29, 0, .rwStatic, 0⟩
/-- ETH_SF_ID_LO, address (10 R356, Table 10.2). -/
abbrev ETH.SF_ID_LO (i : Nat) : Nat := 0x01074000 + 16 * i
def ETH.SF_ID_LO_MAC (i : Nat) : Fld := ⟨ETH.SF_ID_LO i, 31, 0, .rwStatic, 0⟩
/-- ETH_SF_ID_HI, address (10 R356, Table 10.2). -/
abbrev ETH.SF_ID_HI (i : Nat) : Nat := 0x01074004 + 16 * i
def ETH.SF_ID_HI_EN (i : Nat) : Fld := ⟨ETH.SF_ID_HI i, 31, 31, .rwStatic, 0⟩
def ETH.SF_ID_HI_MODE (i : Nat) : Fld := ⟨ETH.SF_ID_HI i, 30, 30, .rwStatic, 0⟩
def ETH.SF_ID_HI_VID (i : Nat) : Fld := ⟨ETH.SF_ID_HI i, 27, 16, .rwStatic, 0⟩
def ETH.SF_ID_HI_MAC (i : Nat) : Fld := ⟨ETH.SF_ID_HI i, 15, 0, .rwStatic, 0⟩
/-- ETH_SF_ACT, address (10 R356, Table 10.2). -/
abbrev ETH.SF_ACT (i : Nat) : Nat := 0x01074008 + 16 * i
def ETH.SF_ACT_GATE_OPEN (i : Nat) : Fld := ⟨ETH.SF_ACT i, 23, 23, .rwStatic, 1⟩
def ETH.SF_ACT_METER_EN (i : Nat) : Fld := ⟨ETH.SF_ACT i, 22, 22, .rwStatic, 0⟩
def ETH.SF_ACT_METER (i : Nat) : Fld := ⟨ETH.SF_ACT i, 20, 16, .rwStatic, 0⟩
def ETH.SF_ACT_MAXSDU (i : Nat) : Fld := ⟨ETH.SF_ACT i, 11, 0, .rwStatic, 2304⟩
/-- ETH_SF_DROP, address (10 R356, Table 10.2). -/
abbrev ETH.SF_DROP (i : Nat) : Nat := 0x0107400C + 16 * i
def ETH.SF_DROP_COUNT (i : Nat) : Fld := ⟨ETH.SF_DROP i, 31, 0, .ro, 0⟩
/-- ETH_FM_CIR, address (10 R356, Table 10.2). -/
abbrev ETH.FM_CIR (i : Nat) : Nat := 0x01074400 + 16 * i
def ETH.FM_CIR_DROP_YELLOW (i : Nat) : Fld := ⟨ETH.FM_CIR i, 31, 31, .rwStatic, 0⟩
def ETH.FM_CIR_CIR (i : Nat) : Fld := ⟨ETH.FM_CIR i, 23, 0, .rwStatic, 0⟩
/-- ETH_FM_CBS, address (10 R356, Table 10.2). -/
abbrev ETH.FM_CBS (i : Nat) : Nat := 0x01074404 + 16 * i
def ETH.FM_CBS_CBS (i : Nat) : Fld := ⟨ETH.FM_CBS i, 23, 0, .rwStatic, 0⟩
/-- ETH_FM_EIR, address (10 R356, Table 10.2). -/
abbrev ETH.FM_EIR (i : Nat) : Nat := 0x01074408 + 16 * i
def ETH.FM_EIR_EIR (i : Nat) : Fld := ⟨ETH.FM_EIR i, 23, 0, .rwStatic, 0⟩
/-- ETH_FM_EBS, address (10 R356, Table 10.2). -/
abbrev ETH.FM_EBS (i : Nat) : Nat := 0x0107440C + 16 * i
def ETH.FM_EBS_EBS (i : Nat) : Fld := ⟨ETH.FM_EBS i, 23, 0, .rwStatic, 0⟩
/-- ETH_CBR_CFG, address (10 R356, Table 10.2). -/
abbrev ETH.CBR_CFG (i : Nat) : Nat := 0x01074800 + 16 * i
def ETH.CBR_CFG_EN (i : Nat) : Fld := ⟨ETH.CBR_CFG i, 31, 31, .rwStatic, 0⟩
def ETH.CBR_CFG_SF (i : Nat) : Fld := ⟨ETH.CBR_CFG i, 29, 24, .rwStatic, 0⟩
def ETH.CBR_CFG_HIST_M1 (i : Nat) : Fld := ⟨ETH.CBR_CFG i, 20, 16, .rwStatic, 0⟩
def ETH.CBR_CFG_TIMEOUT (i : Nat) : Fld := ⟨ETH.CBR_CFG i, 9, 0, .rwStatic, 0⟩
/-- ETH_CBR_PASSED, address (10 R356, Table 10.2). -/
abbrev ETH.CBR_PASSED (i : Nat) : Nat := 0x01074804 + 16 * i
def ETH.CBR_PASSED_COUNT (i : Nat) : Fld := ⟨ETH.CBR_PASSED i, 31, 0, .ro, 0⟩
/-- ETH_CBR_DISCARD, address (10 R356, Table 10.2). -/
abbrev ETH.CBR_DISCARD (i : Nat) : Nat := 0x01074808 + 16 * i
def ETH.CBR_DISCARD_COUNT (i : Nat) : Fld := ⟨ETH.CBR_DISCARD i, 31, 0, .ro, 0⟩
/-- ETH_CBR_LOST, address (10 R356, Table 10.2). -/
abbrev ETH.CBR_LOST (i : Nat) : Nat := 0x0107480C + 16 * i
def ETH.CBR_LOST_COUNT (i : Nat) : Fld := ⟨ETH.CBR_LOST i, 31, 0, .ro, 0⟩
/-- ETH_CMD_CTRL, address (11 R379, Table 11.6). -/
abbrev ETH.CMD_CTRL : Nat := 0x01070040
def ETH.CMD_CTRL_SESS_IDLE : Fld := ⟨ETH.CMD_CTRL, 15, 8, .rwStatic, 10⟩
def ETH.CMD_CTRL_MAX_SESS : Fld := ⟨ETH.CMD_CTRL, 3, 0, .rwStatic, 8⟩
/-- ETH_CMD_STAT, address (11 R379, Table 11.6). -/
abbrev ETH.CMD_STAT : Nat := 0x01070044
def ETH.CMD_STAT_AUTH_DROP : Fld := ⟨ETH.CMD_STAT, 31, 16, .ro, 0⟩
def ETH.CMD_STAT_ADDR_DROP : Fld := ⟨ETH.CMD_STAT, 15, 8, .ro, 0⟩
def ETH.CMD_STAT_DUP : Fld := ⟨ETH.CMD_STAT, 7, 0, .ro, 0⟩
/-- ETH_CMD_SESS, address (11 R379, Table 11.6). -/
abbrev ETH.CMD_SESS : Nat := 0x01070048
def ETH.CMD_SESS_OPEN : Fld := ⟨ETH.CMD_SESS, 7, 0, .ro, 0⟩
/-- ETH_CMD_INJ, address (11 R379, Table 11.6). -/
abbrev ETH.CMD_INJ : Nat := 0x0107004C
def ETH.CMD_INJ_ARM : Fld := ⟨ETH.CMD_INJ, 31, 31, .rw, 0⟩
def ETH.CMD_INJ_MODE : Fld := ⟨ETH.CMD_INJ, 1, 0, .rw, 0⟩
/-- ETH_SD_CFG, address (11 R379, Table 11.6). -/
abbrev ETH.SD_CFG (i : Nat) : Nat := 0x01070080 + 32 * i
def ETH.SD_CFG_EN (i : Nat) : Fld := ⟨ETH.SD_CFG i, 31, 31, .rwl, 0⟩
def ETH.SD_CFG_IPV6 (i : Nat) : Fld := ⟨ETH.SD_CFG i, 30, 30, .rwl, 0⟩
def ETH.SD_CFG_PORTS (i : Nat) : Fld := ⟨ETH.SD_CFG i, 25, 24, .rwl, 0⟩
def ETH.SD_CFG_UDP_PORT (i : Nat) : Fld := ⟨ETH.SD_CFG i, 15, 0, .rwl, 45600⟩
/-- ETH_SD_ADDR, address (11 R379, Table 11.6). -/
abbrev ETH.SD_ADDR (i j : Nat) : Nat := 0x01070084 + 32 * i + 4 * j
def ETH.SD_ADDR_ADDR (i j : Nat) : Fld := ⟨ETH.SD_ADDR i j, 31, 0, .rwl, 0⟩
/-- ETH_SD_MAC_LO, address (11 R379, Table 11.6). -/
abbrev ETH.SD_MAC_LO (i : Nat) : Nat := 0x01070094 + 32 * i
def ETH.SD_MAC_LO_MAC (i : Nat) : Fld := ⟨ETH.SD_MAC_LO i, 31, 0, .rwl, 0⟩
/-- ETH_SD_MAC_HI, address (11 R379, Table 11.6). -/
abbrev ETH.SD_MAC_HI (i : Nat) : Nat := 0x01070098 + 32 * i
def ETH.SD_MAC_HI_VID (i : Nat) : Fld := ⟨ETH.SD_MAC_HI i, 27, 16, .rwl, 0⟩
def ETH.SD_MAC_HI_MAC (i : Nat) : Fld := ⟨ETH.SD_MAC_HI i, 15, 0, .rwl, 0⟩
def ETH.descs0 : List RegDesc := [
  ⟨0x0000, 0, 1, 0, 1, fun _ _ => [ETH.INFO_VERSION, ETH.INFO_PORTS]⟩,
  ⟨0x0004, 0, 1, 0, 1, fun _ _ => [ETH.CTRL_EN]⟩,
  ⟨0x0010, 0, 1, 0, 1, fun _ _ => [ETH.IP4_ADDR]⟩,
  ⟨0x0014, 4, 4, 0, 1, fun i _ => [ETH.IP6_ADDR i]⟩,
  ⟨0x0024, 0, 1, 0, 1, fun _ _ => [ETH.IP_CFG_VID, ETH.IP_CFG_ICMP_EN, ETH.IP_CFG_PCP, ETH.IP_CFG_UDP_PORT]⟩,
  ⟨0x0028, 0, 1, 0, 1, fun _ _ => [ETH.CB_CTRL_CMD_GEN, ETH.CB_CTRL_TALK_GEN]⟩,
  ⟨0x0030, 0, 1, 0, 1, fun _ _ => [ETH.STATUS_STAT_LATE, ETH.STATUS_STAT_MAXLAT]⟩,
  ⟨0x1000, 4096, 2, 0, 1, fun i _ => [ETH.P_CFG_MAXFRM i, ETH.P_CFG_SPEED i]⟩,
  ⟨0x1004, 4096, 2, 0, 1, fun i _ => [ETH.P_MAC_LO_MAC i]⟩,
  ⟨0x1008, 4096, 2, 0, 1, fun i _ => [ETH.P_MAC_HI_MAC i]⟩,
  ⟨0x100C, 4096, 2, 0, 1, fun i _ => [ETH.P_STAT_LINK i, ETH.P_STAT_PRE_ACTIVE i, ETH.P_STAT_SPEED i]⟩,
  ⟨0x1010, 4096, 2, 0, 1, fun i _ => [ETH.P_LAT_TX_LAT i, ETH.P_LAT_RX_LAT i]⟩]
def ETH.descs1 : List RegDesc := [
  ⟨0x1014, 4096, 2, 0, 1, fun i _ => [ETH.P_PRE_EN i, ETH.P_PRE_VERIFY i, ETH.P_PRE_FRAG i, ETH.P_PRE_EXPRESS i]⟩,
  ⟨0x1018, 4096, 2, 4, 2, fun i j => [ETH.P_CBS_EN i j, ETH.P_CBS_QUEUE i j, ETH.P_CBS_IDLE_KBPS i j]⟩,
  ⟨0x1020, 4096, 2, 0, 1, fun i _ => [ETH.P_GATE_CTRL_EN i, ETH.P_GATE_CTRL_GO i, ETH.P_GATE_CTRL_TBSEL i, ETH.P_GATE_CTRL_ADMIN_LEN i]⟩,
  ⟨0x1024, 4096, 2, 0, 1, fun i _ => [ETH.P_GATE_CYCLE_CYCLE i]⟩,
  ⟨0x1028, 4096, 2, 0, 1, fun i _ => [ETH.P_GATE_BASE_NS_NS i]⟩,
  ⟨0x102C, 4096, 2, 0, 1, fun i _ => [ETH.P_GATE_BASE_SEC_LO_SEC i]⟩,
  ⟨0x1030, 4096, 2, 0, 1, fun i _ => [ETH.P_GATE_BASE_SEC_HI_SEC i]⟩,
  ⟨0x1034, 4096, 2, 0, 1, fun i _ => [ETH.P_GATE_STAT_PENDING i, ETH.P_GATE_STAT_ERR i, ETH.P_GATE_STAT_OPER_LEN i]⟩,
  ⟨0x1040, 4096, 2, 0, 1, fun i _ => [ETH.P_RX_FRAMES_COUNT i]⟩,
  ⟨0x1044, 4096, 2, 0, 1, fun i _ => [ETH.P_RX_ERR_COUNT i]⟩,
  ⟨0x1048, 4096, 2, 0, 1, fun i _ => [ETH.P_TX_FRAMES_COUNT i]⟩,
  ⟨0x1100, 4096, 2, 0, 1, fun i _ => [ETH.P_MS_CTRL_EN i, ETH.P_MS_CTRL_TX_AN i, ETH.P_MS_CTRL_RX_SC i]⟩]
def ETH.descs2 : List RegDesc := [
  ⟨0x1104, 4096, 2, 0, 1, fun i _ => [ETH.P_MS_REPLAY_WINDOW i]⟩,
  ⟨0x1108, 4096, 2, 0, 1, fun i _ => [ETH.P_MS_TX_SCI_LO_SCI i]⟩,
  ⟨0x110C, 4096, 2, 0, 1, fun i _ => [ETH.P_MS_TX_SCI_HI_SCI i]⟩,
  ⟨0x1110, 4096, 2, 8, 4, fun i j => [ETH.P_MS_RX_SCI_LO_SCI i j]⟩,
  ⟨0x1114, 4096, 2, 8, 4, fun i j => [ETH.P_MS_RX_SCI_HI_SCI i j]⟩,
  ⟨0x1130, 4096, 2, 0, 1, fun i _ => [ETH.P_MS_KSEL_SA i]⟩,
  ⟨0x1140, 4096, 2, 4, 8, fun i j => [ETH.P_MS_KEY_KEY i j]⟩,
  ⟨0x1160, 4096, 2, 4, 3, fun i j => [ETH.P_MS_SALT_SALT i j]⟩,
  ⟨0x116C, 4096, 2, 0, 1, fun i _ => [ETH.P_MS_SSCI_SSCI i]⟩,
  ⟨0x1170, 4096, 2, 0, 1, fun i _ => [ETH.P_MS_PN_LO_PN i]⟩,
  ⟨0x1174, 4096, 2, 0, 1, fun i _ => [ETH.P_MS_PN_HI_PN i]⟩,
  ⟨0x1178, 4096, 2, 0, 1, fun i _ => [ETH.P_MS_INSTALL_GO i]⟩]
def ETH.descs3 : List RegDesc := [
  ⟨0x1180, 4096, 2, 0, 1, fun i _ => [ETH.P_MS_SA_STAT_VALID i]⟩,
  ⟨0x1184, 4096, 2, 0, 1, fun i _ => [ETH.P_MS_CNT_ICV_FAIL i, ETH.P_MS_CNT_DROP i]⟩,
  ⟨0x1400, 4096, 2, 8, 256, fun i j => [ETH.P_GCL_GATES_GATES i j]⟩,
  ⟨0x1404, 4096, 2, 8, 256, fun i j => [ETH.P_GCL_INT_INTERVAL i j]⟩,
  ⟨0x4000, 16, 64, 0, 1, fun i _ => [ETH.SF_ID_LO_MAC i]⟩,
  ⟨0x4004, 16, 64, 0, 1, fun i _ => [ETH.SF_ID_HI_EN i, ETH.SF_ID_HI_MODE i, ETH.SF_ID_HI_VID i, ETH.SF_ID_HI_MAC i]⟩,
  ⟨0x4008, 16, 64, 0, 1, fun i _ => [ETH.SF_ACT_GATE_OPEN i, ETH.SF_ACT_METER_EN i, ETH.SF_ACT_METER i, ETH.SF_ACT_MAXSDU i]⟩,
  ⟨0x400C, 16, 64, 0, 1, fun i _ => [ETH.SF_DROP_COUNT i]⟩,
  ⟨0x4400, 16, 32, 0, 1, fun i _ => [ETH.FM_CIR_DROP_YELLOW i, ETH.FM_CIR_CIR i]⟩,
  ⟨0x4404, 16, 32, 0, 1, fun i _ => [ETH.FM_CBS_CBS i]⟩,
  ⟨0x4408, 16, 32, 0, 1, fun i _ => [ETH.FM_EIR_EIR i]⟩,
  ⟨0x440C, 16, 32, 0, 1, fun i _ => [ETH.FM_EBS_EBS i]⟩]
def ETH.descs4 : List RegDesc := [
  ⟨0x4800, 16, 32, 0, 1, fun i _ => [ETH.CBR_CFG_EN i, ETH.CBR_CFG_SF i, ETH.CBR_CFG_HIST_M1 i, ETH.CBR_CFG_TIMEOUT i]⟩,
  ⟨0x4804, 16, 32, 0, 1, fun i _ => [ETH.CBR_PASSED_COUNT i]⟩,
  ⟨0x4808, 16, 32, 0, 1, fun i _ => [ETH.CBR_DISCARD_COUNT i]⟩,
  ⟨0x480C, 16, 32, 0, 1, fun i _ => [ETH.CBR_LOST_COUNT i]⟩,
  ⟨0x0040, 0, 1, 0, 1, fun _ _ => [ETH.CMD_CTRL_SESS_IDLE, ETH.CMD_CTRL_MAX_SESS]⟩,
  ⟨0x0044, 0, 1, 0, 1, fun _ _ => [ETH.CMD_STAT_AUTH_DROP, ETH.CMD_STAT_ADDR_DROP, ETH.CMD_STAT_DUP]⟩,
  ⟨0x0048, 0, 1, 0, 1, fun _ _ => [ETH.CMD_SESS_OPEN]⟩,
  ⟨0x004C, 0, 1, 0, 1, fun _ _ => [ETH.CMD_INJ_ARM, ETH.CMD_INJ_MODE]⟩,
  ⟨0x0080, 32, 4, 0, 1, fun i _ => [ETH.SD_CFG_EN i, ETH.SD_CFG_IPV6 i, ETH.SD_CFG_PORTS i, ETH.SD_CFG_UDP_PORT i]⟩,
  ⟨0x0084, 32, 4, 4, 4, fun i j => [ETH.SD_ADDR_ADDR i j]⟩,
  ⟨0x0094, 32, 4, 0, 1, fun i _ => [ETH.SD_MAC_LO_MAC i]⟩,
  ⟨0x0098, 32, 4, 0, 1, fun i _ => [ETH.SD_MAC_HI_VID i, ETH.SD_MAC_HI_MAC i]⟩]
/-- The registers of block ETH. -/
def ETH.descs : List RegDesc := ETH.descs0 ++ ETH.descs1 ++ ETH.descs2 ++ ETH.descs3 ++ ETH.descs4

/-! Block TIM at 0x01060000. -/
/-- TIM_INFO, address (10 R357, Table 10.3). -/
abbrev TIM.INFO : Nat := 0x01060000
def TIM.INFO_VERSION : Fld := ⟨TIM.INFO, 31, 24, .ro, 1⟩
/-- TIM_CTRL, address (10 R357, Table 10.3). -/
abbrev TIM.CTRL : Nat := 0x01060004
def TIM.CTRL_MODE : Fld := ⟨TIM.CTRL, 0, 0, .rwStatic, 0⟩
/-- TIM_PTP_CFG, address (10 R357, Table 10.3). -/
abbrev TIM.PTP_CFG (i : Nat) : Nat := 0x01060010 + 16 * i
def TIM.PTP_CFG_EN (i : Nat) : Fld := ⟨TIM.PTP_CFG i, 31, 31, .rw, 0⟩
def TIM.PTP_CFG_PORT (i : Nat) : Fld := ⟨TIM.PTP_CFG i, 24, 24, .rw, 0⟩
def TIM.PTP_CFG_ANN_LOSS (i : Nat) : Fld := ⟨TIM.PTP_CFG i, 15, 12, .rw, 3⟩
def TIM.PTP_CFG_SYNC_LOSS (i : Nat) : Fld := ⟨TIM.PTP_CFG i, 11, 8, .rw, 3⟩
def TIM.PTP_CFG_DOMAIN (i : Nat) : Fld := ⟨TIM.PTP_CFG i, 6, 0, .rw, 0⟩
/-- TIM_PTP_STAT, address (10 R357, Table 10.3). -/
abbrev TIM.PTP_STAT (i : Nat) : Nat := 0x01060014 + 16 * i
def TIM.PTP_STAT_VALID (i : Nat) : Fld := ⟨TIM.PTP_STAT i, 31, 31, .ro, 0⟩
def TIM.PTP_STAT_GM_CHANGES (i : Nat) : Fld := ⟨TIM.PTP_STAT i, 15, 0, .ro, 0⟩
/-- TIM_PTP_GM_LO, address (10 R357, Table 10.3). -/
abbrev TIM.PTP_GM_LO (i : Nat) : Nat := 0x01060018 + 16 * i
def TIM.PTP_GM_LO_GM (i : Nat) : Fld := ⟨TIM.PTP_GM_LO i, 31, 0, .ro, 0⟩
/-- TIM_PTP_GM_HI, address (10 R357, Table 10.3). -/
abbrev TIM.PTP_GM_HI (i : Nat) : Nat := 0x0106001C + 16 * i
def TIM.PTP_GM_HI_GM (i : Nat) : Fld := ⟨TIM.PTP_GM_HI i, 31, 0, .ro, 0⟩
/-- TIM_DELTA_SEC, address (10 R357, Table 10.3). -/
abbrev TIM.DELTA_SEC : Nat := 0x01060040
def TIM.DELTA_SEC_SEC : Fld := ⟨TIM.DELTA_SEC, 31, 0, .ro, 0⟩
/-- TIM_DELTA_NS, address (10 R357, Table 10.3). -/
abbrev TIM.DELTA_NS : Nat := 0x01060044
def TIM.DELTA_NS_VALID : Fld := ⟨TIM.DELTA_NS, 31, 31, .ro, 0⟩
def TIM.DELTA_NS_NS : Fld := ⟨TIM.DELTA_NS, 29, 0, .ro, 0⟩
/-- TIM_TB_CFG, address (10 R357, Table 10.3). -/
abbrev TIM.TB_CFG (i : Nat) : Nat := 0x01060100 + 32 * i
def TIM.TB_CFG_REVERT_S (i : Nat) : Fld := ⟨TIM.TB_CFG i, 23, 8, .rw, 0⟩
def TIM.TB_CFG_SRC (i : Nat) : Fld := ⟨TIM.TB_CFG i, 2, 0, .rw, 0⟩
/-- TIM_TB_NS, address (10 R357, Table 10.3). -/
abbrev TIM.TB_NS (i : Nat) : Nat := 0x01060104 + 32 * i
def TIM.TB_NS_NS (i : Nat) : Fld := ⟨TIM.TB_NS i, 29, 0, .ro, 0⟩
/-- TIM_TB_SEC_LO, address (10 R357, Table 10.3). -/
abbrev TIM.TB_SEC_LO (i : Nat) : Nat := 0x01060108 + 32 * i
def TIM.TB_SEC_LO_SEC (i : Nat) : Fld := ⟨TIM.TB_SEC_LO i, 31, 0, .ro, 0⟩
/-- TIM_TB_SEC_HI, address (10 R357, Table 10.3). -/
abbrev TIM.TB_SEC_HI (i : Nat) : Nat := 0x0106010C + 32 * i
def TIM.TB_SEC_HI_SEC (i : Nat) : Fld := ⟨TIM.TB_SEC_HI i, 15, 0, .ro, 0⟩
/-- TIM_TB_STAT, address (10 R357, Table 10.3). -/
abbrev TIM.TB_STAT (i : Nat) : Nat := 0x01060110 + 32 * i
def TIM.TB_STAT_ON_ALT (i : Nat) : Fld := ⟨TIM.TB_STAT i, 2, 2, .ro, 0⟩
def TIM.TB_STAT_STATE (i : Nat) : Fld := ⟨TIM.TB_STAT i, 1, 0, .ro, 0⟩
/-- TIM_TB_OFFSET, address (10 R357, Table 10.3). -/
abbrev TIM.TB_OFFSET (i : Nat) : Nat := 0x01060114 + 32 * i
def TIM.TB_OFFSET_NS (i : Nat) : Fld := ⟨TIM.TB_OFFSET i, 31, 0, .ro, 0⟩
/-- TIM_TB_STEP, address (10 R357, Table 10.3). -/
abbrev TIM.TB_STEP (i : Nat) : Nat := 0x01060118 + 32 * i
def TIM.TB_STEP_NS (i : Nat) : Fld := ⟨TIM.TB_STEP i, 31, 0, .wo, 0⟩
/-- TIM_TB_RATE, address (10 R357, Table 10.3). -/
abbrev TIM.TB_RATE (i : Nat) : Nat := 0x0106011C + 32 * i
def TIM.TB_RATE_PPB (i : Nat) : Fld := ⟨TIM.TB_RATE i, 31, 0, .rw, 0⟩
/-- TIM_SERVO, address (10 R357, Table 10.3). -/
abbrev TIM.SERVO : Nat := 0x01060200
def TIM.SERVO_SLEW_MAX : Fld := ⟨TIM.SERVO, 19, 0, .rwStatic, 10000⟩
/-- TIM_SERVO2, address (10 R357, Table 10.3). -/
abbrev TIM.SERVO2 : Nat := 0x01060204
def TIM.SERVO2_STEP_THR : Fld := ⟨TIM.SERVO2, 31, 16, .rwStatic, 100⟩
def TIM.SERVO2_LOCK_THR : Fld := ⟨TIM.SERVO2, 15, 0, .rwStatic, 100⟩
/-- TIM_TICK_CFG, address (10 R357, Table 10.3). -/
abbrev TIM.TICK_CFG : Nat := 0x01060210
def TIM.TICK_CFG_LOCK_EN : Fld := ⟨TIM.TICK_CFG, 31, 31, .rwStatic, 0⟩
def TIM.TICK_CFG_TBSEL : Fld := ⟨TIM.TICK_CFG, 29, 28, .rwStatic, 0⟩
def TIM.TICK_CFG_WIN : Fld := ⟨TIM.TICK_CFG, 15, 0, .rwStatic, 1000⟩
/-- TIM_TICK_START_NS, address (10 R357, Table 10.3). -/
abbrev TIM.TICK_START_NS : Nat := 0x01060214
def TIM.TICK_START_NS_START : Fld := ⟨TIM.TICK_START_NS, 29, 0, .rwStatic, 0⟩
/-- TIM_TICK_START_SEC_LO, address (10 R357, Table 10.3). -/
abbrev TIM.TICK_START_SEC_LO : Nat := 0x01060218
def TIM.TICK_START_SEC_LO_START : Fld := ⟨TIM.TICK_START_SEC_LO, 31, 0, .rwStatic, 0⟩
/-- TIM_TICK_START_SEC_HI, address (10 R357, Table 10.3). -/
abbrev TIM.TICK_START_SEC_HI : Nat := 0x0106021C
def TIM.TICK_START_SEC_HI_START : Fld := ⟨TIM.TICK_START_SEC_HI, 15, 0, .rwStatic, 0⟩
/-- TIM_TICK_ERR, address (10 R357, Table 10.3). -/
abbrev TIM.TICK_ERR : Nat := 0x01060220
def TIM.TICK_ERR_ERR : Fld := ⟨TIM.TICK_ERR, 15, 0, .ro, 0⟩
/-- TIM_TICK_STAT, address (10 R357, Table 10.3). -/
abbrev TIM.TICK_STAT : Nat := 0x01060224
def TIM.TICK_STAT_LOCKED : Fld := ⟨TIM.TICK_STAT, 31, 31, .ro, 0⟩
def TIM.TICK_STAT_MAXERR : Fld := ⟨TIM.TICK_STAT, 15, 0, .ro, 0⟩
/-- TIM_SYNC_CFG, address (10 R357, Table 10.3). -/
abbrev TIM.SYNC_CFG (i : Nat) : Nat := 0x01060300 + 32 * i
def TIM.SYNC_CFG_COUNT (i : Nat) : Fld := ⟨TIM.SYNC_CFG i, 31, 16, .rwStatic, 0⟩
def TIM.SYNC_CFG_POL (i : Nat) : Fld := ⟨TIM.SYNC_CFG i, 6, 6, .rwStatic, 0⟩
def TIM.SYNC_CFG_TBSEL (i : Nat) : Fld := ⟨TIM.SYNC_CFG i, 5, 4, .rwStatic, 0⟩
def TIM.SYNC_CFG_MODE (i : Nat) : Fld := ⟨TIM.SYNC_CFG i, 2, 0, .rw, 0⟩
/-- TIM_SYNC_START_NS, address (10 R357, Table 10.3). -/
abbrev TIM.SYNC_START_NS (i : Nat) : Nat := 0x01060304 + 32 * i
def TIM.SYNC_START_NS_START (i : Nat) : Fld := ⟨TIM.SYNC_START_NS i, 29, 0, .rwStatic, 0⟩
/-- TIM_SYNC_START_SEC_LO, address (10 R357, Table 10.3). -/
abbrev TIM.SYNC_START_SEC_LO (i : Nat) : Nat := 0x01060308 + 32 * i
def TIM.SYNC_START_SEC_LO_START (i : Nat) : Fld := ⟨TIM.SYNC_START_SEC_LO i, 31, 0, .rwStatic, 0⟩
/-- TIM_SYNC_START_SEC_HI, address (10 R357, Table 10.3). -/
abbrev TIM.SYNC_START_SEC_HI (i : Nat) : Nat := 0x0106030C + 32 * i
def TIM.SYNC_START_SEC_HI_START (i : Nat) : Fld := ⟨TIM.SYNC_START_SEC_HI i, 15, 0, .rwStatic, 0⟩
/-- TIM_SYNC_PERIOD, address (10 R357, Table 10.3). -/
abbrev TIM.SYNC_PERIOD (i : Nat) : Nat := 0x01060310 + 32 * i
def TIM.SYNC_PERIOD_NS (i : Nat) : Fld := ⟨TIM.SYNC_PERIOD i, 29, 0, .rwStatic, 0⟩
/-- TIM_SYNC_FRAC, address (10 R357, Table 10.3). -/
abbrev TIM.SYNC_FRAC (i : Nat) : Nat := 0x01060314 + 32 * i
def TIM.SYNC_FRAC_FRAC (i : Nat) : Fld := ⟨TIM.SYNC_FRAC i, 31, 0, .rwStatic, 0⟩
/-- TIM_SYNC_WIDTH, address (10 R357, Table 10.3). -/
abbrev TIM.SYNC_WIDTH (i : Nat) : Nat := 0x01060318 + 32 * i
def TIM.SYNC_WIDTH_NS (i : Nat) : Fld := ⟨TIM.SYNC_WIDTH i, 29, 0, .rwStatic, 8⟩
/-- TIM_CAP_CFG, address (10 R357, Table 10.3). -/
abbrev TIM.CAP_CFG (i : Nat) : Nat := 0x01060400 + 32 * i
def TIM.CAP_CFG_EN (i : Nat) : Fld := ⟨TIM.CAP_CFG i, 31, 31, .rw, 0⟩
def TIM.CAP_CFG_TBSEL (i : Nat) : Fld := ⟨TIM.CAP_CFG i, 5, 4, .rwStatic, 0⟩
def TIM.CAP_CFG_EDGE (i : Nat) : Fld := ⟨TIM.CAP_CFG i, 1, 0, .rwStatic, 1⟩
/-- TIM_CAP_STAT, address (10 R357, Table 10.3). -/
abbrev TIM.CAP_STAT (i : Nat) : Nat := 0x01060404 + 32 * i
def TIM.CAP_STAT_COUNT (i : Nat) : Fld := ⟨TIM.CAP_STAT i, 20, 16, .ro, 0⟩
def TIM.CAP_STAT_OVF (i : Nat) : Fld := ⟨TIM.CAP_STAT i, 15, 0, .ro, 0⟩
/-- TIM_CAP_NS, address (10 R357, Table 10.3). -/
abbrev TIM.CAP_NS (i : Nat) : Nat := 0x01060408 + 32 * i
def TIM.CAP_NS_VALID (i : Nat) : Fld := ⟨TIM.CAP_NS i, 31, 31, .ro, 0⟩
def TIM.CAP_NS_RISE (i : Nat) : Fld := ⟨TIM.CAP_NS i, 30, 30, .ro, 0⟩
def TIM.CAP_NS_NS (i : Nat) : Fld := ⟨TIM.CAP_NS i, 29, 0, .ro, 0⟩
/-- TIM_CAP_SEC_LO, address (10 R357, Table 10.3). -/
abbrev TIM.CAP_SEC_LO (i : Nat) : Nat := 0x0106040C + 32 * i
def TIM.CAP_SEC_LO_SEC (i : Nat) : Fld := ⟨TIM.CAP_SEC_LO i, 31, 0, .ro, 0⟩
/-- TIM_CAP_SEC_HI, address (10 R357, Table 10.3). -/
abbrev TIM.CAP_SEC_HI (i : Nat) : Nat := 0x01060410 + 32 * i
def TIM.CAP_SEC_HI_SEC (i : Nat) : Fld := ⟨TIM.CAP_SEC_HI i, 15, 0, .ro, 0⟩
/-- TIM_INJ, address (10 R357, Table 10.3). -/
abbrev TIM.INJ : Nat := 0x01060500
def TIM.INJ_ARM : Fld := ⟨TIM.INJ, 31, 31, .rw, 0⟩
def TIM.INJ_TB : Fld := ⟨TIM.INJ, 3, 2, .rw, 0⟩
def TIM.INJ_MODE : Fld := ⟨TIM.INJ, 1, 0, .rw, 0⟩
def TIM.descs0 : List RegDesc := [
  ⟨0x0000, 0, 1, 0, 1, fun _ _ => [TIM.INFO_VERSION]⟩,
  ⟨0x0004, 0, 1, 0, 1, fun _ _ => [TIM.CTRL_MODE]⟩,
  ⟨0x0010, 16, 2, 0, 1, fun i _ => [TIM.PTP_CFG_EN i, TIM.PTP_CFG_PORT i, TIM.PTP_CFG_ANN_LOSS i, TIM.PTP_CFG_SYNC_LOSS i, TIM.PTP_CFG_DOMAIN i]⟩,
  ⟨0x0014, 16, 2, 0, 1, fun i _ => [TIM.PTP_STAT_VALID i, TIM.PTP_STAT_GM_CHANGES i]⟩,
  ⟨0x0018, 16, 2, 0, 1, fun i _ => [TIM.PTP_GM_LO_GM i]⟩,
  ⟨0x001C, 16, 2, 0, 1, fun i _ => [TIM.PTP_GM_HI_GM i]⟩,
  ⟨0x0040, 0, 1, 0, 1, fun _ _ => [TIM.DELTA_SEC_SEC]⟩,
  ⟨0x0044, 0, 1, 0, 1, fun _ _ => [TIM.DELTA_NS_VALID, TIM.DELTA_NS_NS]⟩,
  ⟨0x0100, 32, 4, 0, 1, fun i _ => [TIM.TB_CFG_REVERT_S i, TIM.TB_CFG_SRC i]⟩,
  ⟨0x0104, 32, 4, 0, 1, fun i _ => [TIM.TB_NS_NS i]⟩,
  ⟨0x0108, 32, 4, 0, 1, fun i _ => [TIM.TB_SEC_LO_SEC i]⟩,
  ⟨0x010C, 32, 4, 0, 1, fun i _ => [TIM.TB_SEC_HI_SEC i]⟩]
def TIM.descs1 : List RegDesc := [
  ⟨0x0110, 32, 4, 0, 1, fun i _ => [TIM.TB_STAT_ON_ALT i, TIM.TB_STAT_STATE i]⟩,
  ⟨0x0114, 32, 4, 0, 1, fun i _ => [TIM.TB_OFFSET_NS i]⟩,
  ⟨0x0118, 32, 4, 0, 1, fun i _ => [TIM.TB_STEP_NS i]⟩,
  ⟨0x011C, 32, 4, 0, 1, fun i _ => [TIM.TB_RATE_PPB i]⟩,
  ⟨0x0200, 0, 1, 0, 1, fun _ _ => [TIM.SERVO_SLEW_MAX]⟩,
  ⟨0x0204, 0, 1, 0, 1, fun _ _ => [TIM.SERVO2_STEP_THR, TIM.SERVO2_LOCK_THR]⟩,
  ⟨0x0210, 0, 1, 0, 1, fun _ _ => [TIM.TICK_CFG_LOCK_EN, TIM.TICK_CFG_TBSEL, TIM.TICK_CFG_WIN]⟩,
  ⟨0x0214, 0, 1, 0, 1, fun _ _ => [TIM.TICK_START_NS_START]⟩,
  ⟨0x0218, 0, 1, 0, 1, fun _ _ => [TIM.TICK_START_SEC_LO_START]⟩,
  ⟨0x021C, 0, 1, 0, 1, fun _ _ => [TIM.TICK_START_SEC_HI_START]⟩,
  ⟨0x0220, 0, 1, 0, 1, fun _ _ => [TIM.TICK_ERR_ERR]⟩,
  ⟨0x0224, 0, 1, 0, 1, fun _ _ => [TIM.TICK_STAT_LOCKED, TIM.TICK_STAT_MAXERR]⟩]
def TIM.descs2 : List RegDesc := [
  ⟨0x0300, 32, 4, 0, 1, fun i _ => [TIM.SYNC_CFG_COUNT i, TIM.SYNC_CFG_POL i, TIM.SYNC_CFG_TBSEL i, TIM.SYNC_CFG_MODE i]⟩,
  ⟨0x0304, 32, 4, 0, 1, fun i _ => [TIM.SYNC_START_NS_START i]⟩,
  ⟨0x0308, 32, 4, 0, 1, fun i _ => [TIM.SYNC_START_SEC_LO_START i]⟩,
  ⟨0x030C, 32, 4, 0, 1, fun i _ => [TIM.SYNC_START_SEC_HI_START i]⟩,
  ⟨0x0310, 32, 4, 0, 1, fun i _ => [TIM.SYNC_PERIOD_NS i]⟩,
  ⟨0x0314, 32, 4, 0, 1, fun i _ => [TIM.SYNC_FRAC_FRAC i]⟩,
  ⟨0x0318, 32, 4, 0, 1, fun i _ => [TIM.SYNC_WIDTH_NS i]⟩,
  ⟨0x0400, 32, 4, 0, 1, fun i _ => [TIM.CAP_CFG_EN i, TIM.CAP_CFG_TBSEL i, TIM.CAP_CFG_EDGE i]⟩,
  ⟨0x0404, 32, 4, 0, 1, fun i _ => [TIM.CAP_STAT_COUNT i, TIM.CAP_STAT_OVF i]⟩,
  ⟨0x0408, 32, 4, 0, 1, fun i _ => [TIM.CAP_NS_VALID i, TIM.CAP_NS_RISE i, TIM.CAP_NS_NS i]⟩,
  ⟨0x040C, 32, 4, 0, 1, fun i _ => [TIM.CAP_SEC_LO_SEC i]⟩,
  ⟨0x0410, 32, 4, 0, 1, fun i _ => [TIM.CAP_SEC_HI_SEC i]⟩]
def TIM.descs3 : List RegDesc := [
  ⟨0x0500, 0, 1, 0, 1, fun _ _ => [TIM.INJ_ARM, TIM.INJ_TB, TIM.INJ_MODE]⟩]
/-- The registers of block TIM. -/
def TIM.descs : List RegDesc := TIM.descs0 ++ TIM.descs1 ++ TIM.descs2 ++ TIM.descs3

/-! Block LCK at 0x01100000. -/
/-- LCK_INFO, address (12 R407, Table 12.5). -/
abbrev LCK.INFO : Nat := 0x01100000
def LCK.INFO_VERSION : Fld := ⟨LCK.INFO, 31, 24, .ro, 1⟩
def LCK.INFO_PAIRS : Fld := ⟨LCK.INFO, 3, 0, .ro, 10⟩
/-- LCK_CTRL, address (12 R407, Table 12.5). -/
abbrev LCK.CTRL : Nat := 0x01100004
def LCK.CTRL_SVC_SPLIT : Fld := ⟨LCK.CTRL, 3, 0, .rwl, 0⟩
/-- LCK_BOOT_STAT, address (12 R407, Table 12.5). -/
abbrev LCK.BOOT_STAT : Nat := 0x01100008
def LCK.BOOT_STAT_DONE : Fld := ⟨LCK.BOOT_STAT, 31, 31, .ro, 0⟩
def LCK.BOOT_STAT_FAIL : Fld := ⟨LCK.BOOT_STAT, 9, 0, .ro, 0⟩
/-- LCK_INJ, address (12 R407, Table 12.5). -/
abbrev LCK.INJ : Nat := 0x01100010
def LCK.INJ_ARM : Fld := ⟨LCK.INJ, 31, 31, .rw, 0⟩
def LCK.INJ_PAIR : Fld := ⟨LCK.INJ, 11, 8, .rw, 0⟩
def LCK.INJ_MODE : Fld := ⟨LCK.INJ, 1, 0, .rw, 0⟩
/-- LCK_P_CFG, address (12 R407, Table 12.5). -/
abbrev LCK.P_CFG (i : Nat) : Nat := 0x01100100 + 32 * i
def LCK.P_CFG_TRANS_MAX (i : Nat) : Fld := ⟨LCK.P_CFG i, 15, 12, .rwl, 3⟩
def LCK.P_CFG_ON_SINGLE (i : Nat) : Fld := ⟨LCK.P_CFG i, 8, 8, .rwl, 0⟩
def LCK.P_CFG_WIN_LOG2 (i : Nat) : Fld := ⟨LCK.P_CFG i, 4, 0, .rwl, 10⟩
/-- LCK_P_STAT, address (12 R407, Table 12.5). -/
abbrev LCK.P_STAT (i : Nat) : Nat := 0x01100104 + 32 * i
def LCK.P_STAT_TRANSIENTS (i : Nat) : Fld := ⟨LCK.P_STAT i, 31, 16, .ro, 0⟩
def LCK.P_STAT_LOG_FILL (i : Nat) : Fld := ⟨LCK.P_STAT i, 11, 8, .ro, 0⟩
def LCK.P_STAT_STATE (i : Nat) : Fld := ⟨LCK.P_STAT i, 2, 0, .ro, 0⟩
/-- LCK_P_MM_MAIN_LO, address (12 R407, Table 12.5). -/
abbrev LCK.P_MM_MAIN_LO (i : Nat) : Nat := 0x01100108 + 32 * i
def LCK.P_MM_MAIN_LO_MISR (i : Nat) : Fld := ⟨LCK.P_MM_MAIN_LO i, 31, 0, .ro, 0⟩
/-- LCK_P_MM_MAIN_HI, address (12 R407, Table 12.5). -/
abbrev LCK.P_MM_MAIN_HI (i : Nat) : Nat := 0x0110010C + 32 * i
def LCK.P_MM_MAIN_HI_MISR (i : Nat) : Fld := ⟨LCK.P_MM_MAIN_HI i, 31, 0, .ro, 0⟩
/-- LCK_P_MM_CHK_LO, address (12 R407, Table 12.5). -/
abbrev LCK.P_MM_CHK_LO (i : Nat) : Nat := 0x01100110 + 32 * i
def LCK.P_MM_CHK_LO_MISR (i : Nat) : Fld := ⟨LCK.P_MM_CHK_LO i, 31, 0, .ro, 0⟩
/-- LCK_P_MM_CHK_HI, address (12 R407, Table 12.5). -/
abbrev LCK.P_MM_CHK_HI (i : Nat) : Nat := 0x01100114 + 32 * i
def LCK.P_MM_CHK_HI_MISR (i : Nat) : Fld := ⟨LCK.P_MM_CHK_HI i, 31, 0, .ro, 0⟩
/-- LCK_P_CMD, address (12 R407, Table 12.5). -/
abbrev LCK.P_CMD (i : Nat) : Nat := 0x01100118 + 32 * i
def LCK.P_CMD_UNFENCE (i : Nat) : Fld := ⟨LCK.P_CMD i, 1, 1, .wo, 0⟩
def LCK.P_CMD_RESET (i : Nat) : Fld := ⟨LCK.P_CMD i, 0, 0, .wo, 0⟩
def LCK.descs0 : List RegDesc := [
  ⟨0x0000, 0, 1, 0, 1, fun _ _ => [LCK.INFO_VERSION, LCK.INFO_PAIRS]⟩,
  ⟨0x0004, 0, 1, 0, 1, fun _ _ => [LCK.CTRL_SVC_SPLIT]⟩,
  ⟨0x0008, 0, 1, 0, 1, fun _ _ => [LCK.BOOT_STAT_DONE, LCK.BOOT_STAT_FAIL]⟩,
  ⟨0x0010, 0, 1, 0, 1, fun _ _ => [LCK.INJ_ARM, LCK.INJ_PAIR, LCK.INJ_MODE]⟩,
  ⟨0x0100, 32, 10, 0, 1, fun i _ => [LCK.P_CFG_TRANS_MAX i, LCK.P_CFG_ON_SINGLE i, LCK.P_CFG_WIN_LOG2 i]⟩,
  ⟨0x0104, 32, 10, 0, 1, fun i _ => [LCK.P_STAT_TRANSIENTS i, LCK.P_STAT_LOG_FILL i, LCK.P_STAT_STATE i]⟩,
  ⟨0x0108, 32, 10, 0, 1, fun i _ => [LCK.P_MM_MAIN_LO_MISR i]⟩,
  ⟨0x010C, 32, 10, 0, 1, fun i _ => [LCK.P_MM_MAIN_HI_MISR i]⟩,
  ⟨0x0110, 32, 10, 0, 1, fun i _ => [LCK.P_MM_CHK_LO_MISR i]⟩,
  ⟨0x0114, 32, 10, 0, 1, fun i _ => [LCK.P_MM_CHK_HI_MISR i]⟩,
  ⟨0x0118, 32, 10, 0, 1, fun i _ => [LCK.P_CMD_UNFENCE i, LCK.P_CMD_RESET i]⟩]
/-- The registers of block LCK. -/
def LCK.descs : List RegDesc := LCK.descs0

/-! Block MBX at 0x01030000. -/
/-- MBX_INFO, address (12 R408, Table 12.6). -/
abbrev MBX.INFO : Nat := 0x01030000
def MBX.INFO_VERSION : Fld := ⟨MBX.INFO, 31, 24, .ro, 1⟩
def MBX.INFO_CHANNELS : Fld := ⟨MBX.INFO, 6, 0, .ro, 64⟩
/-- MBX_CTRL, address (12 R408, Table 12.6). -/
abbrev MBX.CTRL : Nat := 0x01030004
def MBX.CTRL_ACK_TIMEOUT : Fld := ⟨MBX.CTRL, 15, 0, .rwl, 1000⟩
/-- MBX_STALL_MAP, address (12 R408, Table 12.6). -/
abbrev MBX.STALL_MAP (i : Nat) : Nat := 0x01030010 + 4 * i
def MBX.STALL_MAP_STALL (i : Nat) : Fld := ⟨MBX.STALL_MAP i, 31, 0, .ro, 0⟩
/-- MBX_INJ, address (12 R408, Table 12.6). -/
abbrev MBX.INJ : Nat := 0x01030020
def MBX.INJ_ARM : Fld := ⟨MBX.INJ, 31, 31, .rw, 0⟩
def MBX.INJ_CHANNEL : Fld := ⟨MBX.INJ, 13, 8, .rw, 0⟩
def MBX.INJ_MODE : Fld := ⟨MBX.INJ, 1, 0, .rw, 0⟩
/-- MBX_BIND, address (12 R408, Table 12.6). -/
abbrev MBX.BIND (i : Nat) : Nat := 0x01030100 + 4 * i
def MBX.BIND_EN (i : Nat) : Fld := ⟨MBX.BIND i, 31, 31, .rwl, 0⟩
def MBX.BIND_DB_AUTO_B (i : Nat) : Fld := ⟨MBX.BIND i, 17, 17, .rwl, 1⟩
def MBX.BIND_DB_AUTO_A (i : Nat) : Fld := ⟨MBX.BIND i, 16, 16, .rwl, 1⟩
def MBX.BIND_MID_B (i : Nat) : Fld := ⟨MBX.BIND i, 12, 8, .rwl, 0⟩
def MBX.BIND_MID_A (i : Nat) : Fld := ⟨MBX.BIND i, 4, 0, .rwl, 0⟩
/-- MBX_TX, address (12 R408, Table 12.6). -/
abbrev MBX.TX (i : Nat) : Nat := 0x01031000 + 64 * i
def MBX.TX_DATA (i : Nat) : Fld := ⟨MBX.TX i, 31, 0, .wo, 0⟩
/-- MBX_TX_STAT, address (12 R408, Table 12.6). -/
abbrev MBX.TX_STAT (i : Nat) : Nat := 0x01031004 + 64 * i
def MBX.TX_STAT_CONSUMED (i : Nat) : Fld := ⟨MBX.TX_STAT i, 31, 16, .ro, 0⟩
def MBX.TX_STAT_PEER_RESET (i : Nat) : Fld := ⟨MBX.TX_STAT i, 15, 15, .w1c, 0⟩
def MBX.TX_STAT_DISCARDED (i : Nat) : Fld := ⟨MBX.TX_STAT i, 14, 8, .ro, 0⟩
def MBX.TX_STAT_OVERFLOW (i : Nat) : Fld := ⟨MBX.TX_STAT i, 7, 4, .ro, 0⟩
def MBX.TX_STAT_SPACE (i : Nat) : Fld := ⟨MBX.TX_STAT i, 3, 0, .ro, 8⟩
/-- MBX_RX_INFO, address (12 R408, Table 12.6). -/
abbrev MBX.RX_INFO (i : Nat) : Nat := 0x01031008 + 64 * i
def MBX.RX_INFO_HEAD_EPOCH_CHANGED (i : Nat) : Fld := ⟨MBX.RX_INFO i, 8, 8, .ro, 0⟩
def MBX.RX_INFO_COUNT (i : Nat) : Fld := ⟨MBX.RX_INFO i, 3, 0, .ro, 0⟩
/-- MBX_RX, address (12 R408, Table 12.6). -/
abbrev MBX.RX (i : Nat) : Nat := 0x0103100C + 64 * i
def MBX.RX_DATA (i : Nat) : Fld := ⟨MBX.RX i, 31, 0, .ro, 0⟩
/-- MBX_DB, address (12 R408, Table 12.6). -/
abbrev MBX.DB (i : Nat) : Nat := 0x01031010 + 64 * i
def MBX.DB_RING (i : Nat) : Fld := ⟨MBX.DB i, 1, 1, .wo, 0⟩
def MBX.DB_IN (i : Nat) : Fld := ⟨MBX.DB i, 0, 0, .w1c, 0⟩
def MBX.descs0 : List RegDesc := [
  ⟨0x0000, 0, 1, 0, 1, fun _ _ => [MBX.INFO_VERSION, MBX.INFO_CHANNELS]⟩,
  ⟨0x0004, 0, 1, 0, 1, fun _ _ => [MBX.CTRL_ACK_TIMEOUT]⟩,
  ⟨0x0010, 4, 2, 0, 1, fun i _ => [MBX.STALL_MAP_STALL i]⟩,
  ⟨0x0020, 0, 1, 0, 1, fun _ _ => [MBX.INJ_ARM, MBX.INJ_CHANNEL, MBX.INJ_MODE]⟩,
  ⟨0x0100, 4, 64, 0, 1, fun i _ => [MBX.BIND_EN i, MBX.BIND_DB_AUTO_B i, MBX.BIND_DB_AUTO_A i, MBX.BIND_MID_B i, MBX.BIND_MID_A i]⟩,
  ⟨0x1000, 64, 64, 0, 1, fun i _ => [MBX.TX_DATA i]⟩,
  ⟨0x1004, 64, 64, 0, 1, fun i _ => [MBX.TX_STAT_CONSUMED i, MBX.TX_STAT_PEER_RESET i, MBX.TX_STAT_DISCARDED i, MBX.TX_STAT_OVERFLOW i, MBX.TX_STAT_SPACE i]⟩,
  ⟨0x1008, 64, 64, 0, 1, fun i _ => [MBX.RX_INFO_HEAD_EPOCH_CHANGED i, MBX.RX_INFO_COUNT i]⟩,
  ⟨0x100C, 64, 64, 0, 1, fun i _ => [MBX.RX_DATA i]⟩,
  ⟨0x1010, 64, 64, 0, 1, fun i _ => [MBX.DB_RING i, MBX.DB_IN i]⟩]
/-- The registers of block MBX. -/
def MBX.descs : List RegDesc := MBX.descs0

/-! Block CRC at 0x01040000. -/
/-- CRC_INFO, address (12 R409, Table 12.7). -/
abbrev CRC.INFO : Nat := 0x01040000
def CRC.INFO_VERSION : Fld := ⟨CRC.INFO, 31, 24, .ro, 1⟩
def CRC.INFO_CHANNELS : Fld := ⟨CRC.INFO, 6, 0, .ro, 64⟩
/-- CRC_MISMATCH_MAP, address (12 R409, Table 12.7). -/
abbrev CRC.MISMATCH_MAP (i : Nat) : Nat := 0x01040010 + 4 * i
def CRC.MISMATCH_MAP_MISMATCH (i : Nat) : Fld := ⟨CRC.MISMATCH_MAP i, 31, 0, .w1c, 0⟩
/-- CRC_OWNER, address (12 R409, Table 12.7). -/
abbrev CRC.OWNER (i : Nat) : Nat := 0x01040100 + 4 * i
def CRC.OWNER_EN (i : Nat) : Fld := ⟨CRC.OWNER i, 31, 31, .rwl, 0⟩
def CRC.OWNER_MID (i : Nat) : Fld := ⟨CRC.OWNER i, 4, 0, .rwl, 0⟩
/-- CRC_CFG, address (12 R409, Table 12.7). -/
abbrev CRC.CFG (i : Nat) : Nat := 0x01041000 + 64 * i
def CRC.CFG_CHK_SNAG (i : Nat) : Fld := ⟨CRC.CFG i, 10, 10, .rwStatic, 1⟩
def CRC.CFG_SEQ_AUTO (i : Nat) : Fld := ⟨CRC.CFG i, 9, 9, .rwStatic, 0⟩
def CRC.CFG_FOLD_ADDR (i : Nat) : Fld := ⟨CRC.CFG i, 8, 8, .rwStatic, 0⟩
def CRC.CFG_FOLD_SEQ (i : Nat) : Fld := ⟨CRC.CFG i, 7, 7, .rwStatic, 0⟩
def CRC.CFG_STRIP (i : Nat) : Fld := ⟨CRC.CFG i, 6, 6, .rwStatic, 0⟩
def CRC.CFG_MODE (i : Nat) : Fld := ⟨CRC.CFG i, 5, 5, .rwStatic, 0⟩
def CRC.CFG_REFOUT (i : Nat) : Fld := ⟨CRC.CFG i, 4, 4, .rwStatic, 0⟩
def CRC.CFG_REFIN (i : Nat) : Fld := ⟨CRC.CFG i, 3, 3, .rwStatic, 0⟩
def CRC.CFG_WIDTH (i : Nat) : Fld := ⟨CRC.CFG i, 1, 0, .rwStatic, 2⟩
/-- CRC_POLY_LO, address (12 R409, Table 12.7). -/
abbrev CRC.POLY_LO (i : Nat) : Nat := 0x01041004 + 64 * i
def CRC.POLY_LO_POLY (i : Nat) : Fld := ⟨CRC.POLY_LO i, 31, 0, .rwStatic, 0⟩
/-- CRC_POLY_HI, address (12 R409, Table 12.7). -/
abbrev CRC.POLY_HI (i : Nat) : Nat := 0x01041008 + 64 * i
def CRC.POLY_HI_POLY (i : Nat) : Fld := ⟨CRC.POLY_HI i, 31, 0, .rwStatic, 0⟩
/-- CRC_INIT_LO, address (12 R409, Table 12.7). -/
abbrev CRC.INIT_LO (i : Nat) : Nat := 0x0104100C + 64 * i
def CRC.INIT_LO_INIT (i : Nat) : Fld := ⟨CRC.INIT_LO i, 31, 0, .rwStatic, 0⟩
/-- CRC_INIT_HI, address (12 R409, Table 12.7). -/
abbrev CRC.INIT_HI (i : Nat) : Nat := 0x01041010 + 64 * i
def CRC.INIT_HI_INIT (i : Nat) : Fld := ⟨CRC.INIT_HI i, 31, 0, .rwStatic, 0⟩
/-- CRC_XOR_LO, address (12 R409, Table 12.7). -/
abbrev CRC.XOR_LO (i : Nat) : Nat := 0x01041014 + 64 * i
def CRC.XOR_LO_XOROUT (i : Nat) : Fld := ⟨CRC.XOR_LO i, 31, 0, .rwStatic, 0⟩
/-- CRC_XOR_HI, address (12 R409, Table 12.7). -/
abbrev CRC.XOR_HI (i : Nat) : Nat := 0x01041018 + 64 * i
def CRC.XOR_HI_XOROUT (i : Nat) : Fld := ⟨CRC.XOR_HI i, 31, 0, .rwStatic, 0⟩
/-- CRC_ADDR, address (12 R409, Table 12.7). -/
abbrev CRC.ADDR (i : Nat) : Nat := 0x0104101C + 64 * i
def CRC.ADDR_ADDR (i : Nat) : Fld := ⟨CRC.ADDR i, 31, 0, .rwStatic, 0⟩
/-- CRC_SEQ, address (12 R409, Table 12.7). -/
abbrev CRC.SEQ (i : Nat) : Nat := 0x01041020 + 64 * i
def CRC.SEQ_SEQ (i : Nat) : Fld := ⟨CRC.SEQ i, 31, 0, .rwStatic, 0⟩
/-- CRC_CMD, address (12 R409, Table 12.7). -/
abbrev CRC.CMD (i : Nat) : Nat := 0x01041024 + 64 * i
def CRC.CMD_START (i : Nat) : Fld := ⟨CRC.CMD i, 31, 31, .wo, 0⟩
def CRC.CMD_END (i : Nat) : Fld := ⟨CRC.CMD i, 30, 30, .wo, 0⟩
def CRC.CMD_BYTES (i : Nat) : Fld := ⟨CRC.CMD i, 2, 0, .wo, 0⟩
/-- CRC_DATA, address (12 R409, Table 12.7). -/
abbrev CRC.DATA (i : Nat) : Nat := 0x01041028 + 64 * i
def CRC.DATA_DATA (i : Nat) : Fld := ⟨CRC.DATA i, 31, 0, .wo, 0⟩
/-- CRC_EXPECT_LO, address (12 R409, Table 12.7). -/
abbrev CRC.EXPECT_LO (i : Nat) : Nat := 0x0104102C + 64 * i
def CRC.EXPECT_LO_EXPECT (i : Nat) : Fld := ⟨CRC.EXPECT_LO i, 31, 0, .rw, 0⟩
/-- CRC_EXPECT_HI, address (12 R409, Table 12.7). -/
abbrev CRC.EXPECT_HI (i : Nat) : Nat := 0x01041030 + 64 * i
def CRC.EXPECT_HI_EXPECT (i : Nat) : Fld := ⟨CRC.EXPECT_HI i, 31, 0, .rw, 0⟩
/-- CRC_RUN_LO, address (12 R409, Table 12.7). -/
abbrev CRC.RUN_LO (i : Nat) : Nat := 0x01041034 + 64 * i
def CRC.RUN_LO_RUN (i : Nat) : Fld := ⟨CRC.RUN_LO i, 31, 0, .rw, 0⟩
/-- CRC_RUN_HI, address (12 R409, Table 12.7). -/
abbrev CRC.RUN_HI (i : Nat) : Nat := 0x01041038 + 64 * i
def CRC.RUN_HI_RUN (i : Nat) : Fld := ⟨CRC.RUN_HI i, 31, 0, .rw, 0⟩
/-- CRC_RESULT_LO, address (12 R409, Table 12.7). -/
abbrev CRC.RESULT_LO (i : Nat) : Nat := 0x0104103C + 64 * i
def CRC.RESULT_LO_RESULT (i : Nat) : Fld := ⟨CRC.RESULT_LO i, 31, 0, .ro, 0⟩
/-- CRC_RESULT_HI, address (12 R409, Table 12.7). -/
abbrev CRC.RESULT_HI (i : Nat) : Nat := 0x01040F00 + 4 * i
def CRC.RESULT_HI_RESULT (i : Nat) : Fld := ⟨CRC.RESULT_HI i, 31, 0, .ro, 0⟩
/-- CRC_STAT, address (12 R409, Table 12.7). -/
abbrev CRC.STAT (i : Nat) : Nat := 0x01040E00 + 4 * i
def CRC.STAT_BUSY (i : Nat) : Fld := ⟨CRC.STAT i, 31, 31, .ro, 0⟩
def CRC.STAT_MISMATCH (i : Nat) : Fld := ⟨CRC.STAT i, 17, 17, .ro, 0⟩
def CRC.STAT_MATCH (i : Nat) : Fld := ⟨CRC.STAT i, 16, 16, .ro, 0⟩
def CRC.STAT_WORDS (i : Nat) : Fld := ⟨CRC.STAT i, 15, 0, .ro, 0⟩
def CRC.descs0 : List RegDesc := [
  ⟨0x0000, 0, 1, 0, 1, fun _ _ => [CRC.INFO_VERSION, CRC.INFO_CHANNELS]⟩,
  ⟨0x0010, 4, 2, 0, 1, fun i _ => [CRC.MISMATCH_MAP_MISMATCH i]⟩,
  ⟨0x0100, 4, 64, 0, 1, fun i _ => [CRC.OWNER_EN i, CRC.OWNER_MID i]⟩,
  ⟨0x1000, 64, 64, 0, 1, fun i _ => [CRC.CFG_CHK_SNAG i, CRC.CFG_SEQ_AUTO i, CRC.CFG_FOLD_ADDR i, CRC.CFG_FOLD_SEQ i, CRC.CFG_STRIP i, CRC.CFG_MODE i, CRC.CFG_REFOUT i, CRC.CFG_REFIN i, CRC.CFG_WIDTH i]⟩,
  ⟨0x1004, 64, 64, 0, 1, fun i _ => [CRC.POLY_LO_POLY i]⟩,
  ⟨0x1008, 64, 64, 0, 1, fun i _ => [CRC.POLY_HI_POLY i]⟩,
  ⟨0x100C, 64, 64, 0, 1, fun i _ => [CRC.INIT_LO_INIT i]⟩,
  ⟨0x1010, 64, 64, 0, 1, fun i _ => [CRC.INIT_HI_INIT i]⟩,
  ⟨0x1014, 64, 64, 0, 1, fun i _ => [CRC.XOR_LO_XOROUT i]⟩,
  ⟨0x1018, 64, 64, 0, 1, fun i _ => [CRC.XOR_HI_XOROUT i]⟩,
  ⟨0x101C, 64, 64, 0, 1, fun i _ => [CRC.ADDR_ADDR i]⟩,
  ⟨0x1020, 64, 64, 0, 1, fun i _ => [CRC.SEQ_SEQ i]⟩]
def CRC.descs1 : List RegDesc := [
  ⟨0x1024, 64, 64, 0, 1, fun i _ => [CRC.CMD_START i, CRC.CMD_END i, CRC.CMD_BYTES i]⟩,
  ⟨0x1028, 64, 64, 0, 1, fun i _ => [CRC.DATA_DATA i]⟩,
  ⟨0x102C, 64, 64, 0, 1, fun i _ => [CRC.EXPECT_LO_EXPECT i]⟩,
  ⟨0x1030, 64, 64, 0, 1, fun i _ => [CRC.EXPECT_HI_EXPECT i]⟩,
  ⟨0x1034, 64, 64, 0, 1, fun i _ => [CRC.RUN_LO_RUN i]⟩,
  ⟨0x1038, 64, 64, 0, 1, fun i _ => [CRC.RUN_HI_RUN i]⟩,
  ⟨0x103C, 64, 64, 0, 1, fun i _ => [CRC.RESULT_LO_RESULT i]⟩,
  ⟨0x0F00, 4, 64, 0, 1, fun i _ => [CRC.RESULT_HI_RESULT i]⟩,
  ⟨0x0E00, 4, 64, 0, 1, fun i _ => [CRC.STAT_BUSY i, CRC.STAT_MISMATCH i, CRC.STAT_MATCH i, CRC.STAT_WORDS i]⟩]
/-- The registers of block CRC. -/
def CRC.descs : List RegDesc := CRC.descs0 ++ CRC.descs1

/-! Block SNG at 0x01000000. -/
/-- SNG_INFO, address (13 R445, Table 13.8). -/
abbrev SNG.INFO : Nat := 0x01000000
def SNG.INFO_VERSION : Fld := ⟨SNG.INFO, 31, 24, .ro, 1⟩
def SNG.INFO_SOURCES : Fld := ⟨SNG.INFO, 10, 0, .ro, 1024⟩
/-- SNG_STAT, address (13 R445, Table 13.8). -/
abbrev SNG.STAT : Nat := 0x01000004
def SNG.STAT_SAFE : Fld := ⟨SNG.STAT, 31, 31, .ro, 1⟩
def SNG.STAT_SAFE_OK : Fld := ⟨SNG.STAT, 30, 30, .ro, 0⟩
def SNG.STAT_RESUME_REFUSED : Fld := ⟨SNG.STAT, 29, 29, .ro, 0⟩
def SNG.STAT_HOLD_BOOT : Fld := ⟨SNG.STAT, 28, 28, .ro, 1⟩
def SNG.STAT_HOLD_DEBUG : Fld := ⟨SNG.STAT, 27, 27, .ro, 0⟩
def SNG.STAT_HOLD_LADDER : Fld := ⟨SNG.STAT, 26, 26, .ro, 0⟩
def SNG.STAT_HOLD_SRC : Fld := ⟨SNG.STAT, 25, 25, .ro, 0⟩
def SNG.STAT_SEV : Fld := ⟨SNG.STAT, 18, 16, .ro, 0⟩
def SNG.STAT_NSET : Fld := ⟨SNG.STAT, 10, 0, .ro, 0⟩
/-- SNG_FIRST, address (13 R445, Table 13.8). -/
abbrev SNG.FIRST : Nat := 0x01000008
def SNG.FIRST_VALID : Fld := ⟨SNG.FIRST, 31, 31, .ro, 0⟩
def SNG.FIRST_FIRST_SRC : Fld := ⟨SNG.FIRST, 9, 0, .ro, 0⟩
/-- SNG_CMD, address (13 R445, Table 13.8). -/
abbrev SNG.CMD : Nat := 0x0100000C
def SNG.CMD_RESUME : Fld := ⟨SNG.CMD, 0, 0, .wo, 0⟩
/-- SNG_FL_STAT, address (13 R445, Table 13.8). -/
abbrev SNG.FL_STAT : Nat := 0x01000010
def SNG.FL_STAT_REACHABLE0 : Fld := ⟨SNG.FL_STAT, 3, 3, .ro, 0⟩
def SNG.FL_STAT_REACHABLE1 : Fld := ⟨SNG.FL_STAT, 11, 11, .ro, 0⟩
def SNG.FL_STAT_REACHABLE2 : Fld := ⟨SNG.FL_STAT, 19, 19, .ro, 0⟩
def SNG.FL_STAT_LINE_FAULT0 : Fld := ⟨SNG.FL_STAT, 2, 2, .ro, 0⟩
def SNG.FL_STAT_LINE_FAULT1 : Fld := ⟨SNG.FL_STAT, 10, 10, .ro, 0⟩
def SNG.FL_STAT_LINE_FAULT2 : Fld := ⟨SNG.FL_STAT, 18, 18, .ro, 0⟩
def SNG.FL_STAT_HB_OK0 : Fld := ⟨SNG.FL_STAT, 1, 1, .ro, 0⟩
def SNG.FL_STAT_HB_OK1 : Fld := ⟨SNG.FL_STAT, 9, 9, .ro, 0⟩
def SNG.FL_STAT_HB_OK2 : Fld := ⟨SNG.FL_STAT, 17, 17, .ro, 0⟩
def SNG.FL_STAT_ALARM0 : Fld := ⟨SNG.FL_STAT, 0, 0, .ro, 0⟩
def SNG.FL_STAT_ALARM1 : Fld := ⟨SNG.FL_STAT, 8, 8, .ro, 0⟩
def SNG.FL_STAT_ALARM2 : Fld := ⟨SNG.FL_STAT, 16, 16, .ro, 0⟩
/-- SNG_RESTART_SRC, address (13 R445, Table 13.8). -/
abbrev SNG.RESTART_SRC : Nat := 0x01000018
def SNG.RESTART_SRC_VALID : Fld := ⟨SNG.RESTART_SRC, 31, 31, .ro, 0⟩
def SNG.RESTART_SRC_SOURCE : Fld := ⟨SNG.RESTART_SRC, 9, 0, .ro, 0⟩
/-- SNG_LOG_WR, address (13 R445, Table 13.8). -/
abbrev SNG.LOG_WR : Nat := 0x01000020
def SNG.LOG_WR_WR : Fld := ⟨SNG.LOG_WR, 8, 0, .ro, 0⟩
/-- SNG_LOG_RD, address (13 R445, Table 13.8). -/
abbrev SNG.LOG_RD : Nat := 0x01000024
def SNG.LOG_RD_RD : Fld := ⟨SNG.LOG_RD, 8, 0, .rw, 0⟩
/-- SNG_LOG_STAT, address (13 R445, Table 13.8). -/
abbrev SNG.LOG_STAT : Nat := 0x01000028
def SNG.LOG_STAT_FULL : Fld := ⟨SNG.LOG_STAT, 31, 31, .ro, 0⟩
def SNG.LOG_STAT_CLR_LOST : Fld := ⟨SNG.LOG_STAT, 30, 30, .wo, 0⟩
def SNG.LOG_STAT_LOST : Fld := ⟨SNG.LOG_STAT, 15, 0, .ro, 0⟩
/-- SNG_SET, address (13 R445, Table 13.8). -/
abbrev SNG.SET (i : Nat) : Nat := 0x01000100 + 4 * i
def SNG.SET_SET (i : Nat) : Fld := ⟨SNG.SET i, 31, 0, .w1c, 0⟩
/-- SNG_CAUSE, address (13 R445, Table 13.8). -/
abbrev SNG.CAUSE (i : Nat) : Nat := 0x01000200 + 4 * i
def SNG.CAUSE_CAUSE (i : Nat) : Fld := ⟨SNG.CAUSE i, 31, 0, .ro, 0⟩
/-- SNG_SEV, address (13 R445, Table 13.8). -/
abbrev SNG.SEV (i : Nat) : Nat := 0x01001000 + 4 * i
def SNG.SEV_SEV3 (i : Nat) : Fld := ⟨SNG.SEV i, 26, 24, .rwl, primerSev (4 * i + 3)⟩
def SNG.SEV_SEV2 (i : Nat) : Fld := ⟨SNG.SEV i, 18, 16, .rwl, primerSev (4 * i + 2)⟩
def SNG.SEV_SEV1 (i : Nat) : Fld := ⟨SNG.SEV i, 10, 8, .rwl, primerSev (4 * i + 1)⟩
def SNG.SEV_SEV0 (i : Nat) : Fld := ⟨SNG.SEV i, 2, 0, .rwl, primerSev (4 * i + 0)⟩
/-- SNG_INJ, address (13 R445, Table 13.9). -/
abbrev SNG.INJ : Nat := 0x01000014
def SNG.INJ_ARM : Fld := ⟨SNG.INJ, 31, 31, .rw, 0⟩
def SNG.INJ_MODE : Fld := ⟨SNG.INJ, 26, 24, .rw, 0⟩
def SNG.INJ_DIE : Fld := ⟨SNG.INJ, 17, 16, .rw, 0⟩
def SNG.INJ_SOURCE : Fld := ⟨SNG.INJ, 9, 0, .rw, 0⟩
def SNG.descs0 : List RegDesc := [
  ⟨0x0000, 0, 1, 0, 1, fun _ _ => [SNG.INFO_VERSION, SNG.INFO_SOURCES]⟩,
  ⟨0x0004, 0, 1, 0, 1, fun _ _ => [SNG.STAT_SAFE, SNG.STAT_SAFE_OK, SNG.STAT_RESUME_REFUSED, SNG.STAT_HOLD_BOOT, SNG.STAT_HOLD_DEBUG, SNG.STAT_HOLD_LADDER, SNG.STAT_HOLD_SRC, SNG.STAT_SEV, SNG.STAT_NSET]⟩,
  ⟨0x0008, 0, 1, 0, 1, fun _ _ => [SNG.FIRST_VALID, SNG.FIRST_FIRST_SRC]⟩,
  ⟨0x000C, 0, 1, 0, 1, fun _ _ => [SNG.CMD_RESUME]⟩,
  ⟨0x0010, 0, 1, 0, 1, fun _ _ => [SNG.FL_STAT_REACHABLE0, SNG.FL_STAT_REACHABLE1, SNG.FL_STAT_REACHABLE2, SNG.FL_STAT_LINE_FAULT0, SNG.FL_STAT_LINE_FAULT1, SNG.FL_STAT_LINE_FAULT2, SNG.FL_STAT_HB_OK0, SNG.FL_STAT_HB_OK1, SNG.FL_STAT_HB_OK2, SNG.FL_STAT_ALARM0, SNG.FL_STAT_ALARM1, SNG.FL_STAT_ALARM2]⟩,
  ⟨0x0018, 0, 1, 0, 1, fun _ _ => [SNG.RESTART_SRC_VALID, SNG.RESTART_SRC_SOURCE]⟩,
  ⟨0x0020, 0, 1, 0, 1, fun _ _ => [SNG.LOG_WR_WR]⟩,
  ⟨0x0024, 0, 1, 0, 1, fun _ _ => [SNG.LOG_RD_RD]⟩,
  ⟨0x0028, 0, 1, 0, 1, fun _ _ => [SNG.LOG_STAT_FULL, SNG.LOG_STAT_CLR_LOST, SNG.LOG_STAT_LOST]⟩,
  ⟨0x0100, 4, 32, 0, 1, fun i _ => [SNG.SET_SET i]⟩,
  ⟨0x0200, 4, 32, 0, 1, fun i _ => [SNG.CAUSE_CAUSE i]⟩,
  ⟨0x1000, 4, 256, 0, 1, fun i _ => [SNG.SEV_SEV3 i, SNG.SEV_SEV2 i, SNG.SEV_SEV1 i, SNG.SEV_SEV0 i]⟩]
def SNG.descs1 : List RegDesc := [
  ⟨0x0014, 0, 1, 0, 1, fun _ _ => [SNG.INJ_ARM, SNG.INJ_MODE, SNG.INJ_DIE, SNG.INJ_SOURCE]⟩]
/-- The registers of block SNG. -/
def SNG.descs : List RegDesc := SNG.descs0 ++ SNG.descs1

/-! Block WDG at 0x01010000. -/
/-- WDG_INFO, address (13 R446, Table 13.11). -/
abbrev WDG.INFO : Nat := 0x01010000
def WDG.INFO_VERSION : Fld := ⟨WDG.INFO, 31, 24, .ro, 1⟩
def WDG.INFO_COUNT : Fld := ⟨WDG.INFO, 3, 0, .ro, 10⟩
/-- WDG_CTRL, address (13 R446, Table 13.11). -/
abbrev WDG.CTRL : Nat := 0x01010004
def WDG.CTRL_MAX_TRIES : Fld := ⟨WDG.CTRL, 27, 24, .rwl, 3⟩
def WDG.CTRL_LADDER_MS : Fld := ⟨WDG.CTRL, 15, 0, .rwl, 1000⟩
/-- WDG_CALM, address (13 R446, Table 13.11). -/
abbrev WDG.CALM : Nat := 0x01010008
def WDG.CALM_CALM_S : Fld := ⟨WDG.CALM, 15, 0, .rwl, 3600⟩
/-- WDG_LADDER, address (13 R446, Table 13.11). -/
abbrev WDG.LADDER : Nat := 0x0101000C
def WDG.LADDER_LOCKED : Fld := ⟨WDG.LADDER, 31, 31, .ro, 0⟩
def WDG.LADDER_STEP1 : Fld := ⟨WDG.LADDER, 30, 30, .ro, 0⟩
def WDG.LADDER_STEP1_WDG : Fld := ⟨WDG.LADDER, 11, 8, .ro, 0⟩
def WDG.LADDER_TRIES : Fld := ⟨WDG.LADDER, 3, 0, .ro, 0⟩
/-- WDG_CMD, address (13 R446, Table 13.11). -/
abbrev WDG.CMD : Nat := 0x01010010
def WDG.CMD_LADDER_CLR : Fld := ⟨WDG.CMD, 0, 0, .wo, 0⟩
/-- WDG_RESET_CAUSE, address (13 R446, Table 13.11). -/
abbrev WDG.RESET_CAUSE : Nat := 0x01010014
def WDG.RESET_CAUSE_WDG : Fld := ⟨WDG.RESET_CAUSE, 11, 8, .ro, 0⟩
def WDG.RESET_CAUSE_CAUSE : Fld := ⟨WDG.RESET_CAUSE, 3, 0, .ro, 0⟩
/-- WDG_INJ, address (13 R446, Table 13.11). -/
abbrev WDG.INJ : Nat := 0x01010018
def WDG.INJ_ARM : Fld := ⟨WDG.INJ, 31, 31, .rw, 0⟩
def WDG.INJ_WDG : Fld := ⟨WDG.INJ, 11, 8, .rw, 0⟩
def WDG.INJ_MODE : Fld := ⟨WDG.INJ, 1, 0, .rw, 0⟩
/-- WDG_CFG, address (13 R446, Table 13.11). -/
abbrev WDG.CFG (i : Nat) : Nat := 0x01010100 + 64 * i
def WDG.CFG_EN (i : Nat) : Fld := ⟨WDG.CFG i, 31, 31, .rw, 0⟩
def WDG.CFG_HW (i : Nat) : Fld := ⟨WDG.CFG i, 30, 30, .ro, 0⟩
/-- WDG_OPEN, address (13 R446, Table 13.11). -/
abbrev WDG.OPEN (i : Nat) : Nat := 0x01010104 + 64 * i
def WDG.OPEN_OPEN (i : Nat) : Fld := ⟨WDG.OPEN i, 20, 0, .rwStatic, 0⟩
/-- WDG_CLOSE, address (13 R446, Table 13.11). -/
abbrev WDG.CLOSE (i : Nat) : Nat := 0x01010108 + 64 * i
def WDG.CLOSE_CLOSE (i : Nat) : Fld := ⟨WDG.CLOSE i, 20, 0, .rwStatic, 10000⟩
/-- WDG_WARN, address (13 R446, Table 13.11). -/
abbrev WDG.WARN (i : Nat) : Nat := 0x0101010C + 64 * i
def WDG.WARN_WARN (i : Nat) : Fld := ⟨WDG.WARN i, 20, 0, .rwStatic, 0⟩
/-- WDG_SERVICE, address (13 R446, Table 13.11). -/
abbrev WDG.SERVICE (i : Nat) : Nat := 0x01010110 + 64 * i
def WDG.SERVICE_KEY (i : Nat) : Fld := ⟨WDG.SERVICE i, 7, 0, .wo, 0⟩
/-- WDG_COUNT, address (13 R446, Table 13.11). -/
abbrev WDG.COUNT (i : Nat) : Nat := 0x01010114 + 64 * i
def WDG.COUNT_SERVICED (i : Nat) : Fld := ⟨WDG.COUNT i, 31, 31, .ro, 0⟩
def WDG.COUNT_COUNT (i : Nat) : Fld := ⟨WDG.COUNT i, 20, 0, .ro, 0⟩
/-- WDG_EV_PC_LO, address (13 R446, Table 13.11). -/
abbrev WDG.EV_PC_LO (i : Nat) : Nat := 0x01010118 + 64 * i
def WDG.EV_PC_LO_PC (i : Nat) : Fld := ⟨WDG.EV_PC_LO i, 31, 0, .ro, 0⟩
/-- WDG_EV_PC_HI, address (13 R446, Table 13.11). -/
abbrev WDG.EV_PC_HI (i : Nat) : Nat := 0x0101011C + 64 * i
def WDG.EV_PC_HI_PC (i : Nat) : Fld := ⟨WDG.EV_PC_HI i, 31, 0, .ro, 0⟩
/-- WDG_EV_SVC_NS, address (13 R446, Table 13.11). -/
abbrev WDG.EV_SVC_NS (i : Nat) : Nat := 0x01010120 + 64 * i
def WDG.EV_SVC_NS_NS (i : Nat) : Fld := ⟨WDG.EV_SVC_NS i, 29, 0, .ro, 0⟩
/-- WDG_EV_SVC_SEC_LO, address (13 R446, Table 13.11). -/
abbrev WDG.EV_SVC_SEC_LO (i : Nat) : Nat := 0x01010124 + 64 * i
def WDG.EV_SVC_SEC_LO_SEC (i : Nat) : Fld := ⟨WDG.EV_SVC_SEC_LO i, 31, 0, .ro, 0⟩
/-- WDG_EV_SVC_SEC_HI, address (13 R446, Table 13.11). -/
abbrev WDG.EV_SVC_SEC_HI (i : Nat) : Nat := 0x01010128 + 64 * i
def WDG.EV_SVC_SEC_HI_SHADOW_FREE (i : Nat) : Fld := ⟨WDG.EV_SVC_SEC_HI i, 31, 31, .ro, 0⟩
def WDG.EV_SVC_SEC_HI_SEC (i : Nat) : Fld := ⟨WDG.EV_SVC_SEC_HI i, 15, 0, .ro, 0⟩
/-- WDG_EV_FRAME, address (13 R446, Table 13.11). -/
abbrev WDG.EV_FRAME (i : Nat) : Nat := 0x0101012C + 64 * i
def WDG.EV_FRAME_FRAME_NO (i : Nat) : Fld := ⟨WDG.EV_FRAME i, 31, 0, .ro, 0⟩
def WDG.descs0 : List RegDesc := [
  ⟨0x0000, 0, 1, 0, 1, fun _ _ => [WDG.INFO_VERSION, WDG.INFO_COUNT]⟩,
  ⟨0x0004, 0, 1, 0, 1, fun _ _ => [WDG.CTRL_MAX_TRIES, WDG.CTRL_LADDER_MS]⟩,
  ⟨0x0008, 0, 1, 0, 1, fun _ _ => [WDG.CALM_CALM_S]⟩,
  ⟨0x000C, 0, 1, 0, 1, fun _ _ => [WDG.LADDER_LOCKED, WDG.LADDER_STEP1, WDG.LADDER_STEP1_WDG, WDG.LADDER_TRIES]⟩,
  ⟨0x0010, 0, 1, 0, 1, fun _ _ => [WDG.CMD_LADDER_CLR]⟩,
  ⟨0x0014, 0, 1, 0, 1, fun _ _ => [WDG.RESET_CAUSE_WDG, WDG.RESET_CAUSE_CAUSE]⟩,
  ⟨0x0018, 0, 1, 0, 1, fun _ _ => [WDG.INJ_ARM, WDG.INJ_WDG, WDG.INJ_MODE]⟩,
  ⟨0x0100, 64, 10, 0, 1, fun i _ => [WDG.CFG_EN i, WDG.CFG_HW i]⟩,
  ⟨0x0104, 64, 10, 0, 1, fun i _ => [WDG.OPEN_OPEN i]⟩,
  ⟨0x0108, 64, 10, 0, 1, fun i _ => [WDG.CLOSE_CLOSE i]⟩,
  ⟨0x010C, 64, 10, 0, 1, fun i _ => [WDG.WARN_WARN i]⟩,
  ⟨0x0110, 64, 10, 0, 1, fun i _ => [WDG.SERVICE_KEY i]⟩]
def WDG.descs1 : List RegDesc := [
  ⟨0x0114, 64, 10, 0, 1, fun i _ => [WDG.COUNT_SERVICED i, WDG.COUNT_COUNT i]⟩,
  ⟨0x0118, 64, 10, 0, 1, fun i _ => [WDG.EV_PC_LO_PC i]⟩,
  ⟨0x011C, 64, 10, 0, 1, fun i _ => [WDG.EV_PC_HI_PC i]⟩,
  ⟨0x0120, 64, 10, 0, 1, fun i _ => [WDG.EV_SVC_NS_NS i]⟩,
  ⟨0x0124, 64, 10, 0, 1, fun i _ => [WDG.EV_SVC_SEC_LO_SEC i]⟩,
  ⟨0x0128, 64, 10, 0, 1, fun i _ => [WDG.EV_SVC_SEC_HI_SHADOW_FREE i, WDG.EV_SVC_SEC_HI_SEC i]⟩,
  ⟨0x012C, 64, 10, 0, 1, fun i _ => [WDG.EV_FRAME_FRAME_NO i]⟩]
/-- The registers of block WDG. -/
def WDG.descs : List RegDesc := WDG.descs0 ++ WDG.descs1

/-! Block SEC at 0x01110000. -/
/-- SEC_INFO, address (14 R474, Table 14.11). -/
abbrev SEC.INFO : Nat := 0x01110000
def SEC.INFO_VERSION : Fld := ⟨SEC.INFO, 31, 24, .ro, 1⟩
/-- SEC_CTRL, address (14 R474, Table 14.11). -/
abbrev SEC.CTRL : Nat := 0x01110004
def SEC.CTRL_TRIAL_S : Fld := ⟨SEC.CTRL, 11, 8, .rwl, 2⟩
def SEC.CTRL_ARB_AUTO : Fld := ⟨SEC.CTRL, 0, 0, .rwl, 0⟩
/-- SEC_STATE, address (14 R474, Table 14.11). -/
abbrev SEC.STATE : Nat := 0x01110008
def SEC.STATE_ENTROPY_OK : Fld := ⟨SEC.STATE, 4, 4, .ro, 0⟩
def SEC.STATE_DEBUG_OPEN : Fld := ⟨SEC.STATE, 3, 3, .ro, 0⟩
def SEC.STATE_MAINT : Fld := ⟨SEC.STATE, 2, 2, .ro, 0⟩
def SEC.STATE_SEALED : Fld := ⟨SEC.STATE, 1, 1, .ro, 0⟩
def SEC.STATE_BOOT_DONE : Fld := ⟨SEC.STATE, 0, 0, .ro, 0⟩
/-- SEC_BOOT_STAT, address (14 R474, Table 14.11). -/
abbrev SEC.BOOT_STAT : Nat := 0x0111000C
def SEC.BOOT_STAT_HALT : Fld := ⟨SEC.BOOT_STAT, 18, 16, .ro, 0⟩
def SEC.BOOT_STAT_TC_FAIL : Fld := ⟨SEC.BOOT_STAT, 5, 4, .ro, 0⟩
def SEC.BOOT_STAT_TC_SLOT : Fld := ⟨SEC.BOOT_STAT, 3, 3, .ro, 0⟩
def SEC.BOOT_STAT_TRIAL : Fld := ⟨SEC.BOOT_STAT, 2, 2, .ro, 0⟩
def SEC.BOOT_STAT_FALLBACK : Fld := ⟨SEC.BOOT_STAT, 1, 1, .ro, 0⟩
def SEC.BOOT_STAT_SLOT : Fld := ⟨SEC.BOOT_STAT, 0, 0, .ro, 0⟩
/-- SEC_BOOT_SEL, address (14 R474, Table 14.11). -/
abbrev SEC.BOOT_SEL : Nat := 0x01110010
def SEC.BOOT_SEL_TRIAL : Fld := ⟨SEC.BOOT_SEL, 8, 8, .rw, 0⟩
def SEC.BOOT_SEL_NEXT : Fld := ⟨SEC.BOOT_SEL, 0, 0, .rw, 0⟩
/-- SEC_CMD, address (14 R474, Table 14.11). -/
abbrev SEC.CMD : Nat := 0x01110014
def SEC.CMD_NEW_CHAL : Fld := ⟨SEC.CMD, 3, 3, .wo, 0⟩
def SEC.CMD_DEBUG_CLOSE : Fld := ⟨SEC.CMD, 2, 2, .wo, 0⟩
def SEC.CMD_ARB_ADVANCE : Fld := ⟨SEC.CMD, 1, 1, .wo, 0⟩
def SEC.CMD_BOOT_DONE : Fld := ⟨SEC.CMD, 0, 0, .wo, 0⟩
/-- SEC_FW_VERSION, address (14 R474, Table 14.11). -/
abbrev SEC.FW_VERSION : Nat := 0x01110018
def SEC.FW_VERSION_VERSION : Fld := ⟨SEC.FW_VERSION, 31, 0, .ro, 0⟩
/-- SEC_TC_VERSION, address (14 R474, Table 14.11). -/
abbrev SEC.TC_VERSION : Nat := 0x0111001C
def SEC.TC_VERSION_VERSION : Fld := ⟨SEC.TC_VERSION, 31, 0, .ro, 0⟩
/-- SEC_ARB, address (14 R474, Table 14.11). -/
abbrev SEC.ARB : Nat := 0x01110020
def SEC.ARB_FW_STEP : Fld := ⟨SEC.ARB, 14, 8, .ro, 0⟩
def SEC.ARB_FUSED : Fld := ⟨SEC.ARB, 6, 0, .ro, 0⟩
/-- SEC_UID_LO, address (14 R474, Table 14.11). -/
abbrev SEC.UID_LO : Nat := 0x01110024
def SEC.UID_LO_UID : Fld := ⟨SEC.UID_LO, 31, 0, .ro, Config.fuseUid 0⟩
/-- SEC_UID_HI, address (14 R474, Table 14.11). -/
abbrev SEC.UID_HI : Nat := 0x01110028
def SEC.UID_HI_UID : Fld := ⟨SEC.UID_HI, 31, 0, .ro, Config.fuseUid 1⟩
/-- SEC_IDENT, address (14 R474, Table 14.11). -/
abbrev SEC.IDENT : Nat := 0x0111002C
def SEC.IDENT_DEVICE_ID : Fld := ⟨SEC.IDENT, 9, 0, .rwl, 0⟩
/-- SEC_PAIR_TAG_LO, address (14 R474, Table 14.11). -/
abbrev SEC.PAIR_TAG_LO : Nat := 0x01110030
def SEC.PAIR_TAG_LO_TAG : Fld := ⟨SEC.PAIR_TAG_LO, 31, 0, .rwl, 0⟩
/-- SEC_PAIR_TAG_HI, address (14 R474, Table 14.11). -/
abbrev SEC.PAIR_TAG_HI : Nat := 0x01110034
def SEC.PAIR_TAG_HI_TAG : Fld := ⟨SEC.PAIR_TAG_HI, 31, 0, .rwl, 0⟩
/-- SEC_MEASURE, address (14 R474, Table 14.11). -/
abbrev SEC.MEASURE (i : Nat) : Nat := 0x01110040 + 4 * i
def SEC.MEASURE_M (i : Nat) : Fld := ⟨SEC.MEASURE i, 31, 0, .ro, 0⟩
/-- SEC_TOKEN_CHAL, address (14 R474, Table 14.11). -/
abbrev SEC.TOKEN_CHAL (i : Nat) : Nat := 0x01110080 + 4 * i
def SEC.TOKEN_CHAL_CHAL (i : Nat) : Fld := ⟨SEC.TOKEN_CHAL i, 31, 0, .ro, 0⟩
/-- SEC_DEBUG, address (14 R474, Table 14.11). -/
abbrev SEC.DEBUG : Nat := 0x011100A0
def SEC.DEBUG_PAIRS : Fld := ⟨SEC.DEBUG, 31, 22, .ro, 0⟩
def SEC.DEBUG_REMAIN : Fld := ⟨SEC.DEBUG, 16, 0, .ro, 0⟩
/-- SEC_INJ, address (14 R474, Table 14.11). -/
abbrev SEC.INJ : Nat := 0x011100B0
def SEC.INJ_ARM : Fld := ⟨SEC.INJ, 31, 31, .rw, 0⟩
def SEC.INJ_MODE : Fld := ⟨SEC.INJ, 1, 0, .rw, 0⟩
def SEC.descs0 : List RegDesc := [
  ⟨0x0000, 0, 1, 0, 1, fun _ _ => [SEC.INFO_VERSION]⟩,
  ⟨0x0004, 0, 1, 0, 1, fun _ _ => [SEC.CTRL_TRIAL_S, SEC.CTRL_ARB_AUTO]⟩,
  ⟨0x0008, 0, 1, 0, 1, fun _ _ => [SEC.STATE_ENTROPY_OK, SEC.STATE_DEBUG_OPEN, SEC.STATE_MAINT, SEC.STATE_SEALED, SEC.STATE_BOOT_DONE]⟩,
  ⟨0x000C, 0, 1, 0, 1, fun _ _ => [SEC.BOOT_STAT_HALT, SEC.BOOT_STAT_TC_FAIL, SEC.BOOT_STAT_TC_SLOT, SEC.BOOT_STAT_TRIAL, SEC.BOOT_STAT_FALLBACK, SEC.BOOT_STAT_SLOT]⟩,
  ⟨0x0010, 0, 1, 0, 1, fun _ _ => [SEC.BOOT_SEL_TRIAL, SEC.BOOT_SEL_NEXT]⟩,
  ⟨0x0014, 0, 1, 0, 1, fun _ _ => [SEC.CMD_NEW_CHAL, SEC.CMD_DEBUG_CLOSE, SEC.CMD_ARB_ADVANCE, SEC.CMD_BOOT_DONE]⟩,
  ⟨0x0018, 0, 1, 0, 1, fun _ _ => [SEC.FW_VERSION_VERSION]⟩,
  ⟨0x001C, 0, 1, 0, 1, fun _ _ => [SEC.TC_VERSION_VERSION]⟩,
  ⟨0x0020, 0, 1, 0, 1, fun _ _ => [SEC.ARB_FW_STEP, SEC.ARB_FUSED]⟩,
  ⟨0x0024, 0, 1, 0, 1, fun _ _ => [SEC.UID_LO_UID]⟩,
  ⟨0x0028, 0, 1, 0, 1, fun _ _ => [SEC.UID_HI_UID]⟩,
  ⟨0x002C, 0, 1, 0, 1, fun _ _ => [SEC.IDENT_DEVICE_ID]⟩]
def SEC.descs1 : List RegDesc := [
  ⟨0x0030, 0, 1, 0, 1, fun _ _ => [SEC.PAIR_TAG_LO_TAG]⟩,
  ⟨0x0034, 0, 1, 0, 1, fun _ _ => [SEC.PAIR_TAG_HI_TAG]⟩,
  ⟨0x0040, 4, 16, 0, 1, fun i _ => [SEC.MEASURE_M i]⟩,
  ⟨0x0080, 4, 8, 0, 1, fun i _ => [SEC.TOKEN_CHAL_CHAL i]⟩,
  ⟨0x00A0, 0, 1, 0, 1, fun _ _ => [SEC.DEBUG_PAIRS, SEC.DEBUG_REMAIN]⟩,
  ⟨0x00B0, 0, 1, 0, 1, fun _ _ => [SEC.INJ_ARM, SEC.INJ_MODE]⟩]
/-- The registers of block SEC. -/
def SEC.descs : List RegDesc := SEC.descs0 ++ SEC.descs1

/-! Block HLN at 0x010F0000. -/
/-- HLN_INFO, address (15 R503, Table 15.12). -/
abbrev HLN.INFO : Nat := 0x010F0000
def HLN.INFO_VERSION : Fld := ⟨HLN.INFO, 31, 24, .ro, 1⟩
/-- HLN_CTRL, address (15 R503, Table 15.12). -/
abbrev HLN.CTRL : Nat := 0x010F0004
def HLN.CTRL_MARGIN_EN : Fld := ⟨HLN.CTRL, 8, 8, .rwStatic, 1⟩
def HLN.CTRL_VSTEP : Fld := ⟨HLN.CTRL, 4, 0, .rwStatic, 5⟩
/-- HLN_MARGIN, address (15 R503, Table 15.12). -/
abbrev HLN.MARGIN : Nat := 0x010F0008
def HLN.MARGIN_SLACK_HIGH : Fld := ⟨HLN.MARGIN, 23, 16, .rwStatic, 48⟩
def HLN.MARGIN_SLACK_LOW : Fld := ⟨HLN.MARGIN, 15, 8, .rwStatic, 24⟩
def HLN.MARGIN_SLACK_CRIT : Fld := ⟨HLN.MARGIN, 7, 0, .rwStatic, 8⟩
/-- HLN_VOLT, address (15 R503, Table 15.12). -/
abbrev HLN.VOLT : Nat := 0x010F000C
def HLN.VOLT_VMAX : Fld := ⟨HLN.VOLT, 31, 16, .rwStatic, 0⟩
def HLN.VOLT_VMIN : Fld := ⟨HLN.VOLT, 15, 0, .rwStatic, 0⟩
/-- HLN_PMB, address (15 R503, Table 15.12). -/
abbrev HLN.PMB (i : Nat) : Nat := 0x010F0010 + 4 * i
def HLN.PMB_EN (i : Nat) : Fld := ⟨HLN.PMB i, 31, 31, .rwStatic, 0⟩
def HLN.PMB_DIE (i : Nat) : Fld := ⟨HLN.PMB i, 17, 16, .rwStatic, 0⟩
def HLN.PMB_PAGE (i : Nat) : Fld := ⟨HLN.PMB i, 15, 8, .rwStatic, 0⟩
def HLN.PMB_ADDR (i : Nat) : Fld := ⟨HLN.PMB i, 6, 0, .rwStatic, 0⟩
/-- HLN_FREQ, address (15 R503, Table 15.12). -/
abbrev HLN.FREQ : Nat := 0x010F0020
def HLN.FREQ_MIN_MHZ : Fld := ⟨HLN.FREQ, 26, 16, .rwStatic, 800⟩
def HLN.FREQ_CUR_MHZ : Fld := ⟨HLN.FREQ, 10, 0, .ro, 1050⟩
/-- HLN_STAT, address (15 R503, Table 15.12). -/
abbrev HLN.STAT : Nat := 0x010F0024
def HLN.STAT_WORST_MON : Fld := ⟨HLN.STAT, 29, 24, .ro, 0⟩
def HLN.STAT_WORST : Fld := ⟨HLN.STAT, 23, 16, .ro, 255⟩
def HLN.STAT_VOUT : Fld := ⟨HLN.STAT, 15, 0, .ro, 0⟩
/-- HLN_TEMP_CFG, address (15 R503, Table 15.12). -/
abbrev HLN.TEMP_CFG : Nat := 0x010F0028
def HLN.TEMP_CFG_WARN_OFF : Fld := ⟨HLN.TEMP_CFG, 4, 0, .rwStatic, 10⟩
/-- HLN_TEMP, address (15 R503, Table 15.12). -/
abbrev HLN.TEMP (i : Nat) : Nat := 0x010F0100 + 4 * i
def HLN.TEMP_TEMP (i : Nat) : Fld := ⟨HLN.TEMP i, 15, 0, .ro, 0⟩
/-- HLN_VMON, address (15 R503, Table 15.12). -/
abbrev HLN.VMON (i : Nat) : Nat := 0x010F0140 + 4 * i
def HLN.VMON_FAIL (i : Nat) : Fld := ⟨HLN.VMON i, 31, 31, .ro, 0⟩
def HLN.VMON_WARN (i : Nat) : Fld := ⟨HLN.VMON i, 30, 30, .ro, 0⟩
def HLN.VMON_MV (i : Nat) : Fld := ⟨HLN.VMON i, 15, 0, .ro, 0⟩
/-- HLN_SLACK, address (15 R503, Table 15.12). -/
abbrev HLN.SLACK (i : Nat) : Nat := 0x010F0200 + 4 * i
def HLN.SLACK_MIN (i : Nat) : Fld := ⟨HLN.SLACK i, 15, 8, .ro, 255⟩
def HLN.SLACK_NOW (i : Nat) : Fld := ⟨HLN.SLACK i, 7, 0, .ro, 255⟩
/-- HLN_ST_CTRL, address (15 R503, Table 15.12). -/
abbrev HLN.ST_CTRL : Nat := 0x010F0300
def HLN.ST_CTRL_EN : Fld := ⟨HLN.ST_CTRL, 31, 31, .rwStatic, 1⟩
def HLN.ST_CTRL_SLOT_CLK : Fld := ⟨HLN.ST_CTRL, 15, 0, .rwStatic, 8192⟩
/-- HLN_ST_STAT, address (15 R503, Table 15.12). -/
abbrev HLN.ST_STAT : Nat := 0x010F0304
def HLN.ST_STAT_POS : Fld := ⟨HLN.ST_STAT, 31, 20, .ro, 0⟩
def HLN.ST_STAT_ROTATIONS : Fld := ⟨HLN.ST_STAT, 19, 0, .ro, 0⟩
/-- HLN_ENG_STAT, address (15 R503, Table 15.12). -/
abbrev HLN.ENG_STAT (i : Nat) : Nat := 0x010F0340 + 4 * i
def HLN.ENG_STAT_STATE (i : Nat) : Fld := ⟨HLN.ENG_STAT i, 10, 8, .ro, if i % 5 = 4 then 1 else 0⟩
def HLN.ENG_STAT_LOGICAL (i : Nat) : Fld := ⟨HLN.ENG_STAT i, 7, 4, .ro, if i % 5 = 4 then 0 else 4 * (i / 5) + i % 5⟩
def HLN.ENG_STAT_TRANSIENTS (i : Nat) : Fld := ⟨HLN.ENG_STAT i, 1, 0, .ro, 0⟩
/-- HLN_INJ, address (15 R503, Table 15.12). -/
abbrev HLN.INJ : Nat := 0x010F0400
def HLN.INJ_ARM : Fld := ⟨HLN.INJ, 31, 31, .rw, 0⟩
def HLN.INJ_TARGET : Fld := ⟨HLN.INJ, 12, 8, .rw, 0⟩
def HLN.INJ_MODE : Fld := ⟨HLN.INJ, 1, 0, .rw, 0⟩
def HLN.descs0 : List RegDesc := [
  ⟨0x0000, 0, 1, 0, 1, fun _ _ => [HLN.INFO_VERSION]⟩,
  ⟨0x0004, 0, 1, 0, 1, fun _ _ => [HLN.CTRL_MARGIN_EN, HLN.CTRL_VSTEP]⟩,
  ⟨0x0008, 0, 1, 0, 1, fun _ _ => [HLN.MARGIN_SLACK_HIGH, HLN.MARGIN_SLACK_LOW, HLN.MARGIN_SLACK_CRIT]⟩,
  ⟨0x000C, 0, 1, 0, 1, fun _ _ => [HLN.VOLT_VMAX, HLN.VOLT_VMIN]⟩,
  ⟨0x0010, 4, 4, 0, 1, fun i _ => [HLN.PMB_EN i, HLN.PMB_DIE i, HLN.PMB_PAGE i, HLN.PMB_ADDR i]⟩,
  ⟨0x0020, 0, 1, 0, 1, fun _ _ => [HLN.FREQ_MIN_MHZ, HLN.FREQ_CUR_MHZ]⟩,
  ⟨0x0024, 0, 1, 0, 1, fun _ _ => [HLN.STAT_WORST_MON, HLN.STAT_WORST, HLN.STAT_VOUT]⟩,
  ⟨0x0028, 0, 1, 0, 1, fun _ _ => [HLN.TEMP_CFG_WARN_OFF]⟩,
  ⟨0x0100, 4, 16, 0, 1, fun i _ => [HLN.TEMP_TEMP i]⟩,
  ⟨0x0140, 4, 12, 0, 1, fun i _ => [HLN.VMON_FAIL i, HLN.VMON_WARN i, HLN.VMON_MV i]⟩,
  ⟨0x0200, 4, 64, 0, 1, fun i _ => [HLN.SLACK_MIN i, HLN.SLACK_NOW i]⟩,
  ⟨0x0300, 0, 1, 0, 1, fun _ _ => [HLN.ST_CTRL_EN, HLN.ST_CTRL_SLOT_CLK]⟩]
def HLN.descs1 : List RegDesc := [
  ⟨0x0304, 0, 1, 0, 1, fun _ _ => [HLN.ST_STAT_POS, HLN.ST_STAT_ROTATIONS]⟩,
  ⟨0x0340, 4, 20, 0, 1, fun i _ => [HLN.ENG_STAT_STATE i, HLN.ENG_STAT_LOGICAL i, HLN.ENG_STAT_TRANSIENTS i]⟩,
  ⟨0x0400, 0, 1, 0, 1, fun _ _ => [HLN.INJ_ARM, HLN.INJ_TARGET, HLN.INJ_MODE]⟩]
/-- The registers of block HLN. -/
def HLN.descs : List RegDesc := HLN.descs0 ++ HLN.descs1

/-! Block TWN at 0x01120000. -/
/-- TWN_INFO, address (15 R504, Table 15.13). -/
abbrev TWN.INFO : Nat := 0x01120000
def TWN.INFO_VERSION : Fld := ⟨TWN.INFO, 31, 24, .ro, 1⟩
/-- TWN_CTRL, address (15 R504, Table 15.13). -/
abbrev TWN.CTRL : Nat := 0x01120004
def TWN.CTRL_PAIR : Fld := ⟨TWN.CTRL, 0, 0, .rw, 0⟩
/-- TWN_CFG, address (15 R504, Table 15.13). -/
abbrev TWN.CFG : Nat := 0x01120008
def TWN.CFG_PREFER_LEAD : Fld := ⟨TWN.CFG, 31, 31, .rwl, 0⟩
def TWN.CFG_GIVE_BACK : Fld := ⟨TWN.CFG, 30, 30, .rwl, 0⟩
def TWN.CFG_REF_PORT : Fld := ⟨TWN.CFG, 18, 16, .rwl, 0⟩
def TWN.CFG_GUARD : Fld := ⟨TWN.CFG, 11, 0, .rwl, 32⟩
/-- TWN_FILT, address (15 R504, Table 15.13). -/
abbrev TWN.FILT : Nat := 0x0112000C
def TWN.FILT_FILT_N : Fld := ⟨TWN.FILT, 22, 16, .rwl, 16⟩
def TWN.FILT_FILT_K : Fld := ⟨TWN.FILT, 6, 0, .rwl, 2⟩
/-- TWN_GB, address (15 R504, Table 15.13). -/
abbrev TWN.GB : Nat := 0x01120010
def TWN.GB_GB_S : Fld := ⟨TWN.GB, 15, 0, .rwl, 10⟩
/-- TWN_STAT, address (15 R504, Table 15.13). -/
abbrev TWN.STAT : Nat := 0x01120020
def TWN.STAT_GUARD_CLAMP : Fld := ⟨TWN.STAT, 12, 12, .ro, 0⟩
def TWN.STAT_PEER_HB_OK : Fld := ⟨TWN.STAT, 11, 11, .ro, 0⟩
def TWN.STAT_PEER_OK : Fld := ⟨TWN.STAT, 10, 10, .ro, 0⟩
def TWN.STAT_OWN_IN : Fld := ⟨TWN.STAT, 9, 9, .ro, 0⟩
def TWN.STAT_OWN_OUT : Fld := ⟨TWN.STAT, 8, 8, .ro, 0⟩
def TWN.STAT_STATE : Fld := ⟨TWN.STAT, 3, 0, .ro, 0⟩
/-- TWN_PEER, address (15 R504, Table 15.13). -/
abbrev TWN.PEER : Nat := 0x01120024
def TWN.PEER_DEVICE_ID : Fld := ⟨TWN.PEER, 19, 10, .ro, 0⟩
def TWN.PEER_SAFE_OK : Fld := ⟨TWN.PEER, 4, 4, .ro, 0⟩
def TWN.PEER_STATE : Fld := ⟨TWN.PEER, 3, 0, .ro, 0⟩
/-- TWN_PEER_UID_LO, address (15 R504, Table 15.13). -/
abbrev TWN.PEER_UID_LO : Nat := 0x01120028
def TWN.PEER_UID_LO_UID : Fld := ⟨TWN.PEER_UID_LO, 31, 0, .ro, 0⟩
/-- TWN_PEER_UID_HI, address (15 R504, Table 15.13). -/
abbrev TWN.PEER_UID_HI : Nat := 0x0112002C
def TWN.PEER_UID_HI_UID : Fld := ⟨TWN.PEER_UID_HI, 31, 0, .ro, 0⟩
/-- TWN_AGREE, address (15 R504, Table 15.13). -/
abbrev TWN.AGREE : Nat := 0x01120030
def TWN.AGREE_MISSING : Fld := ⟨TWN.AGREE, 31, 16, .ro, 0⟩
def TWN.AGREE_DIFFER : Fld := ⟨TWN.AGREE, 15, 0, .ro, 0⟩
/-- TWN_FILT_STAT, address (15 R504, Table 15.13). -/
abbrev TWN.FILT_STAT : Nat := 0x01120034
def TWN.FILT_STAT_FILT_CNT : Fld := ⟨TWN.FILT_STAT, 6, 0, .ro, 0⟩
/-- TWN_LAST_SWITCH, address (15 R504, Table 15.13). -/
abbrev TWN.LAST_SWITCH : Nat := 0x01120038
def TWN.LAST_SWITCH_FRAME_NO : Fld := ⟨TWN.LAST_SWITCH, 31, 0, .ro, 0⟩
/-- TWN_SWITCH_INFO, address (15 R504, Table 15.13). -/
abbrev TWN.SWITCH_INFO : Nat := 0x0112003C
def TWN.SWITCH_INFO_KIND : Fld := ⟨TWN.SWITCH_INFO, 18, 16, .ro, 0⟩
def TWN.SWITCH_INFO_TICK : Fld := ⟨TWN.SWITCH_INFO, 10, 0, .ro, 0⟩
/-- TWN_HANDOVER, address (15 R504, Table 15.13). -/
abbrev TWN.HANDOVER : Nat := 0x01120040
def TWN.HANDOVER_FRAME : Fld := ⟨TWN.HANDOVER, 31, 0, .rw, 0⟩
/-- TWN_CMD, address (15 R504, Table 15.13). -/
abbrev TWN.CMD : Nat := 0x01120044
def TWN.CMD_HANDOVER : Fld := ⟨TWN.CMD, 0, 0, .wo, 0⟩
/-- TWN_DIGEST_LO, address (15 R504, Table 15.13). -/
abbrev TWN.DIGEST_LO : Nat := 0x01120048
def TWN.DIGEST_LO_DIGEST : Fld := ⟨TWN.DIGEST_LO, 31, 0, .ro, 0⟩
/-- TWN_DIGEST_HI, address (15 R504, Table 15.13). -/
abbrev TWN.DIGEST_HI : Nat := 0x0112004C
def TWN.DIGEST_HI_DIGEST : Fld := ⟨TWN.DIGEST_HI, 31, 0, .ro, 0⟩
/-- TWN_PEER_DIGEST_LO, address (15 R504, Table 15.13). -/
abbrev TWN.PEER_DIGEST_LO : Nat := 0x01120050
def TWN.PEER_DIGEST_LO_DIGEST : Fld := ⟨TWN.PEER_DIGEST_LO, 31, 0, .ro, 0⟩
/-- TWN_PEER_DIGEST_HI, address (15 R504, Table 15.13). -/
abbrev TWN.PEER_DIGEST_HI : Nat := 0x01120054
def TWN.PEER_DIGEST_HI_DIGEST : Fld := ⟨TWN.PEER_DIGEST_HI, 31, 0, .ro, 0⟩
/-- TWN_INJ, address (15 R504, Table 15.13). -/
abbrev TWN.INJ : Nat := 0x01120060
def TWN.INJ_ARM : Fld := ⟨TWN.INJ, 31, 31, .rw, 0⟩
def TWN.INJ_MODE : Fld := ⟨TWN.INJ, 1, 0, .rw, 0⟩
def TWN.descs0 : List RegDesc := [
  ⟨0x0000, 0, 1, 0, 1, fun _ _ => [TWN.INFO_VERSION]⟩,
  ⟨0x0004, 0, 1, 0, 1, fun _ _ => [TWN.CTRL_PAIR]⟩,
  ⟨0x0008, 0, 1, 0, 1, fun _ _ => [TWN.CFG_PREFER_LEAD, TWN.CFG_GIVE_BACK, TWN.CFG_REF_PORT, TWN.CFG_GUARD]⟩,
  ⟨0x000C, 0, 1, 0, 1, fun _ _ => [TWN.FILT_FILT_N, TWN.FILT_FILT_K]⟩,
  ⟨0x0010, 0, 1, 0, 1, fun _ _ => [TWN.GB_GB_S]⟩,
  ⟨0x0020, 0, 1, 0, 1, fun _ _ => [TWN.STAT_GUARD_CLAMP, TWN.STAT_PEER_HB_OK, TWN.STAT_PEER_OK, TWN.STAT_OWN_IN, TWN.STAT_OWN_OUT, TWN.STAT_STATE]⟩,
  ⟨0x0024, 0, 1, 0, 1, fun _ _ => [TWN.PEER_DEVICE_ID, TWN.PEER_SAFE_OK, TWN.PEER_STATE]⟩,
  ⟨0x0028, 0, 1, 0, 1, fun _ _ => [TWN.PEER_UID_LO_UID]⟩,
  ⟨0x002C, 0, 1, 0, 1, fun _ _ => [TWN.PEER_UID_HI_UID]⟩,
  ⟨0x0030, 0, 1, 0, 1, fun _ _ => [TWN.AGREE_MISSING, TWN.AGREE_DIFFER]⟩,
  ⟨0x0034, 0, 1, 0, 1, fun _ _ => [TWN.FILT_STAT_FILT_CNT]⟩,
  ⟨0x0038, 0, 1, 0, 1, fun _ _ => [TWN.LAST_SWITCH_FRAME_NO]⟩]
def TWN.descs1 : List RegDesc := [
  ⟨0x003C, 0, 1, 0, 1, fun _ _ => [TWN.SWITCH_INFO_KIND, TWN.SWITCH_INFO_TICK]⟩,
  ⟨0x0040, 0, 1, 0, 1, fun _ _ => [TWN.HANDOVER_FRAME]⟩,
  ⟨0x0044, 0, 1, 0, 1, fun _ _ => [TWN.CMD_HANDOVER]⟩,
  ⟨0x0048, 0, 1, 0, 1, fun _ _ => [TWN.DIGEST_LO_DIGEST]⟩,
  ⟨0x004C, 0, 1, 0, 1, fun _ _ => [TWN.DIGEST_HI_DIGEST]⟩,
  ⟨0x0050, 0, 1, 0, 1, fun _ _ => [TWN.PEER_DIGEST_LO_DIGEST]⟩,
  ⟨0x0054, 0, 1, 0, 1, fun _ _ => [TWN.PEER_DIGEST_HI_DIGEST]⟩,
  ⟨0x0060, 0, 1, 0, 1, fun _ _ => [TWN.INJ_ARM, TWN.INJ_MODE]⟩]
/-- The registers of block TWN. -/
def TWN.descs : List RegDesc := TWN.descs0 ++ TWN.descs1

/-! Block PWR at 0x01130000. -/
/-- PWR_INFO, address (16 R528, Table 16.14). -/
abbrev PWR.INFO : Nat := 0x01130000
def PWR.INFO_VERSION : Fld := ⟨PWR.INFO, 31, 24, .ro, 1⟩
def PWR.INFO_GRADE : Fld := ⟨PWR.INFO, 1, 0, .ro, Config.fuseGrade⟩
/-- PWR_CLK_STAT, address (16 R528, Table 16.14). -/
abbrev PWR.CLK_STAT : Nat := 0x01130004
def PWR.CLK_STAT_MCLK_OK : Fld := ⟨PWR.CLK_STAT, 17, 17, .ro, 0⟩
def PWR.CLK_STAT_REFCLK_SYS_OK : Fld := ⟨PWR.CLK_STAT, 16, 16, .ro, 0⟩
def PWR.CLK_STAT_LOCKED : Fld := ⟨PWR.CLK_STAT, 9, 0, .ro, 0⟩
/-- PWR_MCLK_MEAS, address (16 R528, Table 16.14). -/
abbrev PWR.MCLK_MEAS : Nat := 0x01130008
def PWR.MCLK_MEAS_HZ : Fld := ⟨PWR.MCLK_MEAS, 31, 0, .ro, 0⟩
/-- PWR_STRAP, address (16 R528, Table 16.14). -/
abbrev PWR.STRAP : Nat := 0x0113000C
def PWR.STRAP_TWIN_EN_NOW : Fld := ⟨PWR.STRAP, 1, 1, .ro, 0⟩
def PWR.STRAP_TWIN_EN : Fld := ⟨PWR.STRAP, 0, 0, .ro, 0⟩
/-- PWR_RST, address (16 R528, Table 16.14). -/
abbrev PWR.RST : Nat := 0x01130010
def PWR.RST_WRST_EN : Fld := ⟨PWR.RST, 0, 0, .rwl, 1⟩
/-- PWR_RST_CNT, address (16 R528, Table 16.14). -/
abbrev PWR.RST_CNT : Nat := 0x01130014
def PWR.RST_CNT_COUNT : Fld := ⟨PWR.RST_CNT, 15, 0, .ro, 0⟩
/-- PWR_INJ, address (16 R528, Table 16.14). -/
abbrev PWR.INJ : Nat := 0x01130020
def PWR.INJ_ARM : Fld := ⟨PWR.INJ, 31, 31, .rw, 0⟩
def PWR.INJ_PLL : Fld := ⟨PWR.INJ, 11, 8, .rw, 0⟩
def PWR.INJ_MODE : Fld := ⟨PWR.INJ, 1, 0, .rw, 0⟩
def PWR.descs0 : List RegDesc := [
  ⟨0x0000, 0, 1, 0, 1, fun _ _ => [PWR.INFO_VERSION, PWR.INFO_GRADE]⟩,
  ⟨0x0004, 0, 1, 0, 1, fun _ _ => [PWR.CLK_STAT_MCLK_OK, PWR.CLK_STAT_REFCLK_SYS_OK, PWR.CLK_STAT_LOCKED]⟩,
  ⟨0x0008, 0, 1, 0, 1, fun _ _ => [PWR.MCLK_MEAS_HZ]⟩,
  ⟨0x000C, 0, 1, 0, 1, fun _ _ => [PWR.STRAP_TWIN_EN_NOW, PWR.STRAP_TWIN_EN]⟩,
  ⟨0x0010, 0, 1, 0, 1, fun _ _ => [PWR.RST_WRST_EN]⟩,
  ⟨0x0014, 0, 1, 0, 1, fun _ _ => [PWR.RST_CNT_COUNT]⟩,
  ⟨0x0020, 0, 1, 0, 1, fun _ _ => [PWR.INJ_ARM, PWR.INJ_PLL, PWR.INJ_MODE]⟩]
/-- The registers of block PWR. -/
def PWR.descs : List RegDesc := PWR.descs0

/-! The map of Table 01.9 (R35). -/

/-- Base addresses and register lists of the blocks, in the order of Table 01.9. -/
def blocks : List (Nat × List RegDesc) := [
  (0x0100, SNG.descs), (0x0101, WDG.descs), (0x0102, SWD.descs), (0x0103, MBX.descs), (0x0104, CRC.descs),
  (0x0105, TCK.descs), (0x0106, TIM.descs), (0x0107, ETH.descs), (0x0108, SGT.descs), (0x0109, AVT.descs),
  (0x010A, FJL.descs), (0x010B, WCH.descs), (0x010C, SKM.descs), (0x010D, MTX.descs), (0x010E, MEM.descs),
  (0x010F, HLN.descs), (0x0110, LCK.descs), (0x0111, SEC.descs), (0x0112, TWN.descs), (0x0113, PWR.descs)]

/-- The indices at which `d` describes a register at offset `o` of its block, if it does. -/
def RegDesc.indices (d : RegDesc) (o : Nat) : Option (Nat × Nat) :=
  if o < d.off then none
  else
    let r := o - d.off
    let i := if d.stride1 = 0 then 0 else r / d.stride1
    let r1 := r - d.stride1 * i
    let j := if d.stride2 = 0 then 0 else r1 / d.stride2
    if i < d.count1 && j < d.count2 && r1 - d.stride2 * j == 0 then some (i, j) else none

/-- The fields of the register at offset `o`, or none for an unassigned offset (R37). -/
def fieldsAt : List RegDesc → Nat → Option (List Fld)
  | [], _ => none
  | d :: ds, o =>
    match d.indices o with
    | some (i, j) => some (d.fields i j)
    | none => fieldsAt ds o

/-- The registers of the block that address `a` lies in. -/
def blockOf (a : Nat) : Option (List RegDesc) :=
  (blocks.find? (fun b => b.1 == a / 65536)).map (·.2)

end Sys2Proof.Machine
end

