-- ==== Sys2Proof/Machine/Tab.lean ====
section
/-!
DEFINITION. Sparse tables: the one canonical form in which every indexed piece of state is held. Keys rise strictly and
no entry equals what an unlisted key reads as, so equal tables are equal lists.
-/

namespace Sys2Proof.Machine

/-- A sparse table from keys to values. -/
abbrev Tab (α : Type) := List (Nat × α)

/-- The value at key `i`; `z` where the table lists none. -/
def tabGet {α : Type} (z : α) : Tab α → Nat → α
  | [], _ => z
  | e :: t, i => if e.1 = i then e.2 else tabGet z t i

/-- Insert an entry before the first greater key. -/
def tabInsert {α : Type} (i : Nat) (v : α) : Tab α → Tab α
  | [] => [(i, v)]
  | e :: t => if i < e.1 then (i, v) :: e :: t else e :: tabInsert i v t

/-- The table without key `i`. -/
def tabErase {α : Type} (t : Tab α) (i : Nat) : Tab α := t.filter (fun e => e.1 != i)

/-- Give key `i` the value `v`; writing what an unlisted key reads as removes the entry. -/
def tabSet {α : Type} [DecidableEq α] (z : α) (t : Tab α) (i : Nat) (v : α) : Tab α :=
  if v = z then tabErase t i else tabInsert i v (tabErase t i)

/-- Change the value at key `i`. -/
def tabUpd {α : Type} [DecidableEq α] (z : α) (t : Tab α) (i : Nat) (f : α → α) : Tab α :=
  tabSet z t i (f (tabGet z t i))

/-- The keys rise strictly. -/
def tabSorted {α : Type} : Tab α → Bool
  | [] => true
  | [_] => true
  | a :: b :: t => a.1 < b.1 && tabSorted (b :: t)

/-- The canonical form: keys rise strictly and no entry equals what an unlisted key reads as. -/
def tabWf {α : Type} [DecidableEq α] (z : α) (t : Tab α) : Bool :=
  tabSorted t && t.all (fun e => e.2 != z)

/-- A key made of two indices. -/
abbrev key2 (i j : Nat) : Nat := i * 4294967296 + j

end Sys2Proof.Machine
end

