-- ==== Sys2Proof/Machine/State.lean ====
section
/-!
DEFINITION. The state of the device, as plain data, and its value after a power-on reset. Reset values that the spec does not give are
zero or empty (log entry 3).
-/

set_option maxRecDepth 4000

namespace Sys2Proof.Machine

/-- How the last register access completed (R6, R9, R13, R14, R37, R38, R426): nothing yet, done with a value read, done, an error
response, discarded (R13, R14) or rejected (R5). -/
inductive Resp where
  | idle | value (v : Nat) | done | error | discarded | rejected
  deriving DecidableEq, Repr

/-- One staged or captured entry of the arm list (R48): `arm` is true for ARM and false for RETIRE. -/
structure ArmEntry where
  arm : Bool
  watch : Nat
  deriving DecidableEq, Repr

/-- A capture of R12 that waits for a tick boundary: the staged copies at the last commit write, the captured arm list, and the S_CORE
cycle of that write. -/
structure Capture where
  fields : Tab Nat
  arms : List ArmEntry
  cycle : Nat
  /-- The capture that this one extended, where a boundary in the same cycle still takes it: its staged copies, entries and waiting requests. -/
  before : Option (Tab Nat × Nat × Nat)
  deriving DecidableEq, Repr

/-- The states of Table 02.9, in the order of their codes. -/
inductive WState where
  | idle | armed | running | failed | retiring
  deriving DecidableEq, Repr

/-- One job of a watch and the evaluation it serves (R55, R56, R59 to R63). -/
structure Job where
  frame : Nat
  /-- POSTED, ACTIVE or DONE (R55), as 0, 1, 2. -/
  status : Nat
  /-- False where the job could not be posted (R58). -/
  posted : Bool
  /-- Units that arrived, and units that completed their check in the attempt that counts. -/
  arrived : Nat
  checked : Nat
  /-- Units of this evaluation already decided, by unit number, so that none counts twice. -/
  units : List Nat
  failed : Bool
  incomplete : Bool
  restarts : Nat
  /-- A restart was made and did not finish. -/
  aborted : Bool
  /-- The kind-specific DETAIL of the verdict log record (Table 02.11). -/
  detail : Nat
  /-- Declared units of the evaluation (Table 02.7). -/
  declared : Nat
  /-- The columns or rows that the planner's draw allots to the job (R104, R133). -/
  sample : List Nat
  /-- E(k) has passed and the result was not final (R56, R57). -/
  final : Bool
  /-- The last permitted restart failed too (R194). -/
  ended : Bool
  /-- The seed epoch of the job (R98). -/
  epoch : Nat
  deriving DecidableEq, Repr

/-- The device-written area of a descriptor (Table 02.6) and the queue behind it. -/
structure Watch where
  state : WState
  tripped : Bool
  planCov : Nat
  lastFrame : Nat
  lastCov : Nat
  lastInjected : Bool
  lastVerdict : Nat
  hist : Nat
  filtCnt : Nat
  totalFail : Nat
  totalEval : Nat
  covLow : Nat
  /-- First frame the watch checks (R52). -/
  first : Nat
  /-- The frame r of a RETIRE that applied at B(r). -/
  retireAt : Option Nat
  /-- The job ring, oldest first (R55). -/
  ring : List Job
  /-- The release point of frame r − 1 has passed (Table 02.9, RETIRING). -/
  rpPassed : Bool
  /-- The frame of the last final evaluation, with its verdict, for each frame still to be released. -/
  verdicts : List (Nat × Nat × Nat)
  /-- For a PASS watch: it holds its channels, and the latest frame of R45. -/
  holds : Option Nat
  /-- A releasing verdict is final, and the channels return at the next boundary. -/
  release : Bool
  deriving DecidableEq, Repr

/-- A watch that is IDLE: the device-written area is 0 (R40). -/
def Watch.idle : Watch :=
  { state := .idle, tripped := false, planCov := 0, lastFrame := 0, lastCov := 0, lastInjected := false, lastVerdict := 0,
    hist := 0, filtCnt := 0, totalFail := 0, totalEval := 0, covLow := 0, first := 0, retireAt := none, ring := [],
    rpPassed := false, verdicts := [], holds := none, release := false }

/-- The watch system beyond its registers: descriptors, queues, the staged arm list and the verdict log. -/
structure WatchSys where
  /-- Host-written descriptor words, key `64 * w + word` for words 0 to 47 (R36, Table 02.1). -/
  desc : Tab Nat
  watches : Tab Watch
  staged : List ArmEntry
  log : Tab (List Nat)
  deriving DecidableEq, Repr

/-- One record of a watch's job as it arrived: slot, byte offset in the slot, payload (R74), and whether every byte of it is sound (R62). -/
structure Rec where
  slot : Nat
  off : Nat
  bytes : List Byte
  sound : Bool
  deriving DecidableEq, Repr

/-- What an open job has received (R90, R94, R131, R202): the records in arrival order, payload bytes, records counted by a SEQ watch and the
COUNTER baseline it has used, and whether the first counted arrival is still to come (R141). -/
structure JobIn where
  recs : List Rec
  tablesLoaded : Bool
  /-- Position in `recs` at which the attempt in progress began (R107). -/
  attempt : Nat
  /-- SEQ: arrivals counted, and the first failing one's cause with its place (R141, R143). -/
  arrivals : Nat
  fail : Option (Nat × Nat)
  deriving DecidableEq, Repr

/-- A job that has received nothing. -/
def JobIn.empty : JobIn := ⟨[], false, 0, 0, none⟩

/-- One table set of a LIN watch (R99): status 0 none, 1 building, 2 complete, 3 invalid; the DRBG position its secret vectors were
drawn at; the tables t_p with their FP32 words or integers, â, and the bias terms. -/
structure TableSet where
  status : Nat
  seed : Nat
  epoch : Nat
  retried : Bool
  t : List (List Int)
  a : List Int
  rb : List Int
  ab : Int
  /-- A bias term is not finite: every column fails NONFINITE (R87). -/
  badBias : Bool
  deriving DecidableEq, Repr

/-- No table. -/
def TableSet.none : TableSet := ⟨0, 0, 0, false, [], [], [], 0, false⟩

/-- The Skim units, the seed epochs and the projection DRBG beyond their registers. -/
structure Skim where
  jobs : Tab JobIn
  current : Tab TableSet
  next : Tab TableSet
  /-- The former current set, until the job for frame s − 2 is final (R99). -/
  former : Tab TableSet
  /-- Words drawn from the projection DRBG (R95). -/
  drawn : Nat
  /-- Epoch 0 has begun (R98), and the cycle of the last swap. -/
  epochOpen : Bool
  swapAt : Nat
  rekey : Bool
  /-- Known-answer tests passed on the next tables, by unit (R102). -/
  kat : Tab Bool
  /-- Frame of the swap whose former tables are still held. -/
  formerFrame : Option Nat
  /-- Bytes, checked and skipped units of the running tick, by unit (Table 03.14). -/
  bytes : Tab Nat
  checked : Tab Nat
  skipped : Tab Nat
  deriving DecidableEq, Repr

/-- What a SEQ watch remembers between frames (R141). -/
structure SeqState where
  /-- FRAME_NO of the last counted TENSOR record. -/
  lastFrame : Option Nat
  /-- Counter of the last heartbeat. -/
  counter : Option Nat
  deriving DecidableEq, Repr

/-- A failure found before its frame's result is formed (R115, R147): watch, instant, cause of Table 04.11, entry. -/
structure SigFail where
  watch : Nat
  at_ : Nat
  cause : Nat
  entry : Nat
  deriving DecidableEq, Repr

/-- The signal checkers beyond the job ring: lost history entries (R146), SEQ memories, results already formed. -/
structure Sig where
  /-- Lost samples of delay histories: key `key2 channel block`. -/
  lostDelay : Tab Bool
  /-- Lost block energies: key `key2 channel block`. -/
  lostEnergy : Tab Bool
  seq : Tab SeqState
  fails : List SigFail
  /-- Blocks of 16 instants whose windows have been evaluated (R115). -/
  blocks : Nat
  deriving DecidableEq, Repr

/-- What an array operation works for: a stage of a watch's job, the fallback run of a slot, a table build of a watch, or a self-test slot. -/
inductive OpOwner where
  | job (watch frame : Nat) | fallback (slot frame : Nat) | build (watch : Nat) | selfTest (segment : Nat)
  deriving DecidableEq, Repr

/-- One operation in the sequencer's queues (R156, R161): the sixteen words of its descriptor, its owner, the rank keys of R186, its tiles. -/
structure ArrOp where
  desc : List Nat
  owner : OpOwner
  /-- E of the evaluation served, as frame and sixteenths of a sample tick after B(frame + 1) (R186 key 1). -/
  deadline : Nat
  prio : Nat
  /-- Last operation of its stage. -/
  last : Bool
  tiles : Nat
  done : Nat
  aborted : Bool
  /-- The cycle of its posting, and that at which it became ready, where its stage had to wait (R159). -/
  postedAt : Nat
  readyAt : Option Nat
  /-- Its C_ARITH clocks (Table 05.8) as of its issue; clocks already charged to a tick, and the cycle up to which they count (R179, R197). -/
  clk : Nat
  charged : Nat
  since : Nat
  /-- Elements X of a vector operation where the descriptor's fields do not give them (Table 05.8). -/
  size : Nat
  deriving DecidableEq, Repr

/-- One entry of the model and table directory (Table 05.14), with the sections of the image that the device uses. -/
structure Model where
  /-- STATE: 0 EMPTY, 1 LOADING, 2 LOADED, 3 UNLOADING. -/
  state : Nat
  kind : Nat
  flags : Nat
  nLayers : Nat
  nOps : Nat
  layerBase : Nat
  nIn : Nat
  nOut : Nat
  frameLen : Nat
  fsSel : Nat
  actBytes : Nat
  resBytes : Nat
  weightBytes : Nat
  runClk16 : Nat
  loadFrame : Nat
  digest : List Byte
  /-- Layer entries, sixteen words each (Table 05.12). -/
  layers : List (List Nat)
  /-- Operation descriptors, sixteen words each (Table 05.3). -/
  ops : List (List Nat)
  /-- Tensor map entries: BYTES, FMT, PLACE, SRC_OFF (R172). -/
  tensors : List (Nat × Nat × Nat × Nat)
  /-- Tensor indices of the inputs and then the outputs. -/
  io : List Nat
  /-- Stencil entries, eight words each (Table 06.3). -/
  stencils : List (List Nat)
  /-- PARAMS and STENCIL sections as loaded. -/
  params : List Byte
  stencilSect : List Byte
  /-- HBM pages of the model in the order of its data, the WEIGHTS section first (R172, Table 07.3). -/
  pages : List Nat
  /-- Which of the two copies of the state tensors is read next (R196). -/
  stateCopy : Bool
  deriving DecidableEq, Repr

/-- An EMPTY directory entry. -/
def Model.empty : Model :=
  { state := 0, kind := 0, flags := 0, nLayers := 0, nOps := 0, layerBase := 0, nIn := 0, nOut := 0, frameLen := 0, fsSel := 0,
    actBytes := 0, resBytes := 0, weightBytes := 0, runClk16 := 0, loadFrame := 0, digest := [], layers := [],
    ops := [], tensors := [], io := [], stencils := [], params := [], stencilSect := [], pages := [], stateCopy := false }

/-- A model load under way (R176): the session and REQ_ID that wait for it, its status and the weights; its entry is in the directory. -/
structure LoadJob where
  session : Nat
  reqId : Nat
  model : Nat
  status : Nat
  weights : List Byte
  deriving DecidableEq, Repr

/-- The array sequencer and the model directory. -/
structure Arr where
  plan : List ArrOp
  background : List ArrOp
  running : Option (ArrQueue × ArrOp)
  suspended : Option ArrOp
  /-- The PLAN stage under way: its operations issue one after the other (R186). -/
  stage : Option OpOwner
  planClk : Nat
  bgClk : Nat
  preempts : Nat
  maxLat : Nat
  models : Tab Model
  loads : List LoadJob
  /-- Output samples of shadow runs as FP32 words, key `(4 * instant + output) * 4096 + watch` (R136). -/
  shadow : Tab Nat
  /-- Restarts of the fallback run under way, by slot (R194). -/
  fbTries : Tab Nat
  /-- Clocks that an attempt has spent in the running tick and in the one before, key `stageKey` of its owner (R197). -/
  spent : Tab (Nat × Nat)
  /-- Activation and state tensors of RUN models as written, key `model * 16384 + 2 * tensor + copy`; bytes not listed read 0 (R172, R196). -/
  tensors : Tab (List Byte)
  deriving DecidableEq, Repr

/-- An open instance of a stage window (R207): its tick, the tasks checked in, the duplicates and whether an injection shaped it. -/
structure WinInst where
  frame : Nat
  done : Nat
  dup : Nat
  injected : Bool
  deriving DecidableEq, Repr

/-- A due stencil instance (R201, R204): the tick it runs in, its deferral count, whether it is forced and whether it has been decided. -/
structure StnInst where
  tick : Nat
  count : Nat
  forced : Bool
  sent : Bool
  deriving DecidableEq, Repr

/-- The tick unit, the planner and the stage windows beyond their registers. -/
structure Plan where
  /-- RUN was written 1 and B(0) has not occurred (Table 06.10). -/
  starting : Bool
  /-- RUN was written 0 and the unit stops at the next boundary. -/
  stopping : Bool
  /-- The S_CORE cycle of the last tick boundary (R12, R26, R542). -/
  boundaryAt : Nat
  /-- Units allotted to each watch in the base variant (R187), plus 1; unlisted: all of them. -/
  alloc : Tab Nat
  /-- Units allotted in the stencil variants, plus 1, where they are not all: key `key2 stencilWatch watch`. -/
  stnAlloc : Tab Nat
  /-- Units allotted in the tick thinned under R205, plus 1, where fewer. -/
  thinned : Tab Nat
  /-- Boundaries until a re-plan applies (R180); 3: one applies at the next boundary and one at the boundary after it as well. -/
  replanIn : Option Nat
  stencils : Tab (Option StnInst)
  /-- Wasted clocks of the running tick and work carried over (R197, R204). -/
  waste : Nat
  carried : Nat
  windows : Tab (Option WinInst)
  /-- The first frame of which a window may have an instance: the boundary at which its last change applied (R210). -/
  windowFrom : Tab Nat
  /-- PLAN-source tasks checked in (Table 06.5), a bitmap by tick: the running one and those of open instances. -/
  planTasks : Tab Nat
  log : Tab (List Nat)
  deriving DecidableEq, Repr

/-- One DMA descriptor in a ring (Table 07.7), with the master that posted it. -/
structure DmaDesc where
  ctl : Nat
  src : Nat
  srcOff : Nat
  dst : Nat
  dstOff : Nat
  rowBytes : Nat
  srcStride : Nat
  dstStride : Nat
  poster : Nat
  /-- Its stage was dropped while it was in progress (Table 07.9). -/
  dropped : Bool
  /-- The stage, run or build that it serves (R238). -/
  owner : Option OpOwner
  deriving DecidableEq, Repr

/-- A page scheduled for retirement (R244): the page, its cause, its entry of the retirement log and whether it waits for a spare. -/
structure Retire where
  page : Nat
  cause : Nat
  entry : Nat
  started : Bool
  spare : Nat
  deriving DecidableEq, Repr

/-- The transfers of one plan stage (R238): whether any has been posted, descriptors not complete, whether the one marked LAST has been posted, and
descriptors that ended with UE, XLATE or DROPPED and have not been posted again (Table 07.9). -/
structure StageDma where
  posted : Bool
  pending : Nat
  last : Bool
  redo : Nat
  deriving DecidableEq, Repr

/-- A stage for which nothing has been posted. -/
def StageDma.none : StageDma := ⟨false, 0, false, 0⟩

/-- A write to memory that a command makes: address, byte and its check bits (R222, R226). -/
structure MemWrite where
  addr : Nat
  byte : Byte
  check : Check
  deriving DecidableEq, Repr

/-- An entry of a translation cache (R234): the unit that holds it, the context, tensor and virtual page, and the tensor and page table entries as
they were read. -/
structure XltEntry where
  unit : Nat
  ctx : Nat
  tensor : Nat
  page : Nat
  te : List Byte
  pte : Nat
  deriving DecidableEq, Repr

/-- The memory system beyond its registers and its contents. -/
structure MemSys where
  /-- The rings: key `2 * engine` for PLAN, `2 * engine + 1` for BACKGROUND. -/
  rings : Tab (List DmaDesc)
  /-- Correctable errors by row, key the row's address over 1 024 (R244). -/
  rows : Tab Nat
  retires : List Retire
  retired : Nat
  /-- 64-byte units moved by PLAN in the running tick, by engine. -/
  lines : Tab Nat
  /-- Transfers of the plan stages, key `stageKey` of their owner (R238). -/
  stages : Tab StageDma
  /-- Translation cache entries of the DMA engines, oldest first (R234). -/
  xlt : List XltEntry
  /-- What descriptors that completed have overwritten while later ones of their ring could have started, by ring (R237). -/
  undo : Tab (List MemWrite)
  /-- Cycles of each lane's errors within a second, and the lanes marked for the next training (R248). -/
  laneErrors : Tab (List Nat)
  marked : List Nat
  /-- Spare pages in use and the page each stands in for (R245). -/
  standIn : Tab Nat
  /-- Pages that have been retired: they are never mapped again (R245). -/
  gone : List Nat
  /-- The byte whose check bits MEM_INJ inverted, until the error is detected. -/
  injected : Option Nat
  /-- Memory writes made by the command under way; applied when it ends. -/
  writes : List MemWrite
  deriving DecidableEq, Repr

/-- The device's memories: bytes in the canonical form of a sparse table, and the bytes whose check bits are not sound. -/
structure Mem where
  cells : List Host.Cell
  check : Tab Check
  deriving DecidableEq, Repr

/-- One link port, FJL0 to FJL3 or BOND (port 4), beyond its registers (R258 to R285). Per-channel values are keyed by channel code. -/
structure LinkPort where
  /-- The training under way: 0 full, 1 fast retrain, 2 after a link reset (R259). -/
  training : Nat
  /-- The next entry of ACTIVE is the first in its epoch (R261). -/
  newEpoch : Bool
  /-- Sequence number expected next, per channel (R273). -/
  expSeq : Tab Nat
  /-- Sequence number of the next record sent, per channel (R272). -/
  txSeq : Tab Nat
  /-- Records queued for transmission, oldest first. -/
  txQueue : List LinkRecord
  /-- Records sent and not covered by an ACK: channel, sequence number, record (R277). -/
  replay : List (Nat × Nat × LinkRecord)
  /-- Loss of framing, its CAUSE, and the channels for which a NACK has been sent in it (R275). -/
  framingLost : Bool
  cause : Nat
  nacked : List Nat
  /-- NEXT_SEQ of the last NACK received, per channel, while not every channel has one (R276). -/
  nacks : Tab (Option Nat)
  /-- RESYNC is set in the device's next service row (R276). -/
  resync : Bool
  /-- Losses of framing since a record last passed the link layer (R278). -/
  losses : Nat
  /-- Credits freed and credits consumed by the peer in this epoch, per channel: CL is the first plus those of CONFIG, modulo 2^16 (R264). -/
  rxLimit : Tab Nat
  rxUsed : Tab Nat
  /-- CL received and credits consumed by the device, per channel. -/
  txLimit : Tab Nat
  txUsed : Tab Nat
  /-- Position in the service-row rotation (R255). -/
  rotation : Nat
  /-- Records that passed the link layer and check 1 and wait for the checks of Table 08.8. -/
  held : List LinkRecord
  /-- Which of them were checked inside their acceptance window, in the cycle of their trailer check (R280). -/
  inTime : List Bool
  /-- Accepted records that wait for their consumer, oldest first (R281). -/
  deliver : List LinkRecord
  /-- The last service row sent: block type, channel, NEXT_SEQ, CAUSE, CL and RESYNC (R255, R256). -/
  lastRow : List Nat
  /-- Reason of the last RESET block sent, 0 where none has been (Table 08.3). -/
  resetSent : Nat
  /-- Cycle of the last retrain: a protocol error of the same cycle prevails over it (R282). -/
  retrainAt : Option Nat
  /-- EN was cleared in DOWN, so setting it returns FAILS to 0 (R259). -/
  wasDown : Bool
  /-- State, epoch and consecutive failed trainings of the BOND port, which has no FJL registers (R285). -/
  bondState : Nat
  bondEpoch : Nat
  bondFails : Nat
  /-- Records and bytes of the running tick. -/
  rxBytes : Nat
  txBytes : Nat
  deriving DecidableEq, Repr

/-- A port in DISABLED. -/
def LinkPort.reset : LinkPort :=
  { training := 0, newEpoch := false, expSeq := [], txSeq := [], txQueue := [], replay := [], framingLost := false, cause := 0,
    nacked := [], nacks := [], resync := false, losses := 0, rxLimit := [], rxUsed := [], txLimit := [], txUsed := [],
    rotation := 0, held := [], inTime := [], deliver := [], lastRow := [], resetSent := 0, retrainAt := none, wasDown := false,
     bondState := 0, bondEpoch := 0, bondFails := 0, rxBytes := 0, txBytes := 0 }

/-- What an output channel emits between its switches (R302, R304). -/
inductive Content where
  | subst | frame (k : Nat) | pass
  deriving DecidableEq, Repr

/-- One output channel's gate. -/
structure OutCh where
  content : Content
  /-- The last sample emitted, as a signed 32-bit value. -/
  last : Int
  /-- A ramp under way: L, the number of samples emitted of it and R (R310). -/
  ramp : Option (Int × Nat × Nat)
  /-- The last sample emitted belonged to a ramp. -/
  inRamp : Bool
  /-- The last sample emitted belonged to substitution. -/
  shown : Bool
  /-- Samples of substitution emitted since it began (R306). -/
  subPos : Nat
  /-- First frame whose input the channel fully receives (R34, R290). -/
  from_ : Nat
  /-- A switch after the sample in progress, under R304. -/
  cut : Bool
  /-- The next switch takes R = 1 (R311). -/
  hard : Bool
  deriving DecidableEq, Repr

/-- A channel that emits nothing yet. -/
def OutCh.reset : OutCh := ⟨.subst, 0, none, false, true, 0, 0, false, false⟩

/-- One TDM port's lock machine and pins beyond SGT_P_STAT. -/
structure TdmPort where
  /-- Frames of phase measured, 0 to 16 (R294). -/
  measured : Nat
  /-- The phase of the FSYNC edge within the sample tick, in MCLK_AUD periods. -/
  phase : Nat
  /-- The S_RC monitor or a supply loss holds the pins (R444, R512). -/
  forcedLow : Bool
  deriving DecidableEq, Repr

/-- A disabled port. -/
def TdmPort.reset : TdmPort := ⟨0, 0, false⟩

/-- Ports, gates and AVTP streams beyond their registers. -/
structure Gate where
  /-- Present input samples: key `key2 channel index` (R288, R301). -/
  inputs : Tab (Option Int)
  /-- Sample tick being taken in, counted from the start of the tick unit. -/
  tick : Nat
  /-- Times that FRAME_NO has wrapped since the start, so that sample indices go on across the wrap (R29). -/
  wraps : Nat
  outs : Tab OutCh
  ports : Tab TdmPort
  /-- Frame last decided at a release point. -/
  lastRp : Option Nat
  /-- Chime store, key `key2 chime index` (R308). -/
  chime : Tab Int
  /-- Outputs of fallback slots: key `key2 (4 * slot + output) instant`, FP32 converted to samples (R307). -/
  fallback : Tab (Option Int)
  /-- Gate buffer entries with inverted check bits (SGT_INJ mode 3): key `128 * index + channel`. -/
  badEcc : Tab Bool
  /-- The cycle of the last accepted packet and the last sequence number of each listener (R297). -/
  listenAt : Tab Nat
  listenSeq : Tab Nat
  /-- Samples gathered for each talker's next packet, oldest first (R298). -/
  talk : Tab (List (List Int))
  talkCount : Tab Nat
  /-- Class of the margin to apply from a frame on: MARGIN in force per frame (R33). -/
  margins : List (Nat × Nat)
  deriving DecidableEq, Repr

/-- A time of a time base (R338): seconds modulo 2^48, nanoseconds below 10^9, and the fraction in 2^-32 ns. -/
structure Tm where
  sec : Nat
  ns : Nat
  frac : Nat
  deriving DecidableEq, Repr

/-- The time 0. -/
def Tm.zero : Tm := ⟨0, 0, 0⟩

/-- One time base (R338 to R342, R346 to R349). -/
structure TimeBase where
  val : Tm
  /-- The second copy of R339. -/
  copy : Tm
  /-- The seconds latched by the last read of the nanoseconds (R340). -/
  latched : Nat
  /-- Rate in force, ppb from nominal. -/
  rate : Int
  /-- It may step: SRC was written and no LOCKED state has followed (R346). -/
  mayStep : Bool
  /-- Consecutive Syncs within LOCK_THR. -/
  within : Nat
  /-- The last valid delta, held from a switch on (R348). -/
  held : Int
  deriving DecidableEq, Repr

/-- A time base at 0. -/
def TimeBase.zero : TimeBase := ⟨.zero, .zero, 0, 0, false, 0, 0⟩

/-- One PTP instance (R343, R345). -/
structure PtpInst where
  /-- Syncs since the grandmaster identity last changed, to 16. -/
  syncs : Nat
  /-- Cycle of the last Sync and of the last Announce, and their intervals in S_CORE cycles. -/
  syncAt : Nat
  syncGap : Nat
  annAt : Nat
  annGap : Nat
  /-- The instance's time at the last Sync, in ns, and its rate from nominal in ppb. -/
  time : Int
  rate : Int
  /-- Cycle from which the instance has been valid without a break (R349). -/
  validAt : Nat
  /-- The grandmaster has been named by an Announce. -/
  known : Bool
  deriving DecidableEq, Repr

/-- An instance that has received nothing. -/
def PtpInst.zero : PtpInst := ⟨0, 0, 0, 0, 0, 0, 0, 0, false⟩

/-- One capture (R354). -/
structure CapEntry where
  rise : Bool
  sec : Nat
  ns : Nat
  deriving DecidableEq, Repr

/-- One SYNC output (R352, R353): pulses or edges placed so far, and the level at the pin. -/
structure SyncOut where
  next : Nat
  level : Bool
  deriving DecidableEq, Repr

/-- Time bases, PTP instances, the tick lock, SYNC outputs and captures beyond their registers. -/
structure Time where
  tbs : Tab TimeBase
  ptp : Tab PtpInst
  /-- Mean link delay of each port in ns, where it has been measured (R343). -/
  linkDelay : Tab (Option Int)
  /-- Differences B - A of the last 16 Syncs of B, latest first (R347). -/
  deltas : List Int
  /-- The next Sync of instance A is taken as lost (TIM_INJ mode 2). -/
  loseSync : Bool
  /-- S of R350 in ns, where the tick unit started locked. -/
  start : Option Int
  /-- Consecutive boundaries outside and inside WIN (R351). -/
  outside : Nat
  inside : Nat
  caps : Tab (List CapEntry)
  /-- The capture last latched by a read of TIM_CAP_NS (R354). -/
  capLatch : Tab CapEntry
  syncs : Tab SyncOut
  deriving DecidableEq, Repr

/-- A frame in a transmit queue (R322, R323). -/
structure TxFrame where
  /-- What the spec gives of its content: the UDP payload, the AVTP PDU, or the answer's body. -/
  bytes : List Byte
  /-- Its length from destination address to FCS (R320). -/
  len : Nat
  /-- It is a SAFETY_STATUS, queued at this cycle (R337). -/
  statusAt : Option Nat
  /-- EtherType 0x88F7 or 0x888E: the uncontrolled port (R333). -/
  plain : Bool
  /-- It has been reported late (R337). -/
  late : Bool
  /-- R-TAG sequence number (R330, R331). -/
  rtag : Option Nat
  /-- VLAN ID and PCP of its tag; none: untagged, as gPTP messages are (R322). -/
  tag : Option (Nat × Nat)
  /-- Destination MAC, and IP address and UDP port, where a register or the peer gives them. -/
  dst : Option Nat
  ip : Option (Nat × Nat)
  deriving DecidableEq, Repr

/-- One MACsec secure association as installed (R333, R334). -/
structure Sa where
  key : List Nat
  salt : List Nat
  ssci : Nat
  /-- Next PN for transmit; lowest acceptable PN for receive is `pn` and `high` the highest accepted. -/
  pn : Nat
  high : Nat
  deriving DecidableEq, Repr

/-- The operational gate control list of a port (R323 to R325). -/
structure GateList where
  entries : List (Nat × Nat)
  cycle : Nat
  base : Int
  tb : Nat
  /-- Index of the entry in force. -/
  index : Nat
  deriving DecidableEq, Repr

/-- No operational list: all gates open. -/
def GateList.none : GateList := ⟨[], 0, 0, 0, 0⟩

/-- One recovery function's history (R332): the highest sequence number taken, the distances below it of the numbers received, and how many
places of the history lie at or after the first number taken. -/
structure CbHist where
  recv : Nat
  seen : List Nat
  valid : Nat
  at_ : Nat
  deriving DecidableEq, Repr

/-- The two ports and the per-stream functions beyond their registers. -/
structure Net where
  /-- Transmit queues, key `key2 port class`. -/
  queues : Tab (List TxFrame)
  /-- Credit of shaper j of port p in bits, key `key2 p j` (R326). -/
  credit : Tab Int
  /-- The cycle to which each shaper's credit has been brought. -/
  creditAt : Tab Nat
  /-- Gate states in force, key port. Unlisted: all open (R325). -/
  gates : Tab Nat
  oper : Tab GateList
  /-- The cycle start at which a pending change applies, in ns of its time base (R324). -/
  change : Tab (Option Int)
  /-- MACsec: installed SAs, key `key2 port sa`, the key registers, the AN in use and stopped channels (R334). -/
  sas : Tab (Option Sa)
  keySel : Tab Nat
  keyReg : Tab Nat
  txAn : Tab Nat
  txStopped : Tab Bool
  macsecRaised : Tab Bool
  /-- Flow meters: committed and excess tokens in 1/600 000 bit and the cycle of the last update; none: full buckets (R329). -/
  meters : Tab (Option (Nat × Nat × Nat))
  hist : Tab (Option CbHist)
  /-- R-TAG sequence number of the device's own stream (R330). -/
  cmdSeq : Nat
  /-- The last received frame that was handed on (R320). -/
  received : Option RxFrame
  /-- Cycle at which the last Pdelay request of each port was queued (R343). -/
  pdelayAt : Tab (Option Nat)
  deriving DecidableEq, Repr

/-- A message that the command engine sends: a reply, an event or a SAFETY_STATUS, before fragmentation and encryption. -/
structure Msg where
  /-- Session, or 0 for the handshake and SAFETY_STATUS (R362). -/
  session : Nat
  opcode : Nat
  event : Bool
  reqId : Nat
  status : Nat
  payload : List Byte
  /-- For a SAFETY_STATUS: the status destination it goes to (R375). -/
  dest : Nat
  /-- SEQ of its first packet (R365, R375). -/
  seq : Nat
  /-- The cycle at which it was queued, for the bounds of R335 and R376. -/
  at_ : Nat
  /-- Address and UDP port of the peer. -/
  peer : Nat × Nat := (0, 0)
  deriving DecidableEq, Repr

/-- One entry of a session's reply cache (R370). -/
structure Cached where
  reqId : Nat
  opcode : Nat
  payload : List Byte
  reply : Msg
  at_ : Nat
  deriving DecidableEq, Repr

/-- An operation left PENDING (R367): REQ_ID, opcode and the final status once it ended. -/
structure PendingOp where
  reqId : Nat
  opcode : Nat
  status : Option Nat
  deriving DecidableEq, Repr

/-- One open session (R363 to R370). -/
structure Session where
  role : Nat
  keyIndex : Nat
  addr : Nat
  port : Nat
  rxHigh : Nat
  /-- SEQ numbers within the 63 below `rxHigh` already accepted. -/
  rxSeen : List Nat
  txSeq : Nat
  lastAt : Nat
  /-- Host-to-device and device-to-host keys (R364). -/
  keys : List Byte
  mask : Nat
  minSev : Nat
  ops : List PendingOp
  cache : List Cached
  deriving DecidableEq, Repr

/-- A handshake in progress (R364): its HELLO, the reply given and the cycle of the HELLO. -/
structure Handshake where
  addr : Nat
  port : Nat
  reqId : Nat
  keyIndex : Nat
  role : Nat
  session : Nat
  hello : List Byte
  keys : List Byte
  reply : Msg
  at_ : Nat
  deriving DecidableEq, Repr

/-- A request being reassembled (R360): header fields, the bytes held so far and the cycle of the first fragment. -/
structure Partial where
  session : Nat
  opcode : Nat
  reqId : Nat
  total : Nat
  addr : Nat
  port : Nat
  got : List (Nat × List Byte)
  at_ : Nat
  deriving DecidableEq, Repr

/-- An image stage (R374): owner session, kind, size, the bytes written and where it lies. -/
structure Stage where
  session : Nat
  kind : Nat
  size : Nat
  chunks : Tab (List Byte)
  deriving DecidableEq, Repr

/-- A request whose reply waits for a capture to apply (R368). -/
structure Waiting where
  session : Nat
  reqId : Nat
  opcode : Nat
  payload : List Byte
  deriving DecidableEq, Repr

/-- The command engine. -/
structure Cmd where
  sessions : Tab (Option Session)
  handshakes : List Handshake
  partials : List Partial
  stages : Tab (Option Stage)
  /-- Messages queued for the network, oldest first. -/
  outbox : List Msg
  /-- SAFETY_STATUS packets sent since boot, and BOOT_SALT (R375). -/
  statusSeq : Nat
  bootSalt : List Byte
  /-- The cycle at which the last SAFETY_STATUS was queued (R376), and a trigger held by ETH_CMD_INJ mode 2, with the cycle at which it is queued. -/
  statusAt : Nat
  held : Option (Nat × Nat)
  /-- ETH_CMD_AUTH was raised in this tick (R361). -/
  authRaised : Bool
  /-- COMMIT and ARM_LIST requests that wait for their capture (R368). -/
  commitWait : List Waiting
  /-- A warm restart by command: due cycle and cause. -/
  restartAt : Option (Nat × Nat)
  deriving DecidableEq, Repr

/-- One lockstep pair beyond its registers (R382 to R395). -/
structure Pair where
  /-- The MISR of each copy as it stands since the last comparison that passed (R382, R383). -/
  misrMain : Nat
  misrChk : Nat
  /-- Inbound values captured for both copies that neither has taken yet, oldest first (R382). -/
  inbound : List Nat
  /-- Addresses of loads with a side effect that wait for a comparison (R385). -/
  loads : List Nat
  /-- Stores in the queue, oldest first. -/
  stores : List PairStore
  /-- Cycles of the transients of the running second (R388). -/
  transients : List Nat
  mainFenced : Bool
  chkFenced : Bool
  /-- Cycle at which the self-test slices end (R386). -/
  sliceEnd : Nat
  /-- The slices decide a mismatch that R388 treats as two failures. -/
  forceFail : Bool
  /-- The replay log, oldest first (R395). -/
  replay : List DebugAct
  /-- A halt request waits for the next comparison (R394). -/
  haltReq : Bool
  /-- The cycle of the last reset (R389). -/
  resetAt : Option Nat
  /-- Values of LCK_P_CFG in force (R407): TRANS_MAX, ON_SINGLE, WIN_LOG2. -/
  cfg : Option (Nat × Nat × Nat)
  deriving DecidableEq, Repr

/-- A pair in LOCKED. -/
def Pair.locked : Pair := ⟨0, 0, [], [], [], [], false, false, 0, false, [], false, none, none⟩

/-- One word in a mailbox queue with its sender's epoch (R397, R401). -/
structure MbxWord where
  data : Nat
  epoch : Nat
  /-- The cycle of the post (Table 12.3). -/
  at_ : Nat
  deriving DecidableEq, Repr

/-- One side of a mailbox channel: its outbound queue and its view (R397 to R401). -/
structure MbxSide where
  out : List MbxWord
  epoch : Nat
  consumed : Nat
  peerReset : Bool
  discarded : Nat
  overflow : Nat
  dbIn : Bool
  /-- The cycle of the last ring, and a post refused for a full queue with its cycle (R398, R399). -/
  ringAt : Option Nat
  refused : Option MbxWord
  deriving DecidableEq, Repr

/-- A side at warm restart. -/
def MbxSide.zero : MbxSide := ⟨[], 0, 0, false, 0, 0, false, none, none⟩

/-- A CRC block in progress (R404, R405): the last word with the running value and kept bytes before it, and the bytes kept back for STRIP. -/
structure CrcBlock where
  open_ : Bool
  last : Option (Nat × Nat × List Nat)
  tail : List Nat
  /-- The result of a block that END has finished and the received CRC to compare it with, not yet shown. -/
  result : Option (Nat × Nat)
  deriving DecidableEq, Repr

/-- A channel with no block. -/
def CrcBlock.idle : CrcBlock := ⟨false, none, [], none⟩

/-- Lockstep pairs, mailboxes and CRC channels beyond their registers. -/
structure Cores where
  pairs : Tab Pair
  /-- Mailbox sides, key `2 * channel` for side A and `2 * channel + 1` for side B. -/
  mbx : Tab MbxSide
  /-- The cycle at which a word was last consumed, or a queue last became filled, on a channel (R400). -/
  moved : Tab Nat
  crc : Tab CrcBlock
  /-- SVC_SPLIT as read at boot (R392). -/
  split : Nat
  deriving DecidableEq, Repr

/-- One source reported by a die's collector and not yet set in SNG_SET (R416). -/
structure Report where
  die : Die
  source : Nat
  detail : Nat
  injected : Bool
  deriving DecidableEq, Repr

/-- A warm restart that falls due (R412, R440): the cycle, its reset cause (Table 13.11), the watchdog or source behind it, and whether
the ladder counts it. -/
structure RestartDue where
  due : Nat
  cause : Nat
  unit : Nat
  ladder : Bool
  deriving DecidableEq, Repr

/-- The S-die shadow of TB0 (R430). -/
structure Shadow where
  sec : Nat
  ns : Nat
  free : Bool
  deriving DecidableEq, Repr

/-- The Snag unit, the collectors and the safe-state latch beyond their registers. -/
structure Snag where
  /-- SNG_SET: sources that are set. -/
  set : Tab Bool
  /-- Sources whose setting was injected (R431). -/
  injected : Tab Bool
  /-- The cycle in which hardware last set a source, plus 1 (R10). -/
  setAt : Tab Nat
  /-- Sources whose lasting cause is present (R427). -/
  cause : Tab Bool
  /-- Sources held set by the collector of die `d`, key `key2 d source`. -/
  held : Tab Bool
  /-- Collector reports under way (R416). -/
  reports : List Report
  /-- The collectors' copies of the severities, key `key2 d source`, listed where they differ from SNG_SEV (R415, R418). -/
  sevCopy : Tab Nat
  /-- A die's ALARM held by injection until this cycle (Table 13.9 mode 3). -/
  alarmUntil : Tab Nat
  /-- A die's ALARM rails are equal until this cycle, and its HB is stopped by injection until this cycle (R417, Table 13.9). -/
  lineUntil : Tab Nat
  hbUntil : Tab Nat
  /-- Highest severity among the set sources that the last status message reported (R412). -/
  lastSev : Nat
  /-- A RESUME has been accepted and SAFE has not cleared yet (R424). -/
  resumePending : Bool
  /-- Cycle of the last accepted RESUME and HOLD_BOOT before it; a SAFE source that becomes set in its cycle makes it refused, and SNG_STAT then
  shows RESUME_REFUSED and the HOLD_BOOT kept here (R423). -/
  resumeAt : Option (Nat × Bool)
  refused : Option Bool
  /-- The warm restart that is due (R412, R440). -/
  restart : Option RestartDue
  /-- Level of SAFE_HB and the cycle of its next edge (R420). -/
  hbLevel : Bool
  hbDue : Nat
  /-- The TB0 shadow (R430). -/
  shadow : Shadow
  /-- The fault log's records, four words each (Table 13.5). -/
  log : Tab (List Nat)
  /-- Records of sources that became set in the cycle `newAt`, by place in the log (R414), and whether the set was empty before it. -/
  newRecs : List Nat
  newAt : Nat
  newFirst : Bool
  /-- The Snag interrupt of pair 1 (R412) and the dies' later detections that nobody sees are not kept. -/
  irq : Bool
  deriving DecidableEq, Repr

/-- One watchdog beyond its registers (R433 to R438). -/
structure Dog where
  /-- The cycle at which the current window's count was 0. -/
  start : Nat
  /-- The window holds an accepted service. -/
  serviced : Bool
  /-- WARN has been reached in this window. -/
  warned : Bool
  /-- The time of the last accepted service (R443). -/
  lastSvc : Shadow
  deriving DecidableEq, Repr

/-- A watchdog that has not started. -/
def Dog.idle : Dog := ⟨0, false, false, ⟨0, 0, false⟩⟩

/-- The ladder (R440 to R442) and the S_RC monitor (R444). -/
structure Ladder where
  dogs : Tab Dog
  /-- The cycle of the last step 1. -/
  step1At : Option Nat
  /-- The cycle of the last ladder event or of the last warm restart. -/
  calmFrom : Nat
  /-- A ladder event was handled in this cycle (R440). -/
  eventAt : Option Nat
  /-- The watchdog interrupts of the pairs (R438). -/
  irq : Tab Bool
  /-- S_CORE is lost and the safe-state latch is driven by S_RC (R444). -/
  coreLost : Bool
  deriving DecidableEq, Repr

/-- One controller key of Topcoat (Table 14.6). -/
structure CtrlKey where
  role : Nat
  ed : List Byte
  mldsa : List Byte
  deriving DecidableEq, Repr

/-- A firmware or Topcoat install under way (R459). -/
structure Install where
  session : Nat
  reqId : Nat
  /-- Slot written: 0 A, 1 B. -/
  slot : Nat
  topcoat : Bool
  image : List Byte
  deriving DecidableEq, Repr

/-- Boot, images, keys and the token engine beyond their registers. -/
structure Boot where
  fuses : Fuses
  /-- OWNER_REVOKE as read at boot: a revocation blown later takes effect at the next boot (R469). -/
  ownerRevoke : Nat
  /-- Flash contents: firmware and Topcoat containers, key 0 slot A, 1 slot B (R520). -/
  flashFw : Tab (List Byte)
  flashTc : Tab (List Byte)
  /-- Containers at other places of the flashes, for BOOT_MODEL records: key `key2 chip offset`. -/
  flashModel : Tab (List Byte)
  ctrlKeys : Tab (Option CtrlKey)
  statusKey : List Byte
  /-- L of R470. -/
  loaded : List Byte
  compat : Nat
  /-- Cycle of boot step 5, from which TRIAL_S counts, and the slot to return to (R457). -/
  step5At : Nat
  previous : Nat
  /-- SEC_TRIAL_REVERT is raised at the next boot. -/
  revertDue : Bool
  /-- A trial has passed and the first RESUME after it has not been accepted (R458). -/
  arbDue : Bool
  /-- Cycle of a boot halt (R454), and the xSPI pins are released. -/
  haltAt : Option Nat
  xspiReleased : Bool
  /-- Cycle at which the debug token expires (R468). -/
  debugUntil : Option Nat
  debugScope : Nat
  installs : List Install
  /-- Rows under post-package repair: session, REQ_ID and the log entries (R247). -/
  hppr : Option (Nat × Nat × List Nat)
  /-- RSTOUT_n is high (R511). -/
  rstout : Bool
  deriving DecidableEq, Repr

/-- An engine under full test (R486): the cluster's suspect, the spare in TESTING and the logical engine to map. -/
structure Repair where
  suspect : Nat
  spare : Option Nat
  logical : Nat
  /-- Boundaries passed since the detection. -/
  step : Nat
  deriving DecidableEq, Repr

/-- Health monitors, self-test and repair beyond their registers. -/
structure Health where
  /-- The conditions of the last two rows of Table 15.2 have held since this cycle. -/
  calmFrom : Option Nat
  /-- Commanded voltage of each C-die rail in mV (R509), 800 where none is listed. -/
  volt : Tab Nat
  /-- The rail voltage being commanded: rail, mV (R478). -/
  command : Option (Nat × Nat)
  /-- Steps of C_ARITH that wait: MHz and boundaries to go (R480). -/
  step : Option (Nat × Nat)
  /-- Tick boundaries since the rotation in progress began (R482). -/
  rotationTicks : Nat
  repairs : List Repair
  /-- The self-test slot of the running tick has not completed. -/
  slotDue : Bool
  /-- Temperature sensors that have reported, as a bitmap. -/
  tempSeen : Nat
  deriving DecidableEq, Repr

/-- An AGREE record or the device's own decision for a frame (R498). -/
structure Agree where
  frame : Nat
  bitmap : Nat
  digest : List Byte
  deriving DecidableEq, Repr

/-- A planned handover (R497): h, whether this device proposed it, whether it is confirmed, and the request that waits for it. -/
structure Handover where
  frame : Nat
  proposed : Bool
  confirmed : Bool
  waiting : Option (Nat × Nat)
  deriving DecidableEq, Repr

/-- Twin operation beyond its registers. -/
structure Twin where
  /-- The device owns the outputs (R491, R494). -/
  owns : Bool
  own : List Agree
  peer : List Agree
  /-- The last FILT_N disagreement bits, latest first (R499). -/
  filt : List Bool
  /-- Consecutive frames in step with the lead (R492), to 64. -/
  inStep : Nat
  /-- The lead's FRAME_NO and TB0 time of its last SYNC record, and the device's own at its last boundary. -/
  peerSync : Option (Nat × Int)
  ownSync : Option (Nat × Int)
  /-- The peer's COMPAT, PREFER_LEAD, and the cycle of its last STATE record. -/
  peerCompat : Nat
  peerPrefer : Bool
  stateAt : Nat
  /-- STATE records have arrived within 1 ms (R491). -/
  stateFresh : Bool
  /-- The cycle at which the device last sent a STATE record. -/
  sentAt : Nat
  /-- Ticks for which SAFE has been 1 with the peer READY, and ticks for which OWN_IN has been low (Table 15.8). -/
  safeTicks : Nat
  lowTicks : Nat
  /-- An ownership change under way: the sample ticks to its switch edge, and the KIND of a release (Tables 15.8, 15.13). -/
  acquireAt : Option Nat
  releaseAt : Option (Nat × Nat)
  /-- Sample ticks that a collision still makes the device wait. -/
  retryAt : Nat
  handover : Option Handover
  /-- Seconds counted toward GIVE_BACK: the cycle from which the preferred peer has been READY. -/
  peerReadyFrom : Option Nat
  /-- What the configuration digest was last computed over (R493). -/
  contents : List Nat
  deriving DecidableEq, Repr

/-- Power, clocks and reset beyond their registers. -/
structure Power where
  /-- Dies without supply (R512), bit 0 C0, 1 C1, 2 X, 3 S. -/
  lost : Nat
  deriving DecidableEq, Repr

/-- Everything the spec gives the device but the commands that wait and the memories. -/
structure Dev where
  /-- S_CORE cycles since the model began; a reset does not set it back. -/
  now : Nat
  /-- Register fields, key `32 * address + lowest bit`; unlisted: the field's reset value. -/
  regs : Tab Nat
  /-- Staged copies of RWS fields (R11), in the same form; unlisted: the value in force. -/
  staged : Tab Nat
  capture : Option Capture
  resp : Resp
  /-- The cycle in which hardware last set a W1C bit outside SNG_SET, plus 1, key `key2 field bit` (R10). -/
  hwSet : Tab Nat
  /-- The model's own: free values drawn so far, and words drawn from the system DRBG. -/
  free : Nat
  drbg : Nat
  snag : Snag
  ladder : Ladder
  watch : WatchSys
  skim : Skim
  sig : Sig
  arr : Arr
  plan : Plan
  memsys : MemSys
  links : Tab LinkPort
  gate : Gate
  time : Time
  net : Net
  cmd : Cmd
  cores : Cores
  boot : Boot
  health : Health
  twin : Twin
  power : Power
  deriving DecidableEq, Repr

/-- The state: commands that wait, first in, first out; the device; its memories. -/
structure State where
  pending : List Instr
  dev : Dev
  mem : Mem
  deriving DecidableEq, Repr

/-- Why a step can fault: nothing in this device stops it, so there is no reason. -/
inductive Fault where
  deriving DecidableEq, Repr

/-- Why a command can be refused. -/
inductive Refusal where
  /-- Raised by the dispatcher for a command that has no meaning yet; safe. -/
  | notModelled (mnemonic : String)
  deriving DecidableEq, Repr

/-- The Snag unit at power-on: the safe state holds until the first RESUME (R419, R428). -/
def Snag.reset : Snag :=
  { set := [], injected := [], setAt := [], cause := [], held := [], reports := [], sevCopy := [], alarmUntil := [], lineUntil := [], hbUntil := [], lastSev := 0,
    resumePending := false, resumeAt := none, refused := none, restart := none, hbLevel := false, hbDue := 0,
    shadow := ⟨0, 0, false⟩, log := [], newRecs := [], newAt := 0, newFirst := false, irq := false }

/-- Watchdogs and ladder at power-on. -/
def Ladder.reset : Ladder :=
  { dogs := [], step1At := none, calmFrom := 0, eventAt := none, irq := [], coreLost := false }

/-- The watch system at power-on: every watch IDLE. -/
def WatchSys.reset : WatchSys := { desc := [], watches := [], staged := [], log := [] }

/-- The Skim units at power-on. -/
def Skim.reset : Skim :=
  { jobs := [], current := [], next := [], former := [], drawn := 0, epochOpen := false, swapAt := 0, rekey := false, kat := [],
    formerFrame := none, bytes := [], checked := [], skipped := [] }

/-- The signal checkers at power-on. -/
def Sig.reset : Sig := { lostDelay := [], lostEnergy := [], seq := [], fails := [], blocks := 0 }

/-- The array sequencer and directory at power-on. -/
def Arr.reset : Arr :=
  { plan := [], background := [], running := none, suspended := none, stage := none, planClk := 0, bgClk := 0, preempts := 0, maxLat := 0,
    models := [], loads := [], shadow := [], fbTries := [], spent := [], tensors := [] }

/-- Planner, tick unit and stage windows at power-on. -/
def Plan.reset : Plan :=
  { starting := false, stopping := false, boundaryAt := 0, alloc := [], stnAlloc := [], thinned := [], replanIn := none,
    stencils := [], waste := 0, carried := 0, windows := [], windowFrom := [], planTasks := [], log := [] }

/-- The memory system at power-on. -/
def MemSys.reset : MemSys :=
  { rings := [], rows := [], retires := [], retired := 0, lines := [], stages := [], xlt := [], undo := [],
    laneErrors := [], marked := [], standIn := [], gone := [], injected := none, writes := [] }

/-- Ports, gates and streams at power-on. -/
def Gate.reset : Gate :=
  { inputs := [], tick := 0, wraps := 0, outs := [], ports := [], lastRp := none, chime := [], fallback := [], badEcc := [], listenAt := [],
    listenSeq := [], talk := [], talkCount := [], margins := [] }

/-- Time at power-on. -/
def Time.reset : Time :=
  { tbs := [], ptp := [], linkDelay := [], deltas := [], loseSync := false, start := none, outside := 0, inside := 0, caps := [],
    capLatch := [], syncs := [] }

/-- The network at power-on. -/
def Net.reset : Net :=
  { queues := [], credit := [], creditAt := [], gates := [], oper := [], change := [], sas := [], keySel := [], keyReg := [],
    txAn := [], txStopped := [], macsecRaised := [], meters := [], hist := [], received := none, pdelayAt := [], cmdSeq := 0 }

/-- The command engine at power-on. -/
def Cmd.reset : Cmd :=
  { sessions := [], handshakes := [], partials := [], stages := [], outbox := [], statusSeq := 0,
    bootSalt := [], statusAt := 0, held := none, authRaised := false, commitWait := [], restartAt := none }

/-- Lockstep pairs, mailboxes and CRC channels at power-on. -/
def Cores.reset : Cores := { pairs := [], mbx := [], moved := [], crc := [], split := 0 }

/-- Boot and security at power-on, before any boot step. -/
def Boot.reset : Boot :=
  { fuses := .blank, ownerRevoke := 0, flashFw := [], flashTc := [], flashModel := [], ctrlKeys := [], statusKey := [],
    loaded := [], compat := 0, step5At := 0, previous := 0, revertDue := false, arbDue := false, haltAt := none,
    xspiReleased := false, debugUntil := none, debugScope := 0, installs := [], hppr := none, rstout := false }

/-- Health and repair at power-on. -/
def Health.reset : Health :=
  { calmFrom := none, volt := [], command := none, step := none, rotationTicks := 0, repairs := [], slotDue := false,
    tempSeen := 0 }

/-- Twin operation at power-on. -/
def Twin.reset : Twin :=
  { owns := false, own := [], peer := [], filt := [], inStep := 0, peerSync := none, ownSync := none, peerCompat := 0,
    peerPrefer := false, stateAt := 0, stateFresh := false, sentAt := 0, safeTicks := 0, lowTicks := 0, acquireAt := none, releaseAt := none,
    retryAt := 0, handover := none, peerReadyFrom := none, contents := [] }

/-- Power, clocks and reset at power-on. -/
def Power.reset : Power := { lost := 0 }

/-- The device at power-on. -/
def Dev.reset : Dev :=
  { now := 0, regs := [], staged := [], capture := none, resp := .idle, hwSet := [], free := 0, drbg := 0, snag := .reset, ladder := .reset,
    watch := .reset, skim := .reset, sig := .reset, arr := .reset, plan := .reset, memsys := .reset, links := [],
    gate := .reset, time := .reset, net := .reset, cmd := .reset, cores := .reset, boot := .reset, health := .reset,
    twin := .reset, power := .reset }

/-- The machine right after a power-on reset, before boot: every register at its reset value, no command waiting, memory unlisted. -/
def State.reset : State := { pending := [], dev := .reset, mem := { cells := [], check := [] } }

end Sys2Proof.Machine
end

