-- ==== Sys2Proof/Machine/Bits.lean ====
section
/-!
DEFINITION. Bytes, byte orders (R7), signed numbers and saturating counters.
-/

namespace Sys2Proof.Machine

/-- `n` bytes of `v`, least significant first. -/
def leBytes : Nat → Nat → List Byte
  | 0, _ => []
  | n + 1, v => BitVec.ofNat 8 v :: leBytes n (v / 256)

/-- `n` bytes of `v`, most significant first. -/
def beBytes (n v : Nat) : List Byte := (leBytes n v).reverse

/-- The number that bytes spell, least significant first. -/
def leNat : List Byte → Nat
  | [] => 0
  | b :: bs => b.toNat + 256 * leNat bs

/-- The number that bytes spell, most significant first. -/
def beNat (bs : List Byte) : Nat := leNat bs.reverse

/-- Bytes `off` to `off + n - 1`. -/
def slice (bs : List Byte) (off n : Nat) : List Byte := (bs.drop off).take n

/-- A big-endian number of `n` bytes at `off` (R7: command packets). -/
def beAt (bs : List Byte) (off n : Nat) : Nat := beNat (slice bs off n)

/-- A little-endian number of `n` bytes at `off`. -/
def leAt (bs : List Byte) (off n : Nat) : Nat := leNat (slice bs off n)

/-- `n` zero bytes. -/
def zeroBytes (n : Nat) : List Byte := List.replicate n 0

/-- Every byte is 0. -/
def allZero (bs : List Byte) : Bool := bs.all (fun b => b == 0)

/-- Bit `i` of `v`. -/
def bit (v i : Nat) : Bool := v / 2 ^ i % 2 == 1

/-- Bits `hi` to `lo` of `v`. -/
def bitsAt (v hi lo : Nat) : Nat := v / 2 ^ lo % 2 ^ (hi - lo + 1)

/-- Number of 1 bits among the low `n`. -/
def popcount : Nat → Nat → Nat
  | 0, _ => 0
  | n + 1, v => v % 2 + popcount n (v / 2)

/-- 1 for true. -/
def b2n (b : Bool) : Nat := if b then 1 else 0

/-- The number whose bit `i`, for `i` below `n`, is `f i`. -/
def bitsOf (n : Nat) (f : Nat → Bool) : Nat := (List.range n).foldl (fun a i => a + if f i then 2 ^ i else 0) 0

/-- The two's-complement number of the low `w` bits. -/
def signedOf (w v : Nat) : Int :=
  let u := v % 2 ^ w
  if 2 * u < 2 ^ w then (u : Int) else (u : Int) - (2 ^ w : Nat)

/-- The low `w` bits of a number. -/
def ofSigned (w : Nat) (x : Int) : Nat := (x % ((2 ^ w : Nat) : Int)).toNat

/-- A number held between bounds. -/
def clampInt (lo hi x : Int) : Int := if x < lo then lo else if hi < x then hi else x

/-- Addition that saturates at `m`. -/
def satAdd (m a b : Nat) : Nat := if m < a + b then m else a + b

/-- FRAME_NO arithmetic wraps (R29). -/
def frameAdd (a b : Nat) : Nat := (a + b) % 4294967296

/-- Frame `a` precedes frame `b` (R29). -/
def framePrecedes (a b : Nat) : Bool :=
  let d := (b + 4294967296 - a % 4294967296) % 4294967296
  1 ≤ d && d ≤ 2147483647

/-- Replace the element at a place of a list. -/
def setNth {α : Type} : List α → Nat → α → List α
  | [], _, _ => []
  | _ :: t, 0, v => v :: t
  | a :: t, n + 1, v => a :: setNth t n v

/-- Insert by a key, after those not greater. -/
def insertBy {α : Type} (key : α → Nat) (v : α) : List α → List α
  | [] => [v]
  | a :: t => if key v < key a then v :: a :: t else a :: insertBy key v t

/-- Sort by a key, keeping the order of equals. -/
def sortBy {α : Type} (key : α → Nat) (l : List α) : List α := l.foldl (fun acc x => insertBy key x acc) []

end Sys2Proof.Machine
end

