-- ==== Sys2Proof/Machine/Ops.lean ====
section
/-!
DEFINITION. The operations that every command shares: register fields, memory bytes, free values, logs, messages of the command
engine, Snag sources, the safe state, and the frame around a command.
-/

namespace Sys2Proof.Machine

/-! Register fields. -/

/-- Width of a field in bits. -/
def Fld.width (f : Fld) : Nat := f.hi - f.lo + 1

/-- Key of a field in the register table. -/
def Fld.key (f : Fld) : Nat := 32 * f.addr + f.lo

/-- Value in force of a field (R9). -/
def Dev.fld (d : Dev) (f : Fld) : Nat := tabGet f.reset d.regs f.key

/-- A one-bit field is 1. -/
def Dev.on (d : Dev) (f : Fld) : Bool := d.fld f == 1

/-- Give a field a value; bits beyond its width are dropped. -/
def Dev.put (d : Dev) (f : Fld) (v : Nat) : Dev :=
  { d with regs := tabSet f.reset d.regs f.key (v % 2 ^ f.width) }

/-- Give a one-bit field a value. -/
def Dev.flag (d : Dev) (f : Fld) (b : Bool) : Dev := d.put f (b2n b)

/-- Add to a counter that saturates at the field's largest value. -/
def Dev.count (d : Dev) (f : Fld) (n : Nat) : Dev := d.put f (satAdd (2 ^ f.width - 1) (d.fld f) n)

/-- Staged copy of an RWS field (R11). -/
def Dev.stagedFld (d : Dev) (f : Fld) : Nat := tabGet (d.fld f) d.staged f.key

/-- Write the staged copy of an RWS field. -/
def Dev.putStaged (d : Dev) (f : Fld) (v : Nat) : Dev :=
  { d with staged := tabSet (d.fld f) d.staged f.key (v % 2 ^ f.width) }

/-! Bits that hardware sets and software clears (R10). -/

/-- Hardware sets bit `j` of a W1C field in this cycle. -/
def Dev.stampBit (d : Dev) (f : Fld) (j : Nat) : Dev := { d with hwSet := tabSet 0 d.hwSet (key2 f.key j) (d.now + 1) }

/-- Hardware has set bit `j` of a W1C field in this cycle, so that a clear leaves it set. -/
def Dev.freshBit (d : Dev) (f : Fld) (j : Nat) : Bool := tabGet 0 d.hwSet (key2 f.key j) == d.now + 1

/-- A W1C field after a write of `v`: bits that hardware sets in the same cycle stay (R9, R10). -/
def Dev.clearBitsOf (d : Dev) (f : Fld) (v : Nat) : Dev :=
  d.put f (bitsOf f.width (fun j => bit (d.fld f) j && (!bit v j || d.freshBit f j)))

/-- How the last register access ended. -/
def Dev.answer (d : Dev) (r : Resp) : Dev := { d with resp := r }

/-! Memory bytes. An unlisted byte reads as 0 (log entry 7). -/

/-- The memory's canonical form. -/
def Memory.wf (m : Mem) : Bool := tabWf 0 m.cells && tabWf Check.sound m.check

/-- One byte of memory. -/
def Mem.byte (m : Mem) (a : Nat) : Byte := tabGet 0 m.cells a

/-- What a byte's check bits show. -/
def Mem.checkAt (m : Mem) (a : Nat) : Check := tabGet .sound m.check a

/-- The byte's check bits read as uncorrectable (R226). -/
def Mem.bad (m : Mem) (a : Nat) : Bool := m.checkAt a == .double

/-- The byte is delivered corrected (R224). -/
def Mem.weak (m : Mem) (a : Nat) : Bool := m.checkAt a == .single

/-- `n` bytes from address `a`. -/
def Mem.bytes (m : Mem) (a : Nat) : Nat → List Byte
  | 0 => []
  | n + 1 => m.byte a :: m.bytes (a + 1) n

/-- Apply one write. -/
def Mem.put (m : Mem) (w : MemWrite) : Mem :=
  { cells := tabSet 0 m.cells w.addr w.byte, check := tabSet .sound m.check w.addr w.check }

/-- Apply the writes of a command in order. -/
def Mem.putAll (m : Mem) (ws : List MemWrite) : Mem := ws.foldl Mem.put m

/-- Writes of fresh data, with sound check bits, to successive bytes from address `a` (R222). -/
def memWrites (a : Nat) : List Byte → List MemWrite
  | [] => []
  | b :: bs => ⟨a, b, .sound⟩ :: memWrites (a + 1) bs

/-- Queue memory writes for the end of the command. -/
def Dev.store (d : Dev) (ws : List MemWrite) : Dev :=
  { d with memsys := { d.memsys with writes := d.memsys.writes ++ ws } }

/-! Free values. -/

/-- The next free value (log entry 6). -/
def Dev.draw (d : Dev) : Nat × Dev := (Config.free d.free, { d with free := d.free + 1 })

/-- `n` free values. -/
def Dev.drawN (d : Dev) : Nat → List Nat × Dev
  | 0 => ([], d)
  | n + 1 => let (v, d1) := d.draw; let (vs, d2) := d1.drawN n; (v :: vs, d2)

/-- `n` 32-bit words of the system DRBG (R455). -/
def Dev.drbgWords (d : Dev) : Nat → List Nat × Dev
  | 0 => ([], d)
  | n + 1 =>
    let (vs, d2) := Dev.drbgWords { d with drbg := d.drbg + 1 } n
    (Config.drbg d.drbg % 4294967296 :: vs, d2)

/-! Dies, clocks and frames. -/

/-- C-die 0, C-die 1 and the X-die in the order of SNG_FL_STAT; 3 for the S-die. -/
def dieIdx : Die → Nat
  | .c0 => 0
  | .c1 => 1
  | .x => 2
  | .s => 3

/-- The die with an index of SNG_FL_STAT. -/
def dieOf (i : Nat) : Die := if i = 0 then .c0 else if i = 1 then .c1 else if i = 2 then .x else .s

/-- SNG_FL_STAT.REACHABLE of a die. -/
def reachFld (i : Nat) : Fld :=
  if i = 0 then SNG.FL_STAT_REACHABLE0 else if i = 1 then SNG.FL_STAT_REACHABLE1 else SNG.FL_STAT_REACHABLE2

/-- SNG_FL_STAT.LINE_FAULT of a die. -/
def lineFaultFld (i : Nat) : Fld :=
  if i = 0 then SNG.FL_STAT_LINE_FAULT0 else if i = 1 then SNG.FL_STAT_LINE_FAULT1 else SNG.FL_STAT_LINE_FAULT2

/-- SNG_FL_STAT.HB_OK of a die. -/
def hbOkFld (i : Nat) : Fld :=
  if i = 0 then SNG.FL_STAT_HB_OK0 else if i = 1 then SNG.FL_STAT_HB_OK1 else SNG.FL_STAT_HB_OK2

/-- SNG_FL_STAT.ALARM of a die. -/
def alarmFld (i : Nat) : Fld :=
  if i = 0 then SNG.FL_STAT_ALARM0 else if i = 1 then SNG.FL_STAT_ALARM1 else SNG.FL_STAT_ALARM2

/-- The die's blocks answer register accesses (R38). -/
def Dev.reach (d : Dev) (die : Die) : Bool :=
  match die with
  | .s => true
  | y => d.on (reachFld (dieIdx y))

/-- Signals are checked: the X-die answers and its HBM is trained (R38, R248). -/
def Dev.checks (d : Dev) : Bool := d.reach .x && d.on MEM.HBM_STAT_TRAINED

/-- A register command acts only where its block's die is reachable, else it ends with an error response (R38). -/
def Dev.at (d : Dev) (die : Die) (k : Dev → Dev) : Dev :=
  if d.reach die then k d else d.answer .error

/-- FRAME_NO (R29). -/
def Dev.frame (d : Dev) : Nat := d.fld TCK.FRAME_NO_FRAME_NO

/-- The tick unit runs. -/
def Dev.running (d : Dev) : Bool := d.on TCK.CTRL_RUN

/-- TCK_FRAME.LEN. -/
def Dev.len (d : Dev) : Nat := d.fld TCK.FRAME_LEN

/-- First instant of frame `k`, as a sample index that goes on where FRAME_NO wraps (R29). -/
def Dev.frameStart (d : Dev) (k : Nat) : Nat :=
  let a := d.frame
  let n := d.gate.wraps
  let v := if framePrecedes k a && a < k then n - 1 else if framePrecedes a k && k < a then n + 1 else n
  (4294967296 * v + k) * d.len

/-- Fs in hertz (Table 01.7); 0 for the reserved code. -/
def fsHz (sel : Nat) : Nat :=
  match sel with
  | 0 => 32000 | 1 => 44100 | 2 => 48000 | 3 => 88200 | 4 => 96000 | 5 => 176400 | 6 => 192000 | _ => 0

/-- Fs in force. -/
def Dev.fs (d : Dev) : Nat := fsHz (d.fld TCK.FRAME_FS_SEL)

/-- S_CORE cycles in a number of microseconds, milliseconds and seconds. -/
def usCycles (n : Nat) : Nat := 600 * n
def msCycles (n : Nat) : Nat := 600000 * n
def sCycles (n : Nat) : Nat := 600000000 * n

/-- A time base as reads see it: TB1 to TB3 are TB0 in UNIFIED mode (R341). -/
def Dev.tb (d : Dev) (i : Nat) : TimeBase :=
  tabGet .zero d.time.tbs (if d.fld TIM.CTRL_MODE = 0 then 0 else i)

/-! Logs (R72). -/

/-- Records that a log holds when full. -/
def logSize : LogId → Nat
  | .verdict => 1024
  | .event => 256
  | .fault => 512

def logWr : LogId → Fld
  | .verdict => WCH.LOG_WR_WR
  | .event => SWD.EVT_WR_WR
  | .fault => SNG.LOG_WR_WR

def logRd : LogId → Fld
  | .verdict => WCH.LOG_RD_RD
  | .event => SWD.EVT_RD_RD
  | .fault => SNG.LOG_RD_RD

def logFull : LogId → Fld
  | .verdict => WCH.LOG_STAT_FULL
  | .event => SWD.EVT_STAT_FULL
  | .fault => SNG.LOG_STAT_FULL

def logLost : LogId → Fld
  | .verdict => WCH.LOG_STAT_LOST
  | .event => SWD.EVT_STAT_LOST
  | .fault => SNG.LOG_STAT_LOST

/-- The Snag source that a full log raises. -/
def logSource : LogId → Nat
  | .verdict => 69
  | .event => 67
  | .fault => 2

/-- The records of a log, by place. -/
def Dev.logOf (d : Dev) : LogId → Tab (List Nat)
  | .verdict => d.watch.log
  | .event => d.plan.log
  | .fault => d.snag.log

def Dev.withLog (d : Dev) (l : LogId) (t : Tab (List Nat)) : Dev :=
  match l with
  | .verdict => { d with watch := { d.watch with log := t } }
  | .event => { d with plan := { d.plan with log := t } }
  | .fault => { d with snag := { d.snag with log := t } }

/-- Append a record of four words, or drop it and count it in LOST when the log is full; true where it was dropped. -/
def Dev.logPut (d : Dev) (l : LogId) (r : List Nat) : Dev × Bool :=
  if d.on (logFull l) then (d.count (logLost l) 1, true)
  else
    let w := d.fld (logWr l)
    let w1 := (w + 1) % (logSize l)
    let d1 := (d.withLog l (tabSet [] (d.logOf l) w r)).put (logWr l) w1
    (d1.flag (logFull l) (w1 == d.fld (logRd l)), false)

/-- Records that a log holds. -/
def Dev.logFill (d : Dev) (l : LogId) : Nat :=
  if d.on (logFull l) then (logSize l) else (d.fld (logWr l) + (logSize l) - d.fld (logRd l)) % (logSize l)

/-! Severities and sources. -/

/-- The SEV field of a source (Table 13.8). -/
def sevFld (n : Nat) : Fld :=
  match n % 4 with
  | 0 => SNG.SEV_SEV0 (n / 4)
  | 1 => SNG.SEV_SEV1 (n / 4)
  | 2 => SNG.SEV_SEV2 (n / 4)
  | _ => SNG.SEV_SEV3 (n / 4)

/-- Severity in force (R412); 0 for a reserved number (R410). -/
def Dev.sev (d : Dev) (n : Nat) : Nat := if srcExists n then d.fld (sevFld n) else 0

/-- A source is set. -/
def Dev.isSet (d : Dev) (n : Nat) : Bool := tabGet false d.snag.set n

/-- A set source has severity SAFE or RESTART. -/
def Dev.safeSource (d : Dev) : Bool := d.snag.set.any (fun e => e.2 && sevSafe ≤ d.sev e.1)

/-- Highest severity among the set sources. -/
def Dev.maxSev (d : Dev) : Nat := d.snag.set.foldl (fun a e => if e.2 then max a (d.sev e.1) else a) 0

/-- Number of set sources. -/
def Dev.nset (d : Dev) : Nat := (d.snag.set.filter (·.2)).length

/-- Copy of a severity in a die's collector (R415). -/
def Dev.collSev (d : Dev) (die n : Nat) : Nat := tabGet (d.sev n) d.snag.sevCopy (key2 die n)

/-- A die holds a set source at SAFE or RESTART. -/
def Dev.dieSafe (d : Dev) (die : Nat) : Bool :=
  d.snag.held.any (fun e => e.2 && e.1 / 4294967296 == die && sevSafe ≤ d.collSev die (e.1 % 4294967296))

/-- Set the cause of a source present or ended (R427). -/
def Dev.cause (d : Dev) (n : Nat) (b : Bool) : Dev :=
  { d with snag := { d.snag with cause := tabSet false d.snag.cause n b } }

/-! Messages of the command engine. -/

/-- Queue a message for the network. -/
def Dev.post (d : Dev) (m : Msg) : Dev := { d with cmd := { d.cmd with outbox := d.cmd.outbox ++ [m] } }

/-- The open session with a number. -/
def Dev.session (d : Dev) (n : Nat) : Option Session := tabGet none d.cmd.sessions n

def Dev.withSession (d : Dev) (n : Nat) (s : Option Session) : Dev :=
  { d with cmd := { d.cmd with sessions := tabSet none d.cmd.sessions n s } }

/-- Send an event to an open session under its next SEQ (R377). -/
def Dev.event (d : Dev) (n op : Nat) (payload : List Byte) : Dev :=
  match d.session n with
  | none => d
  | some s =>
    (d.withSession n (some { s with txSeq := s.txSeq + 1 })).post
      { session := n, opcode := op, event := true, reqId := 0, status := 0, payload := payload, dest := 0,
        seq := s.txSeq + 1, at_ := d.now, peer := (s.addr, s.port) }

/-- Output channel `c` emits substitution content or a ramp. -/
def Dev.substituting (d : Dev) (c : Nat) : Bool :=
  let o := tabGet OutCh.reset d.gate.outs c
  d.on (SGT.OUT_EN c) && (o.content == .subst || o.shown || o.ramp.isSome || o.inRamp)

/-- SGT_SUBSTi (Table 09.8). -/
def Dev.substWord (d : Dev) (i : Nat) : Nat := bitsOf 32 (fun j => d.substituting (32 * i + j))

/-- WCH_GRP_TRIPi (Table 02.20). -/
def Dev.grpTrip (d : Dev) (i : Nat) : Nat := bitsOf 32 (fun j => d.isSet (768 + 32 * i + j))

/-- The device is lead or unpaired (Table 09.4, R496): it drives its outputs. -/
def Dev.leadBit (d : Dev) : Bool := d.fld TWN.STAT_STATE == 0 || d.twin.owns

/-- The safety status word of Table 09.4 with a stream's VALID bits. -/
def Dev.statusWord (d : Dev) (valid : Nat) : Nat :=
  d.fld SNG.STAT_SAFE_OK * 2147483648 + b2n d.leadBit * 1073741824 + d.maxSev % 8 * 134217728 + valid % 128 * 1048576
    + d.fld SEC.IDENT_DEVICE_ID * 1024 + d.frame % 1024

/-- The SAFETY_STATUS payload of Table 11.5. -/
def Dev.statusPayload (d : Dev) (trigger : Nat) : List Byte :=
  let t := (d.tb 0).val
  d.cmd.bootSalt ++ zeroBytes (16 - d.cmd.bootSalt.length) ++ beBytes 4 d.frame ++ beBytes 4 (d.statusWord 0)
    ++ beBytes 6 t.sec ++ beBytes 4 t.ns ++ beBytes 1 trigger ++ beBytes 1 d.maxSev ++ beBytes 2 d.nset
    ++ beBytes 2 (if d.on SNG.FIRST_VALID then d.fld SNG.FIRST_FIRST_SRC else 65535)
    ++ (List.range 4).flatMap (fun i => beBytes 4 (d.substWord i))
    ++ (List.range 8).flatMap (fun i => beBytes 4 (d.grpTrip i)) ++ zeroBytes 8

/-- Queue one SAFETY_STATUS packet for destination `i` where it is enabled (R375). -/
def Dev.statusTo (trigger : Nat) (d : Dev) (i : Nat) : Dev :=
  if d.on (ETH.SD_CFG_EN i) then
    { d with cmd := { d.cmd with statusSeq := d.cmd.statusSeq + 1 } }.post
      { session := 0, opcode := 14, event := true, reqId := 0, status := 0, payload := d.statusPayload trigger, dest := i,
        seq := d.cmd.statusSeq + 1, at_ := d.now }
  else d

/-- A queued SAFETY_STATUS not older than 40 us, whose trigger satisfies `p` (R376). -/
def Dev.statusRecent (d : Dev) (p : Nat → Bool) (m : Msg) : Bool :=
  m.opcode == 14 && m.session == 0 && d.now ≤ m.at_ + usCycles 40 && p (beAt m.payload 34 1)

/-- Queue a SAFETY_STATUS on every destination, one message with a periodic one due within 40 us (R376); none while the X-die is lost. -/
def Dev.sendStatus (d : Dev) (trigger : Nat) : Dev :=
  if !d.reach .x then d
  else if trigger = 0 && d.cmd.outbox.any (d.statusRecent (fun t => t != 0)) then
    { d with cmd := { d.cmd with statusAt := d.now } }
  else if trigger != 0 && d.cmd.outbox.any (d.statusRecent (fun t => t == 0)) then
    { d with cmd := { d.cmd with statusAt := d.now, outbox := d.cmd.outbox.map (fun m =>
        if d.statusRecent (fun t => t == 0) m then { m with payload := d.statusPayload trigger } else m) } }
  else (List.range 4).foldl (Dev.statusTo trigger) { d with cmd := { d.cmd with statusAt := d.now } }

/-- A triggered SAFETY_STATUS: ETH_CMD_INJ mode 2 holds the next one for 250 us (R379). -/
def Dev.triggerStatus (d : Dev) (trigger : Nat) : Dev :=
  if d.on ETH.CMD_INJ_ARM && d.fld ETH.CMD_INJ_MODE == 2 && d.reach .x then
    { d.flag ETH.CMD_INJ_ARM false with cmd := { d.cmd with held := some (d.now + usCycles 250, trigger) } }
  else d.sendStatus trigger

/-- Sessions 1 to 8. -/
def sessionNumbers : List Nat := [1, 2, 3, 4, 5, 6, 7, 8]

/-- Add a source to a FAULT_EVENT of the same session queued within 1 ms, if there is one (R377). -/
def joinEvent (now sess : Nat) (entry : List Byte) : List Msg → Option (List Msg)
  | [] => none
  | m :: ms =>
    if m.session = sess && m.opcode = 111 && now < m.at_ + msCycles 1 && m.payload.length < 768 then
      some ({ m with payload := m.payload ++ entry } :: ms)
    else (joinEvent now sess entry ms).map (fun r => m :: r)

/-- FAULT_EVENT to a session that subscribed to it at the source's severity or below (R377). -/
def Dev.faultEventTo (n sev : Nat) (d : Dev) (sess : Nat) : Dev :=
  match d.session sess with
  | none => d
  | some s =>
    if bit s.mask 0 && s.minSev ≤ sev then
      let entry := beBytes 2 n ++ beBytes 1 sev ++ [0] ++ beBytes 4 d.frame ++ beBytes 4 d.snag.shadow.ns
      match joinEvent d.now sess entry d.cmd.outbox with
      | some box => { d with cmd := { d.cmd with outbox := box } }
      | none => d.event sess 111 entry
    else d

/-- TWIN_EVENT to the sessions that subscribed to it (R377, R501). -/
def Dev.twinEvent (d : Dev) (code : Nat) : Dev :=
  sessionNumbers.foldl (fun d n =>
    match d.session n with
    | none => d
    | some s =>
      if bit s.mask 2 then
        d.event n 159 (beBytes 1 code ++ beBytes 1 (d.fld TWN.STAT_STATE) ++ [0, 0] ++ beBytes 4 d.frame)
      else d) d

/-! Setting a source (R412, R414). -/

/-- Write a fault log record (Table 13.5); true where it was dropped. -/
def Dev.faultRecord (d : Dev) (n flags detail : Nat) : Dev × Bool :=
  d.logPut .fault [d.frame, d.snag.shadow.ns,
    n + 65536 * d.sev n + 16777216 * (flags + 8 * b2n d.snag.shadow.free), detail]

/-- Keep the records of one cycle in ascending source number (R414). -/
def sortRecords (t : Tab (List Nat)) (places : List Nat) : Tab (List Nat) :=
  let recs := sortBy (fun r => r.getD 2 0 % 1024) (places.map (fun p => tabGet [] t p))
  (places.zip recs).foldl (fun t pr => tabSet [] t pr.1 pr.2) t

/-- Mark a source set; FIRST_SRC takes the lowest source of the cycle in which the set stopped being empty (R414). -/
def Dev.markSet (d : Dev) (n : Nat) (inj : Bool) : Dev :=
  let g0 := d.snag
  let g := if g0.newAt = d.now && (g0.newRecs != [] || g0.newFirst) then g0
    else { g0 with newAt := d.now, newRecs := [], newFirst := false }
  let first := d.nset = 0 || (g.newFirst && n < d.fld SNG.FIRST_FIRST_SRC)
  let d1 := { d with snag := { g with set := tabSet false g.set n true, injected := tabSet false g.injected n inj,
                                      newFirst := g.newFirst || d.nset = 0 } }
  if first then (d1.flag SNG.FIRST_VALID true).put SNG.FIRST_FIRST_SRC n else d1

/-- The record, the interrupt of pair 1 and the event of a source at NOTE or above; true where the record was dropped. -/
def Dev.noteSet (d : Dev) (n detail : Nat) (inj : Bool) : Dev × Bool :=
  let w := d.fld SNG.LOG_WR_WR
  let (d1, dropped) := d.faultRecord n (b2n inj) detail
  let d2 := if dropped then d1
    else
      let ps := d1.snag.newRecs ++ [w]
      { d1 with snag := { d1.snag with newRecs := ps, log := sortRecords d1.snag.log ps } }
  let d3 := sessionNumbers.foldl (Dev.faultEventTo n (d.sev n)) { d2 with snag := { d2.snag with irq := true } }
  (d3, dropped)

/-- Step 2 of the ladder, or a RESTART source (R440): a warm restart 250 us later, counted once while it is due. -/
def Dev.ladderStep2 (d : Dev) (cause unit : Nat) : Dev :=
  if d.on WDG.LADDER_LOCKED then
    if cause = 2 && d.snag.restart.isNone then
      { d with snag := { d.snag with restart := some ⟨d.now + usCycles 250, cause, unit, false⟩ } }
    else d
  else
    let d1 := { d with ladder := { d.ladder with eventAt := some d.now, calmFrom := d.now } }
    match d1.snag.restart with
    | none =>
      { d1.count WDG.LADDER_TRIES 1 with
        snag := { d1.snag with restart := some ⟨d.now + usCycles 250, cause, unit, true⟩ } }
    | some r =>
      if cause = 1 && d.ladder.eventAt == some d.now && r.cause = 2 then
        { d1 with snag := { d1.snag with restart := some { r with cause := cause, unit := unit } } }
      else d1

/-- Hardware sets a source in this cycle (R10). -/
def Dev.stampSource (d : Dev) (n : Nat) : Dev :=
  { d with snag := { d.snag with setAt := tabSet 0 d.snag.setAt n (d.now + 1) } }

/-- Set one source and take the actions of Table 13.2; true where the log dropped its record. A source already set keeps its place. -/
def Dev.setOne (d : Dev) (n detail : Nat) (inj : Bool) : Dev × Bool :=
  if !srcExists n then (d, false)
  else if d.isSet n then (d.stampSource n, false)
  else
    let d1 := (d.stampSource n).markSet n inj
    let (d2, dropped) := if sevNote ≤ d.sev n then d1.noteSet n detail inj else (d1, false)
    (if d.sev n = sevRestart then d2.ladderStep2 2 n else d2, dropped)

/-- Hardware has set a source in this cycle, so that a clear of its bit leaves it set (R10). -/
def Dev.freshSource (d : Dev) (n : Nat) : Bool := tabGet 0 d.snag.setAt n == d.now + 1

/-- Set a source of the S-die (R415); a dropped record raises SNG_LOG_FULL (R429). -/
def Dev.setSource (d : Dev) (n detail : Nat) (inj : Bool) : Dev :=
  let (d1, dropped) := d.setOne n detail inj
  if dropped then (d1.setOne 2 0 false).1 else d1

/-- A detector fires (R412, R415 to R417): on the S-die the source is set at once; on another die its collector holds it and reports
it, unless the die is lost. -/
def Dev.raiseInj (d : Dev) (die : Die) (n detail : Nat) (inj : Bool) : Dev :=
  match die with
  | .s => d.setSource n detail inj
  | y =>
    if !d.on (hbOkFld (dieIdx y)) || !srcExists n then d
    else
      let k := key2 (dieIdx y) n
      let seen := d.isSet n || tabGet false d.snag.held k
      { d with snag := { d.snag with
          held := tabSet false d.snag.held k true,
          reports := if seen then d.snag.reports else d.snag.reports ++ [⟨y, n, detail, inj⟩] } }

/-- A detector fires. -/
def Dev.raise (d : Dev) (die : Die) (n : Nat) : Dev := d.raiseInj die n 0 false

/-- A detector fires and its cause lasts (R427). -/
def Dev.raiseCause (d : Dev) (die : Die) (n : Nat) : Dev := (d.raise die n).cause n true

/-- An event that an armed injection caused: the source has no lasting cause (R428, R431). -/
def Dev.raiseInjected (d : Dev) (die : Die) (n : Nat) : Dev := d.raiseInj die n 0 true

/-- Append to a log; a dropped record raises the log's source (R72). -/
def Dev.logRec (d : Dev) (l : LogId) (r : List Nat) : Dev :=
  let (d1, dropped) := d.logPut l r
  if dropped then d1.raise .s (logSource l) else d1

/-! The safe state. -/

/-- Put an output channel into substitution at once, with no ramp (R311, R420). -/
def Dev.substNow (d : Dev) (c : Nat) : Dev :=
  let o := tabGet OutCh.reset d.gate.outs c
  let o1 := { o with content := .subst, ramp := none, inRamp := false, shown := true, cut := false, subPos := if o.shown then o.subPos else 0 }
  { d with gate := { d.gate with outs := tabSet OutCh.reset d.gate.outs c o1 } }

/-- Output channels that are enabled. -/
def Dev.enabledOuts (d : Dev) : List Nat := (List.range 128).filter (fun c => d.on (SGT.OUT_EN c))

/-- The pins of the safe state (R420): SAFE_OK and SAFE_HB low, every VALID low, MUTE_n low where MUTE_SAFE is 1. -/
def Dev.safePort (d : Dev) (p : Nat) : Dev :=
  let d1 := d.flag (SGT.P_STAT_VALID p) false
  if d.on (SGT.P_CFG_MUTE_SAFE p) then d1.flag (SGT.P_STAT_MUTED p) true else d1

def Dev.safePins (d : Dev) : Dev :=
  let d1 := d.flag SNG.STAT_SAFE_OK false
  let d2 := { d1 with snag := { d1.snag with hbLevel := false } }
  (((((d2.safePort 0).safePort 1).safePort 2).safePort 3).safePort 4).safePort 5

/-- Entry into the safe state (R419, R420). -/
def Dev.enterSafe (d : Dev) : Dev :=
  let fell := d.on SNG.STAT_SAFE_OK
  let d1 := d.enabledOuts.foldl Dev.substNow (d.flag SNG.STAT_SAFE true)
  let d2 := { d1 with snag := { d1.snag with resumePending := false } }
  if fell then (d2.flag SNG.STAT_SAFE_OK false).triggerStatus 1 else d2

/-- A die's ALARM as the S-die takes it (R416, R417). -/
def Dev.alarmNow (d : Dev) (i : Nat) : Bool :=
  d.dieSafe i || d.now < tabGet 0 d.snag.alarmUntil i || d.on (lineFaultFld i)

/-- A line condition that has lasted its time ends: equal rails, and an injected stop of HB (R417, Table 13.9). -/
def Dev.lineExpire (d : Dev) (i : Nat) : Dev :=
  let d1 := if d.on (lineFaultFld i) && tabGet 0 d.snag.lineUntil i ≤ d.now then d.flag (lineFaultFld i) false else d
  let u := tabGet 0 d1.snag.hbUntil i
  if u != 0 && u ≤ d1.now then
    { d1.flag (hbOkFld i) true with snag := { d1.snag with hbUntil := tabSet 0 d1.snag.hbUntil i 0 } }
  else d1

/-- Bring SNG_FL_STAT up to date. -/
def Dev.setAlarms (d0 : Dev) : Dev :=
  let d := ((d0.lineExpire 0).lineExpire 1).lineExpire 2
  ((d.flag (alarmFld 0) (d.alarmNow 0)).flag (alarmFld 1) (d.alarmNow 1)).flag (alarmFld 2) (d.alarmNow 2)

/-- What puts the device into the safe state and keeps it there (R419, R423). -/
def Dev.safeCause (d : Dev) : Bool :=
  d.safeSource || d.on (alarmFld 0) || d.on (alarmFld 1) || d.on (alarmFld 2) || d.ladder.coreLost

/-- SAFETY_STATUS with TRIGGER 3 where the highest severity among the set sources has changed (R412). -/
def Dev.sevChange (d : Dev) : Dev :=
  if d.maxSev = d.snag.lastSev then d
  else ({ d with snag := { d.snag with lastSev := d.maxSev } }).triggerStatus 3

/-- A RESUME in whose cycle a SAFE source becomes set is refused after all (R423): HOLD_BOOT as it was. -/
def Dev.refusedNow (d : Dev) : Option Bool :=
  match d.snag.resumeAt with
  | some (t, hold) => if d.safeCause && t == d.now then some hold else d.snag.refused
  | none => d.snag.refused

/-- What follows from the set sources and the ALARM lines in the cycle of every command. -/
def Dev.settle (d : Dev) : Dev :=
  let d1 := d.setAlarms.sevChange
  let d2 := if d1.safeCause && !d1.on SNG.STAT_SAFE then d1.enterSafe else d1
  let d3 := if d2.on SNG.STAT_SAFE then d2.safePins else d2
  { d3 with snag := { d3.snag with resumePending := d3.snag.resumePending && !d3.safeCause, refused := d3.refusedNow } }

/-! The frame around a command. -/

/-- The body of a command on a device with supply: the safe state follows, and memory takes the writes it queued. -/
def runOn (s : State) (f : Mem → Dev → Dev) : State :=
  let d := (f s.mem s.dev).settle
  { s with
    mem := s.mem.putAll d.memsys.writes,
    dev := { d with memsys := { d.memsys with writes := [] } } }

/-- The S-die has lost its supply (R489, R512): nothing runs until the next power-on reset. -/
def Dev.dead (d : Dev) : Bool := bit d.power.lost 3

/-- A command runs its body on the device, unless the S-die has no supply. -/
def run (s : State) (f : Mem → Dev → Dev) : Host.Outcome State Fault Refusal :=
  .next (if s.dev.dead then s else runOn s f)

end Sys2Proof.Machine
end

