-- ==== Sys2Proof/Machine/WatchOps.lean ====
section
/-!
DEFINITION. Watches: the fields of a descriptor (Tables 02.1 to 02.6), the persistence filter, trips and group clears.
-/

namespace Sys2Proof.Machine

/-- Host-written word `k` of the descriptor of watch `w` (R36, Table 02.1). -/
def Dev.wd (d : Dev) (w k : Nat) : Nat := tabGet 0 d.watch.desc (64 * w + k)

/-- The device-written area of watch `w` and its queue. -/
def Dev.watchOf (d : Dev) (w : Nat) : Watch := tabGet Watch.idle d.watch.watches w

/-- Replace watch `w`. -/
def Dev.putWatch (d : Dev) (w : Nat) (x : Watch) : Dev :=
  { d with watch := { d.watch with watches := tabSet Watch.idle d.watch.watches w x } }

/-! WD_CFG (Table 02.2). -/
def Dev.wdKind (d : Dev) (w : Nat) : Nat := bitsAt (d.wd w 0) 3 0
def Dev.wdPass (d : Dev) (w : Nat) : Bool := bit (d.wd w 0) 4
def Dev.wdSparse (d : Dev) (w : Nat) : Bool := bit (d.wd w 0) 5
def Dev.wdLatch (d : Dev) (w : Nat) : Bool := bit (d.wd w 0) 6
def Dev.wdPrio (d : Dev) (w : Nat) : Nat := bitsAt (d.wd w 0) 10 8
def Dev.wdGroup (d : Dev) (w : Nat) : Nat := bitsAt (d.wd w 0) 23 16

/-! WD_FILTER (Table 02.3). -/
def Dev.wdK (d : Dev) (w : Nat) : Nat := bitsAt (d.wd w 1) 6 0
def Dev.wdN (d : Dev) (w : Nat) : Nat := bitsAt (d.wd w 1) 22 16

/-! WD_SRC to WD_MODEL (Tables 02.4, 02.5). -/
def Dev.wdPort (d : Dev) (w : Nat) : Nat := bitsAt (d.wd w 2) 1 0
def Dev.wdSrcType (d : Dev) (w : Nat) : Nat := bitsAt (d.wd w 2) 29 28
def Dev.wdDeadline (d : Dev) (w : Nat) : Nat := bitsAt (d.wd w 3) 15 0
def Dev.wdMinCov (d : Dev) (w : Nat) : Nat := bitsAt (d.wd w 4) 15 0
def Dev.wdDecl (d : Dev) (w : Nat) : Nat := d.wd w 5
def Dev.wdModel (d : Dev) (w : Nat) : Nat := bitsAt (d.wd w 6) 15 0
def Dev.wdLayer (d : Dev) (w : Nat) : Nat := bitsAt (d.wd w 6) 31 16

/-- Watch `w` is bound to output channel `c`. -/
def Dev.wdBinds (d : Dev) (w c : Nat) : Bool := bit (d.wd w (8 + c / 32)) (c % 32)

/-- Output channels that watch `w` is bound to. -/
def Dev.wdChans (d : Dev) (w : Nat) : List Nat := (List.range 128).filter (d.wdBinds w)

/-- Word `k` of the kind area (offset 0x40 on). -/
def Dev.wdKindWord (d : Dev) (w k : Nat) : Nat := d.wd w (16 + k)

/-- The state is RUNNING, FAILED or RETIRING. -/
def WState.checks : WState → Bool
  | .running | .failed | .retiring => true
  | _ => false

/-- Code of a state (Table 02.9). -/
def wstateCode : WState → Nat
  | .idle => 0
  | .armed => 1
  | .running => 2
  | .failed => 3
  | .retiring => 4

/-- Watches that are not IDLE, in ascending order. -/
def Dev.activeWatches (d : Dev) : List Nat := (d.watch.watches.filter (fun e => e.2.state != .idle)).map (·.1)

/-- Number of watches in a state (Table 02.18). -/
def Dev.stateCount (d : Dev) (x : WState) : Nat :=
  if x = .idle then 4096 - d.activeWatches.length
  else (d.watch.watches.filter (fun e => e.2.state == x)).length

/-- The cause of a group is present (R69). -/
def Dev.groupCause (d : Dev) (g : Nat) : Bool :=
  d.watch.watches.any (fun e => d.wdGroup e.1 == g &&
    ((e.2.state == .failed && d.wdK e.1 ≤ e.2.filtCnt) || (e.2.state == .retiring && e.2.tripped)))

/-- The cause of a source is present (R427): a lasting cause, or the cause of a group; an injected source has none (R428). -/
def Dev.causeNow (d : Dev) (n : Nat) : Bool :=
  if 768 ≤ n then d.groupCause (n - 768) else tabGet false d.snag.cause n

/-- The actions of an accepted clear of a group (R69). -/
def Dev.groupClear (d : Dev) (g : Nat) : Dev :=
  let ws := d.watch.watches.map (fun e =>
    if d.wdGroup e.1 == g && e.2.state == .failed then (e.1, { e.2 with state := .running }) else e)
  let d1 := { d with watch := { d.watch with watches := ws } }
  (((d1.flag (WCH.GRP_FIRST_W_VALID g) false).put (WCH.GRP_FIRST_W_CODE g) 0).put (WCH.GRP_FIRST_W_WATCH_ID g) 0).put
    (WCH.GRP_FIRST_F_FRAME_NO g) 0

/-- A trip sets the group's source and records its first failure (R68). -/
def Dev.trip (d : Dev) (w frame code : Nat) : Dev :=
  let g := d.wdGroup w
  let d1 := if d.on (WCH.GRP_FIRST_W_VALID g) then d
    else (((d.flag (WCH.GRP_FIRST_W_VALID g) true).put (WCH.GRP_FIRST_W_CODE g) code).put (WCH.GRP_FIRST_W_WATCH_ID g) w).put
      (WCH.GRP_FIRST_F_FRAME_NO g) frame
  d1.setSource (768 + g) w false

/-- Advance the persistence filter of a watch with an evaluation of frame `frame` and code `code` (R66, R67), and trip (Table 02.9). -/
def Dev.filterAdvance (d : Dev) (w frame code : Nat) : Dev :=
  let x := d.watchOf w
  let n := d.wdN w
  let hist := (2 * x.hist + (if code = 0 then 0 else 1)) % 2 ^ n
  let cnt := popcount n hist
  let x1 := { x with hist := hist, filtCnt := cnt }
  if d.wdK w ≤ cnt && (x.state == .running || x.state == .retiring) then
    let x2 := if x.state == .running then { x1 with state := .failed } else { x1 with tripped := true }
    (d.putWatch w x2).trip w frame code
  else d.putWatch w x1

/-- The watch returns to IDLE: its device-written area is cleared (Table 02.9). A PASS watch goes on holding its channels until the next
boundary (R45). -/
def Dev.toIdle (d : Dev) (w : Nat) : Dev :=
  let x := d.watchOf w
  let d1 := d.putWatch w { Watch.idle with holds := x.holds, release := x.holds.isSome }
  { d1 with skim := { d1.skim with jobs := d1.skim.jobs.filter (fun e => e.1 / 4294967296 != w) },
            sig := { d1.sig with seq := tabErase d1.sig.seq w } }

end Sys2Proof.Machine
end

