-- ==== Sys2Proof/Machine/Snag.lean ====
section
/-!
DEFINITION. The Snag unit: fault lines, collectors, the safe state's exit, clears, severities, injection (chapter 13).
-/

namespace Sys2Proof.Machine

/-! Fuses (R448, R458). -/

/-- A fuse field reads as blown where either copy is (R448). -/
def fuseRead (p : Nat × Nat) : Nat := p.1 ||| p.2

/-- The fused step: the number of blown ARB bits (Table 14.2). -/
def Dev.fusedStep (d : Dev) : Nat := popcount 64 (fuseRead d.boot.fuses.arb)

/-- Blow ARB bits up to the running step (R458); a blow that does not read back raises SEC_ARB_FAIL. -/
def Dev.arbAdvance (d : Dev) (ok : Bool) : Dev :=
  let target := min (d.fld SEC.ARB_FW_STEP) 64
  if d.fusedStep < target then
    if ok then
      let m := 2 ^ target - 1
      let a := d.boot.fuses.arb
      let d1 := { d with boot := { d.boot with fuses := { d.boot.fuses with arb := (a.1 ||| m, a.2 ||| m) } } }
      d1.put SEC.ARB_FUSED d1.fusedStep
    else d.raise .s 522
  else d

/-! Detectors and fault lines. -/

/-- A die's ALARM is asserted for a source that its collector holds at SAFE or RESTART (R416, R18). -/
def Dev.alarmAssert (d : Dev) (die : Die) (n detail : Nat) : Dev :=
  match die with
  | .s => d
  | y => if sevSafe ≤ d.collSev (dieIdx y) n then d.raiseInj y n detail false else d

/-- ALARM_ASSERT (R416). -/
def execAlarmAssert (die : Die) (source detail : Nat) (s : State) : Host.Outcome State Fault Refusal :=
  run s fun _ d => d.alarmAssert die source detail

/-- The first report of a source by a die, and the others. -/
def takeReport (die : Die) (n : Nat) : List Report → Option (Report × List Report)
  | [] => none
  | r :: rs =>
    if r.die = die && r.source = n then some (r, rs)
    else (takeReport die n rs).map (fun p => (p.1, r :: p.2))

/-- A source number arrives from a collector (R416); nothing arrives from a lost die (R417). -/
def Dev.collectorReport (d : Dev) (die : Die) (n : Nat) : Dev :=
  match takeReport die n d.snag.reports with
  | none => d
  | some (r, rs) =>
    let d1 := { d with snag := { d.snag with reports := rs } }
    if d.on (hbOkFld (dieIdx die)) then d1.setSource n (r.detail % 65536) r.injected else d1

/-- COLLECTOR_REPORT (R416). -/
def execCollectorReport (die : Die) (source : Nat) (s : State) : Host.Outcome State Fault Refusal :=
  run s fun _ d => d.collectorReport die source

/-- A plan is due at the second boundary from now; one that is already due at the next boundary still applies there (R180). -/
def replanDue (n : Option Nat) : Nat :=
  match n with
  | some 1 => 3
  | some 3 => 3
  | _ => 2

/-- MTX_INFO follows the mapped engines and the spares (Table 05.16). -/
def Dev.showEngines (d : Dev) : Dev :=
  (d.put MTX.INFO_ENGINES ((List.range 16).filter (fun e => d.on (MTX.ENG_MAP_VALID e))).length).put MTX.INFO_SPARES
    ((List.range 20).filter (fun e => d.fld (HLN.ENG_STAT_STATE e) == 1)).length

/-- The engines of a lost C-die leave the array (Table 15.5): their logical engines read VALID 0. -/
def Dev.unmapDie (d : Dev) (i : Nat) : Dev :=
  if i < 2 then
    let d1 := ((List.range 8).foldl (fun d k => d.flag (MTX.ENG_MAP_VALID (8 * i + k)) false) d).showEngines
    { d1 with plan := { d1.plan with replanIn := some (replanDue d1.plan.replanIn) } }.flag TCK.PLAN_STAT_REPLAN true
  else d

/-- No HB edge for 60 ns (R417): the die's DIE_LOST source is set, its cause present. Its blocks may be unreachable as well; those behind the
X-die hub go with it (R38). -/
def Dev.dieLost (d : Dev) (i : Nat) (reachable : Bool) : Dev :=
  let d1 := d.flag (hbOkFld i) false
  let d2 := if reachable then d1
    else if i = 2 then
      { ((d1.flag (reachFld 0) false).flag (reachFld 1) false).flag (reachFld 2) false with
        snag := { d1.snag with shadow := { d1.snag.shadow with free := true } },
        time := { d1.time with start := none } }
    else (d1.flag (reachFld i) false).unmapDie i
  d2.raiseCause .s (8 + i)

/-- DIE_HEARTBEAT_LOSS (R417). -/
def execDieHeartbeatLoss (die : Die) (reachable : Bool) (s : State) : Host.Outcome State Fault Refusal :=
  run s fun _ d =>
    match die with
    | .s => d
    | y => if d.on (hbOkFld (dieIdx y)) then d.dieLost (dieIdx y) reachable else d

/-- A die is reachable again: a C-die only through the X-die hub (R17, R38). -/
def Dev.dieBack (d : Dev) (i : Nat) : Dev :=
  let d1 := d.flag (hbOkFld i) true
  let d2 :=
    if i = 2 then
      let e := d1.flag (reachFld 2) true
      (e.flag (reachFld 0) (e.on (hbOkFld 0))).flag (reachFld 1) (e.on (hbOkFld 1))
    else d1.flag (reachFld i) (d1.on (reachFld 2))
  let ended (d : Dev) (j : Nat) : Dev := if d.on (hbOkFld j) && d.on (reachFld j) then d.cause (8 + j) false else d
  if i = 2 then ended (ended (ended d2 0) 1) 2 else ended d2 i

/-- DIE_HEARTBEAT_RETURN (R417): only for a die with supply. -/
def execDieHeartbeatReturn (die : Die) (s : State) : Host.Outcome State Fault Refusal :=
  run s fun _ d =>
    match die with
    | .s => d
    | y => if bit d.power.lost (dieIdx y) then d else d.dieBack (dieIdx y)

/-- The ALARM rails of a die stay equal for some cycles: an asserted alarm, and SNG_FL_FAULT from 20 ns (12 cycles) on (R417). -/
def Dev.railsEqual (d : Dev) (i cycles : Nat) (inj : Bool) : Dev :=
  if cycles < 12 then d
  else
    let d1 := { d with snag := { d.snag with lineUntil := tabSet 0 d.snag.lineUntil i (d.now + cycles) } }
    (d1.flag (lineFaultFld i) true).raiseInj .s 5 0 inj

/-- SNG_FL_FAULT (R417). -/
def execSngFlFault (die : Die) (cycles : Nat) (s : State) : Host.Outcome State Fault Refusal :=
  run s fun _ d =>
    match die with
    | .s => d
    | y => d.railsEqual (dieIdx y) cycles false

/-- A collector compares its copy with SNG_SEV (R418); `upset` lists the entries of the copy that a fault has changed. -/
def Dev.mirrorCheck (d : Dev) (i : Nat) (upset : List (Nat × Nat)) : Dev :=
  let copy := upset.foldl (fun t e => tabSet (d.sev e.1) t (key2 i e.1) e.2) d.snag.sevCopy
  let d1 := { d with snag := { d.snag with sevCopy := copy } }
  if copy.any (fun e => e.1 / 4294967296 == i && d.sev (e.1 % 4294967296) != e.2) then
    let d2 := d1.raise .s 4
    { d2 with snag := { d2.snag with sevCopy := d2.snag.sevCopy.filter (fun e => e.1 / 4294967296 != i) } }
  else d1

/-- SEV_MIRROR_CHECK (R418). -/
def execSevMirrorCheck (die : Die) (upset : List (Nat × Nat)) (s : State) : Host.Outcome State Fault Refusal :=
  run s fun _ d =>
    match die with
    | .s => d
    | y => d.mirrorCheck (dieIdx y) upset

/-- The S-die reloads its TB0 shadow while the X-die is reachable, and runs it free otherwise (R430). -/
def Dev.shadowReload (d : Dev) : Dev :=
  let t := (d.tb 0).val
  if d.reach .x then { d with snag := { d.snag with shadow := ⟨t.sec, t.ns, false⟩ } }
  else { d with snag := { d.snag with shadow := { d.snag.shadow with free := true } } }

/-- TB0_SHADOW_RELOAD (R430). -/
def execTb0ShadowReload (s : State) : Host.Outcome State Fault Refusal := run s fun _ d => d.shadowReload

/-! Leaving the safe state. -/

/-- Every condition of R423 holds. -/
def Dev.resumeAllowed (d : Dev) : Bool :=
  !d.safeSource && !d.alarmNow 0 && !d.alarmNow 1 && !d.alarmNow 2 && !d.on SEC.STATE_DEBUG_OPEN && !d.on WDG.LADDER_LOCKED
    && d.on SEC.STATE_BOOT_DONE && !d.ladder.coreLost

/-- SAFE clears and SAFE_OK rises (R424): the first edge of SAFE_HB follows 50 us later, and a SAFETY_STATUS with TRIGGER 2 is sent. -/
def Dev.safeExit (d : Dev) : Dev :=
  let d1 := (d.flag SNG.STAT_SAFE false).flag SNG.STAT_SAFE_OK true
  { d1 with snag := { d1.snag with resumePending := false, hbDue := d1.now + usCycles 50 } }.triggerStatus 2

/-- HOLD_BOOT: no RESUME has been accepted since reset. -/
def Dev.holdBoot (d : Dev) : Bool := d.on SNG.STAT_HOLD_BOOT || d.snag.refused == some true

/-- SNG_CMD.RESUME (R423, R424). The first accepted one after a trial advances the fused step where ARB_AUTO is 1 (R458). -/
def Dev.resumeWrite (d : Dev) (fuseOk : Bool) : Dev :=
  if d.resumeAllowed then
    let d0 := { d with snag := { d.snag with resumeAt := some (d.now, d.holdBoot), refused := none } }
    let d1 := (d0.flag SNG.STAT_RESUME_REFUSED false).flag SNG.STAT_HOLD_BOOT false
    let d2 := if d1.boot.arbDue && d1.on SEC.CTRL_ARB_AUTO then d1.arbAdvance fuseOk else d1
    let d3 := { d2 with boot := { d2.boot with arbDue := false } }
    let d4 := d3.answer .done
    if !d4.on SNG.STAT_SAFE then d4
    else if d4.running then { d4 with snag := { d4.snag with resumePending := true } }
    else d4.safeExit
  else ({ d with snag := { d.snag with resumeAt := none } }.flag SNG.STAT_RESUME_REFUSED true).answer .done

/-- RESUME (R423). -/
def execResume (fuseOk : Bool) (s : State) : Host.Outcome State Fault Refusal := run s fun _ d => d.resumeWrite fuseOk

/-- SAFE_HB makes an edge every 50 us outside the safe state, and none in it (R420, R424). -/
def Dev.hbEdge (d : Dev) : Dev :=
  if d.on SNG.STAT_SAFE || d.now < d.snag.hbDue then d
  else { d with snag := { d.snag with hbLevel := !d.snag.hbLevel, hbDue := d.now + usCycles 50 } }

/-- SAFE_HB_EDGE (R420). -/
def execSafeHbEdge (s : State) : Host.Outcome State Fault Refusal := run s fun _ d => d.hbEdge

/-! Clearing. -/

/-- Masters 0, 1 and 18 (R426, R474, R504). -/
def trusted (mid : Nat) : Bool := mid == 0 || mid == 1 || mid == 18

/-- Take a source out of the set and out of the collectors. -/
def Dev.unset (d : Dev) (n : Nat) : Dev :=
  let g := d.snag
  let held := g.held.filter (fun e => e.1 % 4294967296 != n)
  let g1 : Snag := { g with set := tabSet false g.set n false, injected := tabSet false g.injected n false }
  let g2 : Snag := { g1 with held := held, reports := g.reports.filter (fun r => r.source != n) }
  let d1 : Dev := { d with snag := g2 }
  if d1.nset = 0 then (d1.flag SNG.FIRST_VALID false).put SNG.FIRST_FIRST_SRC 0 else d1

/-- Clear one source (R426 to R428): 0 cleared, 1 refused, 2 not set (FAULT_CLEAR's codes). A set source leaves a record either way. A source whose
cause is present, or that hardware set in this cycle, stays set (R10). -/
def Dev.clearSource (d : Dev) (mid n : Nat) : Nat × Dev :=
  if !d.isSet n then (2, d)
  else
    let inj := b2n (tabGet false d.snag.injected n)
    if d.causeNow n || d.freshSource n then
      let (d1, dropped) := d.faultRecord n (inj + 4) (mid % 32)
      (1, if dropped then d1.raise .s 2 else d1)
    else
      let (d1, dropped) := d.faultRecord n (inj + 2) (mid % 32)
      let d2 := if dropped && n != 2 then d1.raise .s 2 else d1
      let d3 := d2.unset n
      (0, if 768 ≤ n then d3.groupClear (n - 768) else d3)

/-- Clear the sources of one word of SNG_SET, in ascending order (R426). -/
def Dev.clearBits (d : Dev) (mid word bits : Nat) : Dev :=
  (List.range 32).foldl (fun d j => if bit bits j then (d.clearSource mid (32 * word + j)).2 else d) d

/-- A write of SNG_SET[word] (R426): only masters 0, 1 and 18. -/
def Dev.setClearWrite (d : Dev) (mid word bits : Nat) : Dev :=
  if trusted mid && word < 32 then (d.clearBits mid word bits).answer .done else d.answer .error

/-- SNG_SET_CLEAR (R426). -/
def execSngSetClear (mid word bits : Nat) (s : State) : Host.Outcome State Fault Refusal :=
  run s fun _ d => d.setClearWrite mid word bits

/-! Severities. -/

/-- The seal is locked: RWL fields do not change (R464, R465). -/
def Dev.sealed (d : Dev) : Bool := d.on SEC.STATE_SEALED

/-- The new severity of source `4 word + j` in a write. -/
def sevByte (v j : Nat) : Nat := v / 2 ^ (8 * j) % 8

/-- A field of the write breaks R413: a reserved code, or below the source's floor; a reserved source's entry is ignored (R410). -/
def sevBad (word v j : Nat) : Bool :=
  let n := 4 * word + j
  srcExists n && (sevRestart < sevByte v j || sevByte v j < srcFloor n)

/-- Write one SEV field. -/
def Dev.putSev (d : Dev) (word v j : Nat) : Dev :=
  if srcExists (4 * word + j) then d.put (sevFld (4 * word + j)) (sevByte v j) else d

/-- A write of SNG_SEV[word] (R413, R14, R5); the collectors compare their copies after it (R418). -/
def Dev.sevWrite (d : Dev) (word v : Nat) : Dev :=
  if d.sealed then (d.raise .s 1).answer .discarded
  else if (List.range 4).any (sevBad word v) then d.answer .rejected
  else
    let d1 := (List.range 4).foldl (fun d j => d.putSev word v j) d
    (((d1.mirrorCheck 0 []).mirrorCheck 1 []).mirrorCheck 2 []).answer .done

/-- SNG_SEV_WRITE (R413). -/
def execSngSevWrite (word value : Nat) (s : State) : Host.Outcome State Fault Refusal :=
  run s fun _ d => if word < 256 then d.sevWrite word value else d.answer .done

/-! Injection. -/

/-- The write of an injection register acts: not while ARM is 1, and not where it sets ARM with a reserved encoding. -/
def injTaken (armed : Bool) (v : Nat) (ok : Bool) : Bool := !armed && (!bit v 31 || ok)

/-- The event of SNG_INJ (Table 13.9). -/
def Dev.sngInjAct (d : Dev) (mode die n : Nat) : Dev :=
  match mode with
  | 1 => d.raiseInjected .s n
  | 2 => (d.raiseInjected .s (min n 3)).raiseInjected .s (max n 3)
  | 3 => { d with snag := { d.snag with alarmUntil := tabSet 0 d.snag.alarmUntil die (d.now + usCycles 1) } }
  | 4 =>
    if d.on (hbOkFld die) then
      { d.flag (hbOkFld die) false with
        snag := { d.snag with hbUntil := tabSet 0 d.snag.hbUntil die (d.now + usCycles 1) } }.raiseInjected .s (8 + die)
    else d
  | 5 => d.railsEqual die (usCycles 1) true
  | _ => d

/-- A write of SNG_INJ (R431, Table 13.9): masters 0 and 1, and INJECT under identity 18. -/
def Dev.sngInjWrite (d : Dev) (mid v : Nat) : Dev :=
  if !trusted mid then d.answer .error
  else
    let mode := bitsAt v 26 24
    let die := bitsAt v 17 16
    let n := bitsAt v 9 0
    if injTaken (d.on SNG.INJ_ARM) v (1 ≤ mode && mode ≤ 5 && die ≤ 2 && srcExists n) then
      let d1 := (((d.put SNG.INJ_MODE mode).put SNG.INJ_DIE die).put SNG.INJ_SOURCE n).answer .done
      if bit v 31 then d1.sngInjAct mode die n else d1
    else d.answer .discarded

/-- SNG_INJ (R431). -/
def execSngInj (mid value : Nat) (s : State) : Host.Outcome State Fault Refusal := run s fun _ d => d.sngInjWrite mid value

/-! Logs (R72). -/

/-- A write of a log's read index: advancing it frees records and clears FULL (R72). -/
def Dev.logAdvance (d : Dev) (l : LogId) (rd : Nat) : Dev :=
  let r := rd % logSize l
  let step := (r + logSize l - d.fld (logRd l)) % logSize l
  if step = 0 then d.answer .done
  else ((d.put (logRd l) r).flag (logFull l) false).answer .done

/-- LOG_RD_ADVANCE (R72, R211, R429). -/
def execLogRdAdvance (log : LogId) (index : Nat) (s : State) : Host.Outcome State Fault Refusal :=
  run s fun _ d => d.logAdvance log index

/-- CLR_LOST of a log (R72). -/
def execClrLost (log : LogId) (s : State) : Host.Outcome State Fault Refusal :=
  run s fun _ d => (d.put (logLost log) 0).answer .done

end Sys2Proof.Machine
end

