-- ==== Sys2Proof/Machine/Cores.lean ====
section
/-!
DEFINITION. Lockstep pairs (without the release of their stores), mailbox channels and CRC channels (chapter 12).
-/

namespace Sys2Proof.Machine

/-! Pairs and what they reach. -/

def Dev.pairOf (d : Dev) (p : Nat) : Pair := tabGet .locked d.cores.pairs p

def Dev.putPair (d : Dev) (p : Nat) (x : Pair) : Dev :=
  { d with cores := { d.cores with pairs := tabSet .locked d.cores.pairs p x } }

/-- The die that holds cluster `u`. -/
def clusterDie (u : Nat) : Die := if u < 2 then .c0 else .c1

/-- The die of a pair (Table 12.1). -/
def pairDie (p : Nat) : Die := if p < 2 then .s else if p < 6 then .c0 else .c1

/-- The die of a master: the pairs, the array DMA engines, the command engine, and the split checker copies; the others are on the S-die. -/
def masterDie (mid : Nat) : Die :=
  if mid < 10 then pairDie mid else if mid < 14 then clusterDie (mid - 10) else if mid = 18 then .x
  else if 22 ≤ mid && mid ≤ 25 then clusterDie (mid - 22) else .s

/-- LCK_P_STAT.STATE of a pair. -/
def Dev.pairState (d : Dev) (p : Nat) : Nat := d.fld (LCK.P_STAT_STATE p)

/-- A master can reach a die: its own, or another one through the X-die hub (R17). -/
def Dev.path (d : Dev) (mid : Nat) (die : Die) : Bool := masterDie mid == die || d.reach .x

/-- A master's access takes place: a pair that is FENCED or whose copies run their slices issues none (R386, R387), and the hub carries it (R17). -/
def Dev.access (d : Dev) (mid : Nat) (die : Die) : Bool :=
  (10 ≤ mid || (d.pairState mid != 4 && d.pairState mid != 1)) && d.path mid die

/-- A pair has done something that no comparison has covered yet (R383). -/
def Pair.uncompared (x : Pair) : Bool := x.misrMain != 0 || x.misrChk != 0 || x.stores != [] || x.replay != []

/-- The pair compares its copies: it is LOCKED or halted for debug. -/
def Dev.compares (d : Dev) (p : Nat) : Bool := p < 10 && (d.pairState p == 0 || d.pairState p == 6)

/-- A value that a load delivers is captured once for both copies of a pair that compares (R382). -/
def Dev.captureIn (d : Dev) (p : Nat) : Dev :=
  match d.resp with
  | .value v => if d.compares p then d.putPair p { d.pairOf p with inbound := (d.pairOf p).inbound ++ [v] } else d
  | _ => d

/-- A load whose read has a side effect: it waits for a comparison that covers every earlier instruction of its pair (R385). -/
def Dev.sideRead (d : Dev) (mid a : Nat) (k : Dev → Dev) : Dev :=
  if d.compares mid && (d.pairOf mid).uncompared then
    (d.putPair mid { d.pairOf mid with loads := (d.pairOf mid).loads ++ [a] }).answer .idle
  else (k d).captureIn mid

/-! Mailbox channels. -/

def Dev.mbxSide (d : Dev) (k : Nat) : MbxSide := tabGet .zero d.cores.mbx k

def Dev.putMbx (d : Dev) (k : Nat) (x : MbxSide) : Dev :=
  { d with cores := { d.cores with mbx := tabSet .zero d.cores.mbx k x } }

/-- The other side of the channel of side `k`. -/
def otherSide (k : Nat) : Nat := if k % 2 = 0 then k + 1 else k - 1

/-- The side of channel `ch` that a master reaches (R396, R397). -/
def Dev.mbxView (d : Dev) (mid ch : Nat) : Option Nat :=
  if !d.on (MBX.BIND_EN ch) then none
  else if d.fld (MBX.BIND_MID_A ch) = mid then some (2 * ch)
  else if d.fld (MBX.BIND_MID_B ch) = mid then some (2 * ch + 1)
  else none

/-- An access to a channel: by its bound masters only; another, or the one that MBX_INJ mode 2 marks, is a violation (R396). -/
def Dev.mbxAccess (d : Dev) (mid ch : Nat) (k : Nat → Dev → Dev) : Dev :=
  if !d.access mid .s then d.answer .error
  else if 64 ≤ ch then d.answer .done
  else if d.on MBX.INJ_ARM && d.fld MBX.INJ_MODE == 2 && d.fld MBX.INJ_CHANNEL == ch then
    ((d.flag MBX.INJ_ARM false).raiseInjected .s 489).answer .error
  else
    match d.mbxView mid ch with
    | some side => k side d
    | none => (d.raise .s 489).answer .error

/-- Both outbound queues of a channel hold words (R400). -/
def Dev.mbxBoth (d : Dev) (ch : Nat) : Bool := (d.mbxSide (2 * ch)).out != [] && (d.mbxSide (2 * ch + 1)).out != []

/-- The stall clock of a channel starts again (R400). -/
def Dev.mbxMoved (d : Dev) (ch : Nat) : Dev :=
  { d with cores := { d.cores with moved := tabSet 0 d.cores.moved ch d.now } }

/-- The STALL bit of a channel. -/
def Dev.stallBit (d : Dev) (ch : Nat) : Bool := bit (d.fld (MBX.STALL_MAP_STALL (ch / 32))) (ch % 32)

/-- Write the STALL bit of a channel; the cause of MBX_STALL is present while any bit is 1 (R400). -/
def Dev.setStall (d : Dev) (ch : Nat) (b : Bool) : Dev :=
  let f := MBX.STALL_MAP_STALL (ch / 32)
  let v := d.fld f
  let m := 2 ^ (ch % 32)
  let d1 := d.put f (if b then v ||| m else if bit v (ch % 32) then v - m else v)
  if b then d1
  else if d1.fld (MBX.STALL_MAP_STALL 0) = 0 && d1.fld (MBX.STALL_MAP_STALL 1) = 0 then d1.cause 488 false else d1

/-- Post a word (R397, R399). -/
def Dev.mbxPost (d : Dev) (k v : Nat) : Dev :=
  let x := d.mbxSide k
  let w : MbxWord := ⟨v % 4294967296, x.epoch, d.now⟩
  if 8 ≤ x.out.length then
    (d.putMbx k { x with overflow := satAdd 15 x.overflow 1, refused := some w }).answer .error
  else
    let was := d.mbxBoth (k / 2)
    let d1 := d.putMbx k { x with out := x.out ++ [w] }
    let auto := if k % 2 = 0 then d.on (MBX.BIND_DB_AUTO_A (k / 2)) else d.on (MBX.BIND_DB_AUTO_B (k / 2))
    let y := d1.mbxSide (otherSide k)
    let d2 := if auto then d1.putMbx (otherSide k) { y with dbIn := true, ringAt := some d.now } else d1
    (if !was && d2.mbxBoth (k / 2) then d2.mbxMoved (k / 2) else d2).answer .done

/-- MBX_TX (R397). -/
def execMbxTx (mid channel value : Nat) (s : State) : Host.Outcome State Fault Refusal :=
  run s fun _ d => d.mbxAccess mid channel fun k d => d.mbxPost k value

/-- Take the head word of side `k`'s inbound queue (R397, R398); a post refused in the same cycle for want of room is accepted now. -/
def Dev.mbxTake (d : Dev) (k : Nat) : Dev :=
  let peer := d.mbxSide (otherSide k)
  match peer.out with
  | [] => d.answer (.value 0)
  | w :: rest =>
    let p1 := { peer with out := rest, consumed := (peer.consumed + 1) % 65536 }
    let p2 := match peer.refused with
      | some r => if r.at_ = d.now then { p1 with out := rest ++ [r], overflow := p1.overflow - 1, refused := none } else p1
      | none => p1
    (((d.putMbx (otherSide k) p2).mbxMoved (k / 2)).setStall (k / 2) false).answer (.value w.data)

/-- MBX_RX (R398). -/
def execMbxRx (mid channel : Nat) (s : State) : Host.Outcome State Fault Refusal :=
  run s fun _ d => d.mbxAccess mid channel fun k d => d.sideRead mid (MBX.RX channel) (fun d => d.mbxTake k)

/-- MBX_DB_RING (R399). -/
def execMbxDbRing (mid channel : Nat) (s : State) : Host.Outcome State Fault Refusal :=
  run s fun _ d => d.mbxAccess mid channel fun k d =>
    let y := d.mbxSide (otherSide k)
    (d.putMbx (otherSide k) { y with dbIn := true, ringAt := some d.now }).answer .done

/-- Clear the inbound doorbell; a ring in the same cycle leaves it set (R399). -/
def Dev.mbxDbClear (d : Dev) (k : Nat) : Dev :=
  let x := d.mbxSide k
  (if x.ringAt = some d.now then d else d.putMbx k { x with dbIn := false }).answer .done

/-- MBX_DB_CLEAR (R399). -/
def execMbxDbClear (mid channel : Nat) (s : State) : Host.Outcome State Fault Refusal :=
  run s fun _ d => d.mbxAccess mid channel fun k d => d.mbxDbClear k

/-- A channel has stalled (R400). -/
def Dev.mbxStalled (d : Dev) (ch : Nat) : Bool :=
  d.mbxBoth ch && tabGet 0 d.cores.moved ch + usCycles (d.fld MBX.CTRL_ACK_TIMEOUT) ≤ d.now

/-- MBX_STALL (R400). -/
def execMbxStall (channel : Nat) (s : State) : Host.Outcome State Fault Refusal :=
  run s fun _ d => if channel < 64 && d.mbxStalled channel then (d.setStall channel true).raiseCause .s 488 else d

/-- A write of MBX_INJ (Table 12.6). -/
def Dev.mbxInjWrite (d : Dev) (v : Nat) : Dev :=
  let mode := bitsAt v 1 0
  let ch := bitsAt v 13 8
  if injTaken (d.on MBX.INJ_ARM) v (mode == 1 || mode == 2) then
    let d1 := ((d.put MBX.INJ_MODE mode).put MBX.INJ_CHANNEL ch).answer .done
    if !bit v 31 then d1
    else if mode = 1 then (d1.setStall ch true).raiseInjected .s 488
    else d1.flag MBX.INJ_ARM true
  else d.answer .discarded

/-- MBX_INJ (R408). -/
def execMbxInj (value : Nat) (s : State) : Host.Outcome State Fault Refusal := run s fun _ d => d.mbxInjWrite value

/-- Reset of side `k` (Table 12.3): unread inbound words are discarded, but not those posted in this cycle; its epoch advances. -/
def Dev.mbxResetSide (d : Dev) (k : Nat) : Dev :=
  let peer := d.mbxSide (otherSide k)
  let kept := peer.out.filter (fun w => w.at_ == d.now)
  let n := peer.out.length - kept.length
  let d1 := (d.putMbx (otherSide k) { peer with
    out := kept, consumed := (peer.consumed + n) % 65536, peerReset := true, discarded := satAdd 127 peer.discarded n }).stampBit
      (MBX.TX_STAT_PEER_RESET (otherSide k)) 0
  let x := d1.mbxSide k
  d1.putMbx k { x with epoch := (x.epoch + 1) % 16 }

/-- Reset of the sides that name a master (R401). -/
def Dev.mbxResetMaster (d : Dev) (mid : Nat) : Dev :=
  (List.range 64).foldl (fun d ch =>
    match d.mbxView mid ch with
    | some k => d.mbxResetSide k
    | none => d) d

/-! Lockstep pairs. -/



/-- Pair `p` runs split (R392). -/
def Dev.pairSplit (d : Dev) (p : Nat) : Bool := 3 ≤ p && p % 2 == 1 && bit d.cores.split ((p - 3) / 2)

/-- The master is a copy of a split pair (R392, R393). -/
def Dev.splitMaster (d : Dev) (mid : Nat) : Bool := (mid < 10 && d.pairSplit mid) || (22 ≤ mid && mid ≤ 25 && bit d.cores.split (mid - 22))

/-- The state that a pair's fenced copies give it. -/
def Dev.restState (d : Dev) (p : Nat) : Nat :=
  let x := d.pairOf p
  if x.mainFenced && x.chkFenced then 4
  else if d.pairSplit p then 5
  else if x.chkFenced then 2
  else if x.mainFenced then 3
  else 0

/-- Put a pair into a state; the causes of LCK_SINGLE and LCK_FENCED follow it (R387). -/
def Dev.enterPair (d : Dev) (p st : Nat) : Dev :=
  let d1 := d.put (LCK.P_STAT_STATE p) st
  let d2 := if st = 2 || st = 3 then d1.raiseCause (pairDie p) (468 + p) else d1.cause (468 + p) false
  if st = 4 then (d2.raiseCause (pairDie p) (478 + p)).mbxResetMaster p
  else if st = 0 then d2.cause (478 + p) false else d2

/-- What no comparison has covered is dropped: the queued stores, the waiting loads, the replay log and both MISRs. Values captured by loads that a
comparison has let issue are kept for the instructions that run again (R385). -/
def Dev.dropReplay (d : Dev) (p : Nat) : Dev :=
  (d.putPair p { d.pairOf p with misrMain := 0, misrChk := 0, loads := [], replay := [], stores := [] }).put (LCK.P_STAT_LOG_FILL p) 0

/-- Reset of a pair (R390, R401): its queue and log are emptied, its mailbox sides are reset, and fenced copies stay fenced. -/
def Dev.pairReset (d : Dev) (p : Nat) : Dev :=
  let d1 := d.dropReplay p
  let x := d1.pairOf p
  let d2 := d1.putPair p { x with inbound := [], sliceEnd := 0, forceFail := false, haltReq := false, resetAt := some d.now }
  let d3 := d2.enterPair p (d2.restState p)
  if d3.pairState p = 4 then d3 else d3.mbxResetMaster p

/-- LCK_INJ modes 2 and 3: the next slice of a copy fails (Table 12.5). -/
def Dev.sliceResult (d : Dev) (p : Nat) (checker ok : Bool) : Bool × Dev :=
  if d.on LCK.INJ_ARM && d.fld LCK.INJ_PAIR == p && d.fld LCK.INJ_MODE == (if checker then 2 else 3) then
    (false, d.flag LCK.INJ_ARM false)
  else (ok, d)

/-- The self-tests of R390 on the fenced copies, and the reset into LOCKED where every one passes. -/
def Dev.unfence (d : Dev) (p : Nat) (mainOk chkOk : Bool) : Dev :=
  let x := d.pairOf p
  let (m, d1) := if x.mainFenced then d.sliceResult p false mainOk else (true, d)
  let (c, d2) := if x.chkFenced then d1.sliceResult p true chkOk else (true, d1)
  if m && c then (d2.putPair p { x with mainFenced := false, chkFenced := false }).pairReset p else d2

/-- R390: pair 1 writes LCK_P_CMD of the others, pair 0 that of pair 1. -/
def lckWriter (mid p : Nat) : Bool := if p = 1 then mid == 0 else mid == 1

/-- UNFENCE (R390). -/
def execUnfence (mid pair : Nat) (mainOk chkOk : Bool) (s : State) : Host.Outcome State Fault Refusal :=
  run s fun _ d => d.at (pairDie pair) fun d =>
    if pair < 10 && lckWriter mid pair then (d.unfence pair mainOk chkOk).answer .done else d.answer .error

/-- PAIR_RESET (R390, R407). -/
def execPairReset (mid pair : Nat) (s : State) : Host.Outcome State Fault Refusal :=
  run s fun _ d => d.at (pairDie pair) fun d =>
    if pair < 10 && lckWriter mid pair then (d.pairReset pair).answer .done else d.answer .error

/-- Transients of the last second (R388). -/
def Dev.recentTransients (d : Dev) (p : Nat) : List Nat :=
  (d.pairOf p).transients.filter (fun t => d.now < t + sCycles 1)

/-- LCK_P_CFG in force, taken over at comparisons (R407): TRANS_MAX, ON_SINGLE, WIN_LOG2. -/
def Dev.pairCfg (d : Dev) (p : Nat) : Nat × Nat × Nat :=
  match (d.pairOf p).cfg with
  | some c => c
  | none => (d.fld (LCK.P_CFG_TRANS_MAX p), d.fld (LCK.P_CFG_ON_SINGLE p), d.fld (LCK.P_CFG_WIN_LOG2 p))

/-- A comparison failed (R386): both copies halt, the queued stores are dropped, and the slices start. -/
def Dev.mismatch (d : Dev) (p main chk : Nat) (inj : Bool) : Dev :=
  let d1 := d.dropReplay p
  let x := d1.pairOf p
  let force := (d.pairCfg p).1 < (d.recentTransients p).length
  let d2 := d1.putPair p { x with sliceEnd := d.now + usCycles 40, forceFail := force, haltReq := false }
  let d3 := (((d2.put (LCK.P_MM_MAIN_LO_MISR p) main).put (LCK.P_MM_MAIN_HI_MISR p) (main / 4294967296)).put
    (LCK.P_MM_CHK_LO_MISR p) chk).put (LCK.P_MM_CHK_HI_MISR p) (chk / 4294967296)
  (d3.put (LCK.P_STAT_STATE p) 1).raiseInj (pairDie p) (448 + p) 0 inj

/-- The state of a pair with one copy left (Table 12.2). -/
def Dev.single (d : Dev) (p st : Nat) : Dev :=
  if (d.pairCfg p).2.1 = 0 then d.enterPair p st
  else
    let x := d.pairOf p
    (d.putPair p { x with mainFenced := true, chkFenced := true }).enterPair p 4

/-- The outcome of the slices (Table 12.2, R388). -/
def Dev.sliceDone (d : Dev) (p : Nat) (mainOk chkOk : Bool) : Dev :=
  let (c0, d1) := d.sliceResult p true chkOk
  let (m0, d2) := d1.sliceResult p false mainOk
  let x := d2.pairOf p
  let m := m0 && !x.forceFail
  let c := c0 && !x.forceFail
  let d3 := d2.putPair p { x with forceFail := false, sliceEnd := 0 }
  let y := d3.pairOf p
  if m && c then
    ((d3.putPair p { y with transients := d.recentTransients p ++ [d.now] }).count (LCK.P_STAT_TRANSIENTS p) 1).enterPair p 0
  else if m then ((d3.putPair p { y with chkFenced := true }).raise (pairDie p) (458 + p)).single p 2
  else if c then (d3.putPair p { y with mainFenced := true }).single p 3
  else ((d3.putPair p { y with mainFenced := true, chkFenced := true }).raise (pairDie p) (458 + p)).enterPair p 4

/-- SELFTEST_SLICE_DONE (R386): the slices of a mismatch end. -/
def execSelftestSliceDone (pair : Nat) (mainOk chkOk : Bool) (s : State) : Host.Outcome State Fault Refusal :=
  run s fun _ d =>
    if pair < 10 && d.pairState pair = 1 && (d.pairOf pair).sliceEnd ≤ d.now then d.sliceDone pair mainOk chkOk else d

/-- A write of LCK_INJ (Table 12.5). -/
def Dev.lckInjWrite (d : Dev) (v : Nat) : Dev :=
  if injTaken (d.on LCK.INJ_ARM) v (bitsAt v 1 0 != 0) then
    (((d.put LCK.INJ_MODE (bitsAt v 1 0)).put LCK.INJ_PAIR (bitsAt v 11 8)).flag LCK.INJ_ARM (bit v 31)).answer .done
  else d.answer .discarded

/-- LCK_INJ (R407). -/
def execLckInj (value : Nat) (s : State) : Host.Outcome State Fault Refusal := run s fun _ d => d.lckInjWrite value

/-- DEBUG_HALT (R394): only with debug open and the pair in its scope; the halt waits for the next comparison. -/
def execDebugHalt (pair : Nat) (s : State) : Host.Outcome State Fault Refusal :=
  run s fun _ d =>
    if pair < 10 && d.on SEC.STATE_DEBUG_OPEN && bit d.boot.debugScope pair && d.pairState pair = 0 then
      d.putPair pair { d.pairOf pair with haltReq := true }
    else d

/-- Units of 32 entries in use, rounded up. -/
def logUnits (n : Nat) : Nat := (n + 31) / 32

/-! What a copy does, and its MISR (R382, R384). -/

/-- A MISR after it folds one more word. -/
def misrIn (m w : Nat) : Nat := Config.misr m w % 2 ^ 64

/-- A MISR after a store's address and data. -/
def misrStore (m : Nat) : PairStore → Nat
  | .reg a v => misrIn (misrIn m a) v
  | .mem a b => misrIn (misrIn m a) b.toNat

/-- What a copy leaves: its MISR, the inbound values that it has not taken, and its stores. -/
structure CoreRun where
  misr : Nat
  inbound : List Nat
  stores : List PairStore
  deriving DecidableEq, Repr

/-- A copy runs with `room` free entries in the store queue: it takes inbound values in order, and stalls at a load without one or at a store for
which the queue has no room. -/
def runCore : List CoreEvent → Nat → List Nat → Nat → CoreRun
  | [], m, inb, _ => ⟨m, inb, []⟩
  | .retire a :: t, m, inb, room => runCore t (misrIn m a) inb room
  | .write r v :: t, m, inb, room => runCore t (misrIn (misrIn m r) v) inb room
  | .load r :: t, m, v :: inb, room => runCore t (misrIn (misrIn m r) v) inb room
  | .load _ :: _, m, [], _ => ⟨m, [], []⟩
  | .store x :: t, m, inb, room + 1 => let y := runCore t (misrStore m x) inb room; { y with stores := x :: y.stores }
  | .store _ :: _, m, inb, 0 => ⟨m, inb, []⟩

/-- Entries of the store queue (R384). -/
def storeRoom : Nat := 32

/-- The inbound values and the events of the main copy in a replay log. -/
def DebugAct.inbound : DebugAct → List Nat
  | .write _ _ => []
  | .step i _ => i

def DebugAct.events : DebugAct → List CoreEvent
  | .write _ _ => []
  | .step _ e => e

/-- The values that a replay log delivers to either copy. -/
def Pair.logged (x : Pair) (log : List DebugAct) : List Nat := x.inbound ++ log.flatMap DebugAct.inbound

/-- An action as the log keeps it: only a step receives inbound values. -/
def logAction (inbound : List Nat) : DebugMove → DebugAct
  | .write t v => .write t v
  | .step e => .step inbound e

/-- An action of the debugger on a halted pair (R395); the 257th entry is refused. Stores of a step wait in the queue. -/
def Dev.debugAct (d : Dev) (p : Nat) (a : DebugAct) : Dev :=
  let x := d.pairOf p
  if 256 ≤ x.replay.length then d.answer .error
  else
    let log := x.replay ++ [a]
    let m := runCore (log.flatMap DebugAct.events) 0 (x.logged log) storeRoom
    ((d.putPair p { x with replay := log, misrMain := m.misr, stores := m.stores }).put (LCK.P_STAT_LOG_FILL p)
      (logUnits log.length)).answer .done

/-- DEBUG_ACTION (R395). -/
def execDebugAction (pair : Nat) (action : DebugMove) (inbound : List Nat) (s : State) : Host.Outcome State Fault Refusal :=
  run s fun _ d => if pair < 10 && d.pairState pair = 6 then d.debugAct pair (logAction inbound action) else d

/-! CRC channels. -/

/-- Width in bits of a channel's CRC (R403). -/
def Dev.crcWidth (d : Dev) (ch : Nat) : Nat := 8 * 2 ^ d.fld (CRC.CFG_WIDTH ch)

/-- A 64-bit value held in two registers, as far as the width goes. -/
def Dev.wide (d : Dev) (lo hi : Fld) (w : Nat) : Nat := (d.fld lo + 4294967296 * d.fld hi) % 2 ^ w

/-- The low `n` bits in reverse order. -/
def reflect : Nat → Nat → Nat
  | 0, _ => 0
  | n + 1, v => v % 2 * 2 ^ n + reflect n (v / 2)

/-- One bit into a CRC register. -/
def crcBit (w poly reg : Nat) (b : Bool) : Nat :=
  let top := reg / 2 ^ (w - 1) % 2 == 1
  let r := reg * 2 % 2 ^ w
  if top != b then Nat.xor r poly else r

/-- One byte, its most significant bit first. -/
def crcByte (w poly reg byte : Nat) : Nat :=
  (List.range 8).foldl (fun r i => crcBit w poly r (bit byte (7 - i))) reg

/-- Bytes into the running value of a channel, each reflected where REFIN is 1. -/
def Dev.crcBytes (d : Dev) (ch : Nat) (reg : Nat) (bs : List Nat) : Nat :=
  let w := d.crcWidth ch
  let poly := d.wide (CRC.POLY_LO_POLY ch) (CRC.POLY_HI_POLY ch) w
  bs.foldl (fun r b => crcByte w poly r (if d.on (CRC.CFG_REFIN ch) then reflect 8 b else b)) reg

/-- The first `n` bytes of a word, least significant first. -/
def wordBytes (n v : Nat) : List Nat := (List.range n).map (fun i => v / 2 ^ (8 * i) % 256)

/-- The running value (R403). -/
def Dev.crcRun (d : Dev) (ch : Nat) : Nat := d.fld (CRC.RUN_LO_RUN ch) + 4294967296 * d.fld (CRC.RUN_HI_RUN ch)

def Dev.putRun (d : Dev) (ch v : Nat) : Dev := (d.put (CRC.RUN_LO_RUN ch) v).put (CRC.RUN_HI_RUN ch) (v / 4294967296)

def Dev.crcOf (d : Dev) (ch : Nat) : CrcBlock := tabGet .idle d.cores.crc ch

def Dev.putCrc (d : Dev) (ch : Nat) (x : CrcBlock) : Dev :=
  { d with cores := { d.cores with crc := tabSet .idle d.cores.crc ch x } }

/-- A channel's owner alone uses it (R402). -/
def Dev.crcOwner (d : Dev) (mid ch : Nat) (k : Dev → Dev) : Dev :=
  if d.access mid .s && ch < 64 && d.on (CRC.OWNER_EN ch) && d.fld (CRC.OWNER_MID ch) == mid then k d else d.answer .error

/-- Start a block (R404): a block in progress is discarded. -/
def Dev.crcStart (d : Dev) (ch : Nat) : Dev :=
  let w := d.crcWidth ch
  let init := d.wide (CRC.INIT_LO_INIT ch) (CRC.INIT_HI_INIT ch) w
  let r1 := if d.on (CRC.CFG_FOLD_SEQ ch) then d.crcBytes ch init (wordBytes 4 (d.fld (CRC.SEQ_SEQ ch))) else init
  let r2 := if d.on (CRC.CFG_FOLD_ADDR ch) then d.crcBytes ch r1 (wordBytes 4 (d.fld (CRC.ADDR_ADDR ch))) else r1
  ((((d.putRun ch r2).putCrc ch { CrcBlock.idle with open_ := true }).flag (CRC.STAT_BUSY ch) true).put
    (CRC.STAT_WORDS ch) 0).answer .done

/-- CRC_START (R404). -/
def execCrcStart (mid channel : Nat) (s : State) : Host.Outcome State Fault Refusal :=
  run s fun _ d => d.crcOwner mid channel fun d => d.crcStart channel

/-- Take counted bytes into the block: with CHECK and STRIP the last WIDTH / 8 are kept back (R405). Answers the running value and the
bytes kept. -/
def Dev.crcTake (d : Dev) (ch run : Nat) (tail bs : List Nat) : Nat × List Nat :=
  if d.on (CRC.CFG_MODE ch) && d.on (CRC.CFG_STRIP ch) then
    let all := tail ++ bs
    let n := all.length - d.crcWidth ch / 8
    (d.crcBytes ch run (all.take n), all.drop n)
  else (d.crcBytes ch run bs, [])

/-- One data word (R404). A word written while the channel is idle goes on from the running value that CRC_RUN holds (R403). -/
def Dev.crcData (d : Dev) (ch v : Nat) : Dev :=
  let b := d.crcOf ch
  if b.result.isSome then d.answer .done
  else
    let run := d.crcRun ch
    let (r, tail) := d.crcTake ch run b.tail (wordBytes 4 v)
    let d1 := if b.open_ then d else d.put (CRC.STAT_WORDS ch) 0
    ((((d1.putRun ch r).putCrc ch { b with open_ := true, last := some (v, run, b.tail), tail := tail }).flag
      (CRC.STAT_BUSY ch) true).count (CRC.STAT_WORDS ch) 1).answer .done

/-- CRC_DATA (R404). -/
def execCrcData (mid channel value : Nat) (s : State) : Host.Outcome State Fault Refusal :=
  run s fun _ d => d.crcOwner mid channel fun d => d.crcData channel value

/-- The result after REFOUT and XOROUT (R404). -/
def Dev.crcFinish (d : Dev) (ch run : Nat) : Nat :=
  let w := d.crcWidth ch
  let r := if d.on (CRC.CFG_REFOUT ch) then reflect w run else run % 2 ^ w
  Nat.xor r (d.wide (CRC.XOR_LO_XOROUT ch) (CRC.XOR_HI_XOROUT ch) w)

/-- End a block (R404, R405): `n` bytes of the last word count. -/
def Dev.crcEnd (d : Dev) (ch bytes : Nat) : Dev :=
  if 5 ≤ bytes then d.answer .rejected
  else
    let b := d.crcOf ch
    if !b.open_ then d.answer .done
    else
      let (run, tail) := match b.last with
        | some (v, r0, t0) => d.crcTake ch r0 t0 (wordBytes (if bytes = 0 then 4 else bytes) v)
        | none => (d.crcRun ch, b.tail)
      let got := if d.on (CRC.CFG_STRIP ch) then tail.reverse.foldl (fun a x => 256 * a + x) 0
        else d.wide (CRC.EXPECT_LO_EXPECT ch) (CRC.EXPECT_HI_EXPECT ch) (d.crcWidth ch)
      let d1 := (d.putRun ch run).putCrc ch { CrcBlock.idle with result := some (d.crcFinish ch run, got) }
      (if d.on (CRC.CFG_SEQ_AUTO ch) then d1.put (CRC.SEQ_SEQ ch) (d.fld (CRC.SEQ_SEQ ch) + 1) else d1).answer .done

/-- CRC_END (R404). -/
def execCrcEnd (mid channel bytes : Nat) (s : State) : Host.Outcome State Fault Refusal :=
  run s fun _ d => d.crcOwner mid channel fun d => d.crcEnd channel bytes

/-- The result is ready (R404, R405). -/
def Dev.crcDone (d : Dev) (ch : Nat) : Dev :=
  match (d.crcOf ch).result with
  | none => d
  | some (r, got) =>
    let d1 := (((d.putCrc ch .idle).flag (CRC.STAT_BUSY ch) false).put (CRC.RESULT_LO_RESULT ch) r).put
      (CRC.RESULT_HI_RESULT ch) (r / 4294967296)
    if d.on (CRC.CFG_MODE ch) then
      let d2 := (d1.flag (CRC.STAT_MATCH ch) (r == got)).flag (CRC.STAT_MISMATCH ch) (r != got)
      if r = got then d2
      else
        let f := CRC.MISMATCH_MAP_MISMATCH (ch / 32)
        let d3 := (d2.put f (d2.fld f ||| 2 ^ (ch % 32))).stampBit f (ch % 32)
        if d.on (CRC.CFG_CHK_SNAG ch) then d3.raise .s 490 else d3
    else d1

/-- CRC_BLOCK_DONE (R405). -/
def execCrcBlockDone (channel : Nat) (s : State) : Host.Outcome State Fault Refusal :=
  run s fun _ d => if channel < 64 then d.crcDone channel else d

/-- A write of one half of CRC_RUN: discarded while BUSY (R403, R409). -/
def Dev.crcRunWrite (d : Dev) (ch : Nat) (high : Bool) (v : Nat) : Dev :=
  if d.on (CRC.STAT_BUSY ch) then (d.raise .s 0).answer .discarded
  else (d.put (if high then CRC.RUN_HI_RUN ch else CRC.RUN_LO_RUN ch) v).answer .done

/-- CRC_RUN_WRITE (R403). -/
def execCrcRunWrite (mid channel : Nat) (high : Bool) (value : Nat) (s : State) : Host.Outcome State Fault Refusal :=
  run s fun _ d => d.crcOwner mid channel fun d => d.crcRunWrite channel high value

end Sys2Proof.Machine
end

