-- ==== Sys2Proof/Machine/Watchdog.lean ====
section
/-!
DEFINITION. The device watchdogs, the ladder and the loss of S_CORE (chapter 13).
-/

namespace Sys2Proof.Machine

def Dev.dogOf (d : Dev) (w : Nat) : Dog := tabGet .idle d.ladder.dogs w

def Dev.putDog (d : Dev) (w : Nat) (x : Dog) : Dev :=
  { d with ladder := { d.ladder with dogs := tabSet .idle d.ladder.dogs w x } }

/-- The count of a watchdog's window (R432, R433). -/
def Dev.dogCount (d : Dev) (w : Nat) : Nat := (d.now - (d.dogOf w).start) / 600

/-- The cycle is the closing cycle of the window, or a later one (R433). -/
def Dev.dogClosing (d : Dev) (w : Nat) : Bool := d.fld (WDG.CLOSE_CLOSE w) ≤ d.dogCount w

/-- OPEN, CLOSE and WARN may start a watchdog (R436). -/
def Dev.dogLimits (d : Dev) (w : Nat) : Bool :=
  d.fld (WDG.OPEN_OPEN w) < d.fld (WDG.CLOSE_CLOSE w) &&
    (d.fld (WDG.WARN_WARN w) == 0 || d.fld (WDG.WARN_WARN w) < d.fld (WDG.CLOSE_CLOSE w))

/-- A watchdog starts with count 0 (R436). -/
def Dev.dogStart (d : Dev) (w : Nat) : Dev :=
  (d.flag (WDG.CFG_EN w) true).putDog w { d.dogOf w with start := d.now, serviced := false, warned := false }

/-- A write of WDG_CFG.EN = 1 (R436); EN is set-only. -/
def Dev.dogEnable (d : Dev) (w : Nat) : Dev :=
  if d.on (WDG.CFG_EN w) then d.answer .done
  else if d.dogLimits w then (d.dogStart w).answer .done
  else d.answer .rejected

/-- WDG_START (R436). -/
def execWdgStart (watchdog : Nat) (s : State) : Host.Outcome State Fault Refusal :=
  run s fun _ d => if watchdog < 10 then d.dogEnable watchdog else d

/-- The evidence of an expiry or early-service fault (R443). -/
def Dev.evidence (d : Dev) (w pc : Nat) : Dev :=
  let s := (d.dogOf w).lastSvc
  ((((((d.put (WDG.EV_PC_LO_PC w) pc).put (WDG.EV_PC_HI_PC w) (pc / 4294967296)).put (WDG.EV_SVC_NS_NS w) s.ns).put
    (WDG.EV_SVC_SEC_LO_SEC w) s.sec).put (WDG.EV_SVC_SEC_HI_SEC w) (s.sec / 4294967296)).flag
    (WDG.EV_SVC_SEC_HI_SHADOW_FREE w) s.free).put (WDG.EV_FRAME_FRAME_NO w) d.frame

/-- A step 1 occurred in the last LADDER_MS (R440). -/
def Dev.step1Recent (d : Dev) : Bool :=
  match d.ladder.step1At with
  | some t => d.now < t + msCycles (d.fld WDG.CTRL_LADDER_MS)
  | none => false

/-- Step 1: pair `w` is reset, after its self-tests where it is FENCED (R440, Table 13.6). -/
def Dev.ladderStep1 (d : Dev) (w : Nat) (mainOk chkOk : Bool) : Dev :=
  let d1 := if d.pairState w = 4 then d.unfence w mainOk chkOk else d.pairReset w
  { (d1.flag WDG.LADDER_STEP1 true).put WDG.LADDER_STEP1_WDG w with
    ladder := { d1.ladder with step1At := some d.now, eventAt := some d.now, calmFrom := d.now } }

/-- A watchdog's ladder event (Table 13.6); events of one cycle are one, and the cause then names the watchdog (R440). -/
def Dev.ladderEvent (d : Dev) (w : Nat) (mainOk chkOk : Bool) : Dev :=
  if d.on WDG.LADDER_LOCKED then d
  else if d.ladder.eventAt = some d.now then
    match d.snag.restart with
    | some _ => d.ladderStep2 1 w
    | none => d
  else if !d.step1Recent then d.ladderStep1 w mainOk chkOk
  else
    let d1 := d.ladderStep2 1 w
    if d1.on SNG.STAT_SAFE then d1 else d1.enterSafe

/-- An expiry (16 + w) or an early-service fault (26 + w): source, evidence, ladder; the count restarts at 0 in the next cycle (R435). -/
def Dev.dogFault (d : Dev) (w src pc : Nat) (mainOk chkOk inj : Bool) : Dev :=
  let d1 := (d.evidence w pc).raiseInj .s src 0 inj
  let d2 := d1.putDog w { d1.dogOf w with start := d.now + 1, serviced := false, warned := false }
  d2.ladderEvent w mainOk chkOk

/-- WDG_INJ is armed for a watchdog in a mode. -/
def Dev.dogInjected (d : Dev) (w mode : Nat) : Bool :=
  d.on WDG.INJ_ARM && d.fld WDG.INJ_MODE == mode && d.fld WDG.INJ_WDG == w

/-- A window that held an accepted service and whose closing cycle has passed: the next one runs since then (R433). -/
def Dev.dogRoll (d : Dev) (w : Nat) : Dev :=
  let x := d.dogOf w
  let close := x.start + 600 * d.fld (WDG.CLOSE_CLOSE w)
  if d.on (WDG.CFG_EN w) && x.serviced && close < d.now then
    d.putDog w { x with start := close, serviced := false, warned := false }
  else d

/-- A service that commits (R434). -/
def Dev.dogService (d0 : Dev) (w key pc : Nat) (mainOk chkOk : Bool) : Dev :=
  let d := d0.dogRoll w
  let x := d.dogOf w
  let d1 := d.answer .done
  if !d.on (WDG.CFG_EN w) then d1
  else if d.dogInjected w 2 then (d1.flag WDG.INJ_ARM false).dogFault w (26 + w) pc mainOk chkOk true
  else if x.serviced then d1.dogFault w (26 + w) pc mainOk chkOk false
  else if d.dogClosing w then d1
  else if key % 256 = 107 && d.fld (WDG.OPEN_OPEN w) ≤ d.dogCount w then
    d1.putDog w { x with serviced := true, lastSvc := d.snag.shadow }
  else d1.dogFault w (26 + w) pc mainOk chkOk false

/-- WDG_SERVICE (R434): only master w services watchdog w. -/
def execWdgService (mid watchdog key pc : Nat) (mainOk chkOk : Bool) (s : State) : Host.Outcome State Fault Refusal :=
  run s fun _ d =>
    if watchdog < 10 && mid == watchdog && d.access mid .s && !d.splitMaster mid then d.dogService watchdog key pc mainOk chkOk else d.answer .error

/-- The closing cycle of a window (R433): a new window after an accepted service, else the watchdog expires. -/
def Dev.dogClose (d : Dev) (w pc : Nat) (mainOk chkOk : Bool) : Dev :=
  let x := d.dogOf w
  if d.dogInjected w 1 then (d.flag WDG.INJ_ARM false).dogFault w (16 + w) pc mainOk chkOk true
  else if x.serviced then
    d.putDog w { x with start := x.start + 600 * d.fld (WDG.CLOSE_CLOSE w), serviced := false, warned := false }
  else d.dogFault w (16 + w) pc mainOk chkOk false

/-- WATCHDOG_WINDOW_CLOSE (R433). -/
def execWatchdogWindowClose (watchdog pc : Nat) (mainOk chkOk : Bool) (s : State) : Host.Outcome State Fault Refusal :=
  run s fun _ d =>
    if watchdog < 10 && d.on (WDG.CFG_EN watchdog) && d.dogClosing watchdog && !d.ladder.coreLost then
      d.dogClose watchdog pc mainOk chkOk
    else d

/-- WATCHDOG_WARN (R438). -/
def execWatchdogWarn (watchdog : Nat) (s : State) : Host.Outcome State Fault Refusal :=
  run s fun _ d =>
    let x := d.dogOf watchdog
    let warn := d.fld (WDG.WARN_WARN watchdog)
    if watchdog < 10 && d.on (WDG.CFG_EN watchdog) && warn != 0 && warn ≤ d.dogCount watchdog && !x.warned then
      { d.putDog watchdog { x with warned := true } with
        ladder := { (d.putDog watchdog { x with warned := true }).ladder with irq := tabSet false d.ladder.irq watchdog true } }
    else d

/-- WDG_CMD.LADDER_CLR (R441, R442): master 18 alone. -/
def Dev.ladderClr (d : Dev) (mid : Nat) : Dev :=
  if mid != 18 then d.answer .error
  else if d.on WDG.LADDER_LOCKED then
    (((d.flag WDG.LADDER_LOCKED false).put WDG.LADDER_TRIES 0).cause 36 false).answer .done
  else d.answer .done

/-- LADDER_CLR (R441). -/
def execLadderClr (mid : Nat) (s : State) : Host.Outcome State Fault Refusal := run s fun _ d => d.ladderClr mid

/-- TRIES_CALM_RESET (R442). -/
def execTriesCalmReset (s : State) : Host.Outcome State Fault Refusal :=
  run s fun _ d =>
    let calm := d.fld WDG.CALM_CALM_S
    if calm != 0 && d.ladder.calmFrom + sCycles calm ≤ d.now then d.put WDG.LADDER_TRIES 0 else d

/-- A TDM port under the S_RC monitor or without supply: 0, VALID low, MUTE_n low; high impedance where paired (R444, R512). -/
def Dev.forcePort (paired : Bool) (d : Dev) (p : Nat) : Dev :=
  let x := tabGet .reset d.gate.ports p
  let d1 := (d.flag (SGT.P_STAT_VALID p) false).flag (SGT.P_STAT_MUTED p) true
  let d2 := if paired then d1.flag (SGT.P_STAT_DRIVING p) false else d1
  { d2 with gate := { d2.gate with ports := tabSet .reset d2.gate.ports p { x with forcedLow := true } } }

/-- The S_RC monitor finds S_CORE out of limits (R444). -/
def Dev.coreLoss (d : Dev) (inj : Bool) : Dev :=
  let paired := d.on TWN.CTRL_PAIR
  let d1 := (List.range 6).foldl (Dev.forcePort paired) { d with ladder := { d.ladder with coreLost := true } }
  let d2 := if paired then d1.flag TWN.STAT_OWN_OUT false else d1
  d2.raiseInj .s 6 0 inj

/-- S_CORE_LOSS (R444): it is not detected while S_RC is lost. -/
def execSCoreLoss (s : State) : Host.Outcome State Fault Refusal :=
  run s fun _ d => if d.ladder.coreLost || tabGet false d.snag.cause 7 then d else d.coreLoss false

/-- A write of WDG_INJ (Table 13.11). -/
def Dev.wdgInjWrite (d : Dev) (v : Nat) : Dev :=
  let mode := bitsAt v 1 0
  if 9 < bitsAt v 11 8 then d.answer .rejected
  else if injTaken (d.on WDG.INJ_ARM) v (mode != 0) then
    let d1 := ((d.put WDG.INJ_MODE mode).put WDG.INJ_WDG (bitsAt v 11 8)).answer .done
    if !bit v 31 then d1
    else if mode = 3 then d1.coreLoss true
    else d1.flag WDG.INJ_ARM true
  else d.answer .discarded

/-- WDG_INJ (R446). -/
def execWdgInj (value : Nat) (s : State) : Host.Outcome State Fault Refusal := run s fun _ d => d.wdgInjWrite value

end Sys2Proof.Machine
end

