-- ==== Sys2Proof/Machine/Time.lean ====
section
/-!
DEFINITION. Time bases, PTP instances, SYNC outputs and captures (chapter 10), and what one S_CORE cycle does to the clocks.
-/

namespace Sys2Proof.Machine

/-! Times. -/

/-- A time in units of 2^-32 ns. -/
def tmTotal (t : Tm) : Nat := (t.sec * 1000000000 + t.ns) * 4294967296 + t.frac

/-- The time of a number of units; the seconds wrap at 2^48 (R338). -/
def tmOf (n : Nat) : Tm :=
  let q := n / 4294967296
  { sec := q / 1000000000 % 281474976710656, ns := q % 1000000000, frac := n % 4294967296 }

/-- Units in the 2^48 seconds after which a time base wraps. -/
def tmWrap : Nat := 281474976710656 * 1000000000 * 4294967296

/-- Add a signed number of units (R338, R342). -/
def tmAdd (t : Tm) (x : Int) : Tm := tmOf (((tmTotal t : Int) + x) % (tmWrap : Int)).toNat

/-- A time in whole nanoseconds. -/
def tmNs (t : Tm) : Int := ((t.sec * 1000000000 + t.ns : Nat) : Int)

/-- The increment of one X_TIME cycle at a rate in ppb (R338, R342; rounded down, log entry 8). -/
def tbIncrement (ppb : Int) : Int := 34359738368 * (1000000000 + ppb) / 1000000000

def Dev.tbAt (d : Dev) (i : Nat) : TimeBase := tabGet .zero d.time.tbs i

def Dev.putTb (d : Dev) (i : Nat) (x : TimeBase) : Dev :=
  { d with time := { d.time with tbs := tabSet .zero d.time.tbs i x } }

/-- Rate in force of time base `i`: TIM_TB_RATE where it is FREE, the servo's otherwise (R342, R346). -/
def Dev.tbRate (d : Dev) (i : Nat) : Int :=
  if d.fld (TIM.TB_CFG_SRC i) = 0 then signedOf 32 (d.fld (TIM.TB_RATE_PPB i)) else (d.tbAt i).rate

/-- One X_TIME cycle of time base `i`, both copies (R338, R339). -/
def Dev.tbTick (d : Dev) (i : Nat) : Dev :=
  let x := d.tbAt i
  let inc := tbIncrement (d.tbRate i)
  d.putTb i { x with val := tmAdd x.val inc, copy := tmAdd x.copy inc }

/-- One X_TIME cycle: in UNIFIED mode TB1 to TB3 are TB0 (R341). -/
def Dev.xCycle (d : Dev) : Dev :=
  let d1 := d.tbTick 0
  if d.fld TIM.CTRL_MODE = 0 then
    let z := d1.tbAt 0
    [1, 2, 3].foldl (fun d i => d.putTb i { d.tbAt i with val := z.val, copy := z.copy }) d1
  else ((d1.tbTick 1).tbTick 2).tbTick 3

/-- Nanoseconds of the shadow that S_CORE cycle `n` adds: 5/3 ns a cycle (R430). -/
def shadowInc (n : Nat) : Nat := 5 * (n + 1) / 3 - 5 * n / 3

/-- The TB0 shadow advances by one S_CORE cycle (R430). -/
def Dev.shadowTick (d : Dev) : Dev :=
  let s := d.snag.shadow
  let ns := s.ns + shadowInc d.now
  { d with snag := { d.snag with shadow :=
    if 1000000000 ≤ ns then { s with ns := ns - 1000000000, sec := (s.sec + 1) % 281474976710656 } else { s with ns := ns } } }

/-- One S_CORE cycle elapses (600 MHz); X_TIME runs at 125 MHz, 5 cycles in 24 (R513). Nothing elapses while S_CORE is lost (log entry 9). -/
def Dev.coreCycle (d : Dev) : Dev :=
  if d.ladder.coreLost then d
  else
    let d1 := d.shadowTick
    let d2 : Dev := { d1 with now := d1.now + 1 }
    if 5 * d2.now % 24 < 5 && !bit d2.power.lost 2 then d2.xCycle else d2

/-! Steps and reads. -/

/-- A step of time base `i` is forbidden (R342). -/
def Dev.stepForbidden (d : Dev) (i : Nat) : Bool :=
  d.fld TIM.TICK_CFG_TBSEL == i && d.running && d.on TIM.TICK_CFG_LOCK_EN

/-- START of a SYNC output in ns. -/
def Dev.syncStart (d : Dev) (o : Nat) : Nat :=
  (d.fld (TIM.SYNC_START_SEC_LO_START o) + 4294967296 * d.fld (TIM.SYNC_START_SEC_HI_START o)) * 1000000000
    + d.fld (TIM.SYNC_START_NS_START o)

/-- Ticks of k frames in ns, from S (R350). -/
def Dev.schedule (d : Dev) (s : Int) (k : Nat) : Int := s + ((d.frameStart k * 1000000000 / d.fs : Nat) : Int)

/-- The instant of edge `m` of a SYNC output in ns: even edges are active, odd ones inactive (R352). -/
def Dev.syncInstant (d : Dev) (o m : Nat) : Option Int :=
  match d.fld (TIM.SYNC_CFG_MODE o) with
  | 1 =>
    let count := d.fld (TIM.SYNC_CFG_COUNT o)
    if count != 0 && count ≤ m / 2 then none
    else some ((d.syncStart o + m / 2 * d.fld (TIM.SYNC_PERIOD_NS o) + m % 2 * d.fld (TIM.SYNC_WIDTH_NS o) : Nat) : Int)
  | 2 =>
    let period := d.fld (TIM.SYNC_PERIOD_NS o) * 4294967296 + d.fld (TIM.SYNC_FRAC_FRAC o)
    some ((d.syncStart o + (m * period + 4294967296) / 8589934592 : Nat) : Int)
  | 3 =>
    match d.time.start with
    | some s =>
      if d.running && d.on TIM.TICK_CFG_LOCK_EN then
        some (d.schedule s (m / 2) + ((m % 2 * d.fld (TIM.SYNC_WIDTH_NS o) : Nat) : Int))
      else none
    | none => none
  | _ => none

/-- The first active edge of a SYNC output at or after the time base's value: earlier ones are skipped (R353). -/
def Dev.syncFirst (d : Dev) (o : Nat) : Nat :=
  let t := tmNs (d.tb (d.fld (TIM.SYNC_CFG_TBSEL o))).val
  let past := (t - (d.syncStart o : Int)).toNat
  match d.fld (TIM.SYNC_CFG_MODE o) with
  | 1 =>
    let p := d.fld (TIM.SYNC_PERIOD_NS o)
    if p = 0 then 0 else 2 * ((past + p - 1) / p)
  | 2 =>
    let p := d.fld (TIM.SYNC_PERIOD_NS o) * 4294967296 + d.fld (TIM.SYNC_FRAC_FRAC o)
    if p = 0 then 0 else (past * 8589934592 + p - 1) / p
  | 3 => if d.running then 2 * (d.frame + 1) else 0
  | _ => 0

/-- Skip the edges that a step of a time base has passed over (R353). -/
def Dev.syncSkip (d : Dev) (o : Nat) : Dev :=
  let x := tabGet ⟨0, false⟩ d.time.syncs o
  let m := d.syncFirst o
  if d.fld (TIM.SYNC_CFG_MODE o) != 0 && x.next < m then
    { d with time := { d.time with syncs := tabSet ⟨0, false⟩ d.time.syncs o ⟨m, false⟩ } }
  else d

/-- Step time base `i` by signed nanoseconds (R342). -/
def Dev.tbStep (d : Dev) (i : Nat) (ns : Int) : Dev :=
  let x := d.tbAt i
  let d1 := d.putTb i { x with val := tmAdd x.val (ns * 4294967296), copy := tmAdd x.copy (ns * 4294967296) }
  let d2 := if i = 0 && d.fld TIM.CTRL_MODE = 0 then
      let z := d1.tbAt 0
      [1, 2, 3].foldl (fun d i => d.putTb i { d.tbAt i with val := z.val, copy := z.copy }) d1
    else d1
  (List.range 4).foldl Dev.syncSkip d2

/-- A write of TIM_TB_STEP (R342): discarded where the time base is not FREE or carries the locked tick. -/
def Dev.tbStepWrite (d : Dev) (i v : Nat) : Dev :=
  if d.fld (TIM.TB_CFG_SRC i) != 0 || d.stepForbidden i then (d.raise .s 0).answer .discarded
  else if d.fld TIM.CTRL_MODE = 0 && i != 0 then d.answer .done
  else (d.tbStep i (signedOf 32 v)).answer .done

/-- TIM_TB_STEP (R342). -/
def execTimTbStep (tb value : Nat) (s : State) : Host.Outcome State Fault Refusal :=
  run s fun _ d => d.at .x fun d => if tb < 4 then d.tbStepWrite tb value else d

/-- A read of TIM_TB_NS latches the whole value (R340). -/
def Dev.tbLatch (d : Dev) (i : Nat) : Dev :=
  let v := (d.tb i).val
  (d.putTb i { d.tbAt i with latched := v.sec }).answer (.value v.ns)

/-- A read by a master of a register of the X-die that has a side effect (R38, R385). -/
def Dev.xRead (d : Dev) (mid a : Nat) (k : Dev → Dev) : Dev :=
  if d.access mid .x then d.at .x fun d => d.sideRead mid a k else d.answer .error

/-- TB_LATCH_READ (R340). -/
def execTbLatchRead (tb : ByMaster) (s : State) : Host.Outcome State Fault Refusal :=
  run s fun _ d => if tb.index < 4 then d.xRead tb.mid (TIM.TB_NS tb.index) (fun d => d.tbLatch tb.index) else d

/-! Captures (R354). -/

def Dev.caps (d : Dev) (c : Nat) : List CapEntry := tabGet [] d.time.caps c

def Dev.putCaps (d : Dev) (c : Nat) (q : List CapEntry) : Dev :=
  { d with time := { d.time with caps := tabSet [] d.time.caps c q } }.put (TIM.CAP_STAT_COUNT c) q.length

/-- An edge at a capture input; pulses shorter than 16 ns are ignored. -/
def Dev.captureEdge (d : Dev) (c : Nat) (rise : Bool) (pulseNs : Nat) : Dev :=
  let sel := d.fld (TIM.CAP_CFG_EDGE c)
  if !d.on (TIM.CAP_CFG_EN c) || pulseNs < 16 || !(if rise then bit sel 0 else bit sel 1) then d
  else if 16 ≤ (d.caps c).length then (d.count (TIM.CAP_STAT_OVF c) 1).raise .x 435
  else
    let v := (d.tb (d.fld (TIM.CAP_CFG_TBSEL c))).val
    d.putCaps c (d.caps c ++ [⟨rise, v.sec, v.ns⟩])

/-- CAPTURE_EDGE (R354). -/
def execCaptureEdge (input : Nat) (rise : Bool) (pulseNs : Nat) (s : State) : Host.Outcome State Fault Refusal :=
  run s fun _ d => if input < 4 && !bit d.power.lost 2 then d.captureEdge input rise pulseNs else d

/-- A read of TIM_CAP_NS latches the oldest entry. -/
def Dev.capNsRead (d : Dev) (c : Nat) : Dev :=
  match d.caps c with
  | [] => d.answer (.value 0)
  | e :: _ =>
    { d with time := { d.time with capLatch := tabSet ⟨false, 0, 0⟩ d.time.capLatch c e } }.answer
      (.value (2147483648 + 1073741824 * b2n e.rise + e.ns))

/-- CAP_NS_READ (R354). -/
def execCapNsRead (input : ByMaster) (s : State) : Host.Outcome State Fault Refusal :=
  run s fun _ d => if input.index < 4 then d.xRead input.mid (TIM.CAP_NS input.index) (fun d => d.capNsRead input.index) else d

/-- A read of TIM_CAP_SEC_HI removes the oldest entry. -/
def Dev.capSecHiRead (d : Dev) (c : Nat) : Dev :=
  let e := tabGet ⟨false, 0, 0⟩ d.time.capLatch c
  (d.putCaps c ((d.caps c).drop 1)).answer (.value (e.sec / 4294967296 % 65536))

/-- CAP_SEC_HI_READ (R354). -/
def execCapSecHiRead (input : ByMaster) (s : State) : Host.Outcome State Fault Refusal :=
  run s fun _ d => if input.index < 4 then d.xRead input.mid (TIM.CAP_SEC_HI input.index) (fun d => d.capSecHiRead input.index) else d

/-! SYNC outputs (R352, R353). -/

/-- The next edge of a SYNC output is placed once its instant has come. -/
def Dev.syncEdge (d : Dev) (o : Nat) : Dev :=
  let x := tabGet ⟨0, false⟩ d.time.syncs o
  match d.syncInstant o x.next with
  | some t =>
    if t ≤ tmNs (d.tb (d.fld (TIM.SYNC_CFG_TBSEL o))).val then
      { d with time := { d.time with syncs := tabSet ⟨0, false⟩ d.time.syncs o ⟨x.next + 1, x.next % 2 == 0⟩ } }
    else d
  | none => d

/-- SYNC_EDGE (R352). -/
def execSyncEdge (output : Nat) (s : State) : Host.Outcome State Fault Refusal :=
  run s fun _ d => if output < 4 && !bit d.power.lost 2 then d.syncEdge output else d

/-- A write of TIM_SYNC_CFG.MODE: edges whose instants have passed are skipped, and OFF gives the inactive level (R352, R353). -/
def Dev.syncMode (d : Dev) (o mode : Nat) : Dev :=
  let d1 := d.put (TIM.SYNC_CFG_MODE o) mode
  { d1 with time := { d1.time with syncs := tabSet ⟨0, false⟩ d1.time.syncs o ⟨d1.syncFirst o, false⟩ } }

/-! PTP instances (R343, R345). -/

def Dev.ptp (d : Dev) (i : Nat) : PtpInst := tabGet .zero d.time.ptp i

def Dev.putPtp (d : Dev) (i : Nat) (x : PtpInst) : Dev :=
  { d with time := { d.time with ptp := tabSet .zero d.time.ptp i x } }

/-- The port that carries an instance is asCapable: its mean link delay is at or below 800 ns (R343). -/
def Dev.asCapable (d : Dev) (i : Nat) : Bool :=
  match tabGet none d.time.linkDelay (d.fld (TIM.PTP_CFG_PORT i)) with
  | some n => decide (n ≤ 800)
  | none => false

/-- The instance meets the conditions of R345. -/
def Dev.ptpGood (d : Dev) (i : Nat) : Bool :=
  let x := d.ptp i
  d.on (TIM.PTP_CFG_EN i) && d.asCapable i && x.known
    && decide (d.now < x.annAt + d.fld (TIM.PTP_CFG_ANN_LOSS i) * x.annGap)
    && decide (d.now < x.syncAt + d.fld (TIM.PTP_CFG_SYNC_LOSS i) * x.syncGap) && 16 ≤ x.syncs

/-- The instance's time now, in ns, carried on from its last Sync at its own rate. -/
def Dev.ptpTime (d : Dev) (i : Nat) : Int :=
  let x := d.ptp i
  x.time + ((d.now - x.syncAt : Nat) : Int) * 5 * (1000000000 + x.rate) / 3000000000

/-- Instance that a tracked time base follows (R341, R348): 0 A, 1 B. -/
def Dev.follows (d : Dev) (i : Nat) : Option Nat :=
  let alt := d.fld (TIM.TB_STAT_ON_ALT i)
  match d.fld (TIM.TB_CFG_SRC i) with
  | 1 => some 0
  | 2 => some 1
  | 3 => some alt
  | 4 => some (1 - alt)
  | _ => none

/-- The second instance that SRC allows, if any. -/
def Dev.fallbackInst (d : Dev) (i : Nat) : Option Nat :=
  match d.fld (TIM.TB_CFG_SRC i), d.follows i with
  | 3, some a => some (1 - a)
  | 4, some a => some (1 - a)
  | _, _ => none

/-- The time bases that run on their own configuration (R341). -/
def Dev.ownTbs (d : Dev) : List Nat := if d.fld TIM.CTRL_MODE = 0 then [0] else [0, 1, 2, 3]

/-- A time base is in HOLDOVER. -/
def Dev.inHoldover (d : Dev) (i : Nat) : Bool := d.fld (TIM.TB_STAT_STATE i) == 3

/-- Put a time base into a state of TIM_TB_STAT; the cause of TIM_HOLDOVER follows it (R346). -/
def Dev.tbState (d : Dev) (i st : Nat) : Dev :=
  let d1 := d.put (TIM.TB_STAT_STATE i) st
  if st = 3 then d1.raiseCause .x (429 + i) else d1.cause (429 + i) false

/-- An instance has become valid (R345): its cause ends, and time bases that wait for it leave HOLDOVER by slewing (R346). -/
def Dev.ptpValid (d : Dev) (i : Nat) : Dev :=
  if d.on (TIM.PTP_STAT_VALID i) || !d.ptpGood i then d
  else
    let d1 := ((d.flag (TIM.PTP_STAT_VALID i) true).putPtp i { d.ptp i with validAt := d.now }).cause (426 + i) false
    d1.ownTbs.foldl (fun d t =>
      if d.inHoldover t && (d.follows t == some i) then (d.putTb t { d.tbAt t with mayStep := false }).tbState t 1
      else d) d1

/-- The mean of the last differences, and whether it is valid (R347). -/
def Dev.deltaMean (d : Dev) : Option Int :=
  if d.time.deltas.length < 16 then none
  else some ((d.time.deltas.take 16).foldl (· + ·) 0 / 16)

/-- Report the measured difference in TIM_DELTA (R347). -/
def Dev.showDelta (d : Dev) : Dev :=
  match d.deltaMean with
  | some x => ((d.put TIM.DELTA_SEC_SEC (ofSigned 32 (x / 1000000000))).put TIM.DELTA_NS_NS (x % 1000000000).toNat).flag
      TIM.DELTA_NS_VALID true
  | none => d.flag TIM.DELTA_NS_VALID false

/-- The last valid difference that TIM_DELTA holds, where it is valid. -/
def Dev.deltaHeld (d : Dev) : Option Int :=
  if d.on TIM.DELTA_NS_VALID then
    some (signedOf 32 (d.fld TIM.DELTA_SEC_SEC) * 1000000000 + (d.fld TIM.DELTA_NS_NS : Int))
  else none

/-- The servo of a time base at a Sync of the instance it follows (R346). The size of the rate change is a free value within SLEW_MAX. -/
def Dev.servo (d : Dev) (t i : Nat) : Dev :=
  let x := d.tbAt t
  let target := d.ptpTime i + x.held
  let off := tmNs x.val - target
  let st := d.fld (TIM.TB_STAT_STATE t)
  let d1 := d.put (TIM.TB_OFFSET_NS t) (ofSigned 32 (clampInt (-2147483648) 2147483647 off))
  if st = 1 && x.mayStep && ((d.fld TIM.SERVO2_STEP_THR * 1000 : Nat) : Int) < off.natAbs && !d.stepForbidden t then
    let d2 := d1.tbStep t (-off)
    (d2.putTb t { d2.tbAt t with rate := (d.ptp i).rate, mayStep := false, within := 0 }).put (TIM.TB_OFFSET_NS t) 0
  else
    let (v, d2) := d1.draw
    let size : Int := ((v % (d.fld TIM.SERVO_SLEW_MAX + 1) : Nat) : Int)
    let corr : Int := if off = 0 then 0 else if 0 < off then -size else size
    let inside := off.natAbs ≤ d.fld TIM.SERVO2_LOCK_THR
    let n := if inside then x.within + 1 else 0
    let lock := st != 2 && 16 ≤ n
    let d3 := d2.putTb t { x with rate := (d.ptp i).rate + corr, within := n, mayStep := x.mayStep && !lock }
    if lock then d3.tbState t 2 else d3

/-- Sync intervals that the instances accept: 31.25 ms to 1 s in S_CORE cycles (R343). -/
def syncGapOk (gap : Nat) : Bool := 18750000 ≤ gap && gap ≤ 600000000

/-- The error of a timestamp at the MAC, a free value within ±4 ns (R344). -/
def Dev.stampError (d : Dev) : Int × Dev :=
  let (v, d1) := d.draw
  (((v % 9 : Nat) : Int) - 4, d1)

/-- The instance's time when a Sync reaches the MAC: the time that the Sync and its Follow_Up carry, the mean link delay and the latency of the
receiving PHY (R343, R344). -/
def Dev.syncTime (d : Dev) (i : Nat) (carried err : Int) : Int :=
  let p := d.fld (TIM.PTP_CFG_PORT i)
  carried + (tabGet none d.time.linkDelay p).getD 0 + (d.fld (ETH.P_LAT_RX_LAT p) : Int) + err

/-- A Sync (R343, R345 to R347): `carried` is the grandmaster's time that it carries in ns, `rate` its rate in ppb. -/
def Dev.ptpSync (d0 : Dev) (i : Nat) (carried rate : Int) (gap : Nat) : Dev :=
  let (err, d) := d0.stampError
  let time := d.syncTime i carried err
  if !d.on (TIM.PTP_CFG_EN i) || !syncGapOk gap then d
  else if i = 0 && d.time.loseSync then { d with time := { d.time with loseSync := false } }.flag TIM.INJ_ARM false
  else
    let x := d.ptp i
    let d1 := d.putPtp i { x with syncs := min 16 (x.syncs + 1), syncAt := d.now, syncGap := gap, time := time, rate := rate }
    let d2 := d1.ptpValid i
    let d3 := if i = 1 && d2.on (TIM.PTP_STAT_VALID 0) && d2.on (TIM.PTP_STAT_VALID 1) then
        ({ d2 with time := { d2.time with deltas := ((time - d2.ptpTime 0) :: d2.time.deltas).take 16 } }).showDelta
      else d2
    d3.ownTbs.foldl (fun d t => if d.follows t == some i && d.on (TIM.PTP_STAT_VALID i) then d.servo t i else d) d3

/-- PTP_SYNC (R346). -/
def execPtpSync (inst : Nat) (carried rate : Int) (gap : Nat) (s : State) : Host.Outcome State Fault Refusal :=
  run s fun _ d => if inst < 2 && !bit d.power.lost 2 then d.ptpSync inst carried rate gap else d

/-- An Announce (R345): a new grandmaster identity starts the count of Syncs again. -/
def Dev.ptpAnnounce (d : Dev) (i gm gap : Nat) : Dev :=
  if !d.on (TIM.PTP_CFG_EN i) then d
  else
    let x := d.ptp i
    let old := d.fld (TIM.PTP_GM_LO_GM i) + 4294967296 * d.fld (TIM.PTP_GM_HI_GM i)
    let changed := x.known && old != gm
    let d1 := d.putPtp i { x with known := true, annAt := d.now, annGap := gap, syncs := if x.known && old == gm then x.syncs else 0 }
    let d2 := (d1.put (TIM.PTP_GM_LO_GM i) gm).put (TIM.PTP_GM_HI_GM i) (gm / 4294967296)
    let d3 := if changed then d2.count (TIM.PTP_STAT_GM_CHANGES i) 1 else d2
    d3.ptpValid i

/-- PTP_ANNOUNCE (R345). -/
def execPtpAnnounce (inst grandmaster gap : Nat) (s : State) : Host.Outcome State Fault Refusal :=
  run s fun _ d => if inst < 2 && !bit d.power.lost 2 then d.ptpAnnounce inst grandmaster gap else d

/-- Mean link delay of an exchange on a port: half of the round trip between the PHYs' lines, less the peer's turnaround (R343, R344). -/
def Dev.linkDelayOf (d : Dev) (port : Nat) (x : PdelayTimes) (err : Int) : Int :=
  ((x.got - x.sent) - (x.peerSent - x.peerGot) - (d.fld (ETH.P_LAT_TX_LAT port) : Int) - (d.fld (ETH.P_LAT_RX_LAT port) : Int)) / 2 + err

/-- A Pdelay exchange gives a port's mean link delay (R343). -/
def Dev.pdelay (d0 : Dev) (port : Nat) (x : PdelayTimes) : Dev :=
  let (err, d) := d0.stampError
  let d1 := { d with time := { d.time with linkDelay := tabSet none d.time.linkDelay port (some (d.linkDelayOf port x err)) } }
  (d1.ptpValid 0).ptpValid 1

/-- PDELAY (R343). -/
def execPdelay (port : Nat) (times : PdelayTimes) (s : State) : Host.Outcome State Fault Refusal :=
  run s fun _ d => if port < 2 && !bit d.power.lost 2 then d.pdelay port times else d

/-- A time base loses the instance it follows (R346, R348): it switches where the other is valid and the difference is known, else it holds. -/
def Dev.tbLoses (d : Dev) (t : Nat) : Dev :=
  match d.fallbackInst t, d.deltaHeld with
  | some j, some delta =>
    if d.on (TIM.PTP_STAT_VALID j) then
      let d1 := d.putTb t { d.tbAt t with held := if j = 1 then -delta else delta, within := 0, mayStep := false }
      ((d1.put (TIM.TB_STAT_ON_ALT t) (1 - d.fld (TIM.TB_STAT_ON_ALT t))).tbState t 1).raise .x 428
    else d.tbState t 3
  | _, _ => d.tbState t 3

/-- An instance loses validity (R345). -/
def Dev.ptpLoss (d : Dev) (i : Nat) : Dev :=
  let d1 := (d.flag (TIM.PTP_STAT_VALID i) false).raiseCause .x (426 + i)
  let d2 := d1.ownTbs.foldl (fun d t => if d.follows t == some i then d.tbLoses t else d) d1
  { d2 with time := { d2.time with deltas := [] } }

/-- TIM_SYNC_LOSS (R345). -/
def execTimSyncLoss (inst : Nat) (s : State) : Host.Outcome State Fault Refusal :=
  run s fun _ d => if inst < 2 && d.on (TIM.PTP_STAT_VALID inst) && !d.ptpGood inst then d.ptpLoss inst else d

/-- The primary instance of A_B and B_A. -/
def Dev.primaryInst (d : Dev) (t : Nat) : Nat := if d.fld (TIM.TB_CFG_SRC t) = 4 then 1 else 0

/-- The revert of R349 is due. Where the instance that it leaves has failed too, the switch prevails. -/
def Dev.revertDue (d : Dev) (t : Nat) : Bool :=
  let p := d.primaryInst t
  let secs := d.fld (TIM.TB_CFG_REVERT_S t)
  d.on (TIM.TB_STAT_ON_ALT t) && secs != 0 && d.on (TIM.PTP_STAT_VALID p) && d.ptpGood p
    && (d.ptp p).validAt + sCycles secs ≤ d.now && d.ptpGood (1 - p)

/-- TIME_BASE_REVERT (R349): the target is the primary source again, and the difference is slewed away. -/
def execTimeBaseRevert (tb : Nat) (s : State) : Host.Outcome State Fault Refusal :=
  run s fun _ d =>
    if tb < 4 && d.revertDue tb then
      (d.flag (TIM.TB_STAT_ON_ALT tb) false).putTb tb { d.tbAt tb with held := 0 }
    else d

/-- A write of TIM_TB_CFG (R341, R346): a tracked SRC puts the time base into ACQUIRE. -/
def Dev.tbCfgWrite (d : Dev) (t v : Nat) : Dev :=
  let src := bitsAt v 2 0
  if 5 ≤ src then d.answer .rejected
  else
    let d1 := (d.put (TIM.TB_CFG_REVERT_S t) (bitsAt v 23 8)).put (TIM.TB_CFG_SRC t) src
    let d2 := (d1.flag (TIM.TB_STAT_ON_ALT t) false).putTb t
      { d1.tbAt t with held := 0, within := 0, mayStep := src != 0, rate := d.tbRate t }
    (d2.tbState t (if src = 0 then 0 else 1)).answer .done

/-- TIME_BASE_SRC_WRITE (R346). -/
def execTimeBaseSrcWrite (tb value : Nat) (s : State) : Host.Outcome State Fault Refusal :=
  run s fun _ d => d.at .x fun d => if tb < 4 then d.tbCfgWrite tb value else d

/-- The copies of time base `t` disagree (R339): TIM_TB_MISMATCH, and the second copy is loaded from the first. -/
def Dev.tbMismatch (d : Dev) (t : Nat) (inj : Bool) : Dev :=
  let x := d.tbAt t
  (d.putTb t { x with copy := x.val }).raiseInj .x 434 0 inj

/-- A write of TIM_INJ (Table 10.3). -/
def Dev.timInjWrite (d : Dev) (v : Nat) : Dev :=
  let mode := bitsAt v 1 0
  if injTaken (d.on TIM.INJ_ARM) v (mode != 0) then
    let d1 := ((d.put TIM.INJ_MODE mode).put TIM.INJ_TB (bitsAt v 3 2)).answer .done
    if !bit v 31 then d1
    else if mode = 1 then d1.tbMismatch (bitsAt v 3 2) true
    else if mode = 2 then { d1 with time := { d1.time with loseSync := true } }.flag TIM.INJ_ARM true
    else d1.flag TIM.INJ_ARM true
  else d.answer .discarded

/-- TIM_INJ (R357). -/
def execTimInj (value : Nat) (s : State) : Host.Outcome State Fault Refusal :=
  run s fun _ d => d.at .x fun d => d.timInjWrite value

end Sys2Proof.Machine
end

