-- ==== Sys2Proof/Machine/Net.lean ====
section
/-!
DEFINITION. Ethernet ports: reception, per-stream filtering, recovery, MACsec, gates, shapers and transmission (chapter 10).
-/

namespace Sys2Proof.Machine

/-- Port `p` is enabled. -/
def Dev.portEn (d : Dev) (p : Nat) : Bool := bit (d.fld ETH.CTRL_EN) p

/-- Port `p` is enabled and has a link. -/
def Dev.portUp (d : Dev) (p : Nat) : Bool := d.portEn p && d.on (ETH.P_STAT_LINK p) && d.reach .x

/-- The cause of ETH_LINK_DOWN follows EN and the link (R355). -/
def Dev.linkCause (d : Dev) (p : Nat) : Dev :=
  if d.portEn p && !d.on (ETH.P_STAT_LINK p) then d.raiseCause .x (416 + p) else d.cause (416 + p) false

/-- Preemption is in use on a port only with its link up and EN 1; it needs no exchange where VERIFY is 0 (R327). -/
def Dev.preActive (d : Dev) (p : Nat) : Dev :=
  if !(d.portEn p && d.on (ETH.P_STAT_LINK p) && d.on (ETH.P_PRE_EN p)) then d.flag (ETH.P_STAT_PRE_ACTIVE p) false
  else if d.on (ETH.P_PRE_VERIFY p) then d
  else d.flag (ETH.P_STAT_PRE_ACTIVE p) true

/-- A port's link goes up or down; `speed` is coded as ETH_P_STAT.SPEED (R319, R355). -/
def Dev.linkChange (d : Dev) (p : Nat) (up : Bool) (speed : Nat) : Dev :=
  let cfg := d.fld (ETH.P_CFG_SPEED p)
  let d1 := (d.flag (ETH.P_STAT_LINK p) up).put (ETH.P_STAT_SPEED p) (if !up then 0 else if cfg = 0 then speed else cfg)
  (d1.preActive p).linkCause p

/-- ETH_LINK_CHANGE (R355). -/
def execEthLinkChange (port : Nat) (up : Bool) (speed : Nat) (s : State) : Host.Outcome State Fault Refusal :=
  run s fun _ d => if port < 2 then d.linkChange port up speed else d

/-- Port rate in kbit/s for a speed code. -/
def rateKbps (code : Nat) : Nat := match code with | 1 => 2500000 | 2 => 5000000 | _ => 10000000

def Dev.rate (d : Dev) (p : Nat) : Nat := rateKbps (d.fld (ETH.P_STAT_SPEED p))

/-! Reception. -/

/-- SCI of receive channel `n` of port `p`. -/
def Dev.rxSci (d : Dev) (p n : Nat) : Nat :=
  d.fld (ETH.P_MS_RX_SCI_LO_SCI p n) + 4294967296 * d.fld (ETH.P_MS_RX_SCI_HI_SCI p n)

def Dev.sa (d : Dev) (p k : Nat) : Option Sa := tabGet none d.net.sas (key2 p k)

def Dev.putSa (d : Dev) (p k : Nat) (x : Sa) : Dev :=
  { d with net := { d.net with sas := tabSet none d.net.sas (key2 p k) (some x) } }

/-- A frame is dropped by MACsec: counted, and the first in a tick raises ETH_MACSEC_FAIL (R333). -/
def Dev.macsecDrop (d : Dev) (p : Nat) (icv : Bool) : Dev :=
  let d1 := d.count (if icv then ETH.P_MS_CNT_ICV_FAIL p else ETH.P_MS_CNT_DROP p) 1
  if tabGet false d1.net.macsecRaised p then d1
  else { d1 with net := { d1.net with macsecRaised := tabSet false d1.net.macsecRaised p true } }.raise .x (420 + p)

/-- The secure channel that a SecTAG names. -/
def Dev.rxChannel (d : Dev) (p sci : Nat) : Option Nat :=
  (List.range (d.fld (ETH.P_MS_CTRL_RX_SC p))).find? (fun n => d.rxSci p n == sci)

/-- MACsec on a received frame: none where it is dropped (R333). -/
def Dev.macsecIn (d : Dev) (p : Nat) (f : RxFrame) : Bool × Dev :=
  if !d.on (ETH.P_MS_CTRL_EN p) || f.etherType = 35063 || f.etherType = 34958 then (true, d)
  else
    match f.sec with
    | none => (false, d.macsecDrop p false)
    | some (sci, an, pn, icv) =>
      match d.rxChannel p sci with
      | none => (false, d.macsecDrop p false)
      | some n =>
        match d.sa p (4 + 4 * n + an % 4) with
        | none => (false, d.macsecDrop p false)
        | some x =>
          let low := max x.pn (x.high + 1 - d.fld (ETH.P_MS_REPLAY_WINDOW p))
          if pn < low then (false, d.macsecDrop p false)
          else if !icv then (false, d.macsecDrop p true)
          else (true, d.putSa p (4 + 4 * n + an % 4) { x with high := max x.high pn })

/-- MAC address of stream filter `f`. -/
def Dev.sfMac (d : Dev) (f : Nat) : Nat := d.fld (ETH.SF_ID_LO_MAC f) + 4294967296 * d.fld (ETH.SF_ID_HI_MAC f)

/-- An untagged frame other than gPTP, ARP and neighbour discovery is taken as PCP 0 on VLAN ETH_IP_CFG.VID (R322). -/
def Dev.classify (d : Dev) (x : RxFrame) : RxFrame :=
  if x.vid.isSome || x.etherType = 35063 || x.etherType = 2054 || x.kind = .neighbour || x.kind = .pdelayReq then x
  else { x with vid := some (d.fld ETH.IP_CFG_VID), pcp := 0 }

/-- The lowest-numbered filter that matches (R328). -/
def Dev.matchFilter (d : Dev) (x : RxFrame) : Option Nat :=
  (List.range 64).find? (fun f => d.on (ETH.SF_ID_HI_EN f) && x.vid == some (d.fld (ETH.SF_ID_HI_VID f))
    && d.sfMac f == (if d.on (ETH.SF_ID_HI_MODE f) then x.src else x.dst))

/-- Flow meter `m` on a frame of `len` bytes: 0 green, 1 yellow, 2 red (R329); tokens are kept in 1/600 000 bit, full at the start. -/
def Dev.meter (d : Dev) (m len : Nat) : Nat × Dev :=
  let capC := d.fld (ETH.FM_CBS_CBS m) * 4800000
  let capE := d.fld (ETH.FM_EBS_EBS m) * 4800000
  let (c0, e0, t0) := (tabGet none d.net.meters m).getD (capC, capE, d.now)
  let c := min capC (c0 + d.fld (ETH.FM_CIR_CIR m) * (d.now - t0))
  let e := min capE (e0 + d.fld (ETH.FM_EIR_EIR m) * (d.now - t0))
  let cost := len * 4800000
  let (colour, c1, e1) := if cost ≤ c then (0, c - cost, e) else if cost ≤ e then (1, c, e - cost) else (2, c, e)
  (colour, { d with net := { d.net with meters := tabSet none d.net.meters m (some (c1, e1, d.now)) } })

/-- The frame belongs to an enabled AVTP listener stream. -/
def Dev.listenerFrame (d : Dev) (x : RxFrame) : Bool :=
  match x.stream with
  | none => false
  | some id => (List.range 16).any (fun l => bit (d.fld AVT.CTRL_LIST_EN) l
      && d.fld (AVT.L_ID_LO_ID l) + 4294967296 * d.fld (AVT.L_ID_HI_ID l) == id)

/-- A stream filter drops a frame (R328, R329). -/
def Dev.filterDrop (d : Dev) (f : Nat) (x : RxFrame) : Dev :=
  let d1 := d.count (ETH.SF_DROP_COUNT f) 1
  if d.listenerFrame x then d1.raise .x 422 else d1

/-- Filter `f` on a frame; false where it is dropped (R328, R329). -/
def Dev.filterFrame (d : Dev) (f : Nat) (x : RxFrame) : Bool × Dev :=
  if !d.on (ETH.SF_ACT_GATE_OPEN f) || d.fld (ETH.SF_ACT_MAXSDU f) < x.sdu then (false, d.filterDrop f x)
  else if d.on (ETH.SF_ACT_METER_EN f) then
    let m := d.fld (ETH.SF_ACT_METER f)
    let (colour, d1) := d.meter m x.len
    if colour = 2 || (colour = 1 && d1.on (ETH.FM_CIR_DROP_YELLOW m)) then (false, d1.filterDrop f x) else (true, d1)
  else (true, d)

def Dev.putHist (d : Dev) (r : Nat) (x : Option CbHist) : Dev :=
  { d with net := { d.net with hist := tabSet none d.net.hist r x } }

/-- Recovery function `r` on a sequence number (R332): the vector recovery algorithm with its history of HIST_M1 + 1 numbers. -/
def Dev.recover (d : Dev) (r : Nat) (x : RxFrame) : Bool × Dev :=
  match x.rtag with
  | none => (true, d.count (ETH.CBR_PASSED_COUNT r) 1)
  | some q =>
    let h := d.fld (ETH.CBR_CFG_HIST_M1 r) + 1
    match tabGet none d.net.hist r with
    | none => (true, (d.putHist r (some ⟨q % 65536, [0], 1, d.now⟩)).count (ETH.CBR_PASSED_COUNT r) 1)
    | some c =>
      let delta := signedOf 16 ((q + 65536 - c.recv) % 65536)
      if delta ≤ -(h : Int) || (h : Int) ≤ delta then (false, d.count (ETH.CBR_DISCARD_COUNT r) 1)
      else if delta ≤ 0 then
        let back := (-delta).toNat
        if c.seen.contains back then (false, d.count (ETH.CBR_DISCARD_COUNT r) 1)
        else (true, (d.putHist r (some { c with seen := back :: c.seen, valid := max c.valid (back + 1), at_ := d.now })).count
          (ETH.CBR_PASSED_COUNT r) 1)
      else
        let n := delta.toNat
        let gone := (List.range n).filter (fun k => h ≤ k + h && decide (h - n + k < c.valid) && !c.seen.contains (h - n + k))
        let seen := 0 :: (c.seen.map (· + n)).filter (· < h)
        let d1 := (d.putHist r (some ⟨q % 65536, seen, min h (c.valid + n), d.now⟩)).count (ETH.CBR_PASSED_COUNT r) 1
        (true, if gone = [] then d1 else (d1.count (ETH.CBR_LOST_COUNT r) gone.length).raise .x 423)

/-- The recovery functions of the stream that filter `f` identifies, in order (R332). -/
def Dev.recoverAll (d : Dev) (f : Nat) (x : RxFrame) : Bool × Dev :=
  (List.range 32).foldl (fun a r =>
    if a.1 && a.2.on (ETH.CBR_CFG_EN r) && a.2.fld (ETH.CBR_CFG_SF r) == f then a.2.recover r x else a) (true, d)

/-- CB_RECOVERY_TIMEOUT (R332): the history resets after its timeout without an accepted frame. -/
def execCbRecoveryTimeout (recovery : Nat) (s : State) : Host.Outcome State Fault Refusal :=
  run s fun _ d =>
    match tabGet none d.net.hist recovery with
    | some c =>
      if d.on (ETH.CBR_CFG_EN recovery) && c.at_ + msCycles (d.fld (ETH.CBR_CFG_TIMEOUT recovery)) ≤ d.now then
        d.putHist recovery none
      else d
    | none => d

/-! Queues and the answers of R321. -/

/-- Gate states in force (R325): all open while EN is 0 or no list is operational. -/
def Dev.gatesOf (d : Dev) (p : Nat) : Nat :=
  if d.on (ETH.P_GATE_CTRL_EN p) && d.fld (ETH.P_GATE_STAT_OPER_LEN p) != 0 then tabGet 255 d.net.gates p else 255

/-- hiCredit of shaper `j` (R326), in 1/600 000 bit: idleSlope for as long as a frame of MAXFRM bytes and, where the other shaper's queue is of a
higher class, that queue at its own hiCredit and one frame of it hold the port. -/
def Dev.hiCredit (d : Dev) (p j : Nat) : Nat :=
  let frame := d.fld (ETH.P_CFG_MAXFRM p) * 4800000
  let idle := d.fld (ETH.P_CBS_IDLE_KBPS p j)
  let other := 1 - j
  if d.on (ETH.P_CBS_EN p other) && d.fld (ETH.P_CBS_QUEUE p j) < d.fld (ETH.P_CBS_QUEUE p other) then
    frame * idle / max 1 (d.rate p - d.fld (ETH.P_CBS_IDLE_KBPS p other)) + frame * idle / d.rate p
  else frame * idle / d.rate p

/-- Credit of shaper `j` brought up to the present (R326), in 1/600 000 bit: it rises by idleSlope while its queue waits or the credit
is negative, and is frozen while its gate is closed. -/
def Dev.creditUpdate (p : Nat) (d : Dev) (j : Nat) : Dev :=
  let k := key2 p j
  let q := d.fld (ETH.P_CBS_QUEUE p j)
  let idle := d.fld (ETH.P_CBS_IDLE_KBPS p j)
  let dt := d.now - tabGet 0 d.net.creditAt k
  let c := tabGet 0 d.net.credit k
  let waiting := tabGet [] d.net.queues (key2 p q) != []
  let hi : Int := ((d.hiCredit p j : Nat) : Int)
  let up := c + ((idle * dt : Nat) : Int)
  let c1 : Int := if !bit (d.gatesOf p) q then c else if waiting then min hi up else if c < 0 then min 0 up else 0
  { d with net := { d.net with credit := tabSet 0 d.net.credit k c1, creditAt := tabSet 0 d.net.creditAt k (max d.now (tabGet 0 d.net.creditAt k)) } }

/-- Bring both shapers of a port up to the present. -/
def Dev.credits (d : Dev) (p : Nat) : Dev := (d.creditUpdate p 0).creditUpdate p 1

/-- Queue a frame in a traffic class of a port; its shaper's credit is first brought up to the present (R326). -/
def Dev.enqueue (d : Dev) (p cls : Nat) (f : TxFrame) : Dev :=
  let d1 := d.credits p
  { d1 with net := { d1.net with queues := tabUpd [] d1.net.queues (key2 p cls) (· ++ [f]) } }

/-- Length of a tagged frame with `n` bytes after its EtherType, from destination address to FCS (R320, R322, R333). -/
def Dev.frameLen (d : Dev) (p n : Nat) : Nat := max 64 (n + 22 + (if d.on (ETH.P_MS_CTRL_EN p) then 32 else 0))

/-- The tag of command traffic (R322). -/
def Dev.cmdTag (d : Dev) : Option (Nat × Nat) := some (d.fld ETH.IP_CFG_VID, d.fld ETH.IP_CFG_PCP)

/-- A gPTP message: untagged, in class 7, by the uncontrolled port (R322, R333). The spec gives no more of its content than its name. -/
def gptpFrame (len : Nat) : TxFrame :=
  { bytes := [], len := len, statusAt := none, plain := true, late := false, rtag := none, tag := none, dst := none, ip := none }

/-- The port carries an enabled PTP instance (R343). -/
def Dev.carriesPtp (d : Dev) (p : Nat) : Bool :=
  [0, 1].any (fun i => d.on (TIM.PTP_CFG_EN i) && d.fld (TIM.PTP_CFG_PORT i) == p)

/-- A Pdelay request is answered, with its follow-up, on a port that carries an instance (R343). -/
def Dev.pdelayAnswer (d : Dev) (p : Nat) (x : RxFrame) : Dev :=
  if x.kind = .pdelayReq && d.carriesPtp p then (d.enqueue p 7 (gptpFrame 72)).enqueue p 7 (gptpFrame 72) else d

/-- A received frame (R320, R328 to R333). -/
def Dev.frameIn (d : Dev) (p : Nat) (frame : RxFrame) : Dev :=
  let x := d.classify frame
  if !x.fcsOk || x.len < 64 || d.fld (ETH.P_CFG_MAXFRM p) < x.len then d.count (ETH.P_RX_ERR_COUNT p) 1
  else
    let (ok1, d1) := (d.count (ETH.P_RX_FRAMES_COUNT p) 1).macsecIn p x
    if !ok1 then d1
    else
      let (ok2, d2) := match d1.matchFilter x with
        | none => (true, d1)
        | some f =>
          let (ok, e) := d1.filterFrame f x
          if ok then e.recoverAll f x else (false, e)
      if ok2 then ({ d2 with net := { d2.net with received := some x } }).pdelayAnswer p x else d2

/-- ETH_FRAME_RECEIVED (R320). -/
def execEthFrameReceived (port : Nat) (frame : RxFrame) (s : State) : Host.Outcome State Fault Refusal :=
  run s fun _ d => if port < 2 && d.portUp port then d.frameIn port frame else d

/-- The port's MAC address. -/
def Dev.mac (d : Dev) (p : Nat) : Nat := d.fld (ETH.P_MAC_LO_MAC p) + 4294967296 * d.fld (ETH.P_MAC_HI_MAC p)

/-- The device's IPv6 address. -/
def Dev.ip6 (d : Dev) : Nat :=
  ((d.fld (ETH.IP6_ADDR 0) * 4294967296 + d.fld (ETH.IP6_ADDR 1)) * 4294967296 + d.fld (ETH.IP6_ADDR 2)) * 4294967296
    + d.fld (ETH.IP6_ADDR 3)

/-- The device holds the address. -/
def Dev.ownAddr (d : Dev) (v6 : Bool) (a : Nat) : Bool := a != 0 && a == (if v6 then d.ip6 else d.fld ETH.IP4_ADDR)

/-- NEIGHBOUR_SOLICITATION (R321): the answer carries the port's MAC address. -/
def execNeighbourSolicitation (port : Nat) (ipv6 : Bool) (target : Nat) (s : State) : Host.Outcome State Fault Refusal :=
  run s fun _ d =>
    if port < 2 && d.portUp port && d.ownAddr ipv6 target then
      d.enqueue port (d.fld ETH.IP_CFG_PCP)
        { bytes := beBytes 6 (d.mac port), len := d.frameLen port (if ipv6 then 72 else 28),
          statusAt := none, plain := false, late := false, rtag := none, tag := d.cmdTag, dst := none, ip := none }
    else d

/-- ECHO_REQUEST (R321): answered with its own data where ICMP_EN is 1. -/
def execEchoRequest (port : Nat) (ipv6 : Bool) (target : Nat) (body : List Byte) (s : State) :
    Host.Outcome State Fault Refusal :=
  run s fun _ d =>
    if port < 2 && d.portUp port && d.on ETH.IP_CFG_ICMP_EN && d.ownAddr ipv6 target then
      d.enqueue port (d.fld ETH.IP_CFG_PCP)
        { bytes := body, len := d.frameLen port (body.length + (if ipv6 then 48 else 28)),
          statusAt := none, plain := false, late := false, rtag := none, tag := d.cmdTag, dst := none, ip := none }
    else d

/-! Gate control lists (R323 to R325). -/

/-- The time base of a port's gates, in ns. -/
def Dev.gateNow (d : Dev) (tb : Nat) : Int := tmNs (d.tb tb).val

/-- The administrative list. -/
def Dev.adminList (d : Dev) (p : Nat) : List (Nat × Nat) :=
  (List.range (d.fld (ETH.P_GATE_CTRL_ADMIN_LEN p))).map (fun i =>
    (d.fld (ETH.P_GCL_GATES_GATES p i), d.fld (ETH.P_GCL_INT_INTERVAL p i)))

/-- Cut or extend a list by its last entry to fill the cycle (R325). -/
def fitList : List (Nat × Nat) → Nat → List (Nat × Nat)
  | [], _ => []
  | [(g, _)], left => [(g, left)]
  | (g, t) :: rest, left => if left ≤ t then [(g, left)] else (g, t) :: fitList rest (left - t)

/-- BASE of a port in ns. -/
def Dev.gateBase (d : Dev) (p : Nat) : Nat :=
  (d.fld (ETH.P_GATE_BASE_SEC_LO_SEC p) + 4294967296 * d.fld (ETH.P_GATE_BASE_SEC_HI_SEC p)) * 1000000000
    + d.fld (ETH.P_GATE_BASE_NS_NS p)

/-- The first cycle start at or after the present time plus 10 us (R324). -/
def Dev.gateStart (d : Dev) (p : Nat) : Int :=
  let cycle := d.fld (ETH.P_GATE_CYCLE_CYCLE p)
  let t := (d.gateNow (d.fld (ETH.P_GATE_CTRL_TBSEL p))).toNat + 10000
  let base := d.gateBase p
  ((if t ≤ base then base else base + (t - base + cycle - 1) / cycle * cycle : Nat) : Int)

/-- A write of GO (R324, R325). -/
def Dev.gateGo (d : Dev) (p : Nat) : Dev :=
  let n := d.fld (ETH.P_GATE_CTRL_ADMIN_LEN p)
  let cycle := d.fld (ETH.P_GATE_CYCLE_CYCLE p)
  if n = 0 || 256 < n || cycle < 1000 || 1000000000 < cycle then
    ((d.flag (ETH.P_GATE_STAT_ERR p) true).raise .x (418 + p)).answer .done
  else
    let d1 := { d with net := { d.net with change := tabSet none d.net.change p (some (d.gateStart p)) } }
    ((d1.flag (ETH.P_GATE_STAT_ERR p) false).flag (ETH.P_GATE_STAT_PENDING p) true).answer .done

/-- GATE_CONTROL_GO (R324). -/
def execGateControlGo (port : Nat) (s : State) : Host.Outcome State Fault Refusal :=
  run s fun _ d => d.at .x fun d => if port < 2 then d.gateGo port else d

/-- Put the entry at an index in force. -/
def Dev.gateEntry (d : Dev) (p : Nat) (l : GateList) : Dev :=
  let g := (l.entries.getD l.index (255, 0)).1
  { d with net := { d.net with oper := tabSet .none d.net.oper p l, gates := tabSet 255 d.net.gates p g } }

/-- A pending change applies at its cycle start (R324). -/
def Dev.gateAdopt (d : Dev) (p : Nat) : Dev :=
  match tabGet none d.net.change p with
  | none => d
  | some t =>
    let tb := d.fld (ETH.P_GATE_CTRL_TBSEL p)
    if t ≤ d.gateNow tb then
      let cycle := d.fld (ETH.P_GATE_CYCLE_CYCLE p)
      let l : GateList := ⟨fitList (d.adminList p) cycle, cycle, t, tb, 0⟩
      let d1 := (d.credits p).gateEntry p l
      let d2 := { d1 with net := { d1.net with change := tabSet none d1.net.change p none } }
      (d2.flag (ETH.P_GATE_STAT_PENDING p) false).put (ETH.P_GATE_STAT_OPER_LEN p) l.entries.length
    else d

/-- GATE_LIST_ADOPT (R325). -/
def execGateListAdopt (port : Nat) (s : State) : Host.Outcome State Fault Refusal :=
  run s fun _ d => if port < 2 then d.gateAdopt port else d

/-- End of the entry in force, in ns of the list's time base. -/
def gateEnd (l : GateList) : Int := l.base + (((l.entries.take (l.index + 1)).foldl (fun a e => a + e.2) 0 : Nat) : Int)

/-- The interval of the entry in force ends and the next entry takes effect (R323). -/
def Dev.gateNext (d : Dev) (p : Nat) : Dev :=
  let l := tabGet .none d.net.oper p
  if l.entries = [] || d.gateNow l.tb < gateEnd l then d
  else
    let l1 := if l.index + 1 < l.entries.length then { l with index := l.index + 1 }
      else { l with index := 0, base := l.base + (l.cycle : Int) }
    (d.credits p).gateEntry p l1

/-- GATE_ENTRY_INTERVAL_END (R323). -/
def execGateEntryIntervalEnd (port : Nat) (s : State) : Host.Outcome State Fault Refusal :=
  run s fun _ d => if port < 2 && d.reach .x then d.gateNext port else d

/-- PREEMPTION_VERIFY (R327): preemption is used after a successful exchange, or at once where VERIFY is 0. -/
def execPreemptionVerify (port : Nat) (ok : Bool) (s : State) : Host.Outcome State Fault Refusal :=
  run s fun _ d =>
    if port < 2 && d.portUp port && d.on (ETH.P_PRE_EN port) then
      d.flag (ETH.P_STAT_PRE_ACTIVE port) (ok || !d.on (ETH.P_PRE_VERIFY port))
    else d

/-! MACsec keys (R334). -/

def Dev.keyReg (d : Dev) (p i : Nat) : Nat := tabGet 0 d.net.keyReg (key2 p i)

/-- Write a key register: 0 to 7 key, 8 to 10 salt, 11 SSCI, 12 and 13 PN. -/
def Dev.putKeyReg (d : Dev) (p i v : Nat) : Dev :=
  { d with net := { d.net with keyReg := tabSet 0 d.net.keyReg (key2 p i) (v % 4294967296) } }

/-- A write of GO installs SA KSEL and clears the key registers. -/
def Dev.macsecInstall (d : Dev) (p : Nat) : Dev :=
  let k := tabGet 0 d.net.keySel p
  let pn := d.keyReg p 12 + 4294967296 * d.keyReg p 13
  let sa : Sa := ⟨(List.range 8).map (d.keyReg p), (List.range 3).map (fun i => d.keyReg p (8 + i)), d.keyReg p 11, pn, 0⟩
  let d1 := (List.range 14).foldl (fun d i => d.putKeyReg p i 0) (d.putSa p k sa)
  (d1.put (ETH.P_MS_SA_STAT_VALID p) (d1.fld (ETH.P_MS_SA_STAT_VALID p) ||| 2 ^ k)).answer .done

/-- MACSEC_INSTALL (R334). -/
def execMacsecInstall (port : Nat) (s : State) : Host.Outcome State Fault Refusal :=
  run s fun _ d => d.at .x fun d => if port < 2 then d.macsecInstall port else d

/-- A write of TX_AN: the switch takes effect at the next frame boundary (R334). -/
def Dev.txAnWrite (d : Dev) (p an : Nat) : Dev := (d.put (ETH.P_MS_CTRL_TX_AN p) an).answer .done

/-- TX_AN_SELECT (R334). -/
def execTxAnSelect (port an : Nat) (s : State) : Host.Outcome State Fault Refusal :=
  run s fun _ d => d.at .x fun d => if port < 2 then d.txAnWrite port an else d

/-! Transmission. -/

/-- Length of a command frame that carries `n` bytes of UDP payload: headers, VLAN tag, R-TAG and MACsec (R320, R375). -/
def Dev.cmdFrameLen (d : Dev) (p n : Nat) (v6 : Bool) : Nat :=
  n + 8 + (if v6 then 40 else 20) + 22 + (if d.on ETH.CB_CTRL_CMD_GEN then 6 else 0) + (if d.on (ETH.P_MS_CTRL_EN p) then 32 else 0)

/-- The ports that a message leaves on: both under CMD_GEN; else a status destination's PORTS, and for sessions the first enabled port (R330,
R375). -/
def Dev.msgPorts (d : Dev) (m : Msg) : List Nat :=
  let want := if d.on ETH.CB_CTRL_CMD_GEN then 3
    else if m.opcode = 14 && m.session = 0 then d.fld (ETH.SD_CFG_PORTS m.dest)
    else if d.portEn 0 then 1 else 2
  [0, 1].filter (fun p => bit want p && d.portEn p)

/-- Address and UDP port of a message's receiver (R359, R375): a status destination, an open session's peer, or that of a handshake. -/
def Dev.msgPeer (d : Dev) (m : Msg) (status : Bool) : Option (Nat × Nat) :=
  if status then
    let w (i : Nat) : Nat := d.fld (ETH.SD_ADDR_ADDR m.dest i)
    some (if d.on (ETH.SD_CFG_IPV6 m.dest) then w 3 + 2 ^ 32 * w 2 + 2 ^ 64 * w 1 + 2 ^ 96 * w 0 else w 0, d.fld (ETH.SD_CFG_UDP_PORT m.dest))
  else some m.peer

/-- Queue packet `i` of a message: at most 1 344 bytes, with the 32-byte header and the 16-byte tag (R360, R362). With CMD_GEN it leaves on its
ports with one R-TAG sequence number (R330). -/
def Dev.sendPacket (m : Msg) (d : Dev) (i : Nat) : Dev :=
  let status := m.opcode = 14 && m.session = 0
  let cls := if status then 7 else d.fld ETH.IP_CFG_PCP
  let v6 := status && d.on (ETH.SD_CFG_IPV6 m.dest)
  let body := slice m.payload (1344 * i) 1344
  let gen := d.on ETH.CB_CTRL_CMD_GEN
  let mac := if status then some (d.fld (ETH.SD_MAC_LO_MAC m.dest) + 4294967296 * d.fld (ETH.SD_MAC_HI_MAC m.dest)) else none
  let tag := if status then some (d.fld (ETH.SD_MAC_HI_VID m.dest), 7) else d.cmdTag
  let d1 := (d.msgPorts m).foldl (fun d p =>
    d.enqueue p cls
        { bytes := body, len := d.cmdFrameLen p (body.length + 48) v6, statusAt := if status then some m.at_ else none,
          plain := false, late := false, rtag := if gen then some d.net.cmdSeq else none, tag := tag, dst := mac, ip := d.msgPeer m status }) d
  if gen then { d1 with net := { d1.net with cmdSeq := (d1.net.cmdSeq + 1) % 65536 } } else d1

/-- Queue the packets of a message. -/
def Dev.sendMsg (d : Dev) (m : Msg) : Dev :=
  (List.range (if m.payload.length = 0 then 1 else (m.payload.length + 1343) / 1344)).foldl (Dev.sendPacket m) d

/-- Bring the command engine's messages to the ports' queues, oldest first (R376: status packets of the lost X-die are not sent). -/
def Dev.drainOutbox (d : Dev) : Dev :=
  if !d.reach .x then d
  else d.cmd.outbox.foldl Dev.sendMsg { d with cmd := { d.cmd with outbox := [] } }

/-- Time in ns for which a list that starts with the first of `entries` keeps the gate of a class open; none: it does not close. -/
def openRun (entries : List (Nat × Nat)) (cls : Nat) : Option Nat :=
  if entries.all (fun e => bit e.1 cls) then none
  else some ((entries.takeWhile (fun e => bit e.1 cls)).foldl (fun a e => a + e.2) 0)

/-- Time in ns for which the operational list keeps the gate of a class open from now on; none: it does not close. -/
def Dev.operOpen (d : Dev) (p cls : Nat) : Option Int :=
  if d.fld (ETH.P_GATE_STAT_OPER_LEN p) = 0 then none
  else
    let l := tabGet .none d.net.oper p
    let order := (l.entries.drop (l.index + 1)) ++ l.entries.take (l.index + 1)
    (openRun order cls).map (fun (more : Nat) => gateEnd l - d.gateNow l.tb + (more : Int))

/-- Time in ns for which the gate of a class stays open from now on, a pending change included (R323, R324); none: it does not close. -/
def Dev.openFor (d : Dev) (p cls : Nat) : Option Int :=
  if !d.on (ETH.P_GATE_CTRL_EN p) then none
  else
    match tabGet none d.net.change p with
    | none => d.operOpen p cls
    | some t =>
      let left := t - d.gateNow (d.fld (ETH.P_GATE_CTRL_TBSEL p))
      match d.operOpen p cls with
      | some x => if x < left then some x else (openRun (fitList (d.adminList p) (d.fld (ETH.P_GATE_CYCLE_CYCLE p))) cls).map (fun (m : Nat) => left + (m : Int))
      | none => (openRun (fitList (d.adminList p) (d.fld (ETH.P_GATE_CYCLE_CYCLE p))) cls).map (fun (m : Nat) => left + (m : Int))

/-- Time on the wire in ns of a frame with its preamble. -/
def Dev.wireNs (d : Dev) (p len : Nat) : Nat := (len + 8) * 8 * 1000000 / d.rate p

/-- The shaper of a class, if one is enabled (R326). -/
def Dev.shaperOf (d : Dev) (p cls : Nat) : Option Nat :=
  [0, 1].find? (fun j => d.on (ETH.P_CBS_EN p j) && d.fld (ETH.P_CBS_QUEUE p j) == cls)

/-- A class may send its first frame (R323, R326). -/
def Dev.mayStart (d : Dev) (p cls : Nat) : Bool :=
  match tabGet [] d.net.queues (key2 p cls) with
  | [] => false
  | f :: _ =>
    bit (d.gatesOf p) cls
      && (match d.openFor p cls with | none => true | some t => decide ((d.wireNs p f.len : Int) ≤ t))
      && (match d.shaperOf p cls with | none => true | some j => decide (0 ≤ tabGet 0 d.net.credit (key2 p j)))

/-- The transmit SA of a port takes one packet number; false where it cannot send (R333, R334). -/
def Dev.macsecOut (d : Dev) (p : Nat) (f : TxFrame) : Bool × Dev :=
  if f.plain || !d.on (ETH.P_MS_CTRL_EN p) then (true, d)
  else
    let an := d.fld (ETH.P_MS_CTRL_TX_AN p)
    let switched := tabGet 0 d.net.txAn p != an
    let d1 := { d with net := { d.net with txAn := tabSet 0 d.net.txAn p an } }
    let stopped := tabGet false d1.net.txStopped p && !switched
    match d1.sa p an with
    | none => (false, d1)
    | some x =>
      if 18446744069414584320 ≤ x.pn then
        (false, if stopped then d1 else { d1 with net := { d1.net with txStopped := tabSet false d1.net.txStopped p true } }.raise .x (420 + p))
      else
        let d2 := d1.putSa p an { x with pn := x.pn + 1 }
        (true, { d2 with net := { d2.net with txStopped := tabSet false d2.net.txStopped p false } })

/-- A frame leaves (R323): its shaper pays at sendSlope for its time on the wire, in which idleSlope gives no more (R326); a status message gives its latency (R337). -/
def Dev.frameLeaves (d : Dev) (p cls : Nat) (f : TxFrame) : Dev :=
  let d1 := d.count (ETH.P_TX_FRAMES_COUNT p) 1
  let d2 := match d1.shaperOf p cls with
    | none => d1
    | some j =>
      let idle := d1.fld (ETH.P_CBS_IDLE_KBPS p j)
      let cost := f.len * 4800000 * (d1.rate p - idle) / d1.rate p
      let lo : Int := -((d1.fld (ETH.P_CFG_MAXFRM p) * 4800000 * (d1.rate p - idle) / d1.rate p : Nat) : Int)
      let k := key2 p j
      { d1 with net := { d1.net with
        credit := tabSet 0 d1.net.credit k (max lo (tabGet 0 d1.net.credit k - (cost : Int))),
        creditAt := tabSet 0 d1.net.creditAt k (d1.now + f.len * 4800000 / d1.rate p) } }
  match f.statusAt with
  | none => d2
  | some t =>
    let us := (d.now - t) / 600
    if d2.fld ETH.STATUS_STAT_MAXLAT < us then d2.put ETH.STATUS_STAT_MAXLAT (min us 65535) else d2

/-- A Pdelay request is queued once a second on each port that carries an instance (R343). -/
def Dev.pdelayRequest (d : Dev) (p : Nat) : Dev :=
  let due := match tabGet none d.net.pdelayAt p with
    | none => true
    | some t => decide (t + sCycles 1 ≤ d.now)
  if d.carriesPtp p && due then
    ({ d with net := { d.net with pdelayAt := tabSet none d.net.pdelayAt p (some d.now) } }).enqueue p 7 (gptpFrame 72)
  else d

/-- The next frame of a port is sent (R323): the highest class that may start, once MACsec can protect it. -/
def Dev.transmit (d0 : Dev) (p : Nat) : Dev :=
  let d := (d0.drainOutbox.pdelayRequest p).credits p
  match [7, 6, 5, 4, 3, 2, 1, 0].find? (d.mayStart p) with
  | none => d
  | some cls =>
    match tabGet [] d.net.queues (key2 p cls) with
    | [] => d
    | f :: rest =>
      let (ok, d1) := d.macsecOut p f
      if ok then
        ({ d1 with net := { d1.net with queues := tabSet [] d1.net.queues (key2 p cls) rest } }).frameLeaves p cls f
      else d1

/-- ETH_FRAME_TRANSMIT (R323). -/
def execEthFrameTransmit (port : Nat) (s : State) : Host.Outcome State Fault Refusal :=
  run s fun _ d => if port < 2 && d.portUp port then d.transmit port else d

/-! Safety status on the network. -/

/-- A trigger held by ETH_CMD_INJ mode 2 is queued after 250 us (R379). -/
def Dev.releaseHeld (d : Dev) : Dev :=
  match d.cmd.held with
  | some (t, trig) =>
    if t ≤ d.now then ({ d with cmd := { d.cmd with held := none } }).sendStatus trig else d
  | none => d

/-- SAFETY_STATUS_TIMER (R376): every 1 ms while RUN is 0. -/
def execSafetyStatusTimer (s : State) : Host.Outcome State Fault Refusal :=
  run s fun _ d =>
    let d1 := d.releaseHeld
    if !d1.running && d1.cmd.statusAt + msCycles 1 ≤ d1.now then d1.sendStatus 0 else d1

/-- A status message has not left 200 us after its trigger (R337). -/
def lateFrame (now : Nat) (f : TxFrame) : Bool :=
  match f.statusAt with
  | some t => !f.late && decide (t + usCycles 200 < now)
  | none => false

/-- ETH_STATUS_LATE (R337): the message is still sent. -/
def execEthStatusLate (port : Nat) (s : State) : Host.Outcome State Fault Refusal :=
  run s fun _ d0 =>
    if port < 2 && d0.portUp port then
      let d := d0.drainOutbox
      let q := tabGet [] d.net.queues (key2 port 7)
      let n := (q.filter (lateFrame d.now)).length
      if n = 0 then d
      else
        let q1 := q.map (fun f => if lateFrame d.now f then { f with late := true } else f)
        let oldest := q.foldl (fun a f => match f.statusAt with | some t => max a ((d.now - t) / 600) | none => a) 0
        let d1 := { d with net := { d.net with queues := tabSet [] d.net.queues (key2 port 7) q1 } }
        let d2 := (d1.count ETH.STATUS_STAT_LATE n).put ETH.STATUS_STAT_MAXLAT
          (min 65535 (max oldest (d1.fld ETH.STATUS_STAT_MAXLAT)))
        d2.raise .x 424
    else d0

/-- A write of ETH_CMD_INJ (Table 11.6). -/
def Dev.ethCmdInjWrite (d : Dev) (v : Nat) : Dev :=
  let mode := bitsAt v 1 0
  if injTaken (d.on ETH.CMD_INJ_ARM) v (mode == 1 || mode == 2) then
    ((d.put ETH.CMD_INJ_MODE mode).flag ETH.CMD_INJ_ARM (bit v 31)).answer .done
  else d.answer .discarded

/-- ETH_CMD_INJ (R379). -/
def execEthCmdInj (value : Nat) (s : State) : Host.Outcome State Fault Refusal :=
  run s fun _ d => d.at .x fun d => d.ethCmdInjWrite value

end Sys2Proof.Machine
end

