-- ==== Sys2Proof/Machine/Num.lean ====
section
/-!
DEFINITION. Exact binary numbers, the element formats of Tables 03.6 and 05.2 (R77, R149, R150, R268), directed rounding to FP32
significands (R86), and the secret and implementation-fixed values of the checks as constants without a body (log entries 6 and 10).
-/

namespace Sys2Proof.Machine

/-- The number m · 2^e. -/
structure Dy where
  m : Int
  e : Int
  deriving DecidableEq, Repr

def Dy.zero : Dy := ⟨0, 0⟩

def Dy.ofInt (x : Int) : Dy := ⟨x, 0⟩

def Dy.add (a b : Dy) : Dy :=
  let e := min a.e b.e
  ⟨a.m * 2 ^ (a.e - e).toNat + b.m * 2 ^ (b.e - e).toNat, e⟩

def Dy.neg (a : Dy) : Dy := ⟨-a.m, a.e⟩

def Dy.sub (a b : Dy) : Dy := a.add b.neg

def Dy.mul (a b : Dy) : Dy := ⟨a.m * b.m, a.e + b.e⟩

def Dy.abs (a : Dy) : Dy := ⟨a.m.natAbs, a.e⟩

/-- a ≤ b. -/
def Dy.le (a b : Dy) : Bool := decide ((a.sub b).m ≤ 0)

/-- a < b. -/
def Dy.lt (a b : Dy) : Bool := decide ((a.sub b).m < 0)

/-- Number of significant bits. -/
def bitLen (n : Nat) : Nat := if n = 0 then 0 else Nat.log2 n + 1

/-- Ceiling of a quotient. -/
def cdiv (a b : Nat) : Nat := (a + b - 1) / b

/-- Directed rounding to a 24-bit significand, upward or downward (R86). -/
def Dy.round (up : Bool) (a : Dy) : Dy :=
  let n := bitLen a.m.natAbs
  if n ≤ 24 then a
  else
    let q : Int := 2 ^ (n - 24)
    ⟨if up then -((-a.m) / q) else a.m / q, a.e + ((n - 24 : Nat) : Int)⟩

/-- The least number with a 24-bit significand not below p / q (R84). -/
def Dy.roundUpRat (p q : Nat) : Dy :=
  if p = 0 || q = 0 then .zero
  else
    let k : Int := 25 + (bitLen q : Int) - (bitLen p : Int)
    let m : Nat := if 0 ≤ k then cdiv (p * 2 ^ k.toNat) q else cdiv p (q * 2 ^ (-k).toNat)
    (⟨m, -k⟩ : Dy).round true

/-- Largest FP32 magnitude. -/
def fp32Max : Dy := ⟨16777215, 104⟩

/-- The number is within the FP32 range. -/
def Dy.inFp32 (a : Dy) : Bool := a.abs.le fp32Max

/-! Formats (Table 03.6). -/

/-- Bytes of a format's unit (R268). -/
def fmtBytes (f : Nat) : Nat :=
  match f with
  | 3 => 4 | 6 => 2 | 7 => 2 | 8 => 4 | 9 => 33 | 10 => 33 | 11 => 25 | 12 => 25 | 13 => 17 | 14 => 33 | _ => 1

/-- Elements of a format's unit. -/
def fmtElems (f : Nat) : Nat := if f = 2 then 2 else if 9 ≤ f then 32 else 1

/-- Bytes that n elements take on the link. -/
def fmtSize (f n : Nat) : Nat := cdiv n (fmtElems f) * fmtBytes f

/-- n of the unit roundoff u = 2^-n of a float format. -/
def fmtU (f : Nat) : Nat := match f with | 4 => 4 | 5 => 3 | 6 => 8 | 7 => 11 | _ => 24

/-- n of the smallest positive subnormal 2^-n of a float format. -/
def fmtEps (f : Nat) : Nat := match f with | 4 => 9 | 5 => 16 | 6 => 133 | 7 => 24 | _ => 149

/-- A float format of codes 4 to 8. -/
def isFloatFmt (f : Nat) : Bool := 4 ≤ f && f ≤ 8

/-- A finite float with `eb` exponent and `mb` fraction bits. -/
def floatFinite (eb mb bias v : Nat) : Dy :=
  let f := v % 2 ^ mb
  let e := v / 2 ^ mb % 2 ^ eb
  let mag : Int := if e = 0 then f else 2 ^ mb + f
  let ex : Int := (if e = 0 then 1 else (e : Int)) - (bias : Int) - (mb : Int)
  ⟨if bit v (eb + mb) then -mag else mag, ex⟩

/-- A float whose largest exponent encodes infinities and NaN; none: not finite. -/
def floatIeee (eb mb bias v : Nat) : Option Dy :=
  if v / 2 ^ mb % 2 ^ eb = 2 ^ eb - 1 then none else some (floatFinite eb mb bias v)

/-- FP8 E4M3: only S.1111.111 is NaN (R150). -/
def floatE4M3 (v : Nat) : Option Dy := if v % 128 = 127 then none else some (floatFinite 4 3 7 v)

/-- The value of an FP32 word; none: not finite. -/
def fp32 (v : Nat) : Option Dy := floatIeee 8 23 127 v

/-- Element `i` of the elements of an MX block held in the bytes after its scale. -/
def mxElem (f : Nat) (body : List Byte) (i : Nat) : Option Dy :=
  match f with
  | 9 => floatE4M3 (leAt body i 1)
  | 10 => floatIeee 5 2 15 (leAt body i 1)
  | 11 => some (floatFinite 2 3 1 (leAt body (3 * (i / 4)) 3 / 2 ^ (6 * (i % 4)) % 64))
  | 12 => some (floatFinite 3 2 3 (leAt body (3 * (i / 4)) 3 / 2 ^ (6 * (i % 4)) % 64))
  | 13 => some (floatFinite 2 1 1 (leAt body (i / 2) 1 / 2 ^ (4 * (i % 2)) % 16))
  | _ => some ⟨signedOf 8 (leAt body i 1), -6⟩

/-- The elements of one unit; none for an element that is not finite. -/
def unitElems (f : Nat) (u : List Byte) : List (Option Dy) :=
  match f with
  | 0 => [some (.ofInt (signedOf 8 (leNat u)))]
  | 1 => [some (.ofInt (leNat u))]
  | 2 => [some (.ofInt (signedOf 4 (leNat u))), some (.ofInt (signedOf 4 (leNat u / 16)))]
  | 3 => [some (.ofInt (signedOf 32 (leNat u)))]
  | 4 => [floatE4M3 (leNat u)]
  | 5 => [floatIeee 5 2 15 (leNat u)]
  | 6 => [floatIeee 8 7 127 (leNat u)]
  | 7 => [floatIeee 5 10 15 (leNat u)]
  | 8 => [fp32 (leNat u)]
  | _ =>
    let s := leAt u 0 1
    (List.range 32).map (fun i =>
      if s = 255 then none else (mxElem f (u.drop 1) i).map (fun d => ⟨d.m, d.e + (s : Int) - 127⟩))

/-- The elements that bytes of a slot spell, from a unit boundary on. -/
def decodeUnits (f : Nat) : Nat → List Byte → List (Option Dy)
  | 0, _ => []
  | n + 1, bs => unitElems f (bs.take (fmtBytes f)) ++ decodeUnits f n (bs.drop (fmtBytes f))

/-- All elements of a payload whose length is a multiple of the unit. -/
def decodeSlot (f : Nat) (bs : List Byte) : List (Option Dy) := decodeUnits f (bs.length / fmtBytes f) bs

/-- Round an exact number to an integer, to nearest even. -/
def Dy.nearest (a : Dy) : Int :=
  if 0 ≤ a.e then a.m * 2 ^ a.e.toNat
  else
    let q : Int := 2 ^ (-a.e).toNat
    let f := a.m / q
    let r := 2 * (a.m % q)
    if r < q then f else if q < r then f + 1 else if f % 2 = 0 then f else f + 1

/-- An FP32 output sample as a 32-bit sample: round(y · 2^31), to nearest even, saturated (R307); a NaN gives 0 and an infinity saturates. -/
def fp32Sample (v : Nat) : Int :=
  match fp32 v with
  | some d => clampInt (-2147483648) 2147483647 (Dy.nearest ⟨d.m, d.e + 31⟩)
  | none => if v % 8388608 = 0 then (if bit v 31 then -2147483648 else 2147483647) else 0

/-- The spacing of a format at |y|: the smallest subnormal at 0 (R132). -/
def fmtSpacing (f : Nat) (y : Dy) : Dy :=
  if y.m = 0 then ⟨1, -((fmtEps f : Nat) : Int)⟩
  else
    let top : Int := y.e + (bitLen y.m.natAbs : Int) - 1
    let low : Int := -((fmtEps f : Nat) : Int)
    let ulp : Int := top - ((fmtU f : Nat) : Int) + 1
    ⟨1, max ulp low⟩

end Sys2Proof.Machine
end

