-- ==== Sys2Proof/Machine/Real.lean ====
section
/-!
DEFINITION. Real functions that the spec names, to 2^-300 or better: fixed-point numbers of 320 fraction bits held as integers, for the twiddles of
the DFT (Table 05.5), the references of R166 and the measure BAND_LSD of R136 (log entry 104).
-/

namespace Sys2Proof.Machine

/-- 1 as a fixed-point number. -/
def fxOne : Int := 2 ^ 320

def fxMul (a b : Int) : Int := a * b / fxOne

def fxDiv (a b : Int) : Int := a * fxOne / b

/-- A number as a fixed-point number. -/
def Dy.fx (d : Dy) : Int := if 0 ≤ d.e + 320 then d.m * 2 ^ (d.e + 320).toNat else d.m / 2 ^ (-(d.e + 320)).toNat

/-- A fixed-point number as a number. -/
def fxDy (x : Int) : Dy := ⟨x, -320⟩

/-- π, rounded down. -/
def fxPi : Int :=
  6710401180212168915155840974220003240804194089427148950727106424351713218671805380099500388914039

/-- Newton's steps to the integer square root of `n`, downward from `x`. -/
def sqrtSteps (n : Nat) : Nat → Nat → Nat
  | 0, x => x
  | k + 1, x =>
    let y := (x + n / x) / 2
    if y < x then sqrtSteps n k y else x

/-- The integer square root. -/
def natSqrt (n : Nat) : Nat := if n = 0 then 0 else sqrtSteps n 64 (2 ^ (bitLen n / 2 + 1))

def fxSqrt (x : Int) : Int := natSqrt (x * fxOne).toNat

/-- `n` more terms of the exponential series at `z`, from the term `t` of degree `k`. -/
def expSeries (z : Int) : Nat → Nat → Int → Int
  | 0, _, _ => 0
  | n + 1, k, t => t + expSeries z n (k + 1) (fxMul t z / ((k + 1 : Nat) : Int))

/-- e^-y for y ≥ 0. -/
def fxExpNeg (y : Int) : Int :=
  if 256 * fxOne < y then 0
  else (List.range 8).foldl (fun x _ => fxMul x x) (expSeries (-(y / 256)) 90 0 fxOne)

/-- `n` bits of log2 of a number in [1, 2), each of weight `w` and down. -/
def log2Bits : Nat → Int → Int → Int
  | 0, _, _ => 0
  | n + 1, x, w =>
    let y := fxMul x x
    if 2 * fxOne ≤ y then w + log2Bits n (y / 2) (w / 2) else log2Bits n y (w / 2)

/-- log2 of a positive number. -/
def Dy.log2 (d : Dy) : Int :=
  let n := bitLen d.m.natAbs
  (d.e + (n : Int) - 1) * fxOne + log2Bits 300 (d.m * 2 ^ 320 / 2 ^ (n - 1)) (fxOne / 2)

/-- log2 of 10. -/
def fxLog2Ten : Int := (Dy.ofInt 10).log2

/-- `n` more terms of the cosine series at an angle of square `x2`, from the term `t` of degree `k`. -/
def cosSeries (x2 : Int) : Nat → Nat → Int → Int
  | 0, _, _ => 0
  | n + 1, k, t => t + cosSeries x2 n (k + 2) (-(fxMul t x2) / (((k + 1) * (k + 2) : Nat) : Int))

/-- cos(2π · num / den). -/
def cosTurn (num den : Nat) : Int :=
  let t := 4 * (num % den)
  if t % den = 0 then (if t = 0 then fxOne else if t = 2 * den then -fxOne else 0)
  else
    let x := 2 * fxPi * ((num % den : Nat) : Int) / (den : Int)
    cosSeries (fxMul x x) 70 0 fxOne

/-- sin(2π · num / den). -/
def sinTurn (num den : Nat) : Int := -(cosTurn (4 * (num % den) + den) (4 * den))

/-- `n` more terms of the series of erf at `z`, without its factor 2/√π, from z^(2k+1)/k! with its sign. -/
def erfSeries (z2 : Int) : Nat → Nat → Int → Int
  | 0, _, _ => 0
  | n + 1, k, t => t / ((2 * k + 1 : Nat) : Int) + erfSeries z2 n (k + 1) (-(fxMul t z2) / ((k + 1 : Nat) : Int))

/-- erf(z) for |z| < 8. -/
def fxErf (z : Int) : Int := fxDiv (2 * erfSeries (fxMul z z) 400 0 z) (fxSqrt fxPi)

/-- The logistic function. -/
def fxSigmoid (x : Int) : Int :=
  if x < 0 then let e := fxExpNeg (-x); fxDiv e (fxOne + e) else fxDiv fxOne (fxOne + fxExpNeg x)

def fxTanh (x : Int) : Int :=
  let e := fxExpNeg (2 * (x.natAbs : Int))
  let t := fxDiv (fxOne - e) (fxOne + e)
  if x < 0 then -t else t

/-- FUNC codes 1 to 5 of Table 04.8; beyond ±64, and ±8 for the GELU forms, their asymptotes. -/
def funcReal (f : Nat) (d : Dy) : Int :=
  let x := d.fx
  let far (n : Int) : Bool := n * fxOne < (x.natAbs : Int)
  match f with
  | 1 => if far 8 then max x 0 else fxMul x ((fxOne + fxErf (fxDiv x (fxSqrt (2 * fxOne)))) / 2)
  | 2 =>
    if far 8 then max x 0
    else
      let y := fxMul (fxSqrt (fxDiv (2 * fxOne) fxPi)) (x + fxMul (fxMul x x) x * 44715 / 1000000)
      fxMul x ((fxOne + fxTanh y) / 2)
  | 3 => if far 64 then max x 0 else fxMul x (fxSigmoid x)
  | 4 => if far 64 then (if x < 0 then 0 else fxOne) else fxSigmoid x
  | _ => if far 64 then (if x < 0 then -fxOne else fxOne) else fxTanh x

/-- The error that Table 05.9 allows a function besides 2 ulp. -/
def funcError (f : Nat) : Int := match f with | 3 => fxOne / 1000000 | 4 => 2 * fxOne / 10000000 | _ => 16 * fxOne / 10000000

/-- The bound of Table 05.9 on a function whose value is `y`. -/
def funcBound (f : Nat) (y : Int) : Int := funcError f + 2 * (fmtSpacing 8 (if y = 0 then .zero else fxDy y)).fx

/-- The normalised element `i` of a row (Table 05.5, NORM), before gain and offset; none where it divides by no positive number. -/
def normReal (rms : Bool) (row : List Dy) (eps : Dy) (i : Nat) : Option Int :=
  let e0 := row.foldl (fun e x => min e x.e) 0
  let xs : List Int := row.map (fun x => x.m * 2 ^ (x.e - e0).toNat)
  let v : Int := (row.length : Int)
  let s := if rms then 0 else xs.foldl (· + ·) 0
  let dev (x : Int) : Int := if rms then x else v * x - s
  let q := xs.foldl (fun a x => a + dev x * dev x) 0
  let e := min (2 * e0) eps.e
  let den := q * 2 ^ (2 * e0 - e).toNat + eps.m * (if rms then v else v * v * v) * 2 ^ (eps.e - e).toNat
  let d := dev (xs.getD i 0)
  let num := d * d * v * 2 ^ (2 * e0 - e).toNat
  if den ≤ 0 then none
  else
    let t : Int := natSqrt (num * 2 ^ 640 / den).toNat
    some (if d < 0 then -t else t)

/-- Element `i` of the softmax of a row. -/
def softReal (row : List Dy) (i : Nat) : Int :=
  let top := row.foldl (fun m x => if m.lt x then x else m) (row.headD .zero)
  let ex (x : Dy) : Int := fxExpNeg (top.sub x).fx
  fxDiv (ex (row.getD i .zero)) (row.foldl (fun a x => a + ex x) 0)

/-- BAND_LSD in dB (R136) of two frames of length `n`, with the last bins of the bands; none where a band has no power. The spec does not say
whether the Hann window is periodic or symmetric (log entry 104). -/
def bandLsd (n : Nat) (edges : List Nat) (floor : Dy) (a h : List Dy) : Option Int :=
  let turns := (List.range n).map (fun j => (cosTurn j n, sinTurn j n))
  let hann := (List.range n).map (fun j => (fxOne - cosTurn j (if Config.hannSymmetric then max 1 (n - 1) else n)) / 2)
  let power (x : List Dy) (k : Nat) : Int :=
    let w := (List.range n).map (fun j => fxMul (hann.getD j 0) (x.getD j .zero).fx)
    let sum (f : Int × Int → Int) : Int := (List.range n).foldl (fun s j => s + fxMul (w.getD j 0) (f (turns.getD (j * k % n) (0, 0)))) 0
    let re := sum Prod.fst
    let im := sum Prod.snd
    (fxMul re re + fxMul im im) / ((n * n : Nat) : Int)
  let band (b : Nat) : Option Int :=
    let lo := if b = 0 then 1 else edges.getD (b - 1) 0 + 1
    let bins := (List.range (edges.getD b 0 + 1 - lo)).map (· + lo)
    let p (x : List Dy) : Int := max ((bins.map (power x)).foldl (· + ·) 0) (floor.fx * (bins.length : Int))
    if p a ≤ 0 || p h ≤ 0 then none
    else
      let l := fxDiv (10 * ((fxDy (p a)).log2 - (fxDy (p h)).log2)) fxLog2Ten
      some (fxMul l l)
  let bs := (List.range edges.length).map band
  if bs.any (·.isNone) then none else some (fxSqrt ((bs.filterMap id).foldl (· + ·) 0 / ((max 1 edges.length : Nat) : Int)))

end Sys2Proof.Machine
end

