-- ==== Sys2Proof/Machine/Arith.lean ====
section
/-!
DEFINITION. The array's arithmetic on elements (chapter 5): special values and zeros with a sign (R150, R152), rounding to the formats of Table 03.6
(R153), sums within the bound of R154, integer sums that saturate (R151), requantisation (R174) and piecewise-linear tables (R175). A result that
the spec leaves open is taken from a free word that the caller gives (log entries 11, 101 and 102).
-/

namespace Sys2Proof.Machine

/-- A float value: `fin` holds a number other than 0. -/
inductive Fl where
  | zero (neg : Bool)
  | fin (d : Dy)
  | inf (neg : Bool)
  | nan
  deriving DecidableEq, Repr

/-- A number as a float value; 0 is positive. -/
def Fl.ofDy (d : Dy) : Fl := if d.m = 0 then .zero false else .fin d

def Fl.ofInt (x : Int) : Fl := .ofDy (.ofInt x)

/-- The number of a finite value. -/
def Fl.num : Fl → Option Dy
  | .zero _ => some .zero
  | .fin d => some d
  | _ => none

def Fl.isNan : Fl → Bool
  | .nan => true
  | _ => false

def Fl.isInf : Fl → Bool
  | .inf _ => true
  | _ => false

def Fl.isZero : Fl → Bool
  | .zero _ => true
  | _ => false

/-- The sign of a value; a NaN has none. -/
def Fl.neg : Fl → Bool
  | .zero n => n
  | .fin d => d.m < 0
  | .inf n => n
  | .nan => false

def Fl.opposite : Fl → Fl
  | .zero n => .zero (!n)
  | .fin d => .fin d.neg
  | .inf n => .inf (!n)
  | .nan => .nan

def Fl.abs (x : Fl) : Fl := if x.neg then x.opposite else x

/-- a ≤ b; false where either is a NaN. -/
def Fl.le : Fl → Fl → Bool
  | .nan, _ => false
  | _, .nan => false
  | .inf true, _ => true
  | _, .inf false => true
  | .inf false, _ => false
  | _, .inf true => false
  | a, b => ((a.num).getD .zero).le ((b.num).getD .zero)

/-! Decoding (R149, R150). -/

/-- A float of `eb` exponent and `mb` fraction bits with infinities and NaN as IEEE 754 has them. -/
def Fl.ieee (eb mb bias v : Nat) : Fl :=
  let s := bit v (eb + mb)
  if v / 2 ^ mb % 2 ^ eb = 2 ^ eb - 1 then (if v % 2 ^ mb = 0 then .inf s else .nan)
  else if v % 2 ^ (eb + mb) = 0 then .zero s else .fin (floatFinite eb mb bias v)

/-- FP8 E4M3: no infinity; S.1111.111 is NaN. -/
def Fl.e4m3 (v : Nat) : Fl :=
  if v % 128 = 127 then .nan else if v % 128 = 0 then .zero (bit v 7) else .fin (floatFinite 4 3 7 v)

/-- The value of an FP32 word. -/
def Fl.word (v : Nat) : Fl := .ieee 8 23 127 v

/-- The value of the bits of one element of a format that is not MX. -/
def Fl.ofBits (fmt v : Nat) : Fl :=
  match fmt with
  | 0 => .ofInt (signedOf 8 v)
  | 1 => .ofInt ((v % 256 : Nat) : Int)
  | 2 => .ofInt (signedOf 4 v)
  | 3 => .ofInt (signedOf 32 v)
  | 4 => .e4m3 v
  | 5 => .ieee 5 2 15 v
  | 6 => .ieee 8 7 127 v
  | 7 => .ieee 5 10 15 v
  | _ => .word v

/-- Bits of one element in memory (Table 05.2). -/
def elemBits (fmt : Nat) : Nat :=
  match fmt with | 2 => 4 | 3 => 32 | 6 => 16 | 7 => 16 | 8 => 32 | 11 => 6 | 12 => 6 | 13 => 4 | _ => 8

/-- Bytes of the elements of a tensor, before the scales of an MX tensor. -/
def elemBytes (fmt total : Nat) : Nat := cdiv (total * elemBits fmt) 8

/-- Offset of the scale bytes of an MX tensor of `total` elements: the first 64-byte boundary after the elements (R149), counted from the start of
the tensor (DESIGN CHOICE, log entry 113). -/
def scaleOff (fmt total : Nat) : Nat := cdiv (elemBytes fmt total) 64 * 64

/-- The scaled value of an element of an MX block. -/
def Fl.scaled (s : Nat) (x : Fl) : Fl :=
  if s = 255 then .nan
  else match x with
    | .fin d => .fin ⟨d.m, d.e + (s : Int) - 127⟩
    | _ => x

/-- The value of the bits of an MX element, before its scale. -/
def Fl.mxBits (fmt v : Nat) : Fl :=
  match fmt with
  | 9 => .e4m3 v
  | 10 => .ieee 5 2 15 v
  | 11 => if v % 32 = 0 then .zero (bit v 5) else .fin (floatFinite 2 3 1 v)
  | 12 => if v % 32 = 0 then .zero (bit v 5) else .fin (floatFinite 3 2 3 v)
  | 13 => if v % 8 = 0 then .zero (bit v 3) else .fin (floatFinite 2 1 1 v)
  | _ => .ofDy ⟨signedOf 8 v, -6⟩

/-- The bits of element `n` of the bytes of a tensor (Table 05.2). -/
def elemAt (bs : List Byte) (fmt n : Nat) : Nat :=
  match elemBits fmt with
  | 4 => leAt bs (n / 2) 1 / 16 ^ (n % 2) % 16
  | 6 => leAt bs (n / 4 * 3) 3 / 64 ^ (n % 4) % 64
  | b => leAt bs (n * (b / 8)) (b / 8)

/-- Element `n` of a tensor of `total` elements. -/
def Fl.at (bs : List Byte) (fmt total n : Nat) : Fl :=
  if 9 ≤ fmt then (Fl.mxBits fmt (elemAt bs fmt n)).scaled (leAt bs (scaleOff fmt total + n / 32) 1)
  else Fl.ofBits fmt (elemAt bs fmt n)

/-! Rounding (R152, R153). -/

/-- m / q rounded to an integer: 0 to nearest even, 1 upward, 2 downward. -/
def roundDiv (mode : Nat) (m q : Int) : Int :=
  let f := m / q
  let r := m % q
  if r = 0 then f
  else match mode with
    | 1 => f + 1
    | 2 => f
    | _ => if 2 * r < q then f else if q < 2 * r then f + 1 else if f % 2 = 0 then f else f + 1

/-- A number rounded to an integer. -/
def Dy.toInt (mode : Nat) (d : Dy) : Int := if 0 ≤ d.e then d.m * 2 ^ d.e.toNat else roundDiv mode d.m (2 ^ (-d.e).toNat)

/-- A number rounded to the precision of a float format, its range upward unbounded. -/
def Dy.toFmt (fmt mode : Nat) (d : Dy) : Dy :=
  let e := max (d.e + (bitLen d.m.natAbs : Int) - ((fmtU fmt : Nat) : Int)) (-((fmtEps fmt : Nat) : Int))
  if e ≤ d.e then d else ⟨roundDiv mode d.m (2 ^ (e - d.e).toNat), e⟩

/-- The largest finite value of a float format. -/
def fmtMax (fmt : Nat) : Dy :=
  match fmt with | 4 => ⟨7, 6⟩ | 5 => ⟨7, 13⟩ | 6 => ⟨255, 120⟩ | 7 => ⟨2047, 5⟩ | _ => fp32Max

/-- A value rounded to a float format, and whether it overflowed: to the largest finite value where `sat`, else to infinity, or NaN in E4M3. -/
def Fl.toFmt (fmt mode : Nat) (sat : Bool) (x : Fl) : Fl × Bool :=
  match x with
  | .fin d =>
    let r := d.toFmt fmt mode
    if r.m = 0 then (.zero (d.m < 0), false)
    else if r.abs.le (fmtMax fmt) then (.fin r, false)
    else (if sat then .fin (if d.m < 0 then (fmtMax fmt).neg else fmtMax fmt) else if fmt = 4 then .nan else .inf (d.m < 0), true)
  | .inf n => (if fmt = 4 then .nan else .inf n, false)
  | _ => (x, false)

/-- A value as FP32, to nearest even. -/
def Fl.f32 (x : Fl) : Fl := (x.toFmt 8 0 false).1

/-- Fraction bits of a float format. -/
def fmtMant (fmt : Nat) : Nat := fmtU fmt - 1

/-- Exponent bits of a float format. -/
def fmtExp (fmt : Nat) : Nat := match fmt with | 4 => 4 | 5 => 5 | 7 => 5 | _ => 8

/-- m · 2^k, cut to an integer. -/
def shiftNat (m : Nat) (k : Int) : Nat := if 0 ≤ k then m * 2 ^ k.toNat else m / 2 ^ (-k).toNat

/-- The bits of a value of a float format. The NaN is the canonical one in FP32; in the other formats its sign and fraction are free. -/
def Fl.bits (fmt free : Nat) (x : Fl) : Nat :=
  let mb := fmtMant fmt
  let eb := fmtExp fmt
  let sign (n : Bool) : Nat := if n then 2 ^ (eb + mb) else 0
  match x with
  | .zero n => sign n
  | .inf n => sign n + (2 ^ eb - 1) * 2 ^ mb
  | .nan =>
    if fmt = 8 then 0x7FC00000
    else sign (bit free 31) + (2 ^ eb - 1) * 2 ^ mb + (if fmt = 4 then 7 else max 1 (free % 2 ^ mb))
  | .fin d =>
    let n := bitLen d.m.natAbs
    let top := d.e + (n : Int) - 1
    let low := ((mb : Nat) : Int) - ((fmtEps fmt : Nat) : Int)
    sign (d.m < 0) + (if top < low then shiftNat d.m.natAbs (d.e + ((fmtEps fmt : Nat) : Int))
      else (top - low).toNat * 2 ^ mb + shiftNat d.m.natAbs ((mb : Int) - (n : Int) + 1))

/-! Elementary steps: each gives the value in FP32 and the exceptions it sets, in the layout of MTX_EXC (SAT 8, OVF 4, INV 2, NONFINITE 1). -/

/-- 0 times an infinity (R152). -/
def Fl.mulBad (a b : Fl) : Bool := (a.isZero && b.isInf) || (a.isInf && b.isZero)

/-- The exact product. -/
def Fl.mulX (a b : Fl) : Fl :=
  if a.isNan || b.isNan || a.mulBad b then .nan
  else if a.isInf || b.isInf then .inf (a.neg != b.neg)
  else match a, b with
    | .fin x, .fin y => .fin (x.mul y)
    | _, _ => .zero (a.neg != b.neg)

/-- Infinities of both signs (R152). -/
def sumBad (l : List Fl) : Bool := l.any (· == .inf false) && l.any (· == .inf true)

/-- The exact sum of values; a zero sum is negative only where all terms are negative zeros. -/
def Fl.sumX (l : List Fl) : Fl :=
  if l.any (·.isNan) || sumBad l then .nan
  else match l.find? (·.isInf) with
    | some x => x
    | none =>
      let s := l.foldl (fun a x => a.add ((x.num).getD .zero)) Dy.zero
      if s.m = 0 then .zero (l != [] && l.all (· == .zero true)) else .fin s

/-- One product. -/
def mul32 (a b : Fl) : Fl × Nat := ((a.mulX b).f32, if a.mulBad b then 2 else 0)

/-- One sum. -/
def add32 (a b : Fl) : Fl × Nat :=
  let (r, o) := (Fl.sumX [a, b]).toFmt 8 0 false
  (r, (if sumBad [a, b] then 2 else 0) + (if o then 4 else 0))

/-- a · x + b with one rounding (R175). -/
def fma32 (a x b : Fl) : Fl × Nat :=
  let p := a.mulX x
  let (r, o) := (Fl.sumX [p, b]).toFmt 8 0 false
  (r, (if a.mulBad x || sumBad [p, b] then 2 else 0) + (if o then 4 else 0))

/-! Sums (R151 to R154). -/

/-- A number with an odd significand. -/
def Dy.reduce (d : Dy) : Dy :=
  let g := Nat.gcd d.m.natAbs (2 ^ bitLen d.m.natAbs)
  if g = 0 then d else ⟨d.m / (g : Int), d.e + (Nat.log2 g : Int)⟩

/-- The number is an FP32 value. -/
def Dy.isFp32 (d : Dy) : Bool :=
  let r := d.reduce
  bitLen r.m.natAbs ≤ 24 && -149 ≤ r.e && r.inFp32

/-- Every order of adding gives the same sum: no partial sum rounds, or there is only one addition that does. -/
def orderFree (l : List Dy) : Bool :=
  let r := l.map Dy.reduce
  let e := r.foldl (fun e d => min e d.e) (((r.head?).map Dy.e).getD 0)
  let total := r.foldl (fun s d => s.add d.abs) Dy.zero
  (total.le ⟨16777216, e⟩ && -149 ≤ e && total.inFp32) || l.length ≤ 1 || (l.length == 2 && l.all Dy.isFp32)

/-- The bound of R154 on an FP32 sum of `n` terms: |c − s| ≤ γ_n(2^−24) · Σ|terms| + n · 2^−150. -/
def sumBound (n : Nat) (s total c : Dy) : Bool :=
  let k := 16777216 - (n : Int)
  ((c.sub s).abs.mul (.ofInt k)).le ((total.mul (.ofInt n)).add ⟨k * (n : Int), -150⟩)

/-- The FP32 sum of terms (R152): the value that every order of adding gives, where there is one; else a free word within the bound of R154. -/
def sum32 (free : Nat) (terms : List Fl) : Fl × Nat :=
  let ds := terms.filterMap (fun x => match x with | .fin d => some d | _ => none)
  match Fl.sumX terms with
  | .fin s =>
    let (r, o) := (Fl.fin s).toFmt 8 0 false
    let total := ds.foldl (fun a d => a.add d.abs) Dy.zero
    let c := Fl.word (free % 4294967296)
    if orderFree ds then (r, if o then 4 else 0)
    else if ((c.num).map (sumBound terms.length s total)).getD false then (c, 0)
    else (r, if o then 4 else 0)
  | .zero n =>
    let total := ds.foldl (fun a d => a.add d.abs) Dy.zero
    let c := Fl.word (free % 4294967296)
    if n then (.zero (bit free 31), 0)
    else if orderFree ds then (.zero false, 0)
    else if ((c.num).map (sumBound terms.length .zero total)).getD false then (c, 0)
    else (.zero false, 0)
  | x => (x, if sumBad terms then 2 else 0)

/-- The FP32 sum of magnitudes with every addition rounded upward (R163): the exact sum where no partial sum rounds; else a free word that is not
below it, within the bound that R154 becomes for the spacing of a directed rounding. -/
def sumUp32 (free : Nat) (l : List Dy) : Fl :=
  let s := l.foldl (fun a d => a.add d.abs) Dy.zero
  let up := ((Fl.ofDy s).toFmt 8 1 false).1
  let k := 8388608 - (l.length : Int)
  match (Fl.word (free % 4294967296)).num with
  | some c =>
    if !orderFree l && s.le c && ((c.sub s).mul (.ofInt k)).le ((s.mul (.ofInt (l.length : Int))).add ⟨k * (l.length : Int), -149⟩)
    then Fl.word (free % 4294967296) else up
  | none => up

/-- The sum of the products of one output element (R152): for MX operands the 32 products of one pair of blocks are one term. -/
def productTerms (mx : Bool) (l : List (Fl × Fl)) : List Fl :=
  let p := l.map (fun x => x.1.mulX x.2)
  if mx then (List.range (cdiv p.length 32)).map (fun b => Fl.sumX ((p.drop (32 * b)).take 32)) else p

/-- An invalid product, or an invalid sum within a pair of blocks. -/
def productsBad (mx : Bool) (l : List (Fl × Fl)) : Bool :=
  let p := l.map (fun x => x.1.mulX x.2)
  l.any (fun x => x.1.mulBad x.2) || (mx && (List.range (cdiv p.length 32)).any (fun b => sumBad ((p.drop (32 * b)).take 32)))

/-- One addition held in `w` bits: the sum and whether it saturates (R151). -/
def satSum (w : Nat) (a b : Int) : Int × Bool :=
  let hi : Int := 2 ^ (w - 1) - 1
  let lo : Int := -(2 ^ (w - 1))
  (clampInt lo hi (a + b), decide (a + b < lo) || decide (hi < a + b))

/-- Additions of a list, two of its terms at a time in the order that a free number picks, and whether one of them saturates. -/
def sumPicked (w : Nat) : Nat → Nat → List Int → Int × Bool
  | 0, _, l => (l.headD 0, false)
  | fuel + 1, free, l =>
    let n := l.length
    if n ≤ 1 then (l.headD 0, false)
    else
      let rest := l.eraseIdx (free % n)
      let f := free / n
      let s := satSum w (l.getD (free % n) 0) (rest.getD (f % (n - 1)) 0)
      let r := sumPicked w fuel (f / (n - 1)) (s.1 :: rest.eraseIdx (f % (n - 1)))
      (r.1, s.2 || r.2)

/-- A sum of integers whose partial sums are held in `w` bits, and whether one set SAT (R151, R155). Where terms of both signs leave the range in
some order, the order of the additions is free. -/
def sumInt (w free : Nat) (l : List Int) : Int × Nat :=
  let hi : Int := 2 ^ (w - 1) - 1
  let lo : Int := -(2 ^ (w - 1))
  let pos := l.foldl (fun a x => a + max x 0) 0
  let neg := l.foldl (fun a x => a + min x 0) 0
  let s := pos + neg
  if pos ≤ hi && lo ≤ neg then (s, 0)
  else if neg = 0 || pos = 0 then (clampInt lo hi s, 8)
  else
    let r := sumPicked w l.length free l
    (r.1, if r.2 then 8 else 0)

/-! Output conversion (R153). -/

/-- Range of an integer format. -/
def intRange (fmt : Nat) : Int × Int :=
  match fmt with | 0 => (-128, 127) | 1 => (0, 255) | 2 => (-8, 7) | _ => (-2147483648, 2147483647)

/-- The bits of a result in an output format, and NONFINITE. What the spec gives no conversion for is free: a NaN to an integer, and MX formats. -/
def outBits (fmt mode : Nat) (sat : Bool) (free : Nat) (x : Fl) : Nat × Nat :=
  if fmt ≤ 3 then
    let w := elemBits fmt
    let r := intRange fmt
    match x with
    | .nan => (free % 2 ^ w, 0)
    | .inf n => (ofSigned w (if n then r.1 else r.2), 0)
    | _ => (ofSigned w (clampInt r.1 r.2 (((x.num).getD .zero).toInt mode)), 0)
  else if 9 ≤ fmt then (free % 2 ^ elemBits fmt, 0)
  else
    let y := (x.toFmt fmt mode sat).1
    (y.bits fmt free, if y.isNan || y.isInf then 1 else 0)

/-- Elements packed as Table 05.2 states. -/
def packElems (fmt : Nat) (l : List Nat) : List Byte :=
  leBytes (elemBytes fmt l.length) ((l.foldr (fun v a => v % 2 ^ elemBits fmt + 2 ^ elemBits fmt * a) 0))

/-! Requantisation (R174). -/

/-- Round p / 2^n with a rounding mode of R174. -/
def reqRound (mode : Nat) (p : Int) (n : Nat) : Int :=
  let q : Int := 2 ^ n
  let f := p / q
  let r := 2 * (p % q)
  if r < q then f
  else if q < r then f + 1
  else match mode with
    | 0 => if p < 0 then f else f + 1
    | 1 => if f % 2 = 0 then f else f + 1
    | _ => f + 1

/-- The requantised value of an accumulator (R174) by a 16-byte record. -/
def requant (rec_ : List Byte) (acc : Int) : Int :=
  let y := reqRound (leAt rec_ 5 1) (acc * signedOf 32 (leAt rec_ 0 4)) (31 + leAt rec_ 4 1)
  clampInt (signedOf 16 (leAt rec_ 8 2)) (signedOf 16 (leAt rec_ 10 2)) (y + signedOf 16 (leAt rec_ 6 2))

/-! Tolerances (R132). -/

/-- The difference of two numbers rounded downward, and its allowance rounded upward. -/
def tolSides (absW relW ulp fmt : Nat) (a b : Dy) : Dy × Dy :=
  (((a.sub b).abs).round false,
   (((fp32 absW).getD .zero).add ((((fp32 relW).getD .zero).mul b.abs).add ((Dy.ofInt ulp).mul (fmtSpacing fmt b)))).round true)

/-- The test of R132: cause 10 or 11 where the element fails. -/
def tolFail (absW relW ulp fmt : Nat) (seen ref : Option Dy) : Option Nat :=
  match seen, ref with
  | some a, some b => let x := tolSides absW relW ulp fmt a b; if x.1.le x.2 then none else some 10
  | _, _ => some 11

/-! Functions. -/

/-- A number as significand and exponent words, for the constants of Config. -/
def dyKey (x : Option Dy) : Nat :=
  match x with
  | none => 0
  | some d => 1 + 2 * (d.m.natAbs * 65536 + (d.e + 32768).toNat) + (if d.m < 0 then 1 else 0)

/-- ⌊a / b⌋ for a positive b. -/
def Dy.floorDiv (a b : Dy) : Int :=
  let e := min a.e b.e
  (a.m * 2 ^ (a.e - e).toNat) / (b.m * 2 ^ (b.e - e).toNat)

/-- A piecewise-linear table at x (R175); a free word where the bytes hold no table. -/
def pwl (t : List Byte) (free : Nat) (x : Fl) : Fl × Nat :=
  let segs := leAt t 8 2
  let at_ (i : Int) : Fl × Nat :=
    let j := 16 + 8 * (clampInt 0 ((segs : Int) - 1) i).toNat
    fma32 (Fl.word (leAt t j 4)) x (Fl.word (leAt t (j + 4) 4))
  match (Fl.word (leAt t 0 4)).num, (Fl.word (leAt t 4 4)).num with
  | some x0, some step =>
    if 0 < step.m && 1 ≤ segs && segs ≤ 256 then
      match x with
      | .nan => (.nan, 0)
      | .inf n => at_ (if n then 0 else segs)
      | _ => at_ (Dy.floorDiv (((x.num).getD .zero).sub x0) step)
    else (Fl.word (free % 4294967296), 0)
  | _, _ => (Fl.word (free % 4294967296), 0)

/-- An FP32 value that the spec bounds but does not fix (R166): the candidate word where its error is within the bound, else the value nearest to
`f`. -/
def boundedBy (f bound : Int) (word : Nat) : Fl :=
  match (Fl.word word).num with
  | some c => if ((c.fx - f).natAbs : Int) ≤ bound then Fl.word word else (Fl.ofDy (fxDy f)).f32
  | none => (Fl.ofDy (fxDy f)).f32

/-- FUNC code `f` at x (Tables 04.8, 05.9): exact for ReLU and the piecewise-linear table, else within the bound of the spec. -/
def funcAt (f : Nat) (aux : List Byte) (free : Nat) (x : Fl) : Fl × Nat :=
  match f with
  | 0 => (match x with
    | .zero n => .zero (n && bit free 31)
    | _ => if x.neg then .zero false else x, 0)
  | 6 => pwl aux free x
  | _ => (match x.num with
    | some d => boundedBy (funcReal f d) (funcBound f (funcReal f d)) (Config.reference 0 f [] [dyKey (some d)] 0 % 4294967296)
    | none => if x.isNan then .nan else Fl.word (free % 4294967296), 0)

/-- Element `i` of a NORM row with gain g and offset β: within (2V + 16) · 2^−24 · (|y| + |β|) of its value (Table 05.9); free where the row has no
normalised value. -/
def normAt (rms : Bool) (row : List Dy) (eps gain offset : Dy) (i word : Nat) : Fl :=
  match normReal rms row eps i with
  | none => Fl.word word
  | some t =>
    let y := fxMul t gain.fx + offset.fx
    match (Fl.word word).num with
    | some c => boundedBy y ((2 * (row.length : Int) + 16) * (c.abs.fx + offset.abs.fx) / 16777216) word
    | none => boundedBy y 0 word

/-- Element `i` of a SOFTMAX row: within (V + 8) · 2^−23 · y + 2^−149 of its value (Table 05.9). -/
def softAt (row : List Dy) (i word : Nat) : Fl :=
  match (Fl.word word).num with
  | some c => boundedBy (softReal row i) (((row.length : Int) + 8) * c.fx / 8388608 + fxOne / 2 ^ 149) word
  | none => boundedBy (softReal row i) 0 word

/-- 10 · log10 of a sum of squares and a constant, as FP32 with the absolute error of log2 that Table 05.6 allows; free where it is not positive. -/
def logMagAt (v : Fl) (word : Nat) : Fl :=
  match v.num with
  | some m =>
    if m.m ≤ 0 then Fl.word word
    else
      let ten : Int := fxDiv (10 * fxOne) fxLog2Ten
      let y := fxMul ten m.log2
      boundedBy y (ten / 1048576 + 2 * (fmtSpacing 8 (if y = 0 then .zero else fxDy y)).fx) word
  | none => Fl.word word

/-- The larger or the smaller of two values; free where one is a NaN, or where they are zeros of both signs. -/
def extreme (larger : Bool) (free : Nat) (a b : Fl) : Fl :=
  if a.isNan || b.isNan then Fl.word (free % 4294967296)
  else if a.isZero && b.isZero then .zero (if a.neg == b.neg then a.neg else bit free 31)
  else if (if larger then b.le a else a.le b) then a else b

/-! The twiddles of the DFT (Table 05.5). -/

/-- The forward twiddle of row `r` and sample `k`: row 2m holds cos(2πmk / L), row 2m + 1 holds −sin(2πmk / L), rounded to the format. -/
def twiddle (fmt l r k : Nat) : Fl :=
  let n := r / 2 * k
  let c := if r % 2 = 0 then cosTurn n l else -sinTurn n l
  ((Fl.ofDy (fxDy c)).toFmt fmt 0 false).1

/-- The inverse twiddle of sample `r` and row `k` of the spectrum: cos(2πmr / L) for the real part of bin m, −sin(2πmr / L) for its imaginary part,
times the scale of the bin, which the spec does not state (log entry 103), rounded to the format. -/
def inverseTwiddle (fmt l r k : Nat) : Fl :=
  let n := k / 2 * r
  let c := if k % 2 = 0 then cosTurn n l else -sinTurn n l
  let s := Config.inverseScale fmt l (k / 2)
  ((Fl.ofDy ((fxDy c).mul ⟨((s % 16777216 : Nat) : Int), -((s / 16777216 % 64 : Nat) : Int)⟩)).toFmt fmt 0 false).1

end Sys2Proof.Machine
end

