-- ==== Sys2Proof/Machine/Jobs.lean ====
section
/-!
DEFINITION. Jobs and evaluations: the frame's instants (R30, R56), descriptor fields of the kind areas (Tables 03.2 to 03.5, 04.7, 04.9,
06.4), the job rings (R55), array operation times (Table 05.8), array stages, and the whole-job restart (R192 to R197).
-/

namespace Sys2Proof.Machine

/-! Frames and instants. -/

/-- MARGIN in force for frame `k` (R33): that of the latest change whose first frame is `k` or earlier. -/
def Dev.marginOf (d : Dev) (k : Nat) : Nat :=
  d.gate.margins.foldl (fun m e => if framePrecedes k e.1 then m else e.2) (d.fld TCK.RELEASE_MARGIN)

/-- E(k) of a watch after B(k + 1), in sixteenths of a sample tick (R56). -/
def Dev.deadline16 (d : Dev) (w k : Nat) : Nat :=
  if d.wdDeadline w = 0 then 16 * (d.len + d.marginOf k) else d.wdDeadline w

/-- S_CORE cycles that a number of sixteenths of a sample tick takes (R542). -/
def Dev.sixteenths (d : Dev) (n : Nat) : Nat := cdiv (n * 37500000) d.fs

/-- The tick unit has passed B(0) and runs. -/
def Dev.ticking (d : Dev) : Bool := d.running && !d.plan.starting

/-- Boundaries since B(k + 1), modulo 2^32. -/
def Dev.ticksAfter (d : Dev) (k : Nat) : Nat := (d.frame + 4294967296 - frameAdd k 1) % 4294967296

/-- The instant `e` sixteenths of a sample tick after B(k + 1) has come: this cycle is the cycle of the instant or a later one (R542). The tick
boundaries up to the instant must have come, and the rest is counted in S_CORE cycles from the last of them. -/
def Dev.instantPast (d : Dev) (k e : Nat) : Bool :=
  let n := d.ticksAfter k
  let per := 16 * d.len
  d.ticking && n < 2147483648 && (e / per < n || (e / per == n && d.plan.boundaryAt + d.sixteenths (e % per) ≤ d.now))

/-- E(k) of a watch has come (R56). -/
def Dev.evalPast (d : Dev) (w k : Nat) : Bool := d.instantPast k (d.deadline16 w k)

/-- RP(k) has come (R30). -/
def Dev.rpPast (d : Dev) (k : Nat) : Bool := d.instantPast k (16 * (d.len + d.marginOf k))

/-- Mapped engines E. -/
def Dev.engines (d : Dev) : Nat := d.fld MTX.INFO_ENGINES

/-! Kind areas. -/

def Dev.linM (d : Dev) (w : Nat) : Nat := bitsAt (d.wdKindWord w 0) 15 0 + 1
def Dev.linK (d : Dev) (w : Nat) : Nat := bitsAt (d.wdKindWord w 0) 31 16 + 1
def Dev.linForm (d : Dev) (w : Nat) : Nat := bitsAt (d.wdKindWord w 1) 2 0
def Dev.linP (d : Dev) (w : Nat) : Nat := bitsAt (d.wdKindWord w 1) 6 4 + 1
def Dev.linFloat (d : Dev) (w : Nat) : Bool := bit (d.wdKindWord w 1) 7
def Dev.linBias (d : Dev) (w : Nat) : Bool := bit (d.wdKindWord w 1) 8
def Dev.linAny (d : Dev) (w : Nat) : Bool := bit (d.wdKindWord w 1) 9
def Dev.linIn (d : Dev) (w : Nat) : Nat := bitsAt (d.wdKindWord w 2) 3 0
def Dev.linW (d : Dev) (w : Nat) : Nat := bitsAt (d.wdKindWord w 2) 7 4
def Dev.linAcc (d : Dev) (w : Nat) : Nat := bitsAt (d.wdKindWord w 2) 11 8
def Dev.linOut (d : Dev) (w : Nat) : Nat := bitsAt (d.wdKindWord w 2) 15 12
def Dev.linL (d : Dev) (w : Nat) : Nat := bitsAt (d.wdKindWord w 2) 31 16 + 1
def Dev.convTaps (d : Dev) (w : Nat) : Nat := bitsAt (d.wdKindWord w 3) 5 0 + 1
def Dev.convStride (d : Dev) (w : Nat) : Nat := bitsAt (d.wdKindWord w 3) 9 6 + 1
def Dev.convDil (d : Dev) (w : Nat) : Nat := bitsAt (d.wdKindWord w 3) 15 10 + 1
def Dev.convCin (d : Dev) (w : Nat) : Nat := bitsAt (d.wdKindWord w 3) 31 16 + 1

def Dev.nlsOp (d : Dev) (w : Nat) : Nat := bitsAt (d.wdKindWord w 0) 3 0
def Dev.nlsFunc (d : Dev) (w : Nat) : Nat := bitsAt (d.wdKindWord w 0) 7 4
def Dev.nlsIn (d : Dev) (w : Nat) : Nat := bitsAt (d.wdKindWord w 0) 11 8
def Dev.nlsOut (d : Dev) (w : Nat) : Nat := bitsAt (d.wdKindWord w 0) 15 12
def Dev.nlsShare (d : Dev) (w : Nat) : Option Nat :=
  if bit (d.wdKindWord w 0) 19 then some (bitsAt (d.wdKindWord w 0) 31 20) else none
def Dev.nlsV (d : Dev) (w : Nat) : Nat := bitsAt (d.wdKindWord w 1) 15 0 + 1

def Dev.shdType (d : Dev) (w : Nat) : Nat := bitsAt (d.wdKindWord w 2) 1 0
def Dev.shdMeasure (d : Dev) (w : Nat) : Nat := bitsAt (d.wdKindWord w 2) 5 4
def Dev.shdBands (d : Dev) (w : Nat) : Nat := bitsAt (d.wdKindWord w 2) 12 8 + 1
def Dev.shdWatch (d : Dev) (w : Nat) : Nat := bitsAt (d.wdKindWord w 2) 27 16
def Dev.shdAlign (d : Dev) (w : Nat) : Nat := bitsAt (d.wdKindWord w 4) 11 0
/-- SHD_EDGE[b]. -/
def Dev.shdEdge (d : Dev) (w b : Nat) : Nat := bitsAt (d.wdKindWord w (7 + b / 2)) (16 * (b % 2) + 15) (16 * (b % 2))

def Dev.stnFirst (d : Dev) (w : Nat) : Nat := bitsAt (d.wdKindWord w 0) 11 0
def Dev.stnCount (d : Dev) (w : Nat) : Nat := bitsAt (d.wdKindWord w 0) 23 16 + 1
def Dev.stnPeriod (d : Dev) (w : Nat) : Nat := bitsAt (d.wdKindWord w 1) 11 0 + 1
def Dev.stnPhase (d : Dev) (w : Nat) : Nat := bitsAt (d.wdKindWord w 1) 27 16
def Dev.stnSend (d : Dev) (w : Nat) : Nat := bitsAt (d.wdKindWord w 2) 15 0
def Dev.stnFloat (d : Dev) (w : Nat) : Bool := bitsAt (d.wdKindWord w 3) 1 0 == 1

/-- Byte `i` of the kind area. -/
def Dev.kindByte (d : Dev) (w i : Nat) : Nat := bitsAt (d.wdKindWord w (i / 4)) (8 * (i % 4) + 7) (8 * (i % 4))

/-- The channels of a list of `n` entries at byte `off` of the kind area, up to the first entry with EN = 0 (R117). -/
def Dev.chanList (d : Dev) (w off n : Nat) : List Nat :=
  (((List.range n).map (fun i => d.kindByte w (off + i))).takeWhile (fun b => bit b 7)).map (fun b => b % 128)

/-- Every input channel that the checks of a watch read, with the number of times. -/
def Dev.watchInputs (d : Dev) (w : Nat) : List Nat :=
  match d.wdKind w with
  | 2 => d.chanList w 0 16
  | 3 => d.chanList w 0 1 ++ d.chanList w 4 8
  | 4 => d.chanList w 0 4 ++ d.chanList w 4 8 ++ d.chanList w 12 4
  | 5 => d.chanList w 0 1 ++ d.chanList w 4 4
  | 6 => d.chanList w 0 8 ++ (if d.shdType w = 0 then d.chanList w 12 4 else [])
  | _ => []

/-- Every channel entry that a watch lists (Table 04.12), those of SHD_CMPCH that CMP_TYPE leaves unused among them. -/
def Dev.channelEntries (d : Dev) (w : Nat) : List Nat :=
  d.watchInputs w ++ (if d.wdKind w = 6 && d.shdType w != 0 then d.chanList w 12 4 else [])

/-- Declared units of one evaluation (Table 02.7). -/
def Dev.declared (d : Dev) (w : Nat) : Nat :=
  match d.wdKind w with
  | 2 => d.len * (d.chanList w 0 16).length
  | 3 => d.len
  | 4 => d.len
  | 5 => d.len
  | 6 => 1
  | _ => d.wdDecl w

/-! The job ring. -/

/-- The job of watch `w` for frame `k`, while its ring holds it. -/
def Dev.jobOf (d : Dev) (w k : Nat) : Option Job := (d.watchOf w).ring.find? (fun j => j.frame == k)

/-- Replace the job of its frame. -/
def Dev.putJob (d : Dev) (w : Nat) (j : Job) : Dev :=
  let x := d.watchOf w
  d.putWatch w { x with ring := x.ring.map (fun i => if i.frame = j.frame then j else i) }

/-- The job is open: posted, and before the cycle of E(k) (R56, R195). -/
def Dev.openJob (d : Dev) (w k : Nat) : Option Job :=
  (d.jobOf w k).filter (fun j => j.posted && !j.final && !d.evalPast w k)

/-- What the job has received. -/
def Dev.jobIn (d : Dev) (w k : Nat) : JobIn := tabGet .empty d.skim.jobs (key2 w k)

def Dev.putJobIn (d : Dev) (w k : Nat) (x : JobIn) : Dev :=
  { d with skim := { d.skim with jobs := tabSet .empty d.skim.jobs (key2 w k) x } }

/-- A new job (R55). -/
def Job.start (k declared : Nat) (sample : List Nat) : Job :=
  { frame := k, status := 0, posted := true, arrived := 0, checked := 0, units := [], failed := false, incomplete := false,
    restarts := 0, aborted := false, detail := 0, declared := declared, sample := sample, final := false, ended := false, epoch := 0 }

/-- Record a failing unit with its DETAIL word: the first one stays. -/
def Job.fail (j : Job) (detail : Nat) : Job := if j.failed then j else { j with failed := true, detail := detail }

/-- Record a failing row of an NLS job, a malformed record's among them: the first row stays, with the lower cause on a tie (R143). DESIGN CHOICE
(log entry 108): the row index is reported modulo 2^16, and a FORMAT failure is ranked by its row. -/
def Job.failRow (j : Job) (cause row : Nat) : Job :=
  let c := j.detail / 16777216
  let r := j.detail % 65536
  if j.failed && (decide (r < row % 65536) || (r == row % 65536 && decide (c ≤ cause))) then j
  else { j with failed := true, detail := cause * 16777216 + row % 65536 }


/-! Array operation times (Table 05.8). -/

/-- Four times the cell rate of an operand pair (Table 05.1); 0 for a pair that the table does not list. -/
def rho4 (a b acc : Nat) : Nat :=
  let int8 (f : Nat) : Bool := f ≤ 2
  let fp8 (f : Nat) : Bool := f = 4 || f = 5
  let mx (f : Nat) : Bool := 9 ≤ f && f ≤ 14
  if a = 2 && b = 2 then (if acc = 2 then 8 else 16)
  else if int8 a && (b = 0 || b = 1) then 8
  else if fp8 a && fp8 b then 8
  else if a = 6 && (b = 6 || fp8 b) then 4
  else if a = 7 && (b = 7 || fp8 b) then 4
  else if a = 13 && b = 13 then 16
  else if mx a && a != 13 && mx b then 8
  else 0

/-- The smallest power of two, at most 32, that is at least min(n, 32). -/
def pow2Cap (n : Nat) : Nat := if n ≤ 1 then 1 else if n ≤ 2 then 2 else if n ≤ 4 then 4 else if n ≤ 8 then 8 else if n ≤ 16 then 16 else 32

/-- The opcode of a descriptor (Table 05.4). -/
def opCode (desc : List Nat) : Nat := desc.getD 0 0 % 256

/-- A GEMM-class operation. -/
def opGemm (desc : List Nat) : Bool := 1 ≤ opCode desc && opCode desc ≤ 4

def opM (desc : List Nat) : Nat := bitsAt (desc.getD 1 0) 15 0 + 1
def opN (desc : List Nat) : Nat := bitsAt (desc.getD 1 0) 31 16 + 1
def opK (desc : List Nat) : Nat := bitsAt (desc.getD 2 0) 15 0 + 1
def opA (desc : List Nat) : Nat := bitsAt (desc.getD 0 0) 11 8
def opB (desc : List Nat) : Nat := bitsAt (desc.getD 0 0) 15 12
def opOut (desc : List Nat) : Nat := bitsAt (desc.getD 0 0) 19 16
def opAcc (desc : List Nat) : Nat := bitsAt (desc.getD 0 0) 21 20

/-- ρ · g · 4, slices, slice length and tiles of a GEMM-class operation (R157). -/
def gemmTiling (desc : List Nat) : Nat × Nat × Nat × Nat :=
  let g := 32 / pow2Cap (opN desc)
  let r := max 1 (rho4 (opA desc) (opB desc) (opAcc desc)) * g
  let s := cdiv (opK desc) (512 * r)
  let k0 := cdiv (opK desc) s
  let k1 := if 9 ≤ opA desc then cdiv k0 32 * 32 else k0
  (r, s, k1, cdiv (opM desc) 32 * cdiv (opN desc) 32 * s)

/-- Elements X of a vector operation: output elements for EWISE and REQUANT, input elements for the others. -/
def opX (desc : List Nat) : Nat :=
  let mk := opM desc * opK desc
  let fn := desc.getD 11 0 % 256
  if opCode desc = 16 && (fn = 10 || fn = 11) then mk / 2 else mk

/-- C_ARITH clocks of a vector operation over X elements with `e` mapped engines (Table 05.8). -/
def vectorClocks (e code x : Nat) : Nat :=
  let n := cdiv x (32 * e)
  match code with
  | 16 => 192 + n
  | 20 => 192 + n
  | 18 => 224 + 2 * n
  | 19 => 224 + 3 * n
  | _ => 224 + n

/-- C_ARITH clocks of an operation with `e` mapped engines (Table 05.8); `x` is X where it is not 0. -/
def opClocks (e : Nat) (desc : List Nat) (x : Nat) : Nat :=
  if opGemm desc then
    let (r, s, k1, t) := gemmTiling desc
    128 + cdiv t e * (cdiv (4 * k1) r + 64) + (if 1 < s then cdiv (opM desc * opN desc * (s - 1)) (32 * e) + 64 else 0)
  else vectorClocks e (opCode desc) (if x = 0 then opX desc else x)

/-- Tiles of an operation: those of R157; one for a vector operation, which has no tile boundary before its end. -/
def opTiles (desc : List Nat) : Nat := if opGemm desc then (gemmTiling desc).2.2.2 else 1

/-- Clocks of one run of a model. -/
def Model.runClocks (m : Model) (e : Nat) : Nat := (m.ops.map (fun o => opClocks e o 0)).foldl (· + ·) 0

/-- The directory entry of a model. -/
def Dev.model (d : Dev) (id : Nat) : Model := tabGet .empty d.arr.models id

/-- A model is LOADED and, for a RUN model, its frame is the frame in force (R177). -/
def Dev.modelRuns (d : Dev) (id : Nat) : Bool :=
  let m := d.model id
  m.state == 2 && (m.kind == 0 || (m.frameLen == d.len && m.fsSel == d.fld TCK.FRAME_FS_SEL))

/-! Array stages. -/

/-- One operation of a stage. -/
def ArrOp.mk1 (owner : OpOwner) (deadline prio at_ : Nat) (desc : List Nat) (size : Nat) : ArrOp :=
  { desc := desc, owner := owner, deadline := deadline, prio := prio, last := false, tiles := opTiles desc, done := 0,
    aborted := false, postedAt := at_, readyAt := none, clk := 0, charged := 0, since := 0, size := size }

/-- Mark the last operation of a stage. -/
def markLast : List ArrOp → List ArrOp
  | [] => []
  | [o] => [{ o with last := true }]
  | o :: os => o :: markLast os

/-- The opcode that recomputes an NLS operation (Table 04.8). -/
def nlsOpcode (op : Nat) : Nat := match op with | 0 => 16 | 1 => 20 | 2 => 18 | _ => 19

/-- The operations of the array stage that serves frame `k` of watch `w` (Table 06.2); none for a kind without one. -/
def Dev.stageOps (d : Dev) (w k : Nat) (rows : Nat) : List ArrOp :=
  let e := 16 * (d.frameStart k + d.len) + d.deadline16 w k
  let op := ArrOp.mk1 (.job w k) e (d.wdPrio w) d.now
  match d.wdKind w with
  | 1 =>
    let x := rows * d.nlsV w
    if rows = 0 then [] else markLast [op [nlsOpcode (d.nlsOp w)] x, op [33] x]
  | 6 => if d.modelRuns (d.wdModel w) then markLast ((d.model (d.wdModel w)).ops.map (fun o => op o 0) ++ [op [33] 1]) else []
  | 7 => if d.stnFloat w then markLast [op [33] (d.wdDecl w)] else []
  | _ => []

/-! Clocks and transfers of a stage. -/

/-- Key of the stage that an owner runs. -/
def stageKey (o : OpOwner) : Nat :=
  match o with
  | .job w k => key2 w k
  | .fallback s k => key2 (4096 + s) k
  | .build w => key2 (8192 + w) 0
  | .selfTest g => key2 (16384 + g) 0

/-- Clocks spent in the running tick by an attempt, and whether they count for a job (R197). -/
def Dev.spend (d : Dev) (o : OpOwner) (clk : Nat) : Dev :=
  match o with
  | .build _ => d
  | .selfTest _ => d
  | _ => { d with arr := { d.arr with spent := tabUpd (0, 0) d.arr.spent (stageKey o) (fun x => (x.1 + clk, x.2)) } }

/-- Charge clocks of an operation to the running tick: its queue's account, and its attempt, or the tick's waste where it is aborted (R179, R197). -/
def Dev.charge (d : Dev) (q : ArrQueue) (o : ArrOp) (clk : Nat) : Dev :=
  let d1 := match q with
    | .plan => { d with arr := { d.arr with planClk := d.arr.planClk + clk } }
    | .background => { d with arr := { d.arr with bgClk := d.arr.bgClk + clk } }
  if !o.aborted then d1.spend o.owner clk
  else match o.owner with
    | .build _ => d1
    | .selfTest _ => d1
    | _ => { d1 with plan := { d1.plan with waste := d1.plan.waste + clk } }

/-- Clocks that an operation has run and that no tick is charged with yet. -/
def Dev.uncharged (d : Dev) (o : ArrOp) : Nat :=
  min (o.clk - o.charged) ((d.now - o.since) * d.fld HLN.FREQ_CUR_MHZ / 600)

/-- Charge the running operation with the clocks it has run so far. -/
def Dev.chargeRunning (d : Dev) : Dev :=
  match d.arr.running with
  | none => d
  | some (q, o) =>
    let n := d.uncharged o
    let d1 := d.charge q o n
    { d1 with arr := { d1.arr with running := some (q, { o with charged := o.charged + n, since := d.now }) } }

/-- The attempt of an owner is abandoned: its clocks are waste of the ticks in which they ran (R197). -/
def Dev.wasteAttempt (d : Dev) (o : OpOwner) : Dev :=
  let d1 := d.chargeRunning
  let x := tabGet (0, 0) d1.arr.spent (stageKey o)
  { d1 with
    arr := { d1.arr with spent := tabErase d1.arr.spent (stageKey o) },
    plan := { d1.plan with waste := d1.plan.waste + x.1 } }.put TCK.WASTE_CLK (min 4294967295 (d1.fld TCK.WASTE_CLK + x.2))

/-- Remove every operation of an owner from the sequencer; the one that runs stops at its next tile boundary (R160). -/
def Dev.dropOps (d : Dev) (o : OpOwner) : Dev :=
  let stop := d.arr.running.map (fun r => if r.2.owner = o then (r.1, { r.2 with aborted := true }) else r)
  let gone := d.arr.suspended.any (fun x => x.owner = o)
  let d1 := { d with arr := { d.arr with
      plan := d.arr.plan.filter (fun x => x.owner ≠ o),
      background := d.arr.background.filter (fun x => x.owner ≠ o),
      suspended := if gone then none else d.arr.suspended,
      stage := if d.arr.stage = some o then none else d.arr.stage,
      running := stop } }
  if gone then d1.flag MTX.STAT_SUSPENDED false else d1

/-- Translation context of a watch, and of a model (R228). -/
def watchCtx (w : Nat) : Nat := w
def modelCtx (id : Nat) : Nat := 4095 + id

/-- The transfers posted for a stage. -/
def Dev.stageDma (d : Dev) (o : OpOwner) : StageDma := tabGet .none d.memsys.stages (stageKey o)

def Dev.putStageDma (d : Dev) (o : OpOwner) (x : StageDma) : Dev :=
  { d with memsys := { d.memsys with stages := tabSet .none d.memsys.stages (stageKey o) x } }

/-- The plan has transfers for the stage: streamed weights of a model (Table 06.2), or the stored answer of a stencil (R202). -/
def Dev.stageNeeds (d : Dev) (o : OpOwner) : Bool :=
  let streams (id : Nat) : Bool := (d.model id).tensors.any (fun t => t.2.2.1 == 2)
  match o with
  | .job w _ => match d.wdKind w with
    | 6 => streams (d.wdModel w)
    | 7 => true
    | _ => false
  | .fallback s _ => streams (d.fld (SGT.FB_MODEL_ID s))
  | _ => false

/-- A stage waits for its transfers, up to the one marked LAST (R238). -/
def Dev.stageWaits (d : Dev) (o : OpOwner) : Bool :=
  let x := d.stageDma o
  x.pending != 0 || x.redo != 0 || (!x.last && (x.posted || d.stageNeeds o))

/-- Every transfer of a stage, up to the one marked LAST, has completed with status OK. -/
def StageDma.loaded (x : StageDma) : Bool := x.last && x.pending == 0 && x.redo == 0

/-- Transfers of a stage that are to be posted again: how many, and whether the one marked LAST is among them (Table 07.9). -/
def StageDma.again (x : StageDma) (n : Nat) (last : Bool) : StageDma :=
  { x with pending := x.pending - n, redo := x.redo + n, last := x.last && !last }

/-- Drop the PLAN descriptors of a stage that have not started; one in progress stops at its next line (Table 07.9). -/
def Dev.dropStageDma (d : Dev) (o : OpOwner) : Dev :=
  let mine (x : DmaDesc) : Bool := x.owner == some o && !x.dropped
  let gone := d.memsys.rings.flatMap (fun e => if e.1 % 2 = 0 then e.2.filter mine else [])
  let d1 := { d with memsys := { d.memsys with
      rings := d.memsys.rings.filterMap (fun e =>
        if e.1 % 2 = 0 then
          let l := (e.2.take 1).map (fun x => if mine x then { x with dropped := true } else x) ++ (e.2.drop 1).filter (fun x => !mine x)
          if l = [] then none else some (e.1, l)
        else some e) } }
  if gone = [] then d1 else d1.putStageDma o ((d.stageDma o).again gone.length (gone.any (fun x => bit x.ctl 30)))

/-- The stage of an owner is over: nothing is kept of its transfers and clocks. -/
def Dev.closeStage (d : Dev) (o : OpOwner) : Dev :=
  let d1 := d.dropStageDma o
  { d1 with
    memsys := { d1.memsys with stages := tabErase d1.memsys.stages (stageKey o) },
    arr := { d1.arr with spent := tabErase d1.arr.spent (stageKey o) } }

/-- A fault is attributed to a job (R192 to R197): its attempt is abandoned and a new one starts, as long as RESTART_MAX allows. A job past E(k),
or with a final result, keeps its result (R195). -/
def Dev.attribute (d : Dev) (w k : Nat) : Dev :=
  match d.openJob w k with
  | none => d
  | some j =>
    if j.status = 2 || j.ended then d
    else
      let o := OpOwner.job w k
      let d2 := ((d.wasteAttempt o).dropOps o).dropStageDma o
      let format := j.failed && j.detail / 16777216 == (if d.wdKind w = 0 then 4 else 12)
      let j1 := { j with checked := 0, units := [], failed := format, detail := if format then j.detail else 0, aborted := true }
      if j.restarts < d.fld TCK.PLAN_CTRL_RESTART_MAX then
        let d3 := (d2.putJob w { j1 with restarts := j.restarts + 1, status := 0 }).count TCK.RESTART_RESTARTS 1
        let x := d3.jobIn w k
        let again := (d.stageDma o).posted && !(d.stageDma o).loaded
        let d4 := d3.putJobIn w k { x with attempt := if d.wdKind w = 0 then x.recs.length else x.attempt, tablesLoaded := x.tablesLoaded && !again }
        { d4 with arr := { d4.arr with plan := d4.arr.plan ++ d4.stageOps w k j.sample.length } }
      else d2.putJob w { j1 with ended := true }

end Sys2Proof.Machine
end

