-- ==== Sys2Proof/Machine/Windows.lean ====
section
/-!
DEFINITION. Stage windows (R207 to R211): instances, check-ins from firmware, links and the plan, closes and their events.
-/

namespace Sys2Proof.Machine

/-- The open instance of a window. -/
def Dev.winInst (d : Dev) (w : Nat) : Option WinInst := tabGet none d.plan.windows w

def Dev.putWin (d : Dev) (w : Nat) (x : Option WinInst) : Dev :=
  { d with plan := { d.plan with windows := tabSet none d.plan.windows w x } }

/-- Window `w` has an instance in tick `j` (R207, R210). -/
def Dev.winDue (d : Dev) (w j : Nat) : Bool :=
  let p := d.fld (SWD.CFG_PERIOD_M1 w) + 1
  d.on (SWD.CFG_EN w) && (j + p - d.fld (SWD.PHASE_PHASE w) % p) % p == 0 && !framePrecedes j (tabGet 0 d.plan.windowFrom w)

/-- B(j) + OPEN and B(j) + CLOSE of window `w` have come (R207, R542). -/
def Dev.openPast (d : Dev) (w j : Nat) : Bool := d.instantPast (frameAdd j 4294967295) (d.fld (SWD.TIME_OPEN w))
def Dev.closePast (d : Dev) (w j : Nat) : Bool := d.instantPast (frameAdd j 4294967295) (d.fld (SWD.TIME_CLOSE w))

/-- SWD_INJ is armed with a mode for a window and a task. -/
def Dev.swdArmed (d : Dev) (w task mode : Nat) : Bool :=
  d.on SWD.INJ_ARM && d.fld SWD.INJ_MODE == mode && d.fld SWD.INJ_WINDOW == w && d.fld SWD.INJ_TASK == task

/-- A check-in from the window's own source (R208, R209); in the cycle of the closing, or later, the instance no longer counts it (R207). -/
def Dev.checkIn (d : Dev) (w task : Nat) : Dev :=
  match d.winInst w with
  | none => d.count SWD.STAT_STRAY 1
  | some x =>
    if d.closePast w x.frame then d.count SWD.STAT_STRAY 1
    else if d.swdArmed w task 1 && !x.injected then d.putWin w (some { x with injected := true })
    else
      let dup := bit x.done task || !bit (d.fld (SWD.EXPECT_EXPECT w)) task
      let extra := d.swdArmed w task 2 && !x.injected
      d.putWin w (some { x with
        done := Nat.lor x.done (2 ^ task),
        dup := if dup || extra then Nat.lor x.dup (2 ^ task) else x.dup,
        injected := x.injected || extra })

/-- A write of SWD_CHECKIN by master `mid` (R208, R393). -/
def Dev.checkinWrite (d : Dev) (mid v : Nat) : Dev :=
  let w := bitsAt v 23 16
  if d.splitMaster mid || !d.access mid .s then d.answer .error
  else
    let d1 := if d.fld (SWD.CFG_SRC w) = 0 && d.fld (SWD.CFG_MID w) = mid then d.checkIn w (v % 32) else d.count SWD.STAT_BADSRC 1
    d1.answer .done

/-- SWD_CHECKIN (R208). -/
def execSwdCheckin (mid value : Nat) (s : State) : Host.Outcome State Fault Refusal := run s fun _ d => d.checkinWrite mid value

/-- A CHECKIN message from port `p` (R208, check 4 of Table 08.8). -/
def Dev.checkinFjl (d : Dev) (p w task : Nat) : Dev :=
  if d.fld (SWD.CFG_SRC w) = 1 && d.fld (SWD.CFG_PORT w) = p then d.checkIn w task else d.count SWD.STAT_BADSRC 1

/-- The open instance of a window closes once B(j) + CLOSE has come (R207, R209): event record, last registers and the source with its cause. -/
def Dev.windowClose (d : Dev) (w : Nat) : Dev :=
  match d.winInst w with
  | none => d
  | some x =>
    if !d.closePast w x.frame then d
    else
    let expect := d.fld (SWD.EXPECT_EXPECT w)
    let missing := expect - Nat.land expect x.done
    let d1 := d.putWin w none
    let d2 := if x.injected then d1.flag SWD.INJ_ARM false else d1
    if missing = 0 && x.dup = 0 then d2.cause (96 + w) false
    else
      let d3 := d2.logRec .event [x.frame, w + 256 * b2n x.injected, missing, x.dup]
      let d4 := ((d3.put (SWD.LAST_F_FRAME_NO w) x.frame).put (SWD.LAST_MISS_MISSING w) missing).put (SWD.LAST_DUP_DUPLICATE w) x.dup
      if x.injected then d4.raiseInjected .s (96 + w) else d4.raiseCause .s (96 + w)

/-- STAGE_WINDOW_CLOSE (R209). -/
def execStageWindowClose (window : Nat) (s : State) : Host.Outcome State Fault Refusal := run s fun _ d => d.windowClose window

/-- STAGE_WINDOW_OPEN (R207): the instance of tick `j` opens between B(j) + OPEN and B(j) + CLOSE; a close due in the same cycle comes first. -/
def Dev.windowOpen (d : Dev) (w j : Nat) : Dev :=
  if w < 256 && d.winDue w j && d.openPast w j && !d.closePast w j then
    let d1 := d.windowClose w
    if (d1.winInst w).isNone then d1.putWin w (some ⟨j, 0, 0, false⟩) else d1
  else d

def execStageWindowOpen (window frame : Nat) (s : State) : Host.Outcome State Fault Refusal := run s fun _ d => d.windowOpen window frame

/-- A write of SWD_INJ (R211): discarded while ARM is 1 and where it sets ARM with a reserved MODE. -/
def Dev.swdInjWrite (d : Dev) (v : Nat) : Dev :=
  let mode := bitsAt v 25 24
  if injTaken (d.on SWD.INJ_ARM) v (mode = 1 || mode = 2) then
    ((((d.flag SWD.INJ_ARM (bit v 31)).put SWD.INJ_MODE mode).put SWD.INJ_WINDOW (bitsAt v 23 16)).put SWD.INJ_TASK (v % 32)).answer .done
  else d.answer .discarded

/-- SWD_INJ (R211). -/
def execSwdInj (value : Nat) (s : State) : Host.Outcome State Fault Refusal := run s fun _ d => d.swdInjWrite value

/-! PLAN-source tasks (Table 06.5). -/

/-- An instance of tick `j` is open. -/
def Dev.openInstance (d : Dev) (j : Nat) : Bool := d.plan.windows.any (fun e => e.2.any (fun x => x.frame == j))

/-- An operation serves a frame before `j`. -/
def ArrOp.servesBefore (o : ArrOp) (j : Nat) : Bool :=
  match o.owner with
  | .job _ f => framePrecedes f j
  | .fallback _ f => framePrecedes f j
  | _ => false

/-- The condition of a PLAN-source task of instance `j` holds. The plan DMA of a tick is complete once no PLAN descriptor waits and no stage of the
tick still waits for its transfers; later ticks' descriptors wait behind it in their rings. -/
def Dev.planTaskDone (d : Dev) (j task : Nat) : Bool :=
  let k := frameAdd j 4294967295
  match task with
  | 0 => !d.arr.plan.any (fun o => o.servesBefore j) && !d.arr.running.any (fun r => r.2.servesBefore j)
  | 5 => !d.memsys.rings.any (fun e => e.1 % 2 == 0 && e.2 != []) && !d.arr.plan.any (fun o => o.servesBefore j && d.stageWaits o.owner)
  | 6 => true
  | _ =>
    if 1 ≤ task && task ≤ 4 then
      d.activeWatches.all (fun w => d.wdSrcType w != 0 || d.wdPort w != task - 1 || d.wdKind w == 8
        || (match d.jobOf w k with | none => true | some x => x.status == 2 || x.final))
    else false

/-- Check in the tasks of instance `j` whose condition has come to hold, once each, in the windows that take check-ins from the plan (R208). -/
def Dev.planTick (d : Dev) (j : Nat) : Dev :=
  [0, 1, 2, 3, 4, 5, 6].foldl (fun d task =>
    let seen := tabGet 0 d.plan.planTasks j
    if bit seen task || !d.planTaskDone j task then d
    else
      let d1 := { d with plan := { d.plan with planTasks := tabSet 0 d.plan.planTasks j (Nat.lor seen (2 ^ task)) } }
      ((List.range 256).filter (fun w => d1.fld (SWD.CFG_SRC w) == 2 && d1.winDue w j && (d1.winInst w).all (fun x => x.frame == j))).foldl
        (fun d w => d.checkIn w task) d1) d

/-- Check in the PLAN-source tasks of the running tick and of every earlier tick with an open instance (Table 06.5). -/
def Dev.planCheckins (d : Dev) : Dev :=
  if !d.running then d
  else ((d.plan.windows.filterMap (fun e => e.2.map (fun x => x.frame)) ++ [d.frame]).dedup).foldl Dev.planTick d

end Sys2Proof.Machine
end

