-- ==== Sys2Proof/Machine/Ecc.lean ====
section
/-!
DEFINITION. The physical address map (R217, R220) and what reads that meet wrong check bits leave behind: corrected and uncorrectable errors,
their records and the pages that they schedule for retirement (R222 to R227, R244).
-/

namespace Sys2Proof.Machine

/-! Physical addresses: HBM, the cluster SRAMs, the scratchpads, the S-die SRAM, the link buffers, then the audio and the network buffer (log
entry 13). -/

def hbmSize : Nat := 17179869184
def clusterBase (c : Nat) : Nat := hbmSize + c * 8388608
def scratchBase (core : Nat) : Nat := hbmSize + 33554432 + core * 1048576
def sDieBase : Nat := scratchBase 20
def linkBase (p : Nat) : Nat := sDieBase + 7340032 + p * 524288
def audioBase : Nat := linkBase 4
def netBase : Nat := audioBase + 1310720

/-- The first address behind every memory (Table 07.1). -/
def memEnd : Nat := netBase + 524288

/-- MEMORY and UNIT of MEM_UE_INFO, the address within the memory, and the die (Tables 07.1 and 07.12). -/
def memPlace (a : Nat) : Nat × Nat × Nat × Die :=
  if a < hbmSize then (6, 0, a, .x)
  else if a < scratchBase 0 then
    let c := (a - hbmSize) / 8388608
    (1, c, (a - hbmSize) % 8388608, clusterDie c)
  else if a < sDieBase then
    let u := (a - scratchBase 0) / 1048576
    (0, u, (a - scratchBase 0) % 1048576, clusterDie (u / 5))
  else if a < linkBase 0 then (2, 0, a - sDieBase, .s)
  else if a < audioBase then
    let p := (a - linkBase 0) / 524288
    (3, p, (a - linkBase 0) % 524288, clusterDie p)
  else if a < netBase then (4, 0, a - audioBase, .s)
  else (4, 0, a - netBase, .x)

/-- Regions of Table 07.3. -/
def pageTranslation (p : Nat) : Bool := 256 ≤ p && p < 1280
def pageSpare (p : Nat) : Bool := 1280 ≤ p && p < 2304
def pageTable (p : Nat) : Bool := 2304 ≤ p && p < 18688

/-- The page that a spare page in use stands in for (R245); other pages are their own. -/
def Dev.homePage (d : Dev) (p : Nat) : Nat := tabGet p d.memsys.standIn p

/-- HBM address of byte `off` of a model's WEIGHTS section. -/
def Model.weightAddr (m : Model) (off : Nat) : Nat := m.pages.getD (off / 65536) 0 * 65536 + off % 65536

/-- `n` weight bytes of a model from offset `off`. -/
def Model.weights (m : Model) (mem : Mem) (off n : Nat) : List Byte := (List.range n).map (fun i => mem.byte (m.weightAddr (off + i)))

/-- The pieces, page by page, in which `n` weight bytes from offset `off` lie. -/
def Model.weightRanges (m : Model) (off n : Nat) : List (Nat × Nat) :=
  (List.range ((off % 65536 + n + 65535) / 65536)).map (fun i =>
    let lo := max off ((off / 65536 + i) * 65536)
    (m.weightAddr lo, min (off + n) ((off / 65536 + i + 1) * 65536) - lo))

/-! Records of errors. -/

/-- Hold the first translation fault (Table 07.12) and raise MEM_XLATE_FAULT. -/
def Dev.xlateFault (d : Dev) (cause mid handle off : Nat) (write : Bool) : Dev :=
  let d1 := if d.on MEM.XF_INFO_VALID then d
    else
      let d1 := ((d.flag MEM.XF_INFO_VALID true).put MEM.XF_INFO_CAUSE cause).put MEM.XF_INFO_MID mid
      ((d1.flag MEM.XF_INFO_WRITE write).put MEM.XF_HANDLE_HANDLE handle).put MEM.XF_OFFSET_OFFSET off
  d1.raise .x 84

/-- Hold the first uncorrectable error (Table 07.12). -/
def Dev.ueInfo (d : Dev) (memory unit mid a : Nat) : Dev :=
  if d.on MEM.UE_INFO_VALID then d
  else
    let d1 := (((d.flag MEM.UE_INFO_VALID true).put MEM.UE_INFO_MEMORY memory).put MEM.UE_INFO_UNIT unit).put MEM.UE_INFO_MID mid
    (d1.put MEM.UE_ADDR_LO_ADDR a).put MEM.UE_ADDR_HI_ADDR (a / 4294967296)

/-- An uncorrectable SRAM read (R227): counted, held and raised. -/
def Dev.sramUe (d : Dev) (die : Die) (memory unit mid addr : Nat) : Dev :=
  ((d.count MEM.SRAM_CNT_UE 1).ueInfo memory unit mid addr).raise die 81

/-! Rows and pages (R244). -/

/-- Schedule a page for retirement, with its entry of the log (R244). A page that is scheduled stays scheduled once. -/
def Dev.schedulePage (d : Dev) (page cause : Nat) : Dev :=
  if d.memsys.retires.any (fun r => r.page == page) then d
  else
    let n := d.memsys.retired
    let d1 := { d with memsys := { d.memsys with retired := n + 1, retires := d.memsys.retires ++ [⟨page, cause, n, false, 0⟩] } }
    if n < 64 then
      (((d1.flag (MEM.RETIRE_PAGE_VALID n) true).put (MEM.RETIRE_PAGE_CAUSE n) cause).put (MEM.RETIRE_PAGE_PPN n) page)
    else d1

/-- The row with the lowest count is dropped from a full tracker. -/
def dropLowest (t : Tab Nat) : Tab Nat :=
  match sortBy (fun e => e.2) t with
  | [] => t
  | e :: _ => tabErase t e.1

/-- A correctable error counts against its row. -/
def Dev.rowError (d : Dev) (a : Nat) : Dev :=
  let row := a / 1024
  let t := if 64 ≤ d.memsys.rows.length && tabGet 0 d.memsys.rows row = 0 then dropLowest d.memsys.rows else d.memsys.rows
  let n := tabGet 0 t row + 1
  let d1 := { d with memsys := { d.memsys with rows := tabSet 0 t row n } }
  if d.fld MEM.CTRL_CE_ROW_THR ≤ n then d1.schedulePage (a / 65536) 0 else d1

/-! Reads. -/

/-- A corrected read (R224): the stored copy stays as it is. -/
def Dev.correctedRead (d : Dev) (a : Nat) : Dev :=
  if a < hbmSize then ((d.count MEM.DRAM_CE_CE 1).raise .x 82).rowError a
  else (d.count MEM.SRAM_CNT_CE 1).raise (memPlace a).2.2.2 80

/-- An uncorrectable read by a master: an HBM line is poisoned (R225), a byte of another memory is counted (R227). -/
def Dev.badRead (mid : Nat) (d : Dev) (a : Nat) : Dev :=
  let (memory, unit, off, die) := memPlace a
  if memory = 6 then (((d.count MEM.DRAM_UE_UE 1).ueInfo 6 0 mid a).raise .x 83).schedulePage (a / 65536) 1
  else d.sramUe die memory unit mid off

/-- An injected error was detected: MEM_INJ is disarmed (Table 07.12). -/
def Dev.memInjSeen (d : Dev) : Dev := { d.flag MEM.INJ_ARM false with memsys := { d.memsys with injected := none } }

/-- What a read delivers as one unit: an HBM line, or a byte of another memory (R222, R223). -/
def readUnit (a : Nat) : Nat := if a < hbmSize then a / 64 * 64 else a

/-- The read units with a byte of a given mark, among those that the byte ranges (address, length) touch. -/
def Mem.marked (m : Mem) (c : Check) (ranges : List (Nat × Nat)) : List Nat :=
  (m.check.filterMap (fun e =>
    let a := readUnit e.1
    if e.2 == c && ranges.any (fun r => r.2 != 0 && readUnit r.1 ≤ a && decide (a < r.1 + r.2)) then some a else none)).dedup

/-- What reads of byte ranges by a master leave behind, and whether one of them is uncorrectable. -/
def Dev.readMem (d : Dev) (m : Mem) (mid : Nat) (ranges : List (Nat × Nat)) : Dev × Bool :=
  let bad := m.marked .double ranges
  let weak := (m.marked .single ranges).filter (fun a => !bad.contains a)
  let d1 := bad.foldl (Dev.badRead mid) (weak.foldl Dev.correctedRead d)
  (if d.memsys.injected.any (fun a => (weak ++ bad).contains (readUnit a)) then d1.memInjSeen else d1, bad != [])

end Sys2Proof.Machine
end

