-- ==== Sys2Proof/Machine/Xlate.lean ====
section
/-!
DEFINITION. Tensor handles and translation (R228 to R234): context records, tensor and page table entries, the SYSTEM context, the translation
caches, and the causes of Table 07.6.
-/

namespace Sys2Proof.Machine

/-- Logical engines with VALID 1, ascending (R485). -/
def Dev.validEngines (d : Dev) : List Nat := (List.range 16).filter (fun e => d.on (MTX.ENG_MAP_VALID e))

/-- The physical engine of a logical one. -/
def Dev.physOf (d : Dev) (e : Nat) : Nat := 5 * d.fld (MTX.ENG_MAP_CLUSTER e) + d.fld (MTX.ENG_MAP_CORE e)

/-- The core whose scratchpad serves the pages of a logical engine: its own, or the spare's from the boundary at which a repair begins (R486). -/
def Dev.scratchOf (d : Dev) (l : Nat) : Option Nat :=
  if d.on (MTX.ENG_MAP_VALID l) then some (d.physOf l)
  else (d.health.repairs.find? (fun r => r.logical == l && r.step == 1)).bind (·.spare)

/-- Base and size of a tensor of the SYSTEM context (R232). -/
def systemTensor (t : Nat) : Option (Nat × Nat) :=
  if t < 256 then some (t * 67108864, 67108864)
  else if t < 260 then some (clusterBase (t - 256), 8388608)
  else if t < 280 then some (scratchBase (t - 260), 1048576)
  else none

/-- CTX and TENSOR of a handle (Table 07.4). -/
def handleCtx (h : Nat) : Nat := bitsAt h 30 18
def handleTensor (h : Nat) : Nat := h % 4096

/-- Address of the context record of `ctx` (R229). -/
def ctxRecord (ctx : Nat) : Nat := 16777216 + 16 * ctx

/-- Physical address that a page table entry gives, or none where its target is reserved or not mapped (Table 07.5). -/
def Dev.pteAddress (d : Dev) (pte inPage : Nat) : Option Nat :=
  let ppn := pte % 262144
  match bitsAt pte 59 56 with
  | 0 => some (ppn * 65536 + inPage)
  | 1 => some (clusterBase (bitsAt ppn 8 7) + ppn % 128 * 65536 + inPage)
  | 2 => (d.scratchOf (bitsAt ppn 7 4)).map (fun core => scratchBase core + ppn % 16 * 65536 + inPage)
  | _ => none

/-- The page may be reached from a context (cause TARGET of Table 07.6). A table-region page belongs to the LIN watch whose context maps it. -/
def Dev.pageAllowed (d : Dev) (ctx p : Nat) : Bool :=
  let h := d.homePage p
  if pageTable h then ctx < 4096 && d.wdKind ctx == 0 else !(pageTranslation h || pageSpare h)

/-- The access bit of a tensor or page table entry: 0 READ, 1 WRITE. -/
def accessBit (write : Bool) : Nat := if write then 1 else 0

/-- The end of a walk: causes BOUNDS, PAGE, PERM and TARGET from a tensor entry and a page table entry, or cause 0 with the physical address. -/
def Dev.mapAccess (d : Dev) (ctx off : Nat) (write : Bool) (te : List Byte) (pte : Nat) : Nat × Nat :=
  let need := accessBit write
  if leAt te 4 4 ≤ off then (4, 0)
  else if !bit pte 63 then (5, 0)
  else if !bit (leAt te 9 1) need || !bit pte (61 + need) then (6, 0)
  else match d.pteAddress pte ((leAt te 0 4 + off) % 65536) with
    | none => (7, 0)
    | some a => if a < hbmSize && !d.pageAllowed ctx (a / 65536) then (7, 0) else (0, a)

/-- `n` bytes from address `a` hold one that reads as uncorrectable. -/
def badRange (bad : Nat → Bool) (a n : Nat) : Bool := (List.range n).any (fun i => bad (a + i))

/-- Address of the tensor entry of a handle, by the record of its context (R229, R230). -/
def entryAt (m : Mem) (handle : Nat) : Nat := leNat (m.bytes (ctxRecord (handleCtx handle)) 4) * 64 + 16 * handleTensor handle

/-- Address of the page table entry for byte `off` of a handle's tensor (R231). -/
def pteAt (m : Mem) (handle off : Nat) : Nat :=
  leNat (m.bytes (ctxRecord (handleCtx handle) + 8) 4) * 64 + 8 * ((leNat (m.bytes (entryAt m handle) 4) + off) / 65536)

/-- A walk of the tables for one byte of an access (R233): cause 0 and the physical address, or the first cause that applies; with WALK_ECC the
address of the structure that reads with the error. -/
def Dev.walk (d : Dev) (m : Mem) (bad : Nat → Bool) (handle off : Nat) (write : Bool) : Nat × Nat :=
  let ctx := handleCtx handle
  if badRange bad (ctxRecord ctx) 16 then (8, ctxRecord ctx)
  else
    let r := m.bytes (ctxRecord ctx) 16
    let ta := entryAt m handle
    if leAt r 6 1 % 2 = 0 then (2, 0)
    else if leAt r 4 2 ≤ handleTensor handle then (3, 0)
    else if badRange bad ta 16 then (8, ta)
    else
      let te := m.bytes ta 16
      let pa := pteAt m handle off
      if leAt te 4 4 ≤ off then (4, 0)
      else if leAt r 12 4 ≤ (leAt te 0 4 + off) / 65536 then (5, 0)
      else if badRange bad pa 8 then (if bit (leAt te 9 1) (accessBit write) then (8, pa) else (6, 0))
      else d.mapAccess ctx off write te (leNat (m.bytes pa 8))

/-- The entry of a translation cache that serves a byte of a handle's tensor (R234). -/
def cacheHit (cache : List XltEntry) (handle off : Nat) : Option XltEntry :=
  cache.find? (fun e => e.ctx == handleCtx handle && e.tensor == handleTensor handle && e.page == (leAt e.te 0 4 + off) / 65536)

/-- Translate one byte of an access (R233), with the cache entries that serve it. -/
def Dev.xlate (d : Dev) (m : Mem) (bad : Nat → Bool) (cache : List XltEntry) (poster handle off : Nat) (write : Bool) : Nat × Nat :=
  let ctx := handleCtx handle
  if !bit handle 31 || bitsAt handle 17 12 != 0 || 5119 < ctx then (1, 0)
  else if ctx = 5119 then
    if 1 < poster then (2, 0)
    else match systemTensor (handleTensor handle) with
      | none => (3, 0)
      | some (base, size) =>
        if size ≤ off then (4, 0)
        else if handleTensor handle < 256 && pageTable (d.homePage ((base + off) / 65536)) then (7, 0)
        else (0, base + off)
  else match cacheHit cache handle off with
    | some e => d.mapAccess ctx off write e.te e.pte
    | none => d.walk m bad handle off write

/-- The cache entry that a walk for a byte of a handle's tensor leaves with a unit, where the walk ends without a fault (R234). -/
def Dev.walkEntry (d : Dev) (m : Mem) (bad : Nat → Bool) (unit handle off : Nat) (write : Bool) : Option XltEntry :=
  if 5119 ≤ handleCtx handle || (d.walk m bad handle off write).1 != 0 then none
  else
    let te := m.bytes (entryAt m handle) 16
    some ⟨unit, handleCtx handle, handleTensor handle, (leAt te 0 4 + off) / 65536, te, leNat (m.bytes (pteAt m handle off) 8)⟩

/-- What a walk for a byte of a handle's tensor reads: context record, tensor entry and page table entry. -/
def walkRanges (m : Mem) (handle off : Nat) : List (Nat × Nat) :=
  if 5119 ≤ handleCtx handle then [] else [(ctxRecord (handleCtx handle), 16), (entryAt m handle, 16), (pteAt m handle off, 8)]

/-- An engine operand maps to HBM (cause TARGET of Table 07.6): its context is open and its tables say so. -/
def Dev.operandHbm (d : Dev) (m : Mem) (handle : Nat) : Bool :=
  let r := d.xlate m m.bad [] 2 handle 0 false
  handleCtx handle != 5119 && r.1 == 0 && decide (r.2 < hbmSize)

/-- Virtual address of a handle's first byte, for the alignment rule of R236. -/
def tensorVa (m : Mem) (handle : Nat) : Nat := if handleCtx handle = 5119 then 0 else leNat (m.bytes (entryAt m handle) 4)

end Sys2Proof.Machine
end

