-- ==== Sys2Proof/Machine/Skim.lean ====
section
/-!
DEFINITION. Projection checks (chapter 3): tables, seed epochs, the two lanes, record processing, and the commands of the Skim units.
-/

namespace Sys2Proof.Machine

/-- A register command of a C-die block whose registers cover both dies: it is served while either C-die answers (R38). -/
def Dev.atC (d : Dev) (k : Dev → Dev) : Dev :=
  if d.reach .c0 || d.reach .c1 then k d else d.answer .error

/-! Credits (R263, R264). -/

/-- Credits of a record with `n` payload bytes. -/
def recCredits (n : Nat) : Nat := cdiv (32 + 8 * cdiv (n + 4) 8) 64

def Dev.link (d : Dev) (p : Nat) : LinkPort := tabGet .reset d.links p

def Dev.putLink (d : Dev) (p : Nat) (l : LinkPort) : Dev := { d with links := tabSet .reset d.links p l }

/-- Credits of a receive channel: those of R262, or 512 for each channel of BOND (R285). -/
def rxCredits (bond : Bool) (vc : Nat) : Nat := if bond then 512 else if vc = 0 then 6144 else if vc = 2 then 512 else 256

/-- Free credits of a receive channel: those of CONFIG, and those freed since, less those the peer has used. -/
def LinkPort.rxFree (l : LinkPort) (bond : Bool) (vc : Nat) : Nat := rxCredits bond vc + tabGet 0 l.rxLimit vc - tabGet 0 l.rxUsed vc

/-- Free all credits of a record at once (R264); a record of an earlier epoch frees no more than the buffer holds. -/
def LinkPort.free (l : LinkPort) (vc n : Nat) : LinkPort :=
  { l with rxLimit := tabSet 0 l.rxLimit vc (tabGet 0 l.rxLimit vc + min (recCredits n) (tabGet 0 l.rxUsed vc - tabGet 0 l.rxLimit vc)) }

/-! Watches and weights. -/

/-- LIN watches that are not IDLE. -/
def Dev.linWatches (d : Dev) : List Nat := d.activeWatches.filter (fun w => d.wdKind w == 0)

/-- Watches of SRC_TYPE 0 on a port that are not IDLE. -/
def Dev.portWatches (d : Dev) (p : Nat) : List Nat := d.activeWatches.filter (fun w => d.wdSrcType w == 0 && d.wdPort w == p)

/-- The layer entry that a watch names. -/
def Dev.layerOf (d : Dev) (w : Nat) : List Nat := (d.model (d.wdModel w)).layers.getD (d.wdLayer w) []

/-- Weight bytes of the layer of a watch: offset in WEIGHTS, and length (Table 05.12). -/
def Dev.layerWeights (d : Dev) (w : Nat) : Nat × Nat :=
  let l := d.layerOf w
  (l.getD 4 0 + 4294967296 * l.getD 5 0, l.getD 6 0 + 4294967296 * l.getD 7 0)

/-- The columns of W of the layer of a watch, as the rebuild streams them out of HBM (R99, R149). -/
def Dev.weightColumns (d : Dev) (m : Mem) (w : Nat) : List (List Fl) :=
  let bs := (d.model (d.wdModel w)).weights m (d.layerWeights w).1 (d.layerWeights w).2
  let fmt := bitsAt ((d.layerOf w).getD 1 0) 7 4
  (List.range (d.linK w)).map (fun j => (List.range (d.linM w)).map (fun i => Fl.at bs fmt (d.linM w * d.linK w) (i * d.linK w + j)))

/-- b[i] of the layer of a watch; 0 where the watch adds no bias. -/
def Dev.bias (d : Dev) (w i : Nat) : Option Dy :=
  let l := d.layerOf w
  let f := bitsAt (l.getD 1 0) 11 8
  if d.linBias w then
    (unitElems f (slice (d.model (d.wdModel w)).params (l.getD 8 0 + i * fmtBytes f) (fmtBytes f))).getD 0 none
  else some .zero

/-! Secret vectors and tables (R80, R85, R95, R163). -/

/-- Entry `i` of r_p: 0 to 255 on the integer lane, +1 or -1 on the float lane. -/
def secretEntry (float : Bool) (seed p i : Nat) : Int :=
  let v := Config.secret seed p i
  if float then (if v % 2 = 0 then 1 else -1) else ((v % 256 : Nat) : Int)

/-- The FP32 sum of terms, in an order that the spec leaves open within the bound of R154 (R155, R163), with its exceptions. -/
def tableSum (terms : List Fl) : Fl × Nat :=
  sum32 (Config.floatSum ((terms.filterMap Fl.num).map (fun d => (d.m, d.e)))) terms

/-- Exceptions of an output element (Table 05.18): NONFINITE where it is not finite. -/
def nonFinite (x : Fl) : Nat := if x.num.isSome then 0 else 1

/-- One entry of t_p, or of r_pᵀb, from the `M` elements it sums, with its exceptions (R152, R163); none where it is not finite. -/
def tableEntry (float : Bool) (seed p : Nat) (col : List Fl) : Option Int × Nat :=
  let terms := (List.range col.length).map (fun i => (Fl.ofInt (secretEntry float seed p i)).mulX (col.getD i .nan))
  if float then
    let (x, e) := tableSum terms
    ((x.num).map (fun _ => ((x.bits 8 0 : Nat) : Int)), e ||| nonFinite x)
  else if terms.all (fun x => x.num.isSome) then (some (terms.foldl (fun a x => a + ((x.num).getD .zero).nearest) 0), 0)
  else (none, 1)

/-- The FP32 sum of the magnitudes of a column, with upward rounding (R85, R163), and its exceptions; none where it is not finite. -/
def absSum (col : List Fl) : Option Dy × Nat :=
  let ds := (col.filterMap Fl.num).map Dy.abs
  let x := sumUp32 (Config.floatSum (ds.map (fun d => (d.m, d.e)))) ds
  if ds.length < col.length then (none, 1) else (x.num, if x.num.isSome then 0 else 5)

/-- The FP32 word of a number rounded upward; none where it leaves the FP32 range. -/
def upWord (x : Dy) : Option Int :=
  let y := ((Fl.ofDy x).toFmt 8 1 false).1
  (y.num).map (fun _ => ((y.bits 8 0 : Nat) : Int))

/-- â_j (R85): the sum of the magnitudes divided by 1 − γ_M(2^−24), rounded upward to an FP32 word. -/
def absEntry (col : List Fl) : Option Int × Nat :=
  let m := col.length
  match absSum col with
  | (some x, e) =>
    let y := upWord (let q := Dy.roundUpRat (x.m.toNat * (16777216 - m)) (16777216 - 2 * m); ⟨q.m, q.e + x.e⟩)
    (y, if y.isSome then e else 5)
  | (none, e) => (none, e)

/-- All entries of a list, where each exists. -/
def allSome (l : List (Option Int)) : Option (List Int) := if l.all (·.isSome) then some (l.filterMap id) else none

/-- The entries t_p, for each p, from the columns of a matrix. -/
def tableOf (float : Bool) (seed pn : Nat) (cols : List (List Fl)) : Option (List (List Int)) :=
  let rows := (List.range pn).map (fun p => allSome (cols.map (fun c => (tableEntry float seed p c).1)))
  if rows.all (·.isSome) then some (rows.filterMap id) else none

/-- The table set that the weights give; status 3 where an entry is not finite (R163). Bias terms that are not finite make no table invalid: they
fail every column (R87). -/
def Dev.buildTable (d : Dev) (m : Mem) (w : Nat) (s : TableSet) : TableSet :=
  let float := d.linFloat w
  let cols := d.weightColumns m w
  let b := (List.range (d.linM w)).map (fun i => match d.bias w i with
    | some x => Fl.ofDy x
    | none => .nan)
  let rb := allSome ((List.range (d.linP w)).map (fun p => (tableEntry float s.seed p b).1))
  let ab := if float then (absSum b).1.bind upWord else some 0
  match tableOf float s.seed (d.linP w) cols, (if float then allSome (cols.map (fun c => (absEntry c).1)) else some []) with
  | some t, some a =>
    (match rb, ab with
    | some rb, some ab => { s with status := 2, t := t, a := a, rb := rb, ab := ab, badBias := false }
    | _, _ => { s with status := 2, t := t, a := a, rb := [], ab := 0, badBias := true })
  | _, _ => { s with status := 3 }

/-- The exceptions that the sums of a PROJECT operation set, in the layout of MTX_EXC (R152). -/
def Dev.buildExc (d : Dev) (m : Mem) (w : Nat) (s : TableSet) : Nat :=
  if !d.linFloat w then 0
  else (d.weightColumns m w).foldl (fun e c =>
    (List.range (d.linP w)).foldl (fun e p => e ||| (tableEntry true s.seed p c).2) (e ||| (absEntry c).2)) 0

/-- Bytes of one table set (Table 03.9). -/
def Dev.tableBytes (d : Dev) (w : Nat) : Nat :=
  let p := d.linP w
  let k := d.linK w
  let m := d.linM w
  if d.linForm w = 2 then
    (if d.linFloat w then 4 * (p + 1) * k + cdiv (p * m) 64 * 8 else 8 * p * k + p * m) + 65536
  else if d.linFloat w then 4 * p * k + 4 * k + cdiv (p * m) 64 * 8 + 4 * p + 4
  else 8 * p * k + p * m + 8 * p

def Dev.curSet (d : Dev) (w : Nat) : TableSet := tabGet .none d.skim.current w
def Dev.nextSet (d : Dev) (w : Nat) : TableSet := tabGet .none d.skim.next w

def Dev.putCur (d : Dev) (w : Nat) (t : TableSet) : Dev := { d with skim := { d.skim with current := tabSet .none d.skim.current w t } }
def Dev.putNext (d : Dev) (w : Nat) (t : TableSet) : Dev := { d with skim := { d.skim with next := tabSet .none d.skim.next w t } }

/-- Array clocks of one PROJECT table (R163). -/
def Dev.projectClocks (d : Dev) (w : Nat) : Nat :=
  let rows := if d.linFloat w then d.linP w + 1 else d.linP w
  let f := bitsAt ((d.layerOf w).getD 1 0) 7 4
  let r := if f = 8 then 1 else max 1 (rho4 f f (if d.linFloat w then 0 else 2))
  if d.linForm w = 2 then 0 else cdiv (4 * (rows * d.linM w * d.linK w)) (max 1 d.engines * 1024 * r) + 64

/-- The PROJECT operation that builds one table set; its tiles last at most 2 048 clocks. -/
def Dev.projectOp (d : Dev) (w : Nat) : ArrOp :=
  { desc := [32], owner := .build w, deadline := 0, prio := 0, last := true, tiles := max 1 (cdiv (d.projectClocks w) 2048),
    done := 0, aborted := false, postedAt := d.now, readyAt := none, clk := 0, charged := 0, since := 0, size := 0 }

/-! Epochs (R97 to R100). -/

/-- Weight bytes of the layer of a watch. -/
def Dev.watchWeightBytes (d : Dev) (w : Nat) : Nat := if d.linForm w = 2 then 0 else (d.layerWeights w).2

/-- The layers that LIN watches check, each once, with their weight bytes (R97). -/
def Dev.watchedLayers (d : Dev) : List (Nat × Nat × Nat) :=
  (d.linWatches.map (fun w => (d.wdModel w, d.wdLayer w, d.watchWeightBytes w))).dedup

/-- W_bytes of R97. -/
def Dev.wBytes (d : Dev) : Nat := (d.watchedLayers.map (fun x => x.2.2)).foldl (· + ·) 0

/-- T_eff in milliseconds. -/
def Dev.tEff (d : Dev) : Nat := max (d.fld SKM.EPOCH_LEN_EPOCH_MS) (d.fld SKM.EPOCH_MIN_MIN_MS)

/-- Skim unit `u` is enabled. -/
def Dev.skimOn (d : Dev) (u : Nat) : Bool := bit (d.fld SKM.CTRL_EN) u

/-- The next tables of every LIN watch are complete or invalid. -/
def Dev.nextBuilt (d : Dev) : Bool := d.linWatches.all (fun w => 2 ≤ (d.nextSet w).status)

/-- Every enabled unit has passed its known-answer test. -/
def Dev.katPassed (d : Dev) : Bool := [0, 1, 2, 3].all (fun u => !d.skimOn u || tabGet false d.skim.kat u)

/-- Bytes of the watched layers that every LIN watch on them has projected into its next tables. -/
def Dev.rebuiltBytes (d : Dev) : Nat :=
  ((d.watchedLayers.filter (fun x =>
    d.linWatches.all (fun w => d.wdModel w != x.1 || d.wdLayer w != x.2.1 || (d.nextSet w).status == 2))).map (fun x => x.2.2)).foldl (· + ·) 0

/-- SKM_REBUILD as it follows from the sets (Table 03.13). -/
def Dev.rebuildStatus (d : Dev) : Dev :=
  let total := d.wBytes
  ((d.flag SKM.REBUILD_NEXT_READY (d.nextBuilt && d.katPassed && d.linWatches != [])).flag SKM.REBUILD_INVALID
    (d.linWatches.any (fun w => (d.nextSet w).status == 3))).put SKM.REBUILD_PROGRESS
    (if total = 0 then 0 else min 1024 (d.rebuiltBytes * 1024 / total))

/-- MIN_MS of R97: 1 000 · W_bytes / (286.72 · 10^9) + 5 milliseconds, rounded up, at least 50. SKM_REBUILD follows the watched layers too. -/
def Dev.updateMinMs (d : Dev) : Dev := (d.put SKM.EPOCH_MIN_MIN_MS (max 50 (cdiv (d.wBytes * 25) 7168000000 + 5))).rebuildStatus

/-- Queue a build, or finish at once where a FORM 2 watch needs none (R94). Builds of current sets go ahead of the others (R543); a new next set has
passed no known-answer test (R98, R102). Secret vectors never repeat across boots (R95). -/
def Dev.startBuild (d : Dev) (w : Nat) (cur : Bool) : Dev :=
  let form2 := d.linForm w = 2
  let s : TableSet := { TableSet.none with status := if form2 then 2 else 1, seed := d.boot.step5At * 4294967296 + d.skim.drawn,
                                           epoch := d.fld SKM.EPOCH_NO_EPOCH + (if cur then 0 else 1) }
  let d0 := { d with skim := { d.skim with drawn := d.skim.drawn + 1, kat := if cur then d.skim.kat else [] } }
  let d1 := if cur then d0.putCur w s else d0.putNext w s
  if form2 then d1
  else
    let o := d1.projectOp w
    { d1 with arr := { d1.arr with background := if cur then o :: d1.arr.background else d1.arr.background ++ [o] } }

/-- The sets of LIN watches that are not built yet start, current ones first (R99, R543); not while the entropy test fails (R95, R455). -/
def Dev.startBuilds (d : Dev) : Dev :=
  let d1 := if tabGet false d.snag.cause 518 then d
    else
      let d1 := d.linWatches.foldl (fun d w => if (d.curSet w).status = 0 then d.startBuild w true else d) d
      d1.linWatches.foldl (fun d w =>
        if (d.nextSet w).status = 0 && (d.curSet w).status ≠ 1 && (tabGet .none d.skim.former w).status = 0 then d.startBuild w false
        else d) d1
  d1.rebuildStatus

/-- A failed entropy test stops the rebuilds under way (R95): their sets are not built, and start again when a test passes. -/
def Dev.stopBuilds (d : Dev) : Dev :=
  d.linWatches.foldl (fun d w =>
    let d1 := if (d.curSet w).status = 1 then (d.dropOps (.build w)).putCur w .none else d
    if (d1.nextSet w).status = 1 then (d1.dropOps (.build w)).putNext w .none else d1) d

/-- The set that the build of a watch is making: the current one first. -/
def Dev.buildingSet (d : Dev) (w : Nat) : Option (Bool × TableSet) :=
  if (d.curSet w).status = 1 then some (true, d.curSet w)
  else if (d.nextSet w).status = 1 then some (false, d.nextSet w) else none

/-- Replace the set that a build is making. -/
def Dev.putBuilt (d : Dev) (w : Nat) (cur : Bool) (x : TableSet) : Dev := if cur then d.putCur w x else d.putNext w x

/-- The build of a watch restarts; the second failure of a table marks it invalid (R101, R169, R241). -/
def Dev.buildFault (d : Dev) (w : Nat) : Dev :=
  match d.buildingSet w with
  | none => d
  | some (cur, s) =>
    let d1 := d.dropOps (.build w)
    if s.retried then (d1.putBuilt w cur { s with status := 3 }).startBuilds
    else
      let d2 := d1.putBuilt w cur { s with retried := true }
      { d2 with arr := { d2.arr with background := d2.projectOp w :: d2.arr.background } }

/-- A PROJECT operation has completed: the set it builds is complete, or invalid where an entry is not finite. Weights that read with an
uncorrectable error fail the build instead (R101). -/
def Dev.buildDone (d : Dev) (m : Mem) (w : Nat) : Dev :=
  match d.buildingSet w with
  | none => d
  | some (cur, s) =>
    let (d1, bad) := d.readMem m (10 + d.wdPort w) ((d.model (d.wdModel w)).weightRanges (d.layerWeights w).1 (d.layerWeights w).2)
    if bad then d1.buildFault w else (d1.putBuilt w cur (d1.buildTable m w s)).startBuilds

/-- The swap conditions of R98 hold. -/
def Dev.swapReady (d : Dev) : Bool :=
  d.skim.epochOpen && (d.skim.rekey || d.skim.swapAt + msCycles d.tEff ≤ d.now) && d.nextBuilt && d.katPassed

/-- The swap at B(s) (R98, R99): next becomes current, and the former sets stay until the job for frame s − 2 is final. -/
def Dev.epochSwap (d : Dev) (s : Nat) : Dev :=
  let keep := d.skim.current.filter (fun e => d.linWatches.contains e.1)
  let g := { d.skim with former := keep, current := d.skim.next, next := [], swapAt := d.now, rekey := false, kat := [],
                         formerFrame := some (frameAdd s 4294967294) }
  ((({ d with skim := g }.put SKM.EPOCH_NO_EPOCH (d.fld SKM.EPOCH_NO_EPOCH + 1)).put SKM.SWAP_FRAME_FRAME_NO s).flag
    SKM.REBUILD_OVERRUN false).rebuildStatus

/-- A watch has a job of frame `f` or earlier that is not final. -/
def Dev.jobsThrough (d : Dev) (f w : Nat) : Bool :=
  (d.watchOf w).ring.any (fun j => !j.final && (j.frame == f || framePrecedes j.frame f))

/-- The former set of a watch is freed once its job for frame s − 2 is final, and the rebuild for the following epoch begins in it (R99). -/
def Dev.freeFormer (d : Dev) : Dev :=
  match d.skim.formerFrame with
  | none => d
  | some f =>
    let left := d.skim.former.filter (fun e => d.jobsThrough f e.1)
    if left.length = d.skim.former.length && left != [] then d
    else ({ d with skim := { d.skim with former := left, formerFrame := if left == [] then none else some f } }).startBuilds

/-- The table set of the epoch of a job. -/
def Dev.jobTable (d : Dev) (w : Nat) (j : Job) : TableSet :=
  let c := d.curSet w
  let f := tabGet .none d.skim.former w
  if c.status ≠ 0 && c.epoch = j.epoch then c else if f.status ≠ 0 && f.epoch = j.epoch then f else .none

/-! Slots, columns and coverage of a job's records. -/

/-- Contract format of a slot of a LIN watch. -/
def Dev.linFmt (d : Dev) (w slot : Nat) : Nat := if slot = 0 then d.linIn w else if slot = 1 then d.linOut w else d.linW w

/-- Rows of a slot of a LIN watch: the length of its columns (R74, R93). -/
def Dev.linRows (d : Dev) (w slot : Nat) : Nat :=
  if slot = 0 then (if d.linForm w = 1 then d.convCin w else d.linK w) else d.linM w

/-- Byte range of elements `a` to `a + n - 1` of a slot. -/
def elemRange (fmt a n : Nat) : Nat × Nat := (a / fmtElems fmt * fmtBytes fmt, cdiv (a + n) (fmtElems fmt) * fmtBytes fmt)

/-- Bytes of a range that records of a slot hold. -/
def covered (recs : List Rec) (slot lo hi : Nat) : Nat :=
  (recs.filter (fun r => r.slot == slot)).foldl (fun a r => a + (min hi (r.off + r.bytes.length) - max lo r.off)) 0

/-- A whole range has arrived. -/
def hasRange (recs : List Rec) (slot : Nat) (r : Nat × Nat) : Bool := covered recs slot r.1 r.2 == r.2 - r.1

/-- A record of a range arrived with an uncorrected error. -/
def unsound (recs : List Rec) (slot : Nat) (r : Nat × Nat) : Bool :=
  recs.any (fun x => x.slot == slot && !x.sound && decide (x.off < r.2) && decide (r.1 < x.off + x.bytes.length))

/-- The ranges that column `c` of a LIN watch needs: slot and byte range (R74, R93, R94). -/
def Dev.columnNeeds (d : Dev) (w c : Nat) : List (Nat × (Nat × Nat)) :=
  let m := d.linM w
  let out := (1, elemRange (d.linOut w) (c * m) m)
  let rows := d.linRows w 0
  match d.linForm w with
  | 1 => out :: (List.range (d.convTaps w)).map (fun t =>
      (0, elemRange (d.linIn w) ((c * d.convStride w + t * d.convDil w) * rows) rows))
  | 2 => [out, (0, elemRange (d.linIn w) (c * rows) rows), (2, elemRange (d.linW w) 0 (m * d.linK w))]
  | _ => [out, (0, elemRange (d.linIn w) (c * rows) rows)]

/-- Every byte that a column needs has arrived. -/
def Dev.columnHere (d : Dev) (w c : Nat) (recs : List Rec) : Bool := (d.columnNeeds w c).all (fun n => hasRange recs n.1 n.2)

/-- An input of the column arrived with an uncorrected error: the unit never counts (R62). -/
def Dev.columnBad (d : Dev) (w c : Nat) (recs : List Rec) : Bool := (d.columnNeeds w c).any (fun n => unsound recs n.1 n.2)

/-- The elements of a record with their indices in the slot. -/
def recElems (fmt : Nat) (r : Rec) : List (Nat × Option Dy) :=
  let a := r.off / fmtBytes fmt * fmtElems fmt
  let es := decodeSlot fmt r.bytes
  (List.range es.length).map (fun i => (a + i, es.getD i none))

/-- The table index that element `n` of slot 0 has for column `c`, where it has one: the element itself, or its taps (R93). -/
def Dev.inputIndices (d : Dev) (w c n : Nat) : List Nat :=
  let rows := d.linRows w 0
  let col := n / rows
  let ch := n % rows
  if d.linForm w = 1 then
    ((List.range (d.convTaps w)).filter (fun t => c * d.convStride w + t * d.convDil w == col)).map (fun t => ch * d.convTaps w + t)
  else if col = c then [ch] else []

/-- What one column's sums are made of: its elements in arrival order, as slot, index in the column or table, and value. -/
def Dev.columnTerms (d : Dev) (w c : Nat) (recs : List Rec) : List (Nat × Nat × Option Dy) :=
  recs.flatMap (fun r =>
    if r.slot = 1 then
      ((recElems (d.linOut w) r).filter (fun e => e.1 / d.linM w == c)).map (fun e => (1, e.1 % d.linM w, e.2))
    else if r.slot = 0 then
      (recElems (d.linIn w) r).flatMap (fun e => (d.inputIndices w c e.1).map (fun i => (0, i, e.2)))
    else [])

/-- The columns of A of a FORM 2 job (R94), stored column by column with M rows. -/
def Dev.aColumns (d : Dev) (w : Nat) (recs : List Rec) : List (List (Option Dy)) :=
  let all := (recs.filter (fun r => r.slot == 2)).flatMap (recElems (d.linW w))
  let at_ (n : Nat) : Option Dy := ((all.find? (fun e => e.1 == n)).map (·.2)).getD none
  (List.range (d.linK w)).map (fun j => (List.range (d.linM w)).map (fun i => at_ (j * d.linM w + i)))

/-! The lanes. -/

/-- The working table of a job: that of its epoch, or for FORM 2 the one built from its own A. -/
def Dev.workTable (d : Dev) (w : Nat) (s : TableSet) (recs : List Rec) : Option TableSet :=
  if d.linForm w = 2 then
    let cols := (d.aColumns w recs).map (fun c => c.map (fun x => match x with
      | some v => Fl.ofDy v
      | none => .nan))
    let float := d.linFloat w
    match tableOf float s.seed (d.linP w) cols, (if float then allSome (cols.map (fun c => (absEntry c).1)) else some []) with
    | some t, some a => some { s with t := t, a := a, rb := (List.range (d.linP w)).map (fun _ => 0), ab := 0 }
    | _, _ => none
  else some s

/-- P_p and Q_p of the integer lane (R80), with bit 0 of P_0 inverted by an injection. -/
def Dev.intProj (d : Dev) (w : Nat) (s : TableSet) (terms : List (Nat × Nat × Option Dy)) (p : Nat) : Int × Int :=
  let v (x : Option Dy) : Int := (x.getD .zero).nearest
  let pp := terms.foldl (fun a t => if t.1 = 1 then a + secretEntry false s.seed p t.2.1 * v t.2.2 else a) 0
  let tab := s.t.getD p []
  let q := terms.foldl (fun a t => if t.1 = 0 then a + tab.getD t.2.1 0 * v t.2.2 else a) (0 : Int)
  (pp, q + (if d.linBias w then s.rb.getD p 0 else 0))

/-- The outcome of one unit: none where it passes, else cause and projection (R73, R83 to R87, Table 03.7). -/
def Dev.intUnit (d : Dev) (w : Nat) (s : TableSet) (terms : List (Nat × Nat × Option Dy)) (inj : Bool) : Option (Nat × Nat) :=
  ((List.range (d.linP w)).find? (fun p =>
    let (a, b) := d.intProj w s terms p
    let a' := if inj && p = 0 then (if a % 2 = 0 then a + 1 else a - 1) else a
    a' != b)).map (fun p => (1, p))

/-- The value of an FP32 word held in a table. -/
def wordDy (x : Int) : Dy := (fp32 x.toNat).getD .zero

/-- Sum with directed rounding at each step. -/
def Dy.acc (up : Bool) (a x : Dy) : Dy := (a.add (x.round up)).round up

/-- The constants G, η and μ of R83, rounded upward at arm (R84). -/
def Dev.linConsts (d : Dev) (w : Nat) : Dy × Dy × Dy :=
  let dbl := if d.linAny w then 1 else 0
  let ua := fmtU (d.linAcc w) - dbl
  let uo := fmtU (d.linOut w) - dbl
  let k := d.linL w + 1
  let m := d.linM w
  let pa := 2 ^ ua
  let g := Dy.roundUpRat (k * (16777216 - m) + m * (pa - k)) ((pa - k) * (16777216 - m))
  let eta := Dy.roundUpRat 1 (2 ^ uo - 1)
  let mu := (((Dy.ofInt (m * k)).mul ⟨1, -((fmtEps (d.linAcc w) : Nat) : Int)⟩).add
    ((Dy.ofInt m).mul ⟨1, -((fmtEps (d.linOut w) : Nat) : Int)⟩)).round true
  (g, eta, mu)

/-- The unit of the float lane (R83 to R87); an injection takes B = −1. -/
def Dev.floatUnit (d : Dev) (w : Nat) (s : TableSet) (terms : List (Nat × Nat × Option Dy)) (inj : Bool) : Option (Nat × Nat) :=
  if terms.any (fun t => t.2.2.isNone) || (d.linBias w && s.badBias) then some (3, 0)
  else
    let v (t : Nat × Nat × Option Dy) : Dy := t.2.2.getD .zero
    let outs := terms.filter (fun t => t.1 == 1)
    let ins := terms.filter (fun t => t.1 == 0)
    let sS := outs.foldl (fun a t => a.acc true (v t).abs) Dy.zero
    let aA0 := ins.foldl (fun a t => a.acc true ((wordDy (s.a.getD t.2.1 0)).mul (v t).abs)) Dy.zero
    let aA := aA0.acc true (if d.linBias w then wordDy s.ab else .zero)
    let sum (up : Bool) (f : (Nat × Nat × Option Dy) → Dy) (l : List (Nat × Nat × Option Dy)) : Dy :=
      l.foldl (fun a t => a.acc up (f t)) Dy.zero
    let (g, eta, mu) := d.linConsts w
    let b := if inj then Dy.ofInt (-1) else (((g.mul aA).add (eta.mul sS)).add mu).round true
    let bounds (p : Nat) : Dy × Dy × Dy × Dy :=
      let out (t : Nat × Nat × Option Dy) : Dy := (Dy.ofInt (secretEntry true s.seed p t.2.1)).mul (v t)
      let inp (t : Nat × Nat × Option Dy) : Dy := (wordDy ((s.t.getD p []).getD t.2.1 0)).mul (v t)
      let rb := if d.linBias w then wordDy (s.rb.getD p 0) else .zero
      (sum false out outs, sum true out outs, (sum false inp ins).acc false rb, (sum true inp ins).acc true rb)
    let ps := List.range (d.linP w)
    let wide := ps.any (fun p => let (pl, ph, ql, qh) := bounds p; !(pl.inFp32 && ph.inFp32 && ql.inFp32 && qh.inFp32))
    if wide || !b.inFp32 then some (3, 0)
    else
      (ps.find? (fun p =>
        let (pl, ph, ql, qh) := bounds p
        b.lt ((pl.sub qh).round false) || b.lt ((ql.sub ph).round false))).map (fun p => (2, p))

/-- A word of the secret vectors applies the injection of the unit's register (R108): mode 1 on the integer lane, mode 2 on the float lane. -/
def Dev.skimInjected (d : Dev) (u w : Nat) : Bool :=
  d.on (SKM.U_INJ_ARM u) && d.fld (SKM.U_INJ_WATCH_ID u) == w
    && d.fld (SKM.U_INJ_MODE u) == (if d.linFloat w then 2 else 1)

/-- Decide unit `c` of an open job whose input is complete (R91). -/
def Dev.decideUnit (d : Dev) (w : Nat) (s : TableSet) (recs : List Rec) (k c : Nat) : Dev :=
  match d.openJob w k with
  | none => d
  | some j =>
    let u := d.wdPort w
    let inj := d.skimInjected u w
    let terms := d.columnTerms w c recs
    let a2 := d.linForm w = 2 && d.linFloat w && (d.aColumns w recs).any (fun col => col.any (·.isNone))
    let r := match (if a2 then none else d.workTable w s recs) with
      | none => some (3, 0)
      | some t => if d.linFloat w then d.floatUnit w t terms inj else d.intUnit w t terms inj
    let j1 := { j with checked := j.checked + 1, units := j.units ++ [c], status := 1 }
    let j2 := match r with
      | none => j1
      | some (cause, p) => j1.fail (cause * 16777216 + p * 2097152 + c % 65536)
    let d1 := if inj then d.flag (SKM.U_INJ_ARM u) false else d
    let d2 := { d1 with skim := { d1.skim with checked := tabUpd 0 d1.skim.checked u (· + 1) } }
    (if r.isSome then d2.count (SKM.U_FAILS_FAILS u) 1 else d2).putJob w j2

/-- The unit counts: its table is complete and the last known-answer test of its unit passed (R101, R102). -/
def Dev.canCheck (d : Dev) (w : Nat) (s : TableSet) : Bool := s.status == 2 && !d.on (SKM.U_STAT_KAT_FAIL (d.wdPort w))

/-- Decide every selected column that is complete in the attempt, in column order; then note whether the job's result is final. -/
def Dev.linAdvance (d : Dev) (w k : Nat) : Dev :=
  match d.openJob w k with
  | none => d
  | some j =>
    let x := d.jobIn w k
    let s := d.jobTable w j
    let now := x.recs.drop x.attempt
    let due := sortBy id (j.sample.filter (fun c => !j.units.contains c && d.columnHere w c now && !d.columnBad w c now))
    let d1 := if d.canCheck w s && !j.ended then due.foldl (fun d c => d.decideUnit w s now k c) d else d
    match d1.openJob w k with
    | none => d1
    | some j1 =>
      let settled := j1.sample.all (fun c => j1.units.contains c || d.columnBad w c x.recs || (!d.canCheck w s && d.columnHere w c x.recs))
      if settled && j1.restarts = 0 then d1.putJob w { j1 with status := 2 }
      else if j1.sample.all (fun c => j1.units.contains c || d.columnBad w c x.recs) then d1.putJob w { j1 with status := 2 } else d1

/-! Records. -/

/-- Slots that a watch takes. -/
def Dev.slotOk (d : Dev) (w slot : Nat) : Bool :=
  match d.wdKind w with
  | 0 => slot < 2 || (slot == 2 && d.linForm w == 2)
  | 1 => slot < 2
  | _ => slot == 1

/-- Contract format of a slot (R75, R131, R202). -/
def Dev.slotFmt (d : Dev) (w slot : Nat) : Nat :=
  match d.wdKind w with
  | 0 => d.linFmt w slot
  | 1 => if slot = 0 then d.nlsIn w else d.nlsOut w
  | _ => bitsAt (((d.model (d.wdModel w)).stencils.getD (d.stnFirst w) []).getD 5 0) 15 8

/-- Rows of the column layout of a slot (R74). -/
def Dev.slotRows (d : Dev) (w slot : Nat) : Nat :=
  match d.wdKind w with
  | 0 => d.linRows w slot
  | 1 => d.nlsV w
  | _ => max 1 (d.wdDecl w)

/-! Readiness of array stages (R159, R185, R186, R238). -/

/-- The compared records of a frame have not all arrived. -/
def Dev.stageIncompleteCmp (d : Dev) (z k : Nat) : Bool :=
  !hasRange (d.jobIn z k).recs 1 (elemRange (d.slotFmt z 1) 0 (d.declared z * (if d.wdKind z = 1 then 1 else d.slotRows z 1)))

/-- The inputs of a job's stage are complete: its selected rows, answer or compared records; sample inputs are read as they stand. -/
def Dev.stageInputs (d : Dev) (w k : Nat) : Bool :=
  match d.jobOf w k with
  | none => false
  | some j =>
    let x := d.jobIn w k
    match d.wdKind w with
    | 1 =>
      let v := d.nlsV w
      let inRecs := match d.nlsShare w with
        | some z => ((d.jobIn z k).recs, 1)
        | none => (x.recs, 0)
      j.sample.all (fun r => hasRange x.recs 1 (elemRange (d.nlsOut w) (r * v) v)
        && hasRange inRecs.1 inRecs.2 (elemRange (d.nlsIn w) (r * v) v))
    | 6 => d.shdType w = 0 || !d.stageIncompleteCmp (d.shdWatch w) k
    | 7 => hasRange x.recs 1 (elemRange (d.slotFmt w 1) 0 j.declared)
    | _ => true

/-- Sixteenths after B(k + 1) from which the planner lets the stage of a port's records start (R185). -/
def Dev.portEnd (d : Dev) (p : Nat) : Nat := if d.fld (TCK.PORT_END_END p) = 0 then 16 * d.len else d.fld (TCK.PORT_END_END p)

/-- The port whose records the stage of a watch reads (R185): that of the compared watch for an SHD watch of CMP_TYPE 1. -/
def Dev.stagePort (d : Dev) (w : Nat) : Option Nat :=
  match d.wdKind w with
  | 1 => some (d.wdPort w)
  | 7 => some (d.wdPort w)
  | 6 => if d.shdType w = 1 then some (d.wdPort (d.shdWatch w)) else none
  | _ => none

/-- The cycle at which the records of a stage's port end. -/
def Dev.portEndAt (d : Dev) (w : Nat) : Nat := d.plan.boundaryAt + d.sixteenths (((d.stagePort w).map d.portEnd).getD 0)

/-- A PLAN operation's stage is ready: its transfers are complete (R238), and its inputs, or the time its port's records end, have come. -/
def Dev.opReady (d : Dev) (o : ArrOp) : Bool :=
  !d.stageWaits o.owner && (match o.owner with
    | .job w k => d.stageInputs w k || decide (d.portEndAt w ≤ d.now)
    | _ => true)

/-- The cycle at which a ready operation that has waited for nothing else became ready: its posting, or the end of its port's records. -/
def Dev.readySince (d : Dev) (o : ArrOp) : Nat :=
  match o.owner with
  | .job w k => if d.stageInputs w k then o.postedAt else max o.postedAt (d.portEndAt w)
  | _ => o.postedAt

/-- Note the readiness of each PLAN operation that an event has made ready (R159); `old` is the device before the event. -/
def Dev.readied (d old : Dev) : Dev :=
  { d with arr := { d.arr with plan := d.arr.plan.map (fun o =>
      if o.readyAt.isNone && d.opReady o then { o with readyAt := some (if old.opReady o then old.readySince o else d.now) } else o) } }

/-! What a record brings. -/

/-- A record is malformed (R75, R268). -/
def Dev.malformed (d : Dev) (w : Nat) (x : JobIn) (r : LinkRecord) : Bool :=
  let f := d.slotFmt w r.slot
  let hi := r.offset + r.payload.length
  !d.slotOk w r.slot || r.fmt != f || r.offset % fmtBytes f != 0 || r.payload.length % fmtBytes f != 0
    || covered x.recs r.slot r.offset hi != 0
    || (d.wdKind w == 0 && r.slot == 2 && fmtSize f (d.linM w * d.linK w) < hi)

/-- First element of a record, as a column of its slot (R75). -/
def Dev.recColumn (d : Dev) (w : Nat) (r : LinkRecord) : Nat :=
  if !d.slotOk w r.slot then 0
  else
    let f := d.slotFmt w r.slot
    r.offset / fmtBytes f * fmtElems f / max 1 (d.slotRows w r.slot)

/-- Last column that a record reaches. -/
def Dev.recLastColumn (d : Dev) (w : Nat) (r : LinkRecord) : Nat :=
  let f := d.slotFmt w r.slot
  ((r.offset + r.payload.length) / fmtBytes f * fmtElems f - 1) / max 1 (d.slotRows w r.slot)

/-- The first column beyond the declared units (R75, R93, R131). -/
def Dev.columnLimit (d : Dev) (w slot : Nat) : Nat :=
  let dn := d.wdDecl w
  match d.wdKind w with
  | 0 => if slot = 2 then d.linK w
         else if slot = 0 && d.linForm w = 1 then (dn - 1) * d.convStride w + (d.convTaps w - 1) * d.convDil w + 1 else dn
  | 1 => dn / d.nlsV w
  | _ => 1

/-- Bytes of a slot-0 record of a FORM 2 job that lie in selected columns; those of the others are skipped (R105). -/
def Dev.selectedBytes (d : Dev) (w : Nat) (sample : List Nat) (off n : Nat) : Nat :=
  (sample.map (fun c => let r := elemRange (d.linIn w) (c * d.linRows w 0) (d.linRows w 0); min r.2 (off + n) - max r.1 off)).foldl (· + ·) 0

/-- B records of a FORM 2 job that arrive before A are held in 64 KiB; one that does not fit is dropped (R94). -/
def Dev.holdFull (d : Dev) (w : Nat) (j : Job) (x : JobIn) (r : LinkRecord) : Bool :=
  let a := elemRange (d.linW w) 0 (d.linM w * d.linK w)
  let here := d.selectedBytes w j.sample r.offset r.payload.length
  d.linForm w == 2 && r.slot == 0 && !hasRange x.recs 2 a && here != 0
    && 65536 < ((x.recs.filter (fun y => y.slot == 0)).map (fun y => d.selectedBytes w j.sample y.off y.bytes.length)).foldl (· + ·) 0 + here

/-- A record of an open job: malformed, beyond the declared units, or taken (R75, R90, R133, R202). -/
def Dev.takeRecord (d : Dev) (w : Nat) (j : Job) (r : LinkRecord) (sound : Bool) : Dev :=
  let x := d.jobIn w j.frame
  if d.malformed w x r then
    let cause := if d.wdKind w = 0 then 4 else 12
    let col := d.recColumn w r % 65536
    d.putJob w (if d.wdKind w = 1 then j.failRow cause col else j.fail (cause * 16777216 + (if d.wdKind w = 0 then r.slot % 8 * 2097152 else 0) + col))
  else if d.columnLimit w r.slot ≤ d.recLastColumn w r then
    d.putJob w { j with arrived := max j.arrived (j.declared + 1) }
  else if d.wdKind w = 0 && d.holdFull w j x r then d
  else d.putJobIn w j.frame { x with recs := x.recs ++ [⟨r.slot, r.offset, r.payload, sound⟩] }

/-- Answer of a stencil as stored (R198): its bytes, for the entry the instance sent. -/
def Dev.stnEntry (d : Dev) (w : Nat) (j : Job) : List Nat := (d.model (d.wdModel w)).stencils.getD (j.sample.getD 0 0) []

def Dev.stnAnswer (d : Dev) (w : Nat) (j : Job) : List Byte :=
  let e := d.stnEntry w j
  slice (d.model (d.wdModel w)).stencilSect (e.getD 2 0) (e.getD 3 0)

/-- The bits of element `i` of stored or received units of a slot: its code, with its block's scale for an MX format (R77, R268); none where a byte
is missing. -/
def elemCode (f : Nat) (get : Nat → Option Byte) (i : Nat) : Option (List Nat) :=
  let u := i / fmtElems f * fmtBytes f
  let body (a n : Nat) : Option Nat :=
    let l := (List.range n).map (fun k => get (u + a + k))
    if l.all (·.isSome) then some (leNat (l.filterMap id)) else none
  let sub (at_ bits : Nat) : Option Nat := (body (at_ / 8) ((at_ % 8 + bits + 7) / 8)).map (fun v => v / 2 ^ (at_ % 8) % 2 ^ bits)
  if f = 2 then (sub (4 * (i % 2)) 4).map (fun v => [v])
  else if 9 ≤ f then
    let bits := if f = 13 then 4 else if f = 11 || f = 12 then 6 else 8
    match body 0 1, sub (8 + bits * (i % 32)) bits with
    | some s, some v => some [s, v]
    | _, _ => none
  else (body 0 (fmtBytes f)).map (fun v => [v])

/-- EXACT comparison of the answer elements that have arrived with the stored answer, once the plan DMA has loaded it (R202). -/
def Dev.stnAdvance (d : Dev) (w k : Nat) : Dev :=
  match d.openJob w k with
  | none => d
  | some j =>
    let f := d.slotFmt w 1
    let x := d.jobIn w k
    let ans := d.stnAnswer w j
    if !x.tablesLoaded || j.ended then d
    else
      let here := (List.range j.declared).filter (fun i => !j.units.contains i && hasRange x.recs 1 (elemRange f i 1)
        && !unsound x.recs 1 (elemRange f i 1))
      let got (n : Nat) : Option Byte :=
        (x.recs.find? (fun r => r.slot == 1 && r.off ≤ n && n < r.off + r.bytes.length)).bind (fun r => r.bytes[n - r.off]?)
      let j1 := here.foldl (fun j i =>
        let j1 := { j with checked := j.checked + 1, units := j.units ++ [i], status := 1 }
        if elemCode f got i = elemCode f (fun n => ans[n]?) i then j1 else j1.fail (10 * 16777216 + min 65535 i)) j
      let u := d.wdPort w
      let d1 := { d with skim := { d.skim with checked := tabUpd 0 d.skim.checked u (· + here.length) } }
      d1.putJob w (if j1.units.length = j1.declared then { j1 with status := 2 } else j1)

/-- The record goes on to what it feeds: LIN columns, EXACT answers, or staging. -/
def Dev.afterRecord (d : Dev) (w k : Nat) : Dev :=
  match d.wdKind w with
  | 0 => d.linAdvance w k
  | 7 => if d.stnFloat w then d else d.stnAdvance w k
  | _ => d

/-- A fault of a job whose inputs may all be here: its new attempt, if any, goes on with them (R193, R196). -/
def Dev.jobFault (d : Dev) (w k : Nat) : Dev := (d.attribute w k).afterRecord w k

/-- A Skim unit's read of the link buffer of its port (R224, R281): corrected, or uncorrectable at an address that the spec does not fix. -/
def Dev.linkRead (d : Dev) (p : Nat) (read : Check) : Dev :=
  match read with
  | .sound => d
  | .single => (d.count MEM.SRAM_CNT_CE 1).raise (clusterDie p) 80
  | .double =>
    let (l, d1) := d.drawN 2
    d1.sramUe (clusterDie p) 3 p (l.getD 0 0 % 32) (l.getD 1 0 % 524288)

/-- A Skim unit's read of its table buffer for a job (R108, R224): an uncorrectable one is a fault of the job. -/
def Dev.tableRead (d : Dev) (p w k : Nat) (table : Check) : Dev :=
  match table with
  | .sound => d
  | .single => (d.count MEM.SRAM_CNT_CE 1).raise (clusterDie p) 80
  | .double => (d.raise (clusterDie p) 73).attribute w k

/-- The Skim unit of port `p` reads the oldest accepted record of a channel (R90, R105, R264, R281). A LIN record whose job is not posted or
whose tables are not loaded stays in the link buffer (R103, R265). -/
def Dev.skimRecord (d : Dev) (p vc : Nat) (read table : Check) : Dev :=
  let l := d.link p
  match l.deliver.find? (fun r => r.vc == vc) with
  | none => d
  | some r =>
    let w := r.watch
    let frame := r.frame
    let early := (d.jobOf w frame).isNone && !framePrecedes frame d.frame
    let j? := d.openJob w frame
    let wait := match j? with
      | some j => d.wdKind w == 0 && (d.jobTable w j).status == 2 && d.linForm w != 2 && !(d.jobIn w frame).tablesLoaded
      | none => early
    if wait then d
    else
      let d1 := d.putLink p ({ l with deliver := l.deliver.erase r }.free vc r.payload.length)
      let d2 := { d1 with skim := { d1.skim with bytes := tabUpd 0 d1.skim.bytes p (· + r.payload.length) } }
      let d3 := d2.linkRead p read
      match j? with
      | none => d3
      | some j =>
        let d4 := (d3.takeRecord w j r (read != .double))
        (((if d.wdKind w = 0 then d4.tableRead p w frame table else d4).afterRecord w frame).planCheckins).readied d

/-- SKIM_RECORD_PROCESS (R90). `read` is what the check bits of the link buffer show for the record (R281), `table` those of the table buffer for
the entries that the record needs (R108). -/
def execSkimRecordProcess (port vc : Nat) (read : SkimReads) (s : State) : Host.Outcome State Fault Refusal :=
  run s fun _ d => if port < 4 && d.reach (clusterDie port) then d.skimRecord port vc read.data read.table else d

/-- A known-answer test of an enabled unit on the next tables, all of which are built (R102). -/
def Dev.knownAnswer (d : Dev) (u : Nat) (pass : Bool) : Dev :=
  if u < 4 && d.skimOn u && d.nextBuilt then
    let d1 := { d with skim := { d.skim with kat := tabSet false d.skim.kat u pass } }.flag (SKM.U_STAT_KAT_FAIL u) (!pass)
    (if pass then d1 else d1.raise (clusterDie u) 70).rebuildStatus
  else d

/-- KNOWN_ANSWER_TEST (R102). -/
def execKnownAnswerTest (unit : Nat) (pass : Bool) (s : State) : Host.Outcome State Fault Refusal :=
  run s fun _ d => d.knownAnswer unit pass

/-- SKM_EPOCH_OVERRUN (R100): 2 × T_eff has passed since the previous swap and the swap conditions still fail. -/
def execSkmEpochOverrun (s : State) : Host.Outcome State Fault Refusal :=
  run s fun _ d =>
    if d.skim.epochOpen && !d.on SKM.REBUILD_OVERRUN && d.skim.swapAt + 2 * msCycles d.tEff ≤ d.now && !(d.nextBuilt && d.katPassed) then
      (d.flag SKM.REBUILD_OVERRUN true).raise .c0 72
    else d

/-- A write of SKM_REKEY (R98). -/
def Dev.rekeyWrite (d : Dev) (v : Nat) : Dev :=
  let d1 := if v % 2 = 1 then { d with skim := { d.skim with rekey := true } } else d
  d1.answer .done

/-- SKM_REKEY (R98). -/
def execSkmRekey (value : Nat) (s : State) : Host.Outcome State Fault Refusal := run s fun _ d => d.atC (fun d => d.rekeyWrite value)

/-- A write of SKM_U_INJ[u] (R108, Table 03.15): discarded where it sets ARM with a reserved MODE. -/
def Dev.skimInjWrite (d : Dev) (u v : Nat) : Dev :=
  let mode := v % 4
  if bit v 31 && (mode = 0 || mode = 3) then d.answer .discarded
  else (((d.flag (SKM.U_INJ_ARM u) (bit v 31)).put (SKM.U_INJ_WATCH_ID u) (bitsAt v 27 16)).put (SKM.U_INJ_MODE u) mode).answer .done

/-- SKM_U_INJ (R108). -/
def execSkmUInj (unit value : Nat) (s : State) : Host.Outcome State Fault Refusal :=
  run s fun _ d => if unit < 4 then d.at (clusterDie unit) (fun d => d.skimInjWrite unit value) else d

end Sys2Proof.Machine
end

