-- ==== Sys2Proof/Machine/Signal.lean ====
section
/-!
DEFINITION. Signal checks (chapter 4): sample instants and windows, BND, CON, DIV and PRS evaluations, the counted arrivals of SEQ watches,
and the commands of the signal checkers.
-/

namespace Sys2Proof.Machine

/-- Key of input channel `c` at sample index `n`. -/
def inKey (c n : Nat) : Nat := n * 128 + c

/-- The sample of input channel `c` with index `n`, where it is present. -/
def Dev.sampleAt (d : Dev) (c : Nat) (n : Int) : Option Int :=
  if 0 ≤ n then tabGet none d.gate.inputs (inKey c n.toNat) else none

/-- The watch checks frame `k`: it lies in its checked range (R52, R47). -/
def Dev.inRange (d : Dev) (w k : Nat) : Bool :=
  let x := d.watchOf w
  x.state != .idle && !framePrecedes k x.first
    && (match x.retireAt with | none => true | some r => framePrecedes k r)

/-! Windows (R115, R116). -/

/-- The 24-bit value of a sample (R114). -/
def s24 (x : Int) : Int := x / 256

/-- Window length in blocks: WB of the watch's kind area. -/
def Dev.wb (d : Dev) (w : Nat) : Nat :=
  (if d.wdKind w = 3 then bitsAt (d.wdKindWord w 0) 13 8 else bitsAt (d.wdKindWord w 4) 13 8) + 1

/-- The value of one instant of a channel in an energy of watch `w`: 0 before the watch's first frame; none where it is missing or its block's
energy is lost (R115, R146). A window that holds such an instant is not evaluated, and makes no later frame ABSENT (DESIGN CHOICE, log entry 110). -/
def Dev.energyTerm (d : Dev) (w c n : Nat) : Option Int :=
  if n < d.frameStart (d.watchOf w).first then some 0
  else if tabGet false d.sig.lostEnergy (inKey c (n / 16)) then none
  else d.sampleAt c n

/-- Sum where every term exists. -/
def sumSome : List (Option Int) → Option Int
  | [] => some 0
  | none :: _ => none
  | some x :: t => (sumSome t).map (x + ·)

/-- Energy of one channel over instants `lo` to `lo + n - 1`. -/
def Dev.channelEnergy (d : Dev) (w c lo n : Nat) : Option Int :=
  sumSome ((List.range n).map (fun i => (d.energyTerm w c (lo + i)).map (fun x => s24 x * s24 x)))

/-- Energy summed over channels. -/
def Dev.sumEnergy (d : Dev) (w : Nat) (cs : List Nat) (lo n : Nat) : Option Int :=
  sumSome (cs.map (fun c => d.channelEnergy w c lo n))

/-- E_a exceeds ρ times E_b plus floor V over W instants (R116). -/
def exceeds (ea rho eb floor len : Int) : Bool := decide (rho * eb + 2147483648 * floor * len < 65536 * ea)

/-- The mixture sample of a CON watch for instant `n` (R122): a lost entry of the delay history is none (R146). Watches with the same mixture or
reference share its lost marks (DESIGN CHOICE, log entry 109). -/
def Dev.conMix (d : Dev) (w n : Nat) : Option Int :=
  let c := (d.chanList w 0 1).getD 0 0
  let i : Int := (n : Int) - (bitsAt (d.wdKindWord w 0) 26 16 : Int)
  if tabGet false d.sig.lostDelay (inKey c (i.toNat / 16)) then none else d.sampleAt c i

/-- CON_GAIN[i], signed Q2.14. -/
def Dev.conGain (d : Dev) (w i : Nat) : Int := signedOf 16 (bitsAt (d.wdKindWord w (3 + i / 2)) (16 * (i % 2) + 15) (16 * (i % 2)))

/-- The mixture and the error of a CON watch at instant `n` (R122); 0 before the watch's first frame. -/
def Dev.conTerm (d : Dev) (w n : Nat) : Option (Int × Int) :=
  if n < d.frameStart (d.watchOf w).first then some (0, 0)
  else
    let cs := d.chanList w 4 8
    match d.conMix w n, sumSome ((List.range cs.length).map (fun i => (d.sampleAt (cs.getD i 0) n).map (fun x => d.conGain w i * s24 x))) with
    | some m, some sum => some (s24 m, (s24 m * 16384 - sum) / 16384)
    | _, _ => none

/-- The causes for which the window of watch `w` that ends with block `j` fails, each with its entry (R119, R122, R125); none where it is not
evaluated. The growth test passes where the earlier window is not evaluated (DESIGN CHOICE, log entry 110). -/
def Dev.windowFails (d : Dev) (w j : Nat) : Option (List (Nat × Nat)) :=
  let len := 16 * d.wb w
  let first := d.frameStart (d.watchOf w).first
  let hi := 16 * (j + 1)
  let full := first + len ≤ hi
  let lo := hi - len
  let n := hi - lo
  match d.wdKind w with
  | 2 =>
    let cfg := d.wdKindWord w 4
    let cs := d.chanList w 0 16
    let per (i : Nat) : Option (List (Nat × Nat)) :=
      (d.channelEnergy w (cs.getD i 0) lo n).map (fun e =>
        (if bit cfg 2 && decide (32768 * (d.wdKindWord w 7 : Int) * len < e) then [(3, i)] else [])
          ++ (if bit cfg 3 && full && decide (e < 32768 * (d.wdKindWord w 8 : Int) * len) then [(4, i)] else []))
    if bit cfg 2 || bit cfg 3 then
      let rs := (List.range cs.length).map per
      if rs.all (·.isNone) then none else some (rs.flatMap (fun r => r.getD []))
    else none
  | 3 =>
    let ts := (List.range n).map (fun i => d.conTerm w (lo + i))
    let cs := d.chanList w 4 8
    let lost := (List.range n).any (fun i => first ≤ lo + i &&
      ((d.chanList w 0 1) ++ cs).any (fun c => tabGet false d.sig.lostEnergy (inKey c ((lo + i) / 16))))
    if lost then none
    else
      match sumSome (ts.map (fun t => t.map (fun x => x.2 * x.2))), sumSome (ts.map (fun t => t.map (fun x => x.1 * x.1))) with
      | some ee, some em => some (if exceeds ee (d.wdKindWord w 7) em (d.wdKindWord w 8) len then [(5, 255)] else [])
      | _, _ => none
  | 4 =>
    let cfg := d.wdKindWord w 4
    let err := d.chanList w 0 4
    let ref := d.chanList w 4 8
    let anti := d.chanList w 12 4
    let fl : Int := d.wdKindWord w 8
    let glag := 16 * (bitsAt cfg 21 16 + 1)
    let both := first + len + glag ≤ hi
    let e := if bit cfg 0 || bit cfg 1 then d.sumEnergy w err lo n else some 0
    let r := if bit cfg 0 || bit cfg 2 then d.sumEnergy w ref lo n else some 0
    let a := if bit cfg 2 then d.sumEnergy w anti lo n else some 0
    match e, r, a with
    | some e, some r, some a =>
      let grow := bit cfg 1 && both &&
        (match d.sumEnergy w err (hi - glag - len) len with
         | none => false
         | some p => exceeds e (d.wdKindWord w 6) p fl len)
      some ((if bit cfg 0 && exceeds e (d.wdKindWord w 5) r fl len then [(6, 255)] else [])
        ++ (if grow then [(7, 255)] else [])
        ++ (if bit cfg 2 && exceeds a (d.wdKindWord w 7) r fl len then [(8, 255)] else []))
    | _, _, _ => none
  | _ => none

/-- The cause that WCH_SIG_INJ mode 2 gives a window: its first enabled energy or ratio test; of a BND watch, at BND_CH[0] (DESIGN CHOICE, log
entry 112). -/
def Dev.firstWindowTest (d : Dev) (w : Nat) : Option (Nat × Nat) :=
  match d.wdKind w with
  | 2 => if bit (d.wdKindWord w 4) 2 then some (3, 0) else if bit (d.wdKindWord w 4) 3 then some (4, 0) else none
  | 3 => some (5, 255)
  | 4 =>
    let cfg := d.wdKindWord w 4
    if bit cfg 0 then some (6, 255) else if bit cfg 1 then some (7, 255) else if bit cfg 2 then some (8, 255) else none
  | _ => none

/-- WCH_SIG_INJ is armed with a mode for a watch. -/
def Dev.sigArmed (d : Dev) (w mode : Nat) : Bool :=
  d.on WCH.SIG_INJ_ARM && d.fld WCH.SIG_INJ_WATCH_ID == w && d.fld WCH.SIG_INJ_MODE == mode

/-- The injected check has run (R147). -/
def Dev.sigDisarm (d : Dev) : Dev := d.flag WCH.SIG_INJ_ARM false

def Dev.sigFail (d : Dev) (w at_ cause entry : Nat) : Dev :=
  { d with sig := { d.sig with fails := d.sig.fails ++ [⟨w, at_, cause, entry⟩] } }

/-- The window of one watch that ends with block `j`, where it lies in the checked range. -/
def Dev.windowOf (d : Dev) (j w : Nat) : Dev :=
  let last := 16 * j + 15
  if !d.inRange w (last / d.len % 4294967296) then d
  else
    match d.windowFails w j with
    | none => d
    | some fs =>
      let d1 := fs.foldl (fun d f => d.sigFail w last f.1 f.2) d
      match d.firstWindowTest w with
      | some f => if d.sigArmed w 2 then (d1.sigFail w last f.1 f.2).sigDisarm else d1
      | none => d1

/-- WINDOW_EVALUATION (R115): the windows of every watch that end with the next block of 16 instants. -/
def Dev.windowEvaluation (d : Dev) (block : Nat) : Dev :=
  if d.running && block = d.sig.blocks then
    let d1 := (d.activeWatches.filter (fun w => 2 ≤ d.wdKind w && d.wdKind w ≤ 4)).foldl (fun d w => d.windowOf block w) d
    { d1 with sig := { d1.sig with blocks := block + 1 } }
  else d

def execWindowEvaluation (block : Nat) (s : State) : Host.Outcome State Fault Refusal :=
  run s fun _ d => if d.checks then d.windowEvaluation block else d

/-! Frame results. -/

/-- The amplitude and slew failures of one sample of a BND watch (R119). -/
def Dev.bndSample (d : Dev) (w c n : Nat) (x : Int) : List Nat :=
  let cfg := d.wdKindWord w 4
  let slew := bit cfg 1 && n != d.frameStart (d.watchOf w).first &&
    (match d.sampleAt c ((n : Int) - 1) with
     | none => false
     | some y => decide (d.wdKindWord w 6 < (x - y).natAbs))
  (if bit cfg 0 && decide (d.wdKindWord w 5 < x.natAbs) then [1] else []) ++ (if slew then [2] else [])

/-- One unit of a frame: none where a sample it needs is missing; some false where it needs a lost entry; some true where it counts (R112, R146).
A lost block energy costs the instants of that block (DESIGN CHOICE, log entry 109). -/
def Dev.instantState (d : Dev) (w n : Nat) : Option Bool :=
  let lostE (c : Nat) : Bool := tabGet false d.sig.lostEnergy (inKey c (n / 16))
  let has (c : Nat) : Bool := (d.sampleAt c n).isSome
  match d.wdKind w with
  | 3 =>
    let cs := d.chanList w 4 8
    let mc := (d.chanList w 0 1).getD 0 0
    let i : Int := (n : Int) - (bitsAt (d.wdKindWord w 0) 26 16 : Int)
    if cs.all has && (d.sampleAt mc i).isSome then
      some (!(tabGet false d.sig.lostDelay (inKey mc (i.toNat / 16)) || (mc :: cs).any lostE))
    else none
  | 4 =>
    let cfg := d.wdKindWord w 4
    let need := (if bit cfg 0 || bit cfg 1 then d.chanList w 0 4 else []) ++ (if bit cfg 0 || bit cfg 2 then d.chanList w 4 8 else [])
      ++ (if bit cfg 2 then d.chanList w 12 4 else [])
    if need.all has then some (!need.any lostE) else none
  | _ =>
    let rc := (d.chanList w 0 1).getD 0 0
    let obs := d.chanList w 4 4
    let delay := bitsAt (d.wdKindWord w 0) 18 8
    let span := bitsAt (d.wdKindWord w 2) 5 0 + 1
    let lags := (List.range span).map (fun l => (n : Int) - ((delay + l : Nat) : Int))
    if obs.all has && has rc && lags.all (fun i => (d.sampleAt rc i).isSome) then
      some (!(((n : Int) :: lags).any (fun i => tabGet false d.sig.lostDelay (inKey rc (i.toNat / 16)))))
    else none

/-- Failures of a PRS frame whose samples are all present (R128): entry and VALUE of each failing observation. -/
def Dev.prsFails (d : Dev) (w k : Nat) : List (Nat × Nat) :=
  let rc := (d.chanList w 0 1).getD 0 0
  let obs := d.chanList w 4 4
  let delay := bitsAt (d.wdKindWord w 0) 18 8
  let span := bitsAt (d.wdKindWord w 2) 5 0 + 1
  let lo := d.frameStart k
  let v (c : Nat) (n : Int) : Int := s24 ((d.sampleAt c n).getD 0)
  let sum (f : Nat → Int) : Int := ((List.range d.len).map (fun i => f (lo + i))).foldl (· + ·) 0
  let ew := sum (fun n => v rc n * v rc n)
  let active := decide (32768 * (d.wdKindWord w 3 : Int) * d.len ≤ ew)
  let xs (o : Nat) : List Int := (List.range span).map (fun l => sum (fun n => v o n * v rc ((n : Int) - ((delay + l : Nat) : Int))))
  if !active then []
  else
    (List.range obs.length).filterMap (fun i =>
      let l := xs (obs.getD i 0)
      if l.all (fun x => decide (65536 * x * x < (d.wdKindWord w 4 : Int) * ew * ew)) then
        let best := (l.map Int.natAbs).foldl max 0
        some (i, min 65535 (best * 4096 / max 1 ew.natAbs))
      else none)

/-- The first of two failures: index in the frame, cause, entry (R143). -/
def failKey (f : Nat × Nat × Nat) : Nat := (f.1 * 256 + f.2.1) * 256 + f.2.2

/-- The result of a BND, CON, DIV or PRS evaluation (R110 to R128): failures in order, counted units, and whether a sample is missing. -/
def Dev.signalResult (d : Dev) (w k : Nat) : List (Nat × Nat × Nat) × Nat × Bool :=
  let lo := d.frameStart k
  let earlier := ((d.sig.fails.filter (fun f => f.watch == w && lo ≤ f.at_ && f.at_ < lo + d.len)).map
    (fun f => (f.at_ - lo, f.cause, f.entry)))
  if d.wdKind w = 2 then
    let cs := d.chanList w 0 16
    let one (i n : Nat) : Option (List (Nat × Nat × Nat)) :=
      (d.sampleAt (cs.getD i 0) ((lo + n : Nat) : Int)).map (fun x => (d.bndSample w (cs.getD i 0) (lo + n) x).map (fun c => (n, c, i)))
    let energy := bit (d.wdKindWord w 4) 2 || bit (d.wdKindWord w 4) 3
    let all := (List.range cs.length).flatMap (fun i => (List.range d.len).map (fun n => (i, n, one i n)))
    let counts := all.filter (fun a => a.2.2.isSome &&
      !(energy && tabGet false d.sig.lostEnergy (inKey (cs.getD a.1 0) ((lo + a.2.1) / 16))))
    (earlier ++ counts.flatMap (fun a => a.2.2.getD []), counts.length, all.any (fun a => a.2.2.isNone))
  else
    let st := (List.range d.len).map (fun n => d.instantState w (lo + n))
    let missing := st.any (·.isNone)
    let lost := st.any (fun x => x == some false)
    let prs := if d.wdKind w = 5 && !missing && !lost then (d.prsFails w k).map (fun f => (f.2, 9, f.1)) else []
    (earlier ++ prs, (st.filter (fun x => x == some true)).length, missing)

/-- DETAIL of a failure (Table 04.11). -/
def sigDetail (f : Nat × Nat × Nat) : Nat := f.2.1 * 16777216 + f.2.2 * 65536 + f.1 % 65536

/-- SIGNAL_CHECK_RESULT (R110): the evaluation of a frame completes, once its windows have been evaluated. -/
def Dev.signalCheck (d : Dev) (w k : Nat) : Dev :=
  match d.openJob w k with
  | none => d
  | some j =>
    let kind := d.wdKind w
    let windows := kind != 5 && d.sig.blocks < (d.frameStart k + d.len) / 16
    if j.status = 2 || kind < 2 || 5 < kind || windows then d
    else
      let (fs, n, missing) := d.signalResult w k
      let order := if kind = 5 then sortBy (fun f => f.2.2) fs else sortBy failKey fs
      let j1 := { j with status := 2, checked := n, incomplete := missing }
      let j2 := match order with
        | [] => j1
        | f :: _ => j1.fail (sigDetail f)
      let hi := d.frameStart k + d.len
      ({ d with sig := { d.sig with fails := d.sig.fails.filter (fun f => f.watch != w || hi ≤ f.at_) } }).putJob w j2

def execSignalCheckResult (watch frame : Nat) (s : State) : Host.Outcome State Fault Refusal :=
  run s fun _ d => if d.checks then d.signalCheck watch frame else d

/-! SEQ watches (R139 to R143). -/

def Dev.seqRecEn (d : Dev) (w : Nat) : Bool := bit (d.wdKindWord w 1) 31
def Dev.seqHbEn (d : Dev) (w : Nat) : Bool := bit (d.wdKindWord w 1) 30
def Dev.seqOrderEn (d : Dev) (w : Nat) : Bool := bit (d.wdKindWord w 1) 29
def Dev.seqLive (d : Dev) (w : Nat) : Nat := bitsAt (d.wdKindWord w 2) 15 0

def Dev.seqState (d : Dev) (w : Nat) : SeqState := tabGet ⟨none, none⟩ d.sig.seq w

def Dev.putSeq (d : Dev) (w : Nat) (x : SeqState) : Dev := { d with sig := { d.sig with seq := tabSet ⟨none, none⟩ d.sig.seq w x } }

/-- B(k + 1) + LIVE has come (R141, R542). -/
def Dev.livePast (d : Dev) (w k : Nat) : Bool := d.seqLive w != 0 && d.instantPast k (d.seqLive w)

/-- One counted arrival of frame `k`, with the lowest cause for which it fails (R141); the first in the cycle of the liveness limit or later is late.
VALUE of a failure is its place among the arrivals (DESIGN CHOICE, log entry 108). -/
def Dev.seqArrive (d : Dev) (w k : Nat) (cause : Option Nat) : Dev :=
  let x := d.jobIn w k
  let late := x.arrivals == 0 && d.livePast w k
  let n := x.arrivals + 1
  let here : Option Nat :=
    match cause with
    | some c => some (if late then min c 15 else c)
    | none => if late then some 15 else none
  let fail := if late || x.fail.isNone then here.map (fun c => (c, n)) else x.fail
  d.putJobIn w k { x with arrivals := n, fail := fail }

/-- A TENSOR record accepted on port `p` counts for the SEQ watches that name its watch (R140). -/
def Dev.seqTensor (d : Dev) (p watch k : Nat) : Dev :=
  (d.portWatches p).foldl (fun d w =>
    if d.wdKind w = 8 && d.seqRecEn w && bitsAt (d.wdKindWord w 0) 11 0 ≤ watch && watch ≤ bitsAt (d.wdKindWord w 0) 27 16
        && d.inRange w k then
      let q := d.seqState w
      let order := d.seqOrderEn w && (match q.lastFrame with | none => false | some f => framePrecedes k f)
      let last := match q.lastFrame with
        | none => k
        | some f => if framePrecedes f k then k else f
      (d.putSeq w { q with lastFrame := some last }).seqArrive w k (if order then some 14 else none)
    else d) d

/-- A HEARTBEAT accepted for its SEQ watch (R140, R141); WCH_SIG_INJ mode 3 takes its counter as the expected value plus 1. -/
def Dev.seqHeartbeat (d : Dev) (w k counter : Nat) : Dev :=
  let q := d.seqState w
  let step := d.wdKindWord w 3
  let inj := d.sigArmed w 3 && q.counter.isSome
  let expected := match q.counter with
    | none => counter
    | some c => (c + step) % 4294967296
  let got := if inj then (expected + 1) % 4294967296 else counter
  let d1 := if inj then d.sigDisarm else d
  (d1.putSeq w { q with counter := some got }).seqArrive w k (if got = expected then none else some 16)

/-- LIVENESS_LIMIT (R141): B(k + 1) + LIVE passes with no counted arrival of frame `k`. -/
def Dev.livenessLimit (d : Dev) (w k : Nat) : Dev :=
  let x := d.jobIn w k
  if (d.jobOf w k).any (fun j => j.posted && !j.final) && d.wdKind w = 8 && d.livePast w k && x.arrivals = 0 && x.fail.isNone then
    d.putJobIn w k { x with fail := some (15, 0) }
  else d

def execLivenessLimit (watch frame : Nat) (s : State) : Host.Outcome State Fault Refusal :=
  run s fun _ d => if d.checks then d.livenessLimit watch frame else d

/-! Lost history entries (R146). -/

/-- The delay histories (false) and block-energy histories (true) that watches use, with their channels. -/
def Dev.histories (d : Dev) : List (Bool × Nat) :=
  (d.activeWatches.flatMap (fun w =>
    let energies (l : List Nat) : List (Bool × Nat) := l.map (fun c => (true, c))
    match d.wdKind w with
    | 2 => if bit (d.wdKindWord w 4) 2 || bit (d.wdKindWord w 4) 3 then energies (d.chanList w 0 16) else []
    | 3 => (d.chanList w 0 1).map (fun c => (false, c)) ++ energies (d.chanList w 0 1 ++ d.chanList w 4 8)
    | 4 => energies (d.chanList w 0 4 ++ d.chanList w 4 8 ++ d.chanList w 12 4)
    | 5 => (d.chanList w 0 1).map (fun c => (false, c))
    | _ => [])).dedup

/-- An uncorrectable history error: one block of one history in use is lost (R146). Which one, the spec leaves to the memory: a free value. -/
def Dev.historyLost (d : Dev) : Dev :=
  match d.histories with
  | [] => d
  | h :: hs =>
    let (l, d1) := d.drawN 2
    let (energy, c) := (h :: hs).getD (l.getD 0 0 % (hs.length + 1)) h
    let key := inKey c (d.gate.tick / 16 - l.getD 1 0 % 257)
    if energy then { d1 with sig := { d1.sig with lostEnergy := tabSet false d1.sig.lostEnergy key true } }
    else { d1 with sig := { d1.sig with lostDelay := tabSet false d1.sig.lostDelay key true } }

/-! Injection (R147). -/

/-- WCH_SIG_INJ (Table 04.14). A write while ARM is 1 is discarded, but one of ARM 0 disarms. -/
def Dev.sigInjWrite (d : Dev) (v : Nat) : Dev :=
  let mode := v % 8
  if bit v 31 then
    if d.on WCH.SIG_INJ_ARM || mode = 0 || 4 < mode then d.answer .discarded
    else (((d.flag WCH.SIG_INJ_ARM true).put WCH.SIG_INJ_WATCH_ID (bitsAt v 27 16)).put WCH.SIG_INJ_MODE mode).answer .done
  else (((d.flag WCH.SIG_INJ_ARM false).put WCH.SIG_INJ_WATCH_ID (bitsAt v 27 16)).put WCH.SIG_INJ_MODE mode).answer .done

def execWchSigInj (value : Nat) (s : State) : Host.Outcome State Fault Refusal := run s fun _ d => d.sigInjWrite value

end Sys2Proof.Machine
end

