-- ==== Sys2Proof/Machine/Tensor.lean ====
section
/-!
DEFINITION. The tensors of RUN models (R172, R196) and what each operation of Table 05.5 computes from them (R151 to R154, R161, R164, R174, R175).
-/

namespace Sys2Proof.Machine

/-! Tensors. -/

/-- The RUN model that the owner of an operation runs (R170, R307). -/
def Dev.runModel (d : Dev) (o : OpOwner) : Option Nat :=
  match o with
  | .fallback slot _ => some (d.fld (SGT.FB_MODEL_ID slot))
  | .job w _ => if d.wdKind w = 6 then some (d.wdModel w) else none
  | _ => none

/-- Key of a copy of a tensor of a model. -/
def tensorKey (id i : Nat) (copy : Bool) : Nat := id * 16384 + i * 2 + b2n copy

/-- BYTES, FMT, PLACE and SRC_OFF of a tensor. -/
def Model.tensor (m : Model) (i : Nat) : Nat × Nat × Nat × Nat := m.tensors.getD i (0, 0, 0, 0)

/-- The copy that a run reads, or writes: state tensors have two (R196). -/
def Model.copyOf (m : Model) (i : Nat) (write : Bool) : Bool := (m.tensor i).2.2.1 == 4 && (m.stateCopy != write)

/-- The bytes of a tensor as an operation reads them, or those of the copy that a run writes. -/
def Dev.tensorBytes (d : Dev) (mem : Mem) (id i : Nat) (written : Bool) : List Byte :=
  let m := d.model id
  let (n, _, place, off) := m.tensor i
  match place with
  | 1 => m.weights mem off n
  | 2 => m.weights mem off n
  | 3 => slice m.params off n
  | _ => (tabGet [] d.arr.tensors (tensorKey id i (m.copyOf i written))).take n

/-- Bytes of an operation's output written from the start of a tensor: those past its end are dropped, and weights and parameters are never written. -/
def Dev.tensorWrite (d : Dev) (id i : Nat) (bs : List Byte) : Tab (List Byte) :=
  let m := d.model id
  let (n, _, place, _) := m.tensor i
  if place = 0 || place = 4 then
    let k := tensorKey id i (m.copyOf i true)
    tabSet [] d.arr.tensors k ((bs ++ (tabGet [] d.arr.tensors k).drop bs.length).take n)
  else d.arr.tensors

/-! Inputs and outputs (R136, R172, R307). -/

/-- Input channels of a RUN model's owner, and the frame it serves. -/
def Dev.runInputs (d : Dev) (o : OpOwner) : List Nat × Nat :=
  match o with
  | .fallback slot k =>
    ((List.range 8).map (fun i => if i < 4 then bitsAt (d.fld (SGT.FB_IN0_IN slot)) (8 * i + 6) (8 * i)
      else bitsAt (d.fld (SGT.FB_IN1_IN slot)) (8 * (i - 4) + 6) (8 * (i - 4))), k)
  | .job w k => (d.chanList w 0 8, k)
  | _ => ([], 0)

/-- The FP32 word of a sample scaled to [−1, 1), to nearest even. -/
def sampleWord (x : Int) : Nat := (Fl.ofDy ⟨x, -31⟩).f32.bits 8 0

/-- The inputs of a run are in its tensors: N samples of each input; a sample that is absent is a free value (log entry 106). -/
def Dev.loadInputs (d : Dev) (o : OpOwner) : Dev :=
  match d.runModel o with
  | none => d
  | some id =>
    let m := d.model id
    let (chans, k) := d.runInputs o
    let sample (i n : Nat) : Option Int := d.sampleAt (chans.getD i 0) ((d.frameStart k + n : Nat) : Int)
    let d1 := (List.range m.nIn).foldl (fun e i =>
      let words := (List.range d.len).map (fun n => match sample i n with
        | some x => sampleWord x
        | none => Config.free (d.free + i * d.len + n) % 4294967296)
      let t := m.io.getD i 0
      let key := tensorKey id t (m.copyOf t false)
      { e with arr := { e.arr with tensors := tabSet [] e.arr.tensors key (words.flatMap (leBytes 4)) } }) d
    if (List.range m.nIn).any (fun i => (List.range d.len).any (fun n => (sample i n).isNone)) then { d1 with free := d1.free + m.nIn * d.len }
    else d1

/-- The FP32 words of the outputs of a run, output by output. -/
def Dev.runOutputs (d : Dev) (mem : Mem) (id : Nat) : List Nat :=
  let m := d.model id
  (List.range m.nOut).flatMap (fun o =>
    let bs := d.tensorBytes mem id (m.io.getD (m.nIn + o) 0) true
    (List.range d.len).map (fun n => leAt bs (4 * n) 4))

/-! Operands. -/

/-- Word `j` of a descriptor. -/
def opWord (o : List Nat) (j : Nat) : Nat := o.getD j 0

/-- ROUND, OUT_SAT, ACCUM and BIAS of a descriptor (Table 05.4). -/
def opRound (o : List Nat) : Nat := bitsAt (opWord o 0) 26 25
def opSat (o : List Nat) : Bool := bit (opWord o 0) 24
def opAccum (o : List Nat) : Bool := bit (opWord o 0) 23
def opBias (o : List Nat) : Bool := bit (opWord o 0) 22

/-- The bytes that a handle word of a descriptor names, and the format of its tensor; nothing for handle 0. -/
def Dev.operand (d : Dev) (mem : Mem) (id : Nat) (o : List Nat) (j : Nat) : List Byte × Nat :=
  let h := opWord o j
  if h = 0 then ([], 0) else (d.tensorBytes mem id (h % 4096) false, ((d.model id).tensor (h % 4096)).2.1)

/-- What an operation leaves: its output bytes, the free values it drew, and the exceptions it set. -/
structure OpOut where
  bytes : List Byte
  draws : Nat
  exc : Nat
  deriving DecidableEq, Repr

/-- Output elements, one by one: bits of the output format with exceptions, each by a free word of its own. -/
def outElems (base n : Nat) (f : Nat → Nat → Nat × Nat) : List Nat × Nat :=
  let l := (List.range n).map (fun j => f j (Config.free (base + j)))
  (l.map Prod.fst, l.foldl (fun a x => a ||| x.2) 0)

/-! The GEMM class (R151 to R154, R157, R158). -/

/-- Element (i, k) of A of a GEMM-class operation: rows of length K, or the twiddles of a DFT. -/
def gemmA (o : List Nat) (bs : List Byte) (i k : Nat) : Fl :=
  if opCode o = 4 then
    if bit (opWord o 11) 0 then inverseTwiddle (opA o) (opM o) i k else twiddle (opA o) (opK o) i k
  else Fl.at bs (opA o) (opM o * opK o) (i * opK o + k)

/-- Element (k, c) of B: columns of length K; for CONV1D pair (ch, τ) at k = ch × TAPS + τ reads input column c·stride + τ·dilation (R93). -/
def gemmB (o : List Nat) (bs : List Byte) (k c : Nat) : Fl :=
  if opCode o = 3 then
    let g := opWord o 3
    let cin := bitsAt g 31 16 + 1
    let dil := bitsAt g 15 10 + 1
    let stride := bitsAt g 9 6 + 1
    let taps := bitsAt g 5 0 + 1
    Fl.at bs (opB o) (((opN o - 1) * stride + (taps - 1) * dil + 1) * cin) ((c * stride + k % taps * dil) * cin + k / taps)
  else Fl.at bs (opB o) (opN o * opK o) (c * opK o + k)

/-- The integer of a value, where it has one. -/
def Fl.int? : Fl → Option Int
  | .zero _ => some 0
  | .fin d => if 0 ≤ d.e then some (d.toInt 0) else none
  | _ => none

/-- One output element of an integer GEMM (R151, R153): its bits, of 64 for INT48, and its exceptions. Products, and an old element of an integer
output, are summed as integers. For a float output acc × C0, and for an integer output acc, is the first term of an FP32 sum to which the bias, and
an old element of a float output, are added (log entry 114). -/
def intElem (o : List Nat) (free : Nat) (l : List (Fl × Fl)) (bias old : List Fl) : Nat × Nat :=
  let w := if opAcc o = 2 then 48 else 32
  let floatOut := opAcc o != 2 && 4 ≤ opOut o
  let products := l.map (fun x => x.1.mulX x.2)
  let ints := (if floatOut then products else products ++ old).map (fun x => (x.int?).getD 0)
  let (s, sat) := sumInt w free ints
  if floatOut then
    let c := Fl.word (opWord o 9)
    let p := (Fl.ofInt s).mulX c
    let extra := bias ++ old
    let (x, e) := if extra = [] then (p, 0) else sum32 free (p.f32 :: extra)
    let (v, n) := outBits (opOut o) (opRound o) (opSat o) free x
    (v, sat ||| e ||| n ||| (if (Fl.ofInt s).mulBad c then 2 else 0))
  else
    let (x, e) := if bias = [] then (Fl.ofInt s, 0) else sum32 free (Fl.ofInt s :: bias)
    let y := match x.num with
      | some v => clampInt (-(2 ^ (w - 1))) (2 ^ (w - 1) - 1) (v.toInt (opRound o))
      | none => ((free % 2 ^ (w - 1) : Nat) : Int)
    if opAcc o = 2 then (ofSigned 64 y, sat ||| e)
    else if opOut o = 3 then (ofSigned 32 y, sat ||| e)
    else (free % 2 ^ elemBits (opOut o), sat ||| e)

/-- One output element of a float GEMM (R152 to R154). The spec gives no conversion to an integer format: the bits are free. -/
def floatElem (o : List Nat) (free : Nat) (l : List (Fl × Fl)) (bias old : List Fl) : Nat × Nat :=
  let mx := 9 ≤ opA o
  let (c, e) := sum32 free (productTerms mx l ++ bias ++ old)
  let bad := if productsBad mx l then 2 else 0
  if opOut o ≤ 3 then (free % 2 ^ elemBits (opOut o), e ||| bad)
  else
    let (v, n) := outBits (opOut o) (opRound o) (opSat o) free c
    (v, e ||| bad ||| n)

/-- A GEMM-class operation. The elements of C lie column by column. -/
def Dev.gemmOut (d : Dev) (mem : Mem) (id : Nat) (o : List Nat) : OpOut :=
  let a := (d.operand mem id o 4).1
  let b := (d.operand mem id o 5).1
  let c := (d.operand mem id o 6).1
  let (bs, bf) := d.operand mem id o 7
  let n := opM o * opN o
  let (v, e) := outElems d.free n (fun j free =>
    let i := j % opM o
    let l := (List.range (opK o)).map (fun k => (gemmA o a i k, gemmB o b k (j / opM o)))
    let bias := if opBias o then [Fl.at bs bf (opM o) i] else []
    let old := if opAccum o then [if opAcc o = 2 then Fl.ofInt (signedOf 64 (leAt c (8 * j) 8)) else Fl.at c (opOut o) n j] else []
    if opAcc o = 0 then floatElem o free l bias old else intElem o free l bias old)
  { bytes := if opAcc o = 2 then v.flatMap (leBytes 8) else packElems (opOut o) v, draws := n, exc := e }

/-! Vector operations (Tables 05.5 and 05.6). -/

/-- Element `i` of row `r` of an EWISE operation: one rounding for each elementary step. -/
def ewise (o : List Nat) (aux : List Byte) (a b : Nat → Nat → Fl) (free r i : Nat) : Fl × Nat :=
  let c0 := Fl.word (opWord o 9)
  let c1 := Fl.word (opWord o 10)
  let sub := opWord o 11
  let br := if bit sub 12 then 0 else r
  let f := bitsAt sub 11 8
  let x := a r i
  let y := b br i
  let magsq (z : Fl) (w : Fl) : Fl × Nat :=
    let (p, e1) := mul32 z z
    let (q, e2) := mul32 w w
    let (s, e3) := add32 p q
    (s, e1 ||| e2 ||| e3)
  match sub % 256 with
  | 0 =>
    let (p, e1) := mul32 c0 x
    let (s, e2) := add32 p c1
    (s, e1 ||| e2)
  | 1 => add32 x y
  | 2 => add32 x y.opposite
  | 3 => mul32 x y
  | 4 => (extreme true free x y, 0)
  | 5 => (extreme false free x y, 0)
  | 6 => (x.abs, 0)
  | 7 => mul32 x x
  | 8 => funcAt f aux free x
  | 9 =>
    let (g, e1) := funcAt f aux free y
    let (p, e2) := mul32 x g
    (p, e1 ||| e2)
  | 10 => magsq (a r (2 * i)) (a r (2 * i + 1))
  | 11 =>
    let u := a r (2 * i)
    let w := a r (2 * i + 1)
    let (m, e1) := magsq u w
    let (v, e2) := add32 m c1
    (logMagAt v (Config.reference 16 11 [] [dyKey v.num] 0 % 4294967296), e1 ||| e2)
  | _ => mul32 x (b br (i / 2))

/-- A value of REDUCE over a row. -/
def reduce (sub free : Nat) (row : List Fl) : Fl × Nat :=
  let sq (x : Fl) : Fl := x.mulX x
  let best (larger : Bool) : Fl :=
    if row.any (·.isNan) then Fl.word (free % 4294967296)
    else match row with
      | [] => .zero false
      | x :: xs => xs.foldl (fun m y => extreme larger free m y) x
  match sub with
  | 0 => sum32 free row
  | 1 => sum32 free (row.map sq)
  | 2 => sum32 free (row.map Fl.abs)
  | 3 => (best true, 0)
  | 4 => (best false, 0)
  | _ =>
    if row.any (·.isNan) then (Fl.ofInt ((free % max 1 row.length : Nat) : Int), 0)
    else
      let get (i : Nat) : Fl := row.getD i .nan
      (Fl.ofInt (((List.range row.length).foldl (fun j i => if (get i).le (get j) then j else i) 0 : Nat) : Int), 0)

/-- Element `i` of a NORM or SOFTMAX row (Table 05.9); free where the row or a parameter is not finite. H_AUX holds K gains and then K offsets. -/
def rowFunc (o : List Nat) (aux : List Byte) (free : Nat) (row : List Fl) (i : Nat) : Fl × Nat :=
  let v := row.length
  let xs := row.filterMap Fl.num
  let keys := row.map (fun x => dyKey x.num)
  let word (j : Nat) : Option Dy := (Fl.word (leAt aux (4 * j) 4)).num
  if xs.length < v then (Fl.word (free % 4294967296), 0)
  else if opCode o = 19 then (softAt xs i (Config.reference 3 0 [] keys i % 4294967296), 0)
  else match (Fl.word (opWord o 10)).num, word i, word (v + i) with
    | some eps, some g, some b =>
      (normAt (opWord o 11 == 1) xs eps g b i
        (Config.reference 2 (opWord o 11) [dyKey (some eps), dyKey (some g), dyKey (some b)] keys i % 4294967296), 0)
    | _, _, _ => (Fl.word (free % 4294967296), 0)

/-- An element of REQUANT (R174) before its output format; free where A is not INT32. -/
def requantElem (o : List Nat) (aux : List Byte) (free r : Nat) (x : Fl) : Fl × Nat :=
  match (if opA o = 3 then x.int? else none) with
  | some v => (Fl.ofInt (requant (slice aux (if bit (opWord o 11) 0 then 16 * r else 0) 16) v), 0)
  | none => (Fl.word (free % 4294967296), 0)

/-- A vector operation over M rows of K elements, evaluated in FP32. -/
def Dev.vectorOut (d : Dev) (mem : Mem) (id : Nat) (o : List Nat) : OpOut :=
  let abs_ := (d.operand mem id o 4).1
  let bbs := (d.operand mem id o 5).1
  let aux := (d.operand mem id o 8).1
  let k := opK o
  let sub := opWord o 11 % 256
  let pairs := opCode o = 16 && (sub = 10 || sub = 11)
  let kb := if sub = 12 then k / 2 else k
  let rowsB := if bit (opWord o 11) 12 then 1 else opM o
  let raw (r i : Nat) : Fl := Fl.at abs_ (opA o) (opM o * k) (r * k + i)
  let a (r i : Nat) : Fl := (raw r i).f32
  let b (r i : Nat) : Fl := (Fl.at bbs (opB o) (rowsB * kb) (r * kb + i)).f32
  let per := if opCode o = 17 then 1 else if pairs then k / 2 else k
  let n := opM o * per
  let (v, e) := outElems d.free n (fun j free =>
    let r := j / max 1 per
    let i := j % max 1 per
    let row := (List.range k).map (a r)
    let (x, e) := match opCode o with
      | 16 => ewise o aux a b free r i
      | 17 => reduce sub free row
      | 20 => requantElem o aux free r (raw r i)
      | _ => rowFunc o aux free row i
    let (y, e2) := outBits (opOut o) (opRound o) (opSat o) free x
    (y, e ||| e2))
  { bytes := packElems (opOut o) v, draws := n, exc := e }

/-! COMPARE_BOUND (R164). -/

/-- Whether an element passes, and its difference less its allowance where both are numbers. In mode 0 the verdict is free where the record's
tolerances are not finite, or it counts units of the last place of a format that R132 gives no spacing. -/
def compareElem (o : List Nat) (record : List Byte) (free : Nat) (a b : Fl) : Bool × Option Dy :=
  let ulp := leAt record 8 2
  match bitsAt (opWord o 11) 1 0 with
  | 0 =>
    let (abs_, rel, fmt) := (leAt record 0 4, leAt record 4 4, leAt record 10 1)
    (match a.num, b.num with
    | some x, some y =>
      if (fp32 abs_).isNone || (fp32 rel).isNone || (ulp != 0 && !isFloatFmt fmt) then (bit free 0, none)
      else
        let t := tolSides abs_ rel ulp fmt x y
        (t.1.le t.2, some (t.1.sub t.2))
    | _, _ => (false, none))
  | 1 =>
    (match a.num, b.num with
    | some x, some y => let diff := (x.sub y).abs; (diff.le (.ofInt ulp), some (diff.sub (.ofInt ulp)))
    | _, _ => (false, none))
  | _ =>
    let s := Fl.sumX [(Fl.word (opWord o 9)).mulX b, Fl.word (opWord o 10)]
    match a.num, s.num with
    | some x, some y => (x.le (y.round true), some (x.sub (y.round true)))
    | _, _ => (a.le s, none)

/-- COMPARE_BOUND: PASS, FAIL, FIRST and WORST (Table 05.7). WORST is free where an element is not finite, or leaves the range of its format. -/
def Dev.compareOut (d : Dev) (mem : Mem) (id : Nat) (o : List Nat) : OpOut :=
  let abs_ := (d.operand mem id o 4).1
  let bbs := (d.operand mem id o 5).1
  let record := slice (d.operand mem id o 8).1 0 16
  let n := opM o * opK o
  let l := (List.range n).map (fun i =>
    compareElem o record (Config.free (d.free + 1 + i)) (Fl.at abs_ (opA o) n i) (Fl.at bbs (opB o) n i))
  let fail := (l.filter (fun x => !x.1)).length
  let first := (List.range n).find? (fun i => !(l.getD i (true, none)).1)
  let nums := l.filterMap Prod.snd
  let top := nums.tail.foldl (fun a x => if a.lt x then x else a) (nums.headD .zero)
  let free := Config.free d.free % 4294967296
  let worst :=
    if l.any (fun x => x.2.isNone) then free
    else if bitsAt (opWord o 11) 1 0 = 1 then
      if top.e < 0 || decide (top.toInt 0 < -2147483648) || decide (2147483647 < top.toInt 0) then free else ofSigned 32 (top.toInt 0)
    else (((Fl.ofDy top).toFmt 8 1 false).1).bits 8 0
  { bytes := leBytes 4 (n - fail) ++ leBytes 4 fail ++ leBytes 4 (first.getD 0xFFFFFFFF) ++ leBytes 4 worst, draws := n + 1, exc := 0 }

/-! Effect of an operation. -/

/-- The result of an operation of Table 05.5; a model holds no other (R161, R162). -/
def Dev.opOutput (d : Dev) (mem : Mem) (id : Nat) (o : List Nat) : OpOut :=
  if opGemm o then d.gemmOut mem id o
  else if opCode o = 0x21 then d.compareOut mem id o
  else if [0x10, 0x11, 0x12, 0x13, 0x14].contains (opCode o) then d.vectorOut mem id o
  else ⟨[], 0, 0⟩

/-- What the completion of an operation of a RUN model leaves: the tensors, the free values drawn and the exceptions (R161). -/
structure OpEffect where
  tensors : Tab (List Byte)
  draws : Nat
  exc : Nat
  deriving DecidableEq, Repr

/-- The exceptions that the operation of another owner sets: those of a table rebuild (R152). -/
def Dev.ownerExc (d : Dev) (mem : Mem) (o : OpOwner) : Nat :=
  match o with
  | .build w => match d.buildingSet w with
    | some (_, s) => d.buildExc mem w s
    | none => 0
  | _ => 0

/-- The effect of an operation; operations of other owners hold no tensors of a model. -/
def Dev.opEffect (d : Dev) (mem : Mem) (o : ArrOp) : OpEffect :=
  match d.runModel o.owner with
  | none => ⟨d.arr.tensors, 0, d.ownerExc mem o.owner⟩
  | some id =>
    let r := d.opOutput mem id o.desc
    ⟨if opWord o.desc 6 = 0 then d.arr.tensors else d.tensorWrite id (opWord o.desc 6 % 4096) r.bytes, r.draws, r.exc⟩

/-- The tile of a GEMM-class operation that completes element `j` of C, which lies in column `j / M`: its last slice (R157). -/
def lastTile (desc : List Nat) (j : Nat) : Nat :=
  let (_, s, _, _) := gemmTiling desc
  (j / opM desc / 32 * cdiv (opM desc) 32 + j % opM desc / 32) * s + s - 1

/-- The output that an operation which stops after `n` tiles has written: the elements that these tiles complete (R160). -/
def Dev.keepTiles (d : Dev) (mem : Mem) (o : ArrOp) (n : Nat) : Dev :=
  match d.runModel o.owner with
  | none => d
  | some id =>
    if !opGemm o.desc || n = 0 || opWord o.desc 6 = 0 then d
    else
      let t := opWord o.desc 6 % 4096
      let r := d.opOutput mem id o.desc
      let old := d.tensorBytes mem id t true
      let bits := if opAcc o.desc = 2 then 64 else elemBits (opOut o.desc)
      let merged := (List.range r.bytes.length).map (fun i =>
        if lastTile o.desc (8 * i / bits) < n && lastTile o.desc ((8 * i + 7) / bits) < n then r.bytes.getD i 0 else old.getD i 0)
      { d with arr := { d.arr with tensors := d.tensorWrite id t merged }, free := d.free + r.draws }

/-- The HBM pieces of the weights that an operation of a RUN model reads (R172). -/
def Dev.opWeights (d : Dev) (o : ArrOp) : List (Nat × Nat) :=
  match d.runModel o.owner with
  | none => []
  | some id =>
    let m := d.model id
    [4, 5, 7, 8].flatMap (fun j =>
      let h := opWord o.desc j
      let (n, _, place, off) := m.tensor (h % 4096)
      if h != 0 && (place == 1 || place == 2) then m.weightRanges off n else [])

end Sys2Proof.Machine
end

