-- ==== Sys2Proof/Machine/Array.lean ====
section
/-!
DEFINITION. The matrix array (chapter 5): operation issue, tiles and completion, the results of NLS, SHD and STN stages and of fallback runs,
and engine detections (R169, R486).
-/

namespace Sys2Proof.Machine

/-! Engines (R485, R486). -/

/-- The physical engine that runs tile `t` (R157, R486). -/
def Dev.tileEngine (d : Dev) (t : Nat) : Nat :=
  let v := d.validEngines
  d.physOf (v.getD (t % max 1 v.length) 0)

/-- A detection makes an engine SUSPECT at once (R486); 16 stands for no logical engine. -/
def Dev.suspectEngine (d : Dev) (phys : Nat) : Dev :=
  let st := d.fld (HLN.ENG_STAT_STATE phys)
  if st = 0 || st = 1 then
    let l := if st = 0 then d.fld (HLN.ENG_STAT_LOGICAL phys) else 16
    let d1 := (d.put (HLN.ENG_STAT_STATE phys) 2).put (HLN.ENG_STAT_LOGICAL phys) 0
    { d1 with health := { d1.health with repairs := d1.health.repairs ++ [⟨phys, none, l, 0⟩] } }
  else d

/-! Owners. -/

/-- Restart what an operation works for, after an abort (R169, R193, R194). -/
def Dev.ownerFault (d : Dev) (o : OpOwner) : Dev :=
  match o with
  | .job w k => d.jobFault w k
  | .build w => d.buildFault w
  | .selfTest _ => d.dropOps o
  | .fallback slot k =>
    let tries := tabGet 0 d.arr.fbTries slot
    let d2 := ((d.wasteAttempt o).dropOps o).dropStageDma o
    if tries < d.fld TCK.PLAN_CTRL_RESTART_MAX then
      let e := 16 * (d.frameStart k + 2 * d.len + d.marginOf k)
      let ops := markLast ((d.model (d.fld (SGT.FB_MODEL_ID slot))).ops.map (fun x => ArrOp.mk1 o e 7 d.now x 0))
      { d2 with arr := { d2.arr with plan := d2.arr.plan ++ ops, fbTries := tabSet 0 d2.arr.fbTries slot (tries + 1) } }
    else d2.closeStage o

/-- The sequencer stops the running operation: it leaves the array. -/
def Dev.stopRunning (d : Dev) : Dev := ({ d with arr := { d.arr with running := none } }).flag MTX.STAT_BUSY false

/-! Issue (R156, R159, R186). -/

/-- `a` outranks `b` (R186): earlier E, MODEL content first, higher PRIO, lower WATCH_ID; self-test slots come last (R482). -/
def opBefore (a b : ArrOp) : Bool :=
  let cls (o : ArrOp) : Nat := match o.owner with
    | .selfTest _ => 2
    | .fallback _ _ => 0
    | _ => 1
  let id (o : ArrOp) : Nat := match o.owner with
    | .job w _ => w
    | .fallback s _ => s
    | _ => 0
  let test (o : ArrOp) : Nat := if cls o = 2 then 1 else 0
  if test a ≠ test b then test a < test b
  else if a.deadline ≠ b.deadline then a.deadline < b.deadline
  else if cls a ≠ cls b then cls a < cls b
  else if a.prio ≠ b.prio then b.prio < a.prio
  else id a < id b

/-- The highest-ranked operation of a list; the first of equals. -/
def bestOp : List ArrOp → Option ArrOp
  | [] => none
  | o :: os =>
    match bestOp os with
    | none => some o
    | some p => if opBefore p o then some p else some o

/-- The PLAN operation that issues next: the stage under way goes on (R160, R186). -/
def Dev.nextPlan (d : Dev) : Option ArrOp :=
  match d.arr.stage with
  | some o => d.arr.plan.find? (fun x => x.owner = o)
  | none => (bestOp (d.arr.plan.filter d.opReady)).bind (fun b => d.arr.plan.find? (fun x => x.owner = b.owner))

/-- Clocks that the plan leaves for the table rebuild in a tick (Table 06.2). -/
def Dev.rebuildCharge (d : Dev) : Nat :=
  let c := (d.linWatches.map d.projectClocks).foldl (· + ·) 0
  cdiv (c * 1000 * d.len) (max 1 (d.fs * d.tEff))

/-- BACKGROUND may issue: with BG_IDLE, or without a tick plan, at any idle time, else within the gap that the plan leaves (R156). -/
def Dev.bgAllowed (d : Dev) : Bool := d.on MTX.CTRL_BG_IDLE || !d.ticking || d.arr.bgClk < d.rebuildCharge

/-- Clocks of an operation as it stands. -/
def Dev.clocksOf (d : Dev) (o : ArrOp) : Nat :=
  match o.owner with
  | .build w => d.projectClocks w
  | .selfTest _ => d.fld HLN.ST_CTRL_SLOT_CLK
  | _ => opClocks d.engines o.desc o.size

/-- An operation starts, or goes on after a pre-emption. -/
def Dev.startOp (d : Dev) (q : ArrQueue) (o : ArrOp) : Dev :=
  let d1 := { d with arr := { d.arr with running := some (q, { o with clk := d.clocksOf o, since := d.now }) } }
  (((d1.flag MTX.STAT_BUSY true).put MTX.STAT_QUEUE (if q = .plan then 0 else 1)).put MTX.STAT_OPCODE (opCode o.desc)).put
    MTX.TAG_TAG (o.desc.getD 15 0)

/-- A translation fault that an operand shows at issue: one of a RUN model that maps to HBM (cause TARGET of Table 07.6), as cause, handle and
offset. -/
def Dev.operandFault (d : Dev) (m : Mem) (o : ArrOp) : Option (Nat × Nat × Nat) :=
  if (d.runModel o.owner).isNone then none
  else (([4, 5, 6, 7, 8].map (opWord o.desc)).find? (fun h => h != 0 && d.operandHbm m h)).map (fun h => (7, h, 0))

/-- A translation fault at issue: the operation does not issue (Table 07.9). The spec gives the sequencer no master identity: MID is a free value
(log entry 115). -/
def Dev.issueFault (d : Dev) (o : ArrOp) (f : Nat × Nat × Nat) : Dev :=
  let (v, d1) := d.draw
  (d1.xlateFault f.1 (v % 32) f.2.1 f.2.2 false).ownerFault o.owner

/-- A PLAN operation issues: weights that read with an uncorrectable error are a fault of its job (R192). -/
def Dev.issuePlan (d : Dev) (m : Mem) (o : ArrOp) : Dev :=
  let (v, d0) := d.draw
  let (d1, bad) := d0.readMem m (v % 32) (d.opWeights o)
  if bad then d1.ownerFault o.owner
  else
    let lat := (d.now - o.readyAt.getD (d.readySince o)) * d.fld HLN.FREQ_CUR_MHZ / 600
    let d2 := { d1 with arr := { d1.arr with maxLat := max d1.arr.maxLat lat, stage := if o.last then none else some o.owner,
                                             plan := d1.arr.plan.erase o } }
    (if d.arr.stage.isNone then d2.loadInputs o.owner else d2).startOp .plan o

/-- ARRAY_OPERATION_ISSUE (R186): `fault` is a translation fault that the sequencer finds at issue, as cause, handle and offset; `agree` is false
where the progress records of a resumed PROJECT differ (R240). -/
def Dev.issue (d : Dev) (m : Mem) (fault : Option (Nat × Nat × Nat)) (agree : Bool) : Dev :=
  if d.arr.running.isSome || !d.checks then d
  else
    match d.nextPlan with
    | some o =>
      match fault.orElse (fun _ => d.operandFault m o) with
      | some f => d.issueFault o f
      | none => d.issuePlan m o
    | none =>
      if !d.bgAllowed then d
      else
        match d.arr.suspended with
        | some o =>
          let d1 := ({ d with arr := { d.arr with suspended := none, bgClk := d.arr.bgClk + 256 } }).flag MTX.STAT_SUSPENDED false
          if agree then d1.startOp .background o else (d1.raise .c0 78).ownerFault o.owner
        | none =>
          match d.arr.background with
          | [] => d
          | o :: rest => ({ d with arr := { d.arr with background := rest } }).startOp .background o

def execArrayOperationIssue (fault : Option (Nat × Nat × Nat)) (agree : Bool) (s : State) : Host.Outcome State Fault Refusal :=
  run s fun m d => d.issue m fault agree

/-! Tiles (R157 to R160, R167 to R169). -/

/-- MTX_INJ is armed with a mode. -/
def Dev.mtxArmed (d : Dev) (mode : Nat) : Bool := d.on MTX.INJ_ARM && d.fld MTX.INJ_MODE == mode

/-- Charge the clocks of the tiles that an operation has completed. -/
def Dev.chargeTiles (d : Dev) (q : ArrQueue) (o : ArrOp) : Dev := d.charge q o (o.clk * o.done / max 1 o.tiles - o.charged)

/-- An operation that is aborted: its clocks so far count, its completed tiles stay in memory (R160), and its owner restarts (R169). -/
def Dev.abortOp (d : Dev) (m : Mem) (q : ArrQueue) (o : ArrOp) : Dev :=
  let d1 := (d.chargeTiles q o).stopRunning.keepTiles m o o.done
  let d2 := { d1 with arr := { d1.arr with stage := none } }
  d2.ownerFault o.owner

/-- A staged record of a job read with an uncorrected error: the units that need it do not count (R193). -/
def Dev.entryBad (d : Dev) (o : OpOwner) (entry : Option Nat) : Dev :=
  match o, entry with
  | .job w k, some i =>
    let x := d.jobIn w k
    d.putJobIn w k { x with recs := x.recs.zipIdx.map (fun r => if r.2 = i then { r.1 with sound := false } else r.1) }
  | _, _ => d

/-- A read of a tile that is uncorrectable: the operation aborts and the tile is not written (Table 07.9). -/
def tileBad (read : TileRead) : Bool :=
  match read with
  | .sound => false
  | .corrected _ => false
  | .uncorrectable _ _ => true

/-- What the engine's SRAM reads of a tile leave behind (R224, R227). The spec gives an engine no master identity: MID is a free value (log entry
115). -/
def Dev.tileRead (d : Dev) (o : OpOwner) (read : TileRead) : Dev :=
  match read with
  | .sound => d
  | .corrected a => d.correctedRead a
  | .uncorrectable a entry => let (v, d1) := d.draw; (Dev.badRead (v % 32) d1 a).entryBad o entry

/-- A BACKGROUND operation is pre-empted at a tile boundary (R159, R240): its progress records are compared. -/
def Dev.preempt (d : Dev) (o : ArrOp) (agree : Bool) : Dev :=
  let d1 := (d.chargeTiles .background o).stopRunning
  let o1 := { o with charged := max o.charged (o.clk * o.done / max 1 o.tiles) }
  let d2 := { d1 with arr := { d1.arr with suspended := some o1, preempts := d1.arr.preempts + 1 } }.flag MTX.STAT_SUSPENDED true
  if agree then d2 else (d2.raise .c0 78).ownerFault o.owner

/-- TILE_BOUNDARY (R157): `pass` is false where the checksum lanes fail, `agree` where a pre-emption finds the progress records to differ, and
`read` is what the engine's SRAM reads of the tile show. -/
def Dev.tile (d : Dev) (m : Mem) (pass agree : Bool) (read : TileRead) : Dev :=
  match d.arr.running with
  | none => d
  | some (q, o) =>
    if o.tiles ≤ o.done then d
    else
      let phys := match o.owner with
        | .selfTest seg => seg / 64
        | _ => d.tileEngine o.done
      let die := clusterDie (phys / 5)
      let inj := d.mtxArmed 1
      let fail := !pass || inj
      let d0 := if inj then d.flag MTX.INJ_ARM false else d
      let d1 := d0.tileRead o.owner read
      let o1 := { o with done := o.done + 1 }
      let d2 := if fail then (d1.raise die 76).suspectEngine phys else d1
      if fail || tileBad read then
        if o.aborted then (d2.chargeTiles q o).stopRunning.keepTiles m o o.done else d2.abortOp m q o
      else if o.aborted then (d1.chargeTiles q o1).stopRunning.keepTiles m o1 o1.done
      else if q = .background && o1.done < o1.tiles && (d1.nextPlan).isSome then d1.preempt o1 agree
      else { d1 with arr := { d1.arr with running := some (q, o1) } }

def execTileBoundary (pass : Bool) (tile : TileEnd) (s : State) : Host.Outcome State Fault Refusal :=
  run s fun m d => d.tile m pass tile.agree tile.read

/-! Results of stages. -/

/-- The units of a slot in a byte range, from the records that hold them. -/
def rangeElems (recs : List Rec) (slot fmt a n : Nat) : List (Option Dy) :=
  let r := elemRange fmt a n
  let bytes := (List.range (r.2 - r.1)).map (fun i =>
    ((recs.find? (fun x => x.slot == slot && x.off ≤ r.1 + i && r.1 + i < x.off + x.bytes.length)).bind
      (fun x => x.bytes[r.1 + i - x.off]?)).getD 0)
  ((decodeSlot fmt bytes).drop (a % fmtElems fmt)).take n

/-- Reference of element `i` of an NLS row: exact for REQUANT, ReLU and the piecewise-linear table (R174, R175, Table 05.9), else within the bound of
Table 05.9; none where it is not finite. -/
def Dev.nlsReference (d : Dev) (w : Nat) (row : List (Option Dy)) (i : Nat) : Option Dy :=
  let m := d.model (d.wdModel w)
  let l := d.layerOf w
  let v := d.nlsV w
  let func := d.nlsFunc w
  let xs := row.map (fun x => x.getD .zero)
  let word := Config.reference (d.nlsOp w) func [d.wdModel w, d.wdLayer w, v] (row.map dyKey) i % 4294967296
  let param (j : Nat) : Dy := (fp32 (leAt m.params (l.getD 9 0 + 4 * j) 4)).getD .zero
  match d.nlsOp w with
  | 1 => (row.getD i none).map (fun x => .ofInt (requant (slice m.params (l.getD 10 0) 16) x.nearest))
  | 0 =>
    (row.getD i none).bind (fun x =>
      if func = 6 then (if l.getD 11 0 = 0xFFFFFFFF then fp32 word else (pwl (m.params.drop (l.getD 11 0)) word (.ofDy x)).1.num)
      else (funcAt func [] word (.ofDy x)).1.num)
  | 2 =>
    if l.getD 9 0 = 0xFFFFFFFF || (List.range (2 * v + 1)).any (fun j => (fp32 (leAt m.params (l.getD 9 0 + 4 * j) 4)).isNone) then fp32 word
    else (normAt (bit (l.getD 3 0) 16) xs (param (2 * v)) (param i) (param (v + i)) i word).num
  | _ => (softAt xs i word).num

/-- The result of an NLS stage (R132): the selected rows whose inputs and outputs have arrived are compared, element by element. -/
def Dev.nlsResult (d : Dev) (w k : Nat) (j : Job) : Dev :=
  let v := d.nlsV w
  let x := d.jobIn w k
  let (irecs, islot) := match d.nlsShare w with
    | some z => ((d.jobIn z k).recs, 1)
    | none => (x.recs, 0)
  let tol := (d.wdKindWord w 2, d.wdKindWord w 3, bitsAt (d.wdKindWord w 4) 15 0)
  let outR (r : Nat) := elemRange (d.nlsOut w) (r * v) v
  let inR (r : Nat) := elemRange (d.nlsIn w) (r * v) v
  let rows := j.sample.filter (fun r => hasRange x.recs 1 (outR r) && hasRange irecs islot (inR r)
    && !unsound x.recs 1 (outR r) && !unsound irecs islot (inR r))
  let rowFails (r : Nat) : List Nat :=
    let ins := rangeElems irecs islot (d.nlsIn w) (r * v) v
    let outs := rangeElems x.recs 1 (d.nlsOut w) (r * v) v
    if ins.any (·.isNone) then [11]
    else (List.range v).filterMap (fun i =>
      let ref := d.nlsReference w ins i
      if d.nlsOp w = 1 then
        match outs.getD i none, ref with
        | some a, some b => if (a.sub b).abs.le (.ofInt tol.2.2) then none else some 10
        | _, _ => some 11
      else tolFail tol.1 tol.2.1 tol.2.2 (d.nlsOut w) (outs.getD i none) ref)
  let inj := d.sigArmed w 4 && rows != []
  let d1 := if inj then d.sigDisarm else d
  let fails := (if inj then [(rows.getD 0 0, 10)] else []) ++ rows.flatMap (fun r => (rowFails r).map (fun c => (r, c)))
  let first := (sortBy (fun f => f.1 * 256 + f.2) fails).head?
  let j1 := { j with status := 2, checked := rows.length * v, units := rows }
  d1.putJob w (match first with
    | none => j1
    | some (r, c) => j1.failRow c r)

/-- The result of a FLOAT stencil stage (R202). -/
def Dev.stnResult (d : Dev) (w k : Nat) (j : Job) : Dev :=
  let f := d.slotFmt w 1
  let x := d.jobIn w k
  let ans := decodeSlot f (d.stnAnswer w j)
  let got := rangeElems x.recs 1 f 0 j.declared
  let here := (List.range j.declared).filter (fun i => hasRange x.recs 1 (elemRange f i 1) && !unsound x.recs 1 (elemRange f i 1))
  let b4 := d.wdKindWord w 6
  let fail := here.findSome? (fun i => (tolFail (d.wdKindWord w 4) (d.wdKindWord w 5) (b4 % 65536) (bitsAt b4 23 16)
    (got.getD i none) (ans.getD i none)).map (fun c => (i, c)))
  let j1 := { j with status := 2, checked := here.length }
  d.putJob w (match fail with
    | none => j1
    | some (i, c) => j1.fail (c * 16777216 + min 65535 i))

/-- Key of a shadow output word. An SHD column above 255 is reported modulo 256 (DESIGN CHOICE, log entry 108). -/
def shadowKey (w out n : Nat) : Nat := (4 * n + out) * 4096 + w

/-- One compared pair of an SHD run (R136): whether it fails and its measure in 2^-8; none where an output is not finite. DESIGN CHOICE (log
entry 111): the measure of ENERGY_RATIO is E_d over max(E_h, FLOOR·N), rounded down, and saturates where that is 0. -/
def Dev.shdPair (d : Dev) (w k pair : Nat) : Option (Bool × Nat) :=
  let lo := d.frameStart k
  let c := (d.chanList w 12 4).getD pair 0
  let a := (List.range d.len).map (fun i => (d.sampleAt c ((lo + i : Nat) : Int)).getD 0)
  let word (i : Nat) : Nat := if lo + i < d.shdAlign w then 0 else tabGet 0 d.arr.shadow (shadowKey w pair (lo + i - d.shdAlign w))
  let hs := (List.range d.len).map word
  let thr := (fp32 (d.wdKindWord w 5)).getD .zero
  let floor := (fp32 (d.wdKindWord w 6)).getD .zero
  if d.shdMeasure w = 1 then
    let edges := (List.range (d.shdBands w)).map (d.shdEdge w)
    if hs.any (fun h => (fp32 h).isNone) then none
    else
      (bandLsd d.len edges floor (a.map (fun x => ⟨x, -31⟩)) (hs.map (fun h => (fp32 h).getD .zero))).map (fun x =>
        (thr.lt (fxDy x), (min 65535 (x * 256 / fxOne)).toNat))
  else if hs.any (fun h => (fp32 h).isNone) then none
  else
    let h (i : Nat) : Dy := (fp32 (hs.getD i 0)).getD .zero
    let diff (i : Nat) : Dy := (⟨a.getD i 0, -31⟩ : Dy).sub (h i)
    let ed := (List.range d.len).foldl (fun s i => s.add ((diff i).mul (diff i))) Dy.zero
    let eh := (List.range d.len).foldl (fun s i => s.add ((h i).mul (h i))) Dy.zero
    let fl := floor.mul (.ofInt d.len)
    let base := if eh.lt fl then fl else eh
    let units : Option Nat := (List.range 65536).find? (fun v => ed.lt (base.mul ⟨((v + 1 : Nat) : Int), -8⟩))
    some ((thr.mul base).lt ed, units.getD 65535)

/-- The columns of TOP1 (R136): of each whether it fails and its measure; none where an element is not finite. -/
def Dev.shdTop1 (d : Dev) (w k : Nat) : List (Option (Bool × Nat)) :=
  let z := d.shdWatch w
  let m := max 1 (d.slotRows z 1)
  let recs := (d.jobIn z k).recs
  let thr := (fp32 (d.wdKindWord w 5)).getD .zero
  let col (c : Nat) : Option (Bool × Nat) :=
    let a := rangeElems recs 1 (d.slotFmt z 1) (c * m) m
    let h := (List.range m).map (fun i => fp32 (tabGet 0 d.arr.shadow (shadowKey w 0 (d.frameStart k + c * m + i))))
    if a.any (·.isNone) || h.any (·.isNone) then none
    else
      let v (l : List (Option Dy)) (i : Nat) : Dy := (l.getD i none).getD .zero
      let best := (List.range m).foldl (fun b i => if (v h b).lt (v h i) then i else b) 0
      let top := (List.range m).foldl (fun b i => if (v a b).lt (v a i) then i else b) 0
      let gap := (v a top).sub (v a best)
      some (thr.lt gap, min 65535 (Dy.round false ⟨gap.m * 256, gap.e⟩).nearest.toNat)
  (List.range (cdiv (d.declared z) (if d.wdKind z = 1 then m else 1))).map col

/-- The compared pairs or columns of an SHD run, in the order of their list (R136). -/
def Dev.shdUnits (d : Dev) (w k : Nat) : List (Option (Bool × Nat)) :=
  if d.shdType w = 0 then (List.range (d.chanList w 12 4).length).map (d.shdPair w k) else d.shdTop1 w k

/-- The result of an SHD stage (R136). The spec states no result for a pair or column with an element that is not finite: whether it fails, and its
measure, are free values. An injected failure is one of the first pair or column, with its measure (R147). -/
def Dev.shdResult (d : Dev) (mem : Mem) (w k : Nat) (j : Job) : Dev :=
  let m := d.model (d.wdModel w)
  let n := m.nOut * d.len
  let outs := d.runOutputs mem (d.wdModel w)
  let t := (List.range n).foldl (fun t i =>
    tabSet 0 t (shadowKey w (i / d.len) (d.frameStart k + i % d.len)) (outs.getD i 0)) d.arr.shadow
  let ms := tabSet .empty d.arr.models (d.wdModel w) { m with stateCopy := !m.stateCopy }
  let d2 := { d with arr := { d.arr with shadow := t, models := ms } }
  let chans := (d.chanList w 0 8) ++ (if d.shdType w = 0 then d.chanList w 12 4 else [])
  let lo := d.frameStart k
  let missing := chans.any (fun c => (List.range d.len).any (fun i => (d.sampleAt c ((lo + i : Nat) : Int)).isNone))
    || (d.shdType w = 1 && d.stageIncompleteCmp (d.shdWatch w) k)
  if missing then d2.putJob w { j with status := 2, incomplete := true }
  else
    let inj := d2.sigArmed w 4
    let d3 := if inj then d2.sigDisarm else d2
    let units := d3.shdUnits w k
    let (vs, d4) := if units.any (·.isNone) then d3.drawN units.length else ([], d3)
    let fails := units.zipIdx.map (fun u =>
      let v := vs.getD u.2 0
      let (fail, x) := u.1.getD (bit v 0, v / 2 % 65536)
      (fail || (inj && u.2 == 0), u.2, x))
    let j1 := { j with status := 2, checked := 1 }
    d4.putJob w (match fails.find? (fun f => f.1) with
      | none => j1
      | some (_, e, x) => j1.fail (13 * 16777216 + e % 256 * 65536 + x))

/-- Key of a fallback output sample. -/
def fbKey (slot out n : Nat) : Nat := n * 32 + slot * 4 + out

/-- The outputs of a fallback run for frame `k`, converted to samples (R307). They count only where the run is final before RP(k). -/
def Dev.fallbackResult (d : Dev) (mem : Mem) (slot k : Nat) : Dev :=
  let id := d.fld (SGT.FB_MODEL_ID slot)
  let m := d.model id
  let n := m.nOut * d.len
  let outs := d.runOutputs mem id
  let late := d.rpPast k || (match d.gate.lastRp with
    | none => false
    | some r => !framePrecedes r k)
  let t := if late then d.gate.fallback
    else (List.range n).foldl (fun t i =>
      tabSet none t (fbKey slot (i / d.len) (d.frameStart k + i % d.len)) (some (fp32Sample (outs.getD i 0)))) d.gate.fallback
  let ms := tabSet .empty d.arr.models id { m with stateCopy := !m.stateCopy }
  { d with gate := { d.gate with fallback := t }, arr := { d.arr with models := ms } }

/-- The last operation of a stage has completed. -/
def Dev.stageDone (d : Dev) (m : Mem) (o : OpOwner) : Dev :=
  match o with
  | .build w => d.buildDone m w
  | .selfTest _ => d
  | .fallback slot k => d.fallbackResult m slot k
  | .job w k =>
    match d.openJob w k with
    | none => d
    | some j =>
      if j.ended then d
      else
        match d.wdKind w with
        | 1 => d.nlsResult w k j
        | 6 => d.shdResult m w k j
        | _ => d.stnResult w k j

/-! Completion (R165, R168). -/

/-- The owner runs a RUN model, whose exceptions raise MTX_ARITH_EXC (R170). -/
def Dev.ownerIsModel (d : Dev) (o : OpOwner) : Bool :=
  match o with
  | .fallback _ _ => true
  | .job w _ => d.wdKind w == 6
  | _ => false

/-- The next operation of a stage becomes ready as the one before it completes. -/
def Dev.nextReady (d : Dev) (o : OpOwner) : Dev :=
  { d with arr := { d.arr with plan := d.arr.plan.map (fun x => if x.owner = o then { x with readyAt := some d.now } else x) } }

/-- ARRAY_OPERATION_COMPLETE (R165): `seqOk` is the comparison of TAG and signature, `vecOk` that of the vector datapaths, `exc` exceptions of the
operation in the layout of MTX_EXC beside those that its arithmetic sets. -/
def Dev.complete (d : Dev) (m : Mem) (seqOk vecOk : Bool) (exc : Nat) : Dev :=
  match d.arr.running with
  | none => d
  | some (q, o) =>
    let vec := !opGemm o.desc && opCode o.desc != 32 && opCode o.desc != 48
    if o.done < o.tiles && !vec then d
    else if o.aborted then (d.charge q o (o.clk - o.charged)).stopRunning
    else
      let i3 := d.mtxArmed 3
      let i2 := vec && d.mtxArmed 2
      let d0 := if i3 || i2 then d.flag MTX.INJ_ARM false else d
      let o1 := { o with done := o.tiles }
      if !seqOk || i3 then (d0.raise .c1 78).abortOp m q o1
      else if vec && (!vecOk || i2) then (d0.raise .c0 77).abortOp m q o1
      else
        let r := d.opEffect m o
        let d1 := (d0.charge q o (o.clk - o.charged)).stopRunning
        let d1 := { d1 with arr := { d1.arr with tensors := r.tensors }, free := d1.free + r.draws }
        let exc := exc ||| r.exc
        let old := d1.fld MTX.EXC_SAT + d1.fld MTX.EXC_OVF + d1.fld MTX.EXC_INV + d1.fld MTX.EXC_NONFINITE
        let d2 := if exc % 16 = 0 then d1
          else
            let setIf (d : Dev) (f : Fld) (i : Nat) : Dev := if bit exc i then (d.flag f true).stampBit f 0 else d
            let d2 := setIf (setIf (setIf (setIf d1 MTX.EXC_SAT 3) MTX.EXC_OVF 2) MTX.EXC_INV 1) MTX.EXC_NONFINITE 0
            if old = 0 then d2.put MTX.EXC_TAG_TAG (o.desc.getD 15 0) else d2
        let d3 := if (bit exc 1 || bit exc 2) && d.ownerIsModel o.owner then d2.raise .c0 79 else d2
        (if o.last then (d3.stageDone m o.owner).closeStage o.owner else d3.nextReady o.owner).planCheckins

def execArrayOperationComplete (seqOk vecOk : Bool) (exc : Nat) (s : State) : Host.Outcome State Fault Refusal :=
  run s fun m d => d.complete m seqOk vecOk exc

/-- A write of MTX_INJ (Table 05.18). -/
def Dev.mtxInjWrite (d : Dev) (v : Nat) : Dev :=
  if injTaken (d.on MTX.INJ_ARM) v (v % 4 != 0) then ((d.flag MTX.INJ_ARM (bit v 31)).put MTX.INJ_MODE (v % 4)).answer .done
  else d.answer .discarded

/-- MTX_INJ (R169). -/
def execMtxInj (value : Nat) (s : State) : Host.Outcome State Fault Refusal := run s fun _ d => d.atC (fun d => d.mtxInjWrite value)

end Sys2Proof.Machine
end

