-- ==== Sys2Proof/Machine/Memory.lean ====
section
/-!
DEFINITION. DMA (R235 to R239, R242, R243), page retirement (R245, R246), injected errors and the commands of the MEM block (chapter 7).
-/

namespace Sys2Proof.Machine

/-! Descriptors (Table 07.7). -/

def DmaDesc.rows (x : DmaDesc) : Nat := x.ctl % 65536 + 1

/-- LAST and FENCE of a descriptor. -/
def DmaDesc.isLast (x : DmaDesc) : Bool := bit x.ctl 30
def DmaDesc.fence (x : DmaDesc) : Bool := bit x.ctl 31

/-- The context whose stage a descriptor serves: the destination's, or the source's where the destination is SYSTEM. -/
def dmaCtx (src dst : Nat) : Nat := if handleCtx dst < 5119 then handleCtx dst else handleCtx src

/-- Key of a ring. -/
def ringKey (engine : Nat) (q : ArrQueue) : Nat := 2 * engine + (if q = ArrQueue.plan then 0 else 1)

def Dev.ring (d : Dev) (engine : Nat) (q : ArrQueue) : List DmaDesc := tabGet [] d.memsys.rings (ringKey engine q)

def Dev.putRing (d : Dev) (engine : Nat) (q : ArrQueue) (l : List DmaDesc) : Dev :=
  { d with memsys := { d.memsys with rings := tabSet [] d.memsys.rings (ringKey engine q) l } }

/-- The job of a watch that its PLAN transfers serve: the oldest open one whose last transfer has not been posted, else the newest open one. -/
def Dev.stageJob (d : Dev) (w : Nat) : Option OpOwner :=
  let jobs := ((d.watchOf w).ring.filter (fun j => (d.openJob w j.frame).isSome && j.status != 2)).map (fun j => OpOwner.job w j.frame)
  (jobs.find? (fun o => !(d.stageDma o).last)).orElse (fun _ => jobs.getLast?)

/-- The job, run or build that a context's transfers serve (R192, Table 07.9; log entry 14). -/
def Dev.ctxOwner (d : Dev) (ctx : Nat) (q : ArrQueue) : Option OpOwner :=
  if q = .background then
    if ctx < 4096 then some (.build ctx)
    else (d.linWatches.find? (fun w => modelCtx (d.wdModel w) == ctx && (d.buildingSet w).isSome)).map .build
  else if ctx < 4096 then d.stageJob ctx
  else
    match (d.activeWatches.filter (fun w => d.wdKind w == 6 && modelCtx (d.wdModel w) == ctx)).findSome? d.stageJob with
    | some o => some o
    | none => (d.arr.plan.find? (fun o => match o.owner with
        | .fallback s _ => modelCtx (d.fld (SGT.FB_MODEL_ID s)) == ctx
        | _ => false)).map (·.owner)

def dmaOf (mid : Nat) (owner : Option OpOwner) (w : List Nat) : DmaDesc :=
  ⟨w.getD 0 0, w.getD 1 0, w.getD 2 0, w.getD 3 0, w.getD 4 0, w.getD 5 0, w.getD 6 0, w.getD 7 0, mid, false, owner⟩

/-- A descriptor is posted for a stage: one that did not complete with status OK counts as posted again (Table 07.9). -/
def StageDma.post (x : StageDma) (last : Bool) : StageDma :=
  { posted := true, pending := x.pending + 1, last := x.last || last, redo := x.redo - 1 }

/-- A post (R235): masters 0 to 9 to PLAN, 0 and 1 to BACKGROUND; a full ring takes no more (log entry 14). -/
def Dev.dmaPost (d : Dev) (mid engine : Nat) (q : ArrQueue) (words : List Nat) : Dev :=
  let l := d.ring engine q
  let may := if q = ArrQueue.plan then mid < 10 else mid < 2
  if 4 ≤ engine || !d.reach (clusterDie engine) || !d.access mid (clusterDie engine) || !may || d.splitMaster mid || 256 ≤ l.length then
    d.answer .error
  else
    let x := dmaOf mid (d.ctxOwner (dmaCtx (words.getD 1 0) (words.getD 3 0)) q) words
    let d1 := (d.putRing engine q (l ++ [x])).answer .done
    match x.owner with
    | some o => if q = ArrQueue.plan then d1.putStageDma o ((d1.stageDma o).post x.isLast) else d1
    | none => d1

/-- DMA_DESCRIPTOR_POST (R235). -/
def execDmaDescriptorPost (mid engine : Nat) (ring : ArrQueue) (words : List Nat) (s : State) : Host.Outcome State Fault Refusal :=
  run s fun _ d => d.dmaPost mid engine ring words

/-! Page retirement (R245, R246). -/

/-- Pages of the spare pool that are in use, or that were retired themselves. -/
def Dev.spareUsed (d : Dev) (p : Nat) : Bool :=
  tabGet p d.memsys.standIn p != p || d.memsys.gone.contains p || d.memsys.retires.any (fun r => r.started && r.spare == p)

/-- The lowest free page of the spare pool; its last page stays free while MEM_INJ.MODE is 3 or 4. -/
def Dev.freeSpare (d : Dev) : Option Nat :=
  ((List.range 1024).map (· + 1280)).find? (fun p =>
    !d.spareUsed p && !(p == 2303 && (d.fld MEM.INJ_MODE == 3 || d.fld MEM.INJ_MODE == 4)))

/-- MEM_SPARE_EXHAUST has its cause while a scheduled page waits for a spare page (R246). -/
def Dev.spareCause (d : Dev) : Dev :=
  let waits := d.on MEM.CTRL_RETIRE_EN && d.memsys.retires.any (fun r => !r.started) && d.freeSpare.isNone
  if waits then d.raiseCause .x 87 |>.cause 87 true else d.cause 87 false

/-- Begin one retirement, where the pool has a free page (R245). -/
def Dev.startRetire (d : Dev) (r : Retire) : Dev :=
  match d.freeSpare with
  | none => d
  | some p =>
    let rs := d.memsys.retires.map (fun x => if x.page = r.page then { x with started := true, spare := p } else x)
    { d with memsys := { d.memsys with retires := rs } }

/-- At a tick boundary firmware begins the retirement of every scheduled page (R245). -/
def Dev.startRetires (d : Dev) : Dev :=
  if d.on MEM.CTRL_RETIRE_EN && d.reach .x then
    ((d.memsys.retires.filter (fun r => !r.started)).foldl Dev.startRetire d).spareCause
  else d

/-- The contexts whose page tables name an HBM page, with the places of the entries that do. -/
def pteOf (m : Mem) (page : Nat) : List (Nat × Nat) :=
  (List.range 5119).flatMap (fun ctx =>
    let r := m.bytes (ctxRecord ctx) 16
    (List.range (leAt r 12 4)).filterMap (fun v =>
      let a := leAt r 8 4 * 64 + 8 * v
      let pte := leNat (m.bytes a 8)
      if bit pte 63 && bitsAt pte 59 56 = 0 && pte % 262144 = page then some (ctx, a) else none))

/-- Writes that make those entries name a new page (R245 step 2). -/
def pteWrites (m : Mem) (old new : Nat) : List MemWrite :=
  (pteOf m old).flatMap (fun p => memWrites p.2 (leBytes 8 (leNat (m.bytes p.2 8) - old + new)))

/-- The copy of a page: bytes and check bits, poison included (R245 step 1). -/
def pageCopy (m : Mem) (old new : Nat) : List MemWrite :=
  (List.range 65536).map (fun i => ⟨new * 65536 + i, m.byte (old * 65536 + i), m.checkAt (old * 65536 + i)⟩)

/-- MEM_PAGE_RETIRED (R245): the copy is complete, poison included, the mappings name the spare page, and the affected contexts are invalidated. -/
def Dev.pageRetired (d : Dev) (m : Mem) (page : Nat) : Dev :=
  match d.memsys.retires.find? (fun r => r.started && r.page == page) with
  | none => d
  | some r =>
    let d1 := (d.store (pageCopy m page r.spare)).store (pteWrites m page r.spare)
    let home := d.homePage page
    let hit := (pteOf m page).map Prod.fst
    let d2 := { d1 with
      memsys := { d1.memsys with
        retires := d1.memsys.retires.filter (fun x => x.page != page),
        standIn := tabSet r.spare d1.memsys.standIn r.spare home,
        gone := d1.memsys.gone ++ [page],
        xlt := d1.memsys.xlt.filter (fun e => !hit.contains e.ctx) },
      arr := { d1.arr with models := d1.arr.models.map (fun (e : Nat × Model) =>
        (e.1, { e.2 with pages := e.2.pages.map (fun p => if p = page then r.spare else p) })) } }
    let d3 := if r.entry < 64 then
        (d2.flag (MEM.RETIRE_SPARE_DONE r.entry) true).put (MEM.RETIRE_SPARE_PPN r.entry) r.spare
      else d2
    let used := d3.fld MEM.SPARE_USED + 1
    (((d3.put MEM.SPARE_USED used).put MEM.SPARE_FREE (1024 - used)).raise .x 86).spareCause

def execMemPageRetired (page : Nat) (s : State) : Host.Outcome State Fault Refusal := run s fun m d => d.pageRetired m page

/-! A transfer (R224 to R226, R233, R234, R236, R237, R243). -/

/-- Units of a transfer: byte offsets at the two sides. -/
def DmaDesc.units (x : DmaDesc) (u : Nat) : List (Nat × Nat) :=
  (List.range x.rows).flatMap (fun r => (List.range (cdiv x.rowBytes u)).map (fun i =>
    (x.srcOff + r * x.srcStride + i * u, x.dstOff + r * x.dstStride + i * u)))

/-- What a transfer translates with: the poster, the memory it reads, its uncorrectable bytes and the cache entries that serve it. -/
structure XltEnv where
  poster : Nat
  mem : Mem
  bad : Nat → Bool
  cache : List XltEntry

/-- Where a side of a unit fails: the first applicable cause of Table 07.6, with the first byte it strikes and the second component of its walk. -/
def Dev.unitFault (d : Dev) (e : XltEnv) (handle off u : Nat) (write : Bool) : Option (Nat × Nat × Nat) :=
  let l := ((List.range u).map (fun i => ((d.xlate e.mem e.bad e.cache e.poster handle (off + i) write), off + i))).filter (fun c => c.1.1 != 0)
  (sortBy (fun c => c.1.1) l).head?.map (fun c => (c.1.1, c.2, c.1.2))

/-- A translation fault of a transfer: cause, handle, offset, whether it is a write, and the address of the structure of cause WALK_ECC. -/
structure DmaFault where
  cause : Nat
  handle : Nat
  off : Nat
  write : Bool
  addr : Nat
  deriving DecidableEq, Repr

/-- The units that move, as source and destination addresses of their bytes, up to the first that fails translation. -/
def Dev.moveUnits (d : Dev) (e : XltEnv) (x : DmaDesc) (u : Nat) : List (Nat × Nat) → List (Nat × Nat) × Option DmaFault
  | [] => ([], none)
  | (so, dst) :: rest =>
    match d.unitFault e x.src so u false, d.unitFault e x.dst dst u true with
    | some (c, o, a), _ => ([], some ⟨c, x.src, o, false, a⟩)
    | none, some (c, o, a) => ([], some ⟨c, x.dst, o, true, a⟩)
    | none, none =>
      let here := (List.range u).map (fun i =>
        ((d.xlate e.mem e.bad e.cache e.poster x.src (so + i) false).2, (d.xlate e.mem e.bad e.cache e.poster x.dst (dst + i) true).2))
      let (l, f) := d.moveUnits e x u rest
      (here ++ l, f)

/-- Offsets of the first byte in each page of a side's row, for a row of `n` bytes from `off` of a tensor at virtual address `va`. -/
def pageStarts (va off n : Nat) : List Nat :=
  let i0 := (va + off) % 65536
  (List.range ((i0 + n + 65535) / 65536)).map (fun i => max off (off + 65536 * i - i0))

/-- The offsets at which the rows of a side enter a page. -/
def DmaDesc.sidePages (x : DmaDesc) (m : Mem) (handle off stride : Nat) : List Nat :=
  (List.range x.rows).flatMap (fun r => pageStarts (tensorVa m handle) (off + r * stride) x.rowBytes)

/-- A side of a descriptor maps to HBM. -/
def Dev.sideHbm (d : Dev) (e : XltEnv) (x : DmaDesc) (handle off stride : Nat) (write : Bool) : Bool :=
  (x.sidePages e.mem handle off stride).any (fun o =>
    let r := d.xlate e.mem e.bad e.cache e.poster handle o write
    r.1 == 0 && decide (r.2 < hbmSize))

/-- The transfer reads or writes HBM. -/
def Dev.dmaHbm (d : Dev) (e : XltEnv) (x : DmaDesc) : Bool :=
  d.sideHbm e x x.src x.srcOff x.srcStride false || d.sideHbm e x x.dst x.dstOff x.dstStride true

/-- A descriptor is invalid (R236). -/
def Dev.dmaInvalid (d : Dev) (e : XltEnv) (x : DmaDesc) : Bool :=
  let off64 (h off stride : Nat) : Bool :=
    off % 64 != 0 || tensorVa e.mem h % 64 != 0 || x.rowBytes % 64 != 0 || stride % 64 != 0
  bitsAt x.ctl 29 16 != 0 || x.rowBytes = 0 || 16777216 < x.rowBytes
    || (d.sideHbm e x x.src x.srcOff x.srcStride false && off64 x.src x.srcOff x.srcStride)
    || (d.sideHbm e x x.dst x.dstOff x.dstStride true && off64 x.dst x.dstOff x.dstStride)

/-- The check bits that failing memory cells leave (R224, R225): those of the errors that persist. -/
def errorMarks (m : Mem) (errors : List ReadErr) : List MemWrite :=
  errors.flatMap (fun e => match e with
    | .corrected a => if m.bad a then [] else [⟨a, m.byte a, .single⟩]
    | .uncorrectable a => [⟨a, m.byte a, .double⟩]
    | .retried _ _ => [])

/-- A byte reads as uncorrectable for a transfer: an HBM line is poisoned whole (R225). -/
def lineBad (m : Mem) (a : Nat) : Bool := if a < hbmSize then badRange m.bad (a / 64 * 64) 64 else m.bad a

/-- What earlier descriptors of a ring overwrote, as far as a descriptor without FENCE has read it before they completed: each byte is old or new
(R237), which is a free value. -/
def Dev.earlyRead (d : Dev) (key : Nat) (x : DmaDesc) : List MemWrite × Dev :=
  let l := if x.fence then [] else tabGet [] d.memsys.undo key
  let (vs, d1) := d.drawN l.length
  ((l.zipIdx.filter (fun w => bit (vs.getD w.2 0) 0)).map Prod.fst, d1)

/-- The cache entries of a DMA engine that serve a transfer: whether an entry is still held is a free value (log entry 15). -/
def Dev.cacheNow (d : Dev) (engine : Nat) : List XltEntry × Dev :=
  let l := d.memsys.xlt.filter (fun e => e.unit == engine)
  let (vs, d1) := d.drawN l.length
  ((l.zipIdx.filter (fun e => bit (vs.getD e.2 0) 0)).map Prod.fst, d1)

/-- The accesses of a transfer that walk the tables: one for each page of a side that no cache entry serves, as handle, offset and write. -/
def DmaDesc.walks (x : DmaDesc) (e : XltEnv) : List (Nat × Nat × Bool) :=
  let side (h off stride : Nat) (wr : Bool) : List (Nat × Nat × Bool) :=
    if 5119 ≤ handleCtx h then []
    else ((x.sidePages e.mem h off stride).filter (fun o => (cacheHit e.cache h o).isNone)).map (fun o => (h, o, wr))
  side x.src x.srcOff x.srcStride false ++ side x.dst x.dstOff x.dstStride true

/-- The walks of a transfer leave cache entries with its engine (R234), and read the tables (R224). -/
def Dev.walked (d : Dev) (e : XltEnv) (engine : Nat) (x : DmaDesc) : Dev :=
  let l := x.walks e
  let es := (l.filterMap (fun a => d.walkEntry e.mem e.bad engine a.1 a.2.1 a.2.2)).filter (fun y => !d.memsys.xlt.contains y)
  let d1 := { d with memsys := { d.memsys with xlt := d.memsys.xlt ++ es.dedup } }
  (e.mem.marked .single (l.flatMap (fun a => walkRanges e.mem a.1 a.2.1))).foldl Dev.correctedRead d1

/-- An error of an HBM lane (R248): the sixteenth within one second marks the lane for the next training. -/
def Dev.laneError (d : Dev) (lane : Nat) : Dev :=
  let recent := (tabGet [] d.memsys.laneErrors lane).filter (fun t => d.now < t + sCycles 1) ++ [d.now]
  let marked := if 16 ≤ recent.length && !d.memsys.marked.contains lane then d.memsys.marked ++ [lane] else d.memsys.marked
  { d with memsys := { d.memsys with laneErrors := tabSet [] d.memsys.laneErrors lane recent, marked := marked } }.put
    MEM.HBM_STAT_MARKED (min 255 marked.length)

/-- Lines that a re-read finds clean (R225), with their lanes (R248). -/
def Dev.retries (d : Dev) (read : List Nat) (errors : List ReadErr) : Dev :=
  errors.foldl (fun d e => match e with
    | .retried a lane => if a < hbmSize && read.contains (readUnit a) then (d.count MEM.DRAM_CE_RETRY_OK 1).laneError lane else d
    | _ => d) d

/-- The byte whose check bits the injection inverts among the destinations that an engine writes (Table 07.12): one of the first SRAM line, or of
the line of the spare pool's last page that stands for the first HBM line. Which byte of the line is a free value. -/
def injectedByte (mode v : Nat) (dst : List Nat) : Option Nat :=
  if mode = 1 || mode = 2 then
    (dst.find? (fun a => hbmSize ≤ a)).map (fun a =>
      let line := dst.filter (fun b => b / 64 == a / 64)
      line.getD (v % max 1 line.length) a)
  else (dst.find? (fun a => a < hbmSize)).map (fun a => 2303 * 65536 + a / 64 % 1024 * 64 + v % 64)

/-- The armed injection of modes 1 to 4 acts on what an engine has written (`m` is the memory after it). -/
def Dev.injectWrite (d : Dev) (engine : Nat) (m : Mem) (dst : List Nat) : Dev :=
  let mode := d.fld MEM.INJ_MODE
  if !d.on MEM.INJ_ARM || d.fld MEM.INJ_CLUSTER != engine || d.memsys.injected.isSome || mode = 5 then d
  else
    let (v, d1) := d.draw
    match injectedByte mode v dst with
    | none => d
    | some a =>
      let d2 := { d1 with memsys := { d1.memsys with injected := some a } }
      d2.store [⟨a, m.byte a, if mode = 2 || mode = 4 then .double else .single⟩]

/-- How a transfer ends: the device, its status (Table 07.12) and whether it ends at all. -/
structure DmaEnd where
  dev : Dev
  status : Nat
  ended : Bool

/-- A descriptor moves its data, at most `limit` 64-byte lines of it. -/
def Dev.transfer (d : Dev) (m0 : Mem) (engine : Nat) (q : ArrQueue) (x : DmaDesc) (errors : List ReadErr) (limit : Option Nat) : DmaEnd :=
  let mid := 10 + engine
  let key := ringKey engine q
  let (early, d0) := d.earlyRead key x
  let (cache, d0) := d0.cacheNow engine
  let marks := errorMarks m0 errors
  let m := (m0.putAll early.reverse).putAll marks
  let e : XltEnv := ⟨x.poster, m, lineBad m, cache⟩
  let hbm := d0.dmaHbm e x
  if hbm && !d0.reach .x then ⟨d0, 0, false⟩
  else if d0.dmaInvalid e x then ⟨d0.raise .x 85, 3, true⟩
  else
    let inj5 := d0.on MEM.INJ_ARM && d0.fld MEM.INJ_MODE == 5 && d0.fld MEM.INJ_CLUSTER == engine
    let u := if hbm then 64 else 1
    let all := x.units u
    let (pairs, fault) := if inj5 then (([] : List (Nat × Nat)), some ⟨5, x.src, x.srcOff, false, 0⟩)
      else d0.moveUnits e x u (all.take ((limit.map (· * (64 / u))).getD all.length))
    let data := pairs.map (fun p => (⟨p.2, m.byte p.1, if lineBad m p.1 then .double else .sound⟩ : MemWrite))
    let read := (pairs.map (fun p => readUnit p.1)).dedup
    let met := marks.filter (fun w => read.contains (readUnit w.addr))
    let old := data.map (fun w => (⟨w.addr, m0.byte w.addr, m0.checkAt w.addr⟩ : MemWrite))
    let d1 := ((d0.walked e engine x).store met).store data
    let d2 := { d1 with memsys := { d1.memsys with
      undo := tabUpd [] d1.memsys.undo key (fun l => (if x.fence then [] else l) ++ old),
      lines := if q = ArrQueue.plan then tabUpd 0 d1.memsys.lines engine (· + cdiv pairs.length 64) else d1.memsys.lines } }
    let (d3, bad) := (d2.retries read errors).readMem m mid (pairs.map (fun p => (p.1, 1)))
    let d4 := d3.injectWrite engine ((m0.putAll met).putAll data) (pairs.map Prod.snd)
    match fault with
    | some f =>
      let d5 := d4.xlateFault f.cause mid f.handle f.off f.write
      let d6 := if f.cause = 8 then (d5.ueInfo 7 0 mid f.addr).raise .x 83 else d5
      ⟨if inj5 then d6.memInjSeen else d6, 2, true⟩
    | none => ⟨d4, if bad then 1 else 0, true⟩

/-! Completion (R237, R238, R242). -/

/-- The transfers of a stage are loaded: the tables of a LIN job (R103), or the answer of a stencil (R202). -/
def Dev.tablesIn (d : Dev) (o : OpOwner) : Dev :=
  match o with
  | .job w k =>
    let x := d.jobIn w k
    if (d.stageDma o).loaded && !x.tablesLoaded then (d.putJobIn w k { x with tablesLoaded := true }).afterRecord w k else d
  | _ => d

/-- The later descriptors that a build has in a BACKGROUND ring are dropped (Table 07.9). -/
def Dev.dropBackground (d : Dev) (engine : Nat) (o : OpOwner) : Dev :=
  d.putRing engine .background ((d.ring engine .background).filter (fun x => x.owner != some o))

/-- The owner of a descriptor still waits for it: a fallback run while its operations are to issue. -/
def Dev.ownerLive (d : Dev) (o : OpOwner) : Bool :=
  match o with
  | .fallback _ _ => d.arr.plan.any (fun x => x.owner == o)
  | _ => true

/-- A descriptor of an owner has completed with a status: the stage's account, and the fault that statuses UE and XLATE are (R238, R242). -/
def Dev.dmaServed (d : Dev) (engine : Nat) (q : ArrQueue) (x : DmaDesc) (o : OpOwner) (status : Nat) : Dev :=
  let failed := status = 1 || status = 2
  let s := d.stageDma o
  let d1 := if q = ArrQueue.plan then
      d.putStageDma o (if failed then s.again 1 x.isLast else { s with pending := s.pending - 1 })
    else d
  if !d.ownerLive o then d
  else if failed then (if status = 2 then (if q = ArrQueue.plan then d1.dropStageDma o else d1.dropBackground engine o) else d1).ownerFault o
  else if q = ArrQueue.plan then d1.tablesIn o else d1

/-- DMA_DESCRIPTOR_COMPLETE (R237): the oldest descriptor of a ring ends. `errors` are the errors of the memory cells that its reads meet. -/
def Dev.dmaComplete (d : Dev) (m : Mem) (engine : Nat) (q : ArrQueue) (errors : List ReadErr) : Dev :=
  match d.ring engine q with
  | [] => d
  | x :: rest =>
    let (v, d0) := if x.dropped then d.draw else (0, d)
    let e := (d0.putRing engine q rest).transfer m engine q x errors (if x.dropped then some (v % (x.rows * cdiv x.rowBytes 64 + 1)) else none)
    let d1 := if rest == [] then { e.dev with memsys := { e.dev.memsys with undo := tabErase e.dev.memsys.undo (ringKey engine q) } } else e.dev
    if !e.ended then d1
    else
      let d2 := d1.put (MEM.DMA_STAT_LAST_STATUS engine) (if x.dropped then 4 else e.status)
      ((match x.owner with
        | some o => if x.dropped then d2 else d2.dmaServed engine q x o e.status
        | none => d2).planCheckins).readied d

def execDmaDescriptorComplete (engine : Nat) (ring : ArrQueue) (errors : List ReadErr) (s : State) : Host.Outcome State Fault Refusal :=
  run s fun m d => if engine < 4 && d.reach (clusterDie engine) then d.dmaComplete m engine ring errors else d

/-! Registers. -/

/-- A write of MEM_XLT_INV starts an invalidation (R234). -/
def Dev.xltInvWrite (d : Dev) (v : Nat) : Dev :=
  ((((d.flag MEM.XLT_INV_BUSY true).flag MEM.XLT_INV_ALL (bit v 16)).put MEM.XLT_INV_CTX (v % 8192))).answer .done

def execMemXltInv (value : Nat) (s : State) : Host.Outcome State Fault Refusal := run s fun _ d => d.at .x (fun d => d.xltInvWrite value)

/-- XLT_INVALIDATE_DONE (R234): the entries of the context, or of every context, are removed from the translation caches. -/
def Dev.xltDone (d : Dev) : Dev :=
  if d.on MEM.XLT_INV_BUSY then
    let keep (e : XltEntry) : Bool := !d.on MEM.XLT_INV_ALL && e.ctx != d.fld MEM.XLT_INV_CTX
    { d with memsys := { d.memsys with xlt := d.memsys.xlt.filter keep } }.flag MEM.XLT_INV_BUSY false
  else d

def execXltInvalidateDone (s : State) : Host.Outcome State Fault Refusal := run s fun _ d => d.xltDone

/-- A write of MEM_ERR_CLR (Table 07.12). -/
def Dev.memErrClr (d : Dev) (v : Nat) : Dev :=
  let d1 := if bit v 0 then d.flag MEM.UE_INFO_VALID false else d
  (if bit v 1 then d1.flag MEM.XF_INFO_VALID false else d1).answer .done

def execMemErrClr (value : Nat) (s : State) : Host.Outcome State Fault Refusal := run s fun _ d => d.at .x (fun d => d.memErrClr value)

/-- A write of MEM_INJ (Table 07.12): discarded while ARM is 1 and where it sets ARM with a reserved MODE. -/
def Dev.memInjWrite (d : Dev) (v : Nat) : Dev :=
  let mode := v % 8
  if injTaken (d.on MEM.INJ_ARM) v (1 ≤ mode && mode ≤ 5) then
    (((d.flag MEM.INJ_ARM (bit v 31)).put MEM.INJ_MODE mode).put MEM.INJ_CLUSTER (bitsAt v 9 8)).answer .done
  else d.answer .discarded

def execMemInj (value : Nat) (s : State) : Host.Outcome State Fault Refusal := run s fun _ d => d.at .x (fun d => d.memInjWrite value)

end Sys2Proof.Machine
end

