-- ==== Sys2Proof/Machine/Planner.lean ====
section
/-!
DEFINITION. The tick planner (R180 to R191): costs of Table 06.2, budgets of Table 06.1, the fit conditions of R185, the allotment of R187 and the
plan that follows from it. All arithmetic is exact.
-/

namespace Sys2Proof.Machine

/-! Costs (R183, R184). Resources: 0 array, 1 to 4 Skim units, 5 to 8 receive, 9 to 12 transmit, 13 plan DMA. -/

/-- Skim cycles of processing `b` bytes of one column or row, in records of 4 096 bytes; `f` as R183 states. -/
def procCycles (f b : Nat) : Nat := b / 4096 * (128 * f + 2) + (if b % 4096 = 0 then 0 else cdiv (b % 4096) 32 * f + 2)

/-- Skim cycles of skipping them. -/
def skipCycles (b : Nat) : Nat := b / 4096 * 34 + (if b % 4096 = 0 then 0 else cdiv (b % 4096) 128 + 2)

/-- Bytes on the link of `b` payload bytes in such records (R263). -/
def linkBytes (b : Nat) : Nat := b / 4096 * 4136 + (if b % 4096 = 0 then 0 else 32 + 8 * cdiv (b % 4096 + 4) 8)

/-- Bytes of `n` elements of a format. -/
def spanBytes (f n : Nat) : Nat := cdiv n (fmtElems f) * fmtBytes f

/-- The wait of R159 that each stage is charged. -/
def waitClocks : Nat := 2144

/-- Sampling units of a watch: columns for LIN, rows for NLS, else its declared units. -/
def Dev.units (d : Dev) (w : Nat) : Nat := if d.wdKind w = 1 then d.wdDecl w / d.nlsV w else d.declared w

/-- The smallest allotment: cmin of R187. -/
def Dev.cmin (d : Dev) (w : Nat) : Nat := cdiv (d.wdMinCov w * d.units w) 32768

/-- LINK_SAMPLE of a port (R105). -/
def Dev.linkSample (d : Dev) (p : Nat) : Bool := bit (d.fld SKM.CTRL_LINK_SAMPLE) p

/-- Bytes of a column or row of a slot, and their number. -/
def Dev.slotSpan (d : Dev) (w slot : Nat) : Nat := spanBytes (d.slotFmt w slot) (d.slotRows w slot)

/-- Input columns of a CONV1D watch (R93). -/
def Dev.convColumns (d : Dev) (w : Nat) : Nat := (d.wdDecl w - 1) * d.convStride w + (d.convTaps w - 1) * d.convDil w + 1

/-- Cost of a LIN job with `c` columns. -/
def Dev.linCost (d : Dev) (w c r : Nat) : Nat :=
  let p := d.wdPort w
  let f := if 4 < d.linP w then 2 else 1
  let s0 := d.slotSpan w 0
  let s1 := d.slotSpan w 1
  let s2 := d.slotSpan w 2
  let rest := d.units w - c
  let sampled := d.linkSample p
  let out := c * procCycles f s1 + (if sampled then 0 else rest * skipCycles s1)
  let outBytes := (if sampled then c else d.units w) * linkBytes s1
  if r = 1 + p then
    match d.linForm w with
    | 1 => d.convColumns w * procCycles f s0 + out
    | 2 => d.linK w * procCycles f s2 + c * procCycles f s0 + rest * skipCycles s0 + out
    | _ => c * procCycles f s0 + rest * skipCycles s0 + out
  else if r = 5 + p then
    match d.linForm w with
    | 1 => d.convColumns w * linkBytes s0 + outBytes
    | 2 => d.linK w * linkBytes s2 + d.units w * linkBytes s0 + outBytes
    | _ => d.units w * linkBytes s0 + outBytes
  else if r = 13 then d.tableBytes w + 256
  else 0

/-- Cost of an NLS job with `c` rows. -/
def Dev.nlsCost (d : Dev) (w c r : Nat) : Nat :=
  let p := d.wdPort w
  let s0 := if (d.nlsShare w).isSome then 0 else d.slotSpan w 0
  let s1 := d.slotSpan w 1
  let x := c * d.nlsV w
  if r = 0 then vectorClocks d.engines (nlsOpcode (d.nlsOp w)) x + vectorClocks d.engines 33 x + waitClocks
  else if r = 1 + p then
    c * (procCycles 1 s0 + procCycles 1 s1) + (d.units w - c) * (skipCycles s0 + skipCycles s1)
  else if r = 5 + p then d.units w * (linkBytes s0 + linkBytes s1)
  else 0

/-- DMA charge of a transfer (R239). -/
def dmaCharge (bytes : Nat) : Nat := if bytes = 0 then 0 else bytes + 256

/-- DMA charge of the weights that each run of a model streams: a transfer for each of its tensors of PLACE 2 (R172). -/
def Model.streamed (m : Model) : Nat := ((m.tensors.filter (fun t => t.2.2.1 == 2)).map (fun t => dmaCharge t.1)).foldl (· + ·) 0

/-- Array clocks of a watch's SHD stage. -/
def Dev.shdClocks (d : Dev) (w : Nat) : Nat :=
  (d.model (d.wdModel w)).runClocks d.engines + Config.measureClk ((List.range 32).map (d.wdKindWord w)) d.len d.engines + waitClocks

/-- Declared slot-1 bytes of a watch. -/
def Dev.declBytes (d : Dev) (w : Nat) : Nat := d.units w * d.slotSpan w 1

/-- Cost of an SHD job. -/
def Dev.shdCost (d : Dev) (w r : Nat) : Nat :=
  if r = 0 then d.shdClocks w
  else if r = 13 then (d.model (d.wdModel w)).streamed
  else if d.shdType w = 1 then
    let z := d.shdWatch w
    if r = 1 + d.wdPort z then d.units z * procCycles 1 (d.slotSpan z 1)
    else if r = 5 + d.wdPort z then d.units z * linkBytes (d.slotSpan z 1)
    else 0
  else 0

/-- Cost of a job in the base variant with `c` sampling units. -/
def Dev.jobCost (d : Dev) (w c r : Nat) : Nat :=
  match d.wdKind w with
  | 0 => d.linCost w c r
  | 1 => d.nlsCost w c r
  | 6 => d.shdCost w r
  | _ => 0

/-- Largest value of a word of the entries in rotation (Table 06.3). -/
def Dev.stnMax (d : Dev) (w word : Nat) : Nat :=
  (List.range (d.stnCount w)).foldl (fun a i =>
    max a (((d.model (d.wdModel w)).stencils.getD (d.stnFirst w + i) []).getD word 0)) 0

/-- Cost that a stencil instance adds. -/
def Dev.stnCost (d : Dev) (w r : Nat) : Nat :=
  let p := d.wdPort w
  let ans := d.stnMax w 3
  if r = 0 then (if d.stnFloat w then opClocks d.engines [33] (d.wdDecl w) + waitClocks else 0)
  else if r = 1 + p then procCycles 1 ans
  else if r = 5 + p then linkBytes ans
  else if r = 9 + p then linkBytes (d.stnMax w 1)
  else if r = 13 then dmaCharge (d.stnMax w 1) + dmaCharge ans
  else 0

/-- LOADED RUN models with FALLBACK_OK, by identifier: charged in every tick (R190). -/
def Dev.fallbackModels (d : Dev) : List Nat :=
  (d.arr.models.filter (fun e => e.2.state == 2 && e.2.kind == 1 && bit e.2.flags 1)).map (·.1)

/-- Clocks charged for the self-test stage of every tick (R482). -/
def Dev.selfTestClocks (d : Dev) : Nat := if d.on HLN.ST_CTRL_EN then d.fld HLN.ST_CTRL_SLOT_CLK + waitClocks else 0

/-- What every variant is charged beside its jobs. -/
def Dev.standingCost (d : Dev) (r : Nat) : Nat :=
  if r = 0 then (d.fallbackModels.map (fun i => (d.model i).runClocks d.engines + waitClocks)).foldl (· + ·) 0 + d.rebuildCharge
      + d.selfTestClocks
  else if r = 13 then (d.fallbackModels.map (fun i => (d.model i).streamed)).foldl (· + ·) 0
  else 0

/-- Budgets of Table 06.1, rounded down. -/
def Dev.budget (d : Dev) (r : Nat) : Nat :=
  let fs := max 1 d.fs
  let clocks (pct : Nat) : Nat := d.len * d.fld HLN.FREQ_CUR_MHZ * 10000 * pct / fs
  if r = 0 then clocks (d.fld TCK.BUDGET_ARRAY_PCT)
  else if r < 5 then clocks (d.fld TCK.BUDGET_SKIM_PCT)
  else if r < 9 then 310000000 * d.len * d.fld TCK.BUDGET_LINK_PCT / fs
  else if r < 13 then 75100000 * d.len * d.fld TCK.BUDGET_LINK_PCT / fs
  else 4096000000 * d.len * d.fld TCK.BUDGET_DMA_PCT / fs

/-! Variants. -/

/-- Watches whose jobs the plan charges. The last job of a RETIRING watch runs in the tick before the plan without it (log entry 16). -/
def Dev.planWatches (d : Dev) : List Nat := d.activeWatches.filter (fun w => (d.watchOf w).state != .retiring)

/-- The STN watches that are not IDLE: each has a variant (R181). -/
def Dev.stnWatches (d : Dev) : List Nat := d.activeWatches.filter (fun w => d.wdKind w == 7)

/-- Sampling units of a watch in a trial: those of the table, or all. -/
def Dev.trial (d : Dev) (c : Tab (Option Nat)) (w : Nat) : Nat := (tabGet none c w).getD (d.units w)

/-- Demand of a variant with the stencil instances of `stn`. -/
def Dev.demand (d : Dev) (stn : List Nat) (c : Tab (Option Nat)) (r : Nat) : Nat :=
  (d.planWatches.map (fun w => d.jobCost w (d.trial c w) r)).foldl (· + ·) 0
    + (stn.map (fun w => d.stnCost w r)).foldl (· + ·) 0 + d.standingCost r

/-- Resources whose demand exceeds their budget (condition 1). -/
def Dev.overBudget (d : Dev) (stn : List Nat) (c : Tab (Option Nat)) : List Nat :=
  (List.range 14).filter (fun r => d.budget r < d.demand stn c r)

/-! Conditions 2 to 4 of R185. Times count in 1 / (16 · Fs · f_ARITH), from B(k + 1). -/

/-- f_ARITH in hertz. -/
def Dev.fArith (d : Dev) : Nat := d.fld HLN.FREQ_CUR_MHZ * 1000000

/-- Two microseconds. -/
def Dev.guardTime (d : Dev) : Nat := 32 * d.fs * d.fld HLN.FREQ_CUR_MHZ

/-- E of a watch's evaluation, in sixteenths of a sample tick (R56). -/
def Dev.planE (d : Dev) (w : Nat) : Nat :=
  if d.wdDeadline w = 0 then 16 * (d.len + d.fld TCK.RELEASE_MARGIN) else d.wdDeadline w

/-- An array stage of the layout: rank key of R186, E, earliest start, clocks, the watch it serves (none for substitution content). -/
abbrev StageSlot := Nat × Nat × Nat × Nat × Option Nat

/-- Rank key: E, then content, PRIO downward, WATCH_ID. -/
def rankKey (e cls prio id : Nat) : Nat := ((e * 2 + cls) * 8 + (7 - prio)) * 4096 + id

/-- The stages of a variant in the order of R186. -/
def Dev.stages (d : Dev) (stn : List Nat) (c : Tab (Option Nat)) : List StageSlot :=
  let one (w clk : Nat) : List StageSlot :=
    let es := match d.stagePort w with
      | some p => d.portEnd p
      | none => 16
    if clk = 0 then [] else [(rankKey (d.planE w) 1 (d.wdPrio w) w, d.planE w, es, clk, some w)]
  let e0 := 16 * (d.len + d.fld TCK.RELEASE_MARGIN)
  sortBy (fun s => s.1)
    (d.planWatches.flatMap (fun w => one w (d.jobCost w (d.trial c w) 0)) ++ stn.flatMap (fun w => one w (d.stnCost w 0))
      ++ d.fallbackModels.map (fun i => (rankKey e0 0 7 i, e0, 16, (d.model i).runClocks d.engines + waitClocks, none))
      ++ (if d.selfTestClocks = 0 then [] else [(2 ^ 64, 2 ^ 40, 0, d.selfTestClocks, none)]))

/-- The stages laid out one after the other: the end of each. -/
def Dev.layEnds (d : Dev) (prev : Nat) : List StageSlot → List Nat
  | [] => []
  | s :: rest =>
    let e := max prev (s.2.2.1 * d.fArith) + s.2.2.2.1 * 16 * d.fs
    e :: d.layEnds e rest

/-- The longest lower-ranked stage that may run as a stage becomes ready: one of the same frame, or of the next frame where that starts earlier. -/
def Dev.longestLower (d : Dev) (l : List StageSlot) (s : StageSlot) : Nat :=
  (l.filter (fun t => s.1 < t.1 || t.2.2.1 + 16 * d.len < s.2.2.1)).foldl (fun a t => max a t.2.2.2.1) 0

/-- The ends of the stages (condition 2 of R185): laid out behind the previous frame's stages, each delayed by the longest lower-ranked one. As the
stages of one tick fit in it (condition 1), the layout of one earlier frame gives what every frame carries over. -/
def Dev.stageEnds (d : Dev) (l : List StageSlot) : List Nat :=
  let carry := (d.layEnds 0 l).foldl max 0 - 16 * d.len * d.fArith
  (l.zip (d.layEnds carry l)).map (fun x => x.2 + d.longestLower l x.1 * 16 * d.fs)

/-- Bytes that an evaluation stages, with the port of its cluster (condition 4). -/
def Dev.stagedBytes (d : Dev) (w c : Nat) : Nat × Nat :=
  match d.wdKind w with
  | 1 => (d.wdPort w, c * ((if (d.nlsShare w).isSome then 0 else d.slotSpan w 0) + d.slotSpan w 1))
  | 7 => (d.wdPort w, if d.stnFloat w then d.stnMax w 3 else 0)
  | 6 => if d.shdType w = 1 then (d.wdPort (d.shdWatch w), d.declBytes (d.shdWatch w)) else (0, 0)
  | _ => (0, 0)

/-- Conditions 2 to 4 of R185 hold. -/
def Dev.timesFit (d : Dev) (stn : List Nat) (c : Tab (Option Nat)) : Bool :=
  let f := d.fArith
  let l := d.stages stn c
  let ends := d.stageEnds l
  let cond2 := (l.zip ends).all (fun x => x.2 + d.guardTime ≤ x.1.2.1 * f)
  let readers := (d.planWatches.filter (fun w => d.wdKind w != 7) ++ stn).filterMap (fun w =>
    if d.wdSrcType w == 0 then some (w, d.wdPort w) else (d.stagePort w).map (fun p => (w, p)))
  let cond3 := readers.all (fun r =>
    let (w, p) := r
    max (d.portEnd p * f) (d.demand stn c (1 + p) * 16 * d.fs) + d.guardTime < d.planE w * f)
  let staged (u : Nat) : Nat := ((l.zip ends).map (fun x => match x.1.2.2.2.2 with
    | none => 0
    | some w =>
      let (p, b) := d.stagedBytes w (d.trial c w)
      let early := 16 * min (d.fld (FJL.P_CFG_EARLY p)) d.len * f
      if p = u then b * max 1 (cdiv (x.2 + early) (max 1 (16 * d.len * f))) else 0)).foldl (· + ·) 0
  let cond4 := [0, 1, 2, 3].all (fun u => staged u ≤ 524288)
  cond2 && cond3 && cond4

/-- R185. -/
def Dev.fits (d : Dev) (stn : List Nat) (c : Tab (Option Nat)) : Bool := d.overBudget stn c == [] && d.timesFit stn c

/-! Allotment (R187). -/

/-- A watch that the planner may sample at a level. -/
def Dev.sparseAt (d : Dev) (level w : Nat) : Bool := d.wdSparse w && d.wdPrio w == level && (d.wdKind w == 0 || d.wdKind w == 1)

/-- Give each watch of a list its units. -/
def setTrial (c : Tab (Option Nat)) (ws : List Nat) (f : Nat → Nat) : Tab (Option Nat) :=
  ws.foldl (fun t w => tabSet none t w (some (f w))) c

/-- The levels from `level` on: refused or not, and the units. -/
def Dev.allotLevels (d : Dev) (stn : List Nat) : Nat → Nat → Tab (Option Nat) → Bool × Tab (Option Nat)
  | 0, _, c => (true, c)
  | n + 1, level, c =>
    let l := d.planWatches.filter (d.sparseAt level)
    let c1 := setTrial c l d.cmin
    if d.fits stn c1 then
      let trial (i : Nat) : Tab (Option Nat) := setTrial c1 l (fun w => max (d.cmin w) ((63 - i) * d.units w / 64))
      (false, (((List.range 63).map trial).find? (d.fits stn)).getD c1)
    else d.allotLevels stn n (level + 1) c1

/-- allot() of R187: refused or not, and the units of every watch that has fewer than all. -/
def Dev.allot (d : Dev) (stn : List Nat) : Bool × Tab (Option Nat) :=
  if d.fits stn [] then (false, [])
  else if !d.on TCK.PLAN_CTRL_ALLOW_SAMPLE then (true, [])
  else d.allotLevels stn 8 0 []

/-- The variants of the plan (R181): the base variant and one for each STN watch. -/
def Dev.variants (d : Dev) : List (List Nat) := [] :: d.stnWatches.map (fun w => [w])

/-- Every variant fits with some allotment. -/
def Dev.planFits (d : Dev) : Bool := d.variants.all (fun v => !(d.allot v).1)

/-- The first of the watches that charges a resource over budget in a refused variant (R189). -/
def Dev.overloader (d : Dev) (armed : List Nat) : Option Nat :=
  let heavy := d.variants.flatMap (fun v =>
    let a := d.allot v
    if a.1 then (d.overBudget v a.2).map (fun r => (v, a.2, r)) else [])
  armed.find? (fun w => heavy.any (fun o => 0 < d.jobCost w (d.trial o.2.1 w) o.2.2 || (o.1.contains w && 0 < d.stnCost w o.2.2)))

/-! The plan in force. -/

/-- Write PLAN_COV of every watch of the plan (R188). -/
def Dev.planCovs (d : Dev) (c : Tab (Option Nat)) : Dev :=
  d.planWatches.foldl (fun d w =>
    let n := d.units w
    d.putWatch w { d.watchOf w with planCov := if n = 0 then 32768 else d.trial c w * 32768 / n }) d

/-- Build and apply the plan (R180, R188, R191): where a variant is refused, the units are those that allot() ends with, SHORT is set and
TCK_PLAN_SHORT is raised. -/
def Dev.buildPlan (d : Dev) : Dev :=
  let base := d.allot []
  let stns := d.stnWatches.map (fun w => (w, d.allot [w]))
  let short := base.1 || stns.any (fun s => s.2.1)
  let alloc := base.2.map (fun e => (e.1, e.2.getD 0 + 1))
  let diff : Tab Nat := stns.foldl (fun t s => s.2.2.foldl (fun t e => tabSet 0 t (key2 s.1 e.1) (e.2.getD 0 + 1)) t) []
  let g := { d.plan with alloc := alloc, stnAlloc := diff, replanIn := none }
  let d1 := ({ d with plan := g }).planCovs base.2
  let d2 := (((d1.flag TCK.PLAN_STAT_SHORT short).flag TCK.PLAN_STAT_REPLAN false).put TCK.PLAN_STAT_VARIANTS (1 + stns.length)).put
    TCK.PLAN_ARRAY_CLK (d.demand [] base.2 0)
  let d3 := [0, 1, 2, 3].foldl (fun x u => x.put (TCK.PLAN_SKIM_CYC u) (d.demand [] base.2 (1 + u)))
    (d2.put TCK.PLAN_DMA_BYTES (d.demand [] base.2 13))
  if short then (d3.raise .s 64).cause 64 true else d3.cause 64 false

/-- A plan built after an event other than a commit applies from the second tick boundary after it (R180); at once while the tick unit is stopped. -/
def Dev.replan (d : Dev) : Dev :=
  if d.running then
    ({ d with plan := { d.plan with replanIn := some (replanDue d.plan.replanIn) } }).flag TCK.PLAN_STAT_REPLAN true
  else d.buildPlan

/-- A tick boundary counts towards the re-plan that waits. -/
def Dev.replanStep (d : Dev) : Dev :=
  match d.plan.replanIn with
  | none => d
  | some 1 => d.buildPlan
  | some 2 => { d with plan := { d.plan with replanIn := some 1 } }
  | some _ =>
    let d1 := d.buildPlan
    ({ d1 with plan := { d1.plan with replanIn := some 1 } }).flag TCK.PLAN_STAT_REPLAN true

/-- Units that a watch receives in a tick with the given stencil instances (R181, R188, R205). -/
def Dev.unitsNow (d : Dev) (w : Nat) (stn : List Nat) : Nat :=
  let base := let n := tabGet 0 d.plan.alloc w; if n = 0 then d.units w else n - 1
  let c := stn.foldl (fun a s => let n := tabGet 0 d.plan.stnAlloc (key2 s w); if n = 0 then a else min a (n - 1)) base
  let t := tabGet 0 d.plan.thinned w
  if t = 0 then c else min c (t - 1)

end Sys2Proof.Machine
end

