-- ==== Sys2Proof/Machine/Link.lean ====
section
/-!
DEFINITION. The Fjovauz link and BOND at the link layer (chapter 8): training, epochs, credits, records, acknowledgement, loss of framing and replay,
the checks of Table 08.8, and what each accepted record does. Port 4 is BOND (R285).
-/

namespace Sys2Proof.Machine

/-! Twin state (Table 15.7), which follows BOND. -/

/-- State of a port (Table 08.4). -/
def Dev.linkSt (d : Dev) (p : Nat) : Nat := if p < 4 then d.fld (FJL.P_STAT_STATE p) else (d.link 4).bondState

/-- The configuration digest, as the number that its first 8 bytes spell, least significant first (R493). -/
def Dev.ownDigest (d : Dev) : Nat := leNat ((beBytes 64 (Config.sha512 (d.twin.contents.flatMap (leBytes 4)))).take 8)

/-- The peer's configuration digest, from its STATE record. -/
def Dev.peerDigest (d : Dev) : Nat := d.fld TWN.PEER_DIGEST_LO_DIGEST + 4294967296 * d.fld TWN.PEER_DIGEST_HI_DIGEST

/-- A standby is ready (R492). -/
def Dev.twinReady (d : Dev) : Bool :=
  d.boot.compat == d.twin.peerCompat && d.ownDigest == d.peerDigest && d.on SNG.STAT_SAFE_OK && !d.on SEC.STATE_MAINT
    && 64 ≤ d.twin.inStep

/-- The state of Table 15.7. -/
def Dev.twinState (d : Dev) : Nat :=
  if !d.on TWN.CTRL_PAIR then 0
  else if d.linkSt 4 != 7 || !d.twin.stateFresh then 1
  else if d.twin.owns then 2
  else if d.twinReady then 4 else 3

/-- The causes of TWN_BOND_DOWN, TWN_CFG_DIFF and TWN_NOT_READY (Table 15.10). -/
def Dev.twinCauses (d : Dev) : Dev :=
  let set (d : Dev) (n : Nat) (b : Bool) : Dev := if b then (if tabGet false d.snag.cause n then d else (d.raise .s n).cause n true) else d.cause n false
  let paired := d.on TWN.CTRL_PAIR && 2 ≤ d.fld TWN.STAT_STATE
  let d1 := set d 672 (d.on TWN.CTRL_PAIR && d.linkSt 4 != 7)
  let d2 := set d1 677 (paired && d.ownDigest != d.peerDigest)
  set d2 678 (d.fld TWN.STAT_STATE == 2 && d.fld TWN.PEER_STATE != 4)

/-- Bring TWN_STAT.STATE up to date, with its events and causes (R491, R501). -/
def Dev.twinRefresh (d : Dev) : Dev :=
  let old := d.fld TWN.STAT_STATE
  let new := d.twinState
  let d1 := d.put TWN.STAT_STATE new
  let d2 := if new = old then d1 else if new = 0 then d1.twinEvent 2 else if old < 2 && 2 ≤ new then d1.twinEvent 1 else d1
  d2.twinCauses

/-! States (R258 to R261). -/

def Dev.putLinkSt (d : Dev) (p st : Nat) : Dev :=
  if p < 4 then d.put (FJL.P_STAT_STATE p) st else d.putLink 4 { d.link 4 with bondState := st }

/-- Home die of a port. -/
def linkDie (p : Nat) : Die := if p < 4 then clusterDie p else .s

/-- A port's LINK_TAG (R266, R500). -/
def Dev.linkTag (d : Dev) (p : Nat) : Nat := if p < 4 then d.fld (FJL.P_CFG_LINK_TAG p) else d.fld SEC.PAIR_TAG_LO_TAG % 65536

/-- RETRY_MAX, TRAIN_MAX and FAST_RETRAIN; BOND has no registers for them and keeps their reset values (log entry 17). -/
def Dev.retryMax (d : Dev) (p : Nat) : Nat := if p < 4 then d.fld (FJL.P_CFG_RETRY_MAX p) else 4
def Dev.trainMax (d : Dev) (p : Nat) : Nat := if p < 4 then d.fld (FJL.P_EQ_TRAIN_MAX p) else 3
def Dev.fastRetrain (d : Dev) (p : Nat) : Bool := 4 ≤ p || d.on (FJL.P_CFG_FAST_RETRAIN p)

def Dev.linkEpoch (d : Dev) (p : Nat) : Nat := if p < 4 then d.fld (FJL.P_STAT_EPOCH p) else (d.link 4).bondEpoch

def Dev.trainFails (d : Dev) (p : Nat) : Nat := if p < 4 then d.fld (FJL.P_TRAIN_FAILS p) else (d.link 4).bondFails

def Dev.putFails (d : Dev) (p n : Nat) : Dev :=
  if p < 4 then d.put (FJL.P_TRAIN_FAILS p) (min 255 n) else d.putLink 4 { d.link 4 with bondFails := min 255 n }

/-- The cause of FJL_LINK_DOWN (R283), or what follows from BOND's state. -/
def Dev.linkRefresh (d : Dev) (p : Nat) : Dev :=
  if p < 4 then
    let st := d.linkSt p
    d.cause (364 + p) (bit (d.fld FJL.CTRL_EN) p && st != 7 && st != 8)
  else d.twinRefresh

/-- Raise FJL_LINK_DOWN; BOND reports through TWN_BOND_DOWN. -/
def Dev.linkDown (d : Dev) (p : Nat) : Dev := if p < 4 then d.raise (linkDie p) (364 + p) else d

/-- Framing, NACK and retry state at the start of a training. -/
def LinkPort.quiet (l : LinkPort) : LinkPort :=
  { l with framingLost := false, cause := 0, nacked := [], nacks := [], resync := false, losses := 0 }

/-- Lanes that leave block lock, and with `off` lanes that the port no longer drives or has not yet detected (Table 08.11). -/
def Dev.unlockLanes (d : Dev) (p : Nat) (off : Bool) : Dev :=
  if 4 ≤ p then d
  else
    let d1 := d.put (FJL.P_LANES_LOCKED p) 0
    if off then d1.put (FJL.P_LANES_SIGNAL p) 0 else d1

/-- Begin a full training (R259). -/
def Dev.fullTraining (d : Dev) (p : Nat) : Dev :=
  (((d.unlockLanes p true).putLink p { (d.link p).quiet with training := 0 }).putLinkSt p 1).linkRefresh p

/-- A new epoch (R261): sequence numbers, replay and credits restart, and records not yet accepted are discarded. -/
def Dev.startEpoch (d : Dev) (p : Nat) : Dev :=
  let e := (d.linkEpoch p + 1) % 256
  let l := { d.link p with newEpoch := true, expSeq := [], txSeq := [], replay := [], txQueue := [] }
  let d1 := d.putLink p { l with rxLimit := [], rxUsed := [], txLimit := [], txUsed := [], held := [], inTime := [] }
  if p < 4 then d1.put (FJL.P_STAT_EPOCH p) e else d1.putLink 4 { d1.link 4 with bondEpoch := e }

/-- A training has failed in the state `failedIn` of Table 08.4 (R259, R260): DETECT, or DOWN after TRAIN_MAX failures. -/
def Dev.trainFail (d : Dev) (p failedIn : Nat) : Dev :=
  let n := d.trainFails p + 1
  let d1 := if p < 4 then (d.putFails p n).put (FJL.P_TRAIN_LAST_FAIL p) failedIn else d.putFails p n
  let d2 := if d.linkSt p = 8 || d.trainMax p ≤ n then d1.linkDown p else d1
  if d.trainMax p ≤ n then (((d2.unlockLanes p true).putLink p (d2.link p).quiet).putLinkSt p 9).linkRefresh p else d2.fullTraining p

/-- A retrain (R278, Table 08.9): a fast one, or with FAST_RETRAIN 0 a full training. -/
def Dev.retrain (d : Dev) (p : Nat) : Dev :=
  let d1 := if p < 4 then (d.count (FJL.P_LINKERR_RETRAINS p) 1).raise (linkDie p) (356 + p) else d
  let d2 := d1.putLink p { d1.link p with retrainAt := some d.now }
  if d.fastRetrain p then
    (((d2.unlockLanes p false).putLink p { (d2.link p).quiet with training := 1 }).putLinkSt p 8).linkRefresh p
  else (d2.linkDown p).fullTraining p

/-- A link reset (Table 08.9): DESKEW and CONFIG with a new epoch. The device sends a RESET block with a reason of Table 08.3, or none (0)
where it answers the other side's. -/
def Dev.linkReset (d : Dev) (p reason : Nat) : Dev :=
  let d1 := if p < 4 then d.count (FJL.P_LINKERR_RESETS p) 1 else d
  let d2 := d1.startEpoch p
  let l := { (d2.link p).quiet with training := 2, retrainAt := none }
  let d3 := ((d2.putLink p (if reason = 0 then l else { l with resetSent := reason })).putLinkSt p 5).linkRefresh p
  if p = 4 then d3.mbxResetMaster 19 else d3

/-- A protocol error (R282). -/
def Dev.protocolError (d : Dev) (p : Nat) : Dev :=
  (if p < 4 then d.raise (linkDie p) (360 + p) else d).linkReset p 1

/-- The port went to retrain in this cycle: a protocol error of the cycle prevails (R282). -/
def Dev.retrainNow (d : Dev) (p : Nat) : Bool :=
  (d.linkSt p == 8 || d.linkSt p == 1) && (d.link p).retrainAt == some d.now

/-- What arrives is still judged for a protocol error: in ACTIVE, and in the cycle of a retrain (R282). -/
def Dev.judged (d : Dev) (p : Nat) : Bool := d.linkSt p == 7 || d.retrainNow p

/-- FJL_P_INJ is armed with a mode. -/
def Dev.fjlArmed (d : Dev) (p mode : Nat) : Bool := p < 4 && d.on (FJL.P_INJ_ARM p) && d.fld (FJL.P_INJ_MODE p) == mode

def Dev.fjlDisarm (d : Dev) (p : Nat) : Dev := d.flag (FJL.P_INJ_ARM p) false

/-- Injected invalid sync headers act while the port is ACTIVE (Table 08.11 mode 3). -/
def Dev.lockInjection (d : Dev) (p : Nat) : Dev := if d.linkSt p = 7 && d.fjlArmed p 3 then (d.fjlDisarm p).retrain p else d

/-- Header bytes of a record (Table 08.6). -/
def headerBytes (r : LinkRecord) : List Byte :=
  leBytes 1 r.kind ++ leBytes 1 r.vc ++ leBytes 2 r.watch ++ leBytes 4 r.frame ++ leBytes 1 r.slot ++ leBytes 1 r.fmt
    ++ leBytes 2 r.length ++ leBytes 4 r.offset ++ leBytes 8 r.arg ++ leBytes 2 r.linkTag ++ leBytes 6 r.reserved

/-- One step of the reflected CRC-32C over one byte (R272). -/
def crc32cByte (crc : Nat) (b : Byte) : Nat :=
  (List.range 8).foldl (fun c _ => if c % 2 = 1 then Nat.xor (c / 2) 0x82F63B78 else c / 2) (Nat.xor crc b.toNat)

/-- The trailer of a record with sequence number `seq` (R272). -/
def trailerOf (seq : Nat) (bs : List Byte) : Nat :=
  Nat.xor (bs.foldl crc32cByte (Nat.xor (seq % 4294967296) 0xFFFFFFFF)) 0xFFFFFFFF

/-- Queue a record for transmission on a port that is ACTIVE. -/
def Dev.sendRecord (d : Dev) (p kind vc watch frame slot fmt offset arg : Nat) (payload : List Byte) : Dev :=
  if d.linkSt p != 7 then d
  else
    let l := d.link p
    let r : LinkRecord := ⟨kind, vc, watch, frame, slot, fmt, payload.length, offset, arg, d.linkTag p, 0, payload, 0, true⟩
    d.putLink p { l with txQueue := l.txQueue ++ [r] }

/-- CONFIG completes and the port is ACTIVE (R258 to R261, R278). -/
def Dev.linkActive (d : Dev) (p : Nat) (config : List Nat) : Dev :=
  let l := d.link p
  let fast := l.training = 1
  let d1 := if p < 4 && l.training = 0 then d.count (FJL.P_TRAIN_FULL p) 1 else d
  let base : Tab Nat := [(0, config.getD 3 0 % 65536), (1, config.getD 5 0 % 65536), (2, config.getD 4 0 % 65536), (3, config.getD 6 0 % 65536)]
  let l1 := if fast then { l.quiet with cause := 4 }
    else { l.quiet with txLimit := base.filter (fun e => e.2 != 0), txUsed := [], newEpoch := false }
  let d2 := (((if fast && p < 4 then d1.put (FJL.P_LANES_LOCKED p) 255 else d1).putLink p l1).putFails p 0).putLinkSt p 7
  let d3 := if !fast && l.newEpoch && p < 4 then d2.sendRecord p 0x20 3 0 0 0 0 0 0 [] else d2
  (d3.linkRefresh p).lockInjection p

/-- CONFIG's parameters agree (Table 08.5). `config` holds what the other side sends, by index. -/
def Dev.configAgrees (d : Dev) (p : Nat) (config : List Nat) : Bool :=
  config.getD 0 0 / 65536 == 1 && config.getD 1 0 == d.linkTag p && config.getD 2 0 == d.linkEpoch p
    && 256 ≤ config.getD 4 0 && 32 ≤ config.getD 5 0 && 32 ≤ config.getD 6 0 && 65536 ≤ config.getD 7 0

/-- TRAINING_STATE_EXIT (R258): the exit condition of the state holds and the peer reports DONE. A full training takes its new epoch as it enters
CONFIG (log entry 18). -/
def Dev.trainingExit (d : Dev) (p polarity : Nat) (reversed : Bool) (config : List Nat) : Dev :=
  let put (d : Dev) (f : Nat → Fld) (v : Nat) : Dev := if p < 4 then d.put (f p) v else d
  match d.linkSt p with
  | 1 => ((put d FJL.P_LANES_SIGNAL 255).putLinkSt p 2).linkRefresh p
  | 2 => (d.putLinkSt p 3).linkRefresh p
  | 3 => ((put (put d FJL.P_LANES_LOCKED 255) FJL.P_LANES_POLARITY polarity).putLinkSt p 4).linkRefresh p
  | 4 => (d.putLinkSt p 5).linkRefresh p
  | 5 =>
    let d1 := put d FJL.P_STAT_REVERSED (b2n reversed)
    ((if (d.link p).training = 0 then d1.startEpoch p else d1).putLinkSt p 6).linkRefresh p
  | 6 => if d.configAgrees p config then d.linkActive p config else d.trainFail p 6
  | 8 => if d.configAgrees p config then d.linkActive p config else d.trainFail p 6
  | _ => d

def execTrainingStateExit (port polarity : Nat) (reversed : Bool) (config : List Nat) (s : State) : Host.Outcome State Fault Refusal :=
  run s fun _ d => if port < 5 && d.reach (linkDie port) then d.trainingExit port polarity reversed config else d

/-- TRAINING_TIMEOUT (R259): DETECT has none. -/
def execTrainingTimeout (port : Nat) (s : State) : Host.Outcome State Fault Refusal :=
  run s fun _ d =>
    let st := d.linkSt port
    if port < 5 && d.reach (linkDie port) && ((2 ≤ st && st ≤ 6) || st = 8) then d.trainFail port st else d

/-! Enable, disable and commands. -/

/-- EN of a port becomes 1: DETECT; where EN was cleared in DOWN, FAILS returns to 0 (R258, R259). -/
def Dev.portOn (d : Dev) (p : Nat) : Dev :=
  if bit (d.fld FJL.CTRL_EN) p then d
  else
    let d1 := d.put FJL.CTRL_EN (d.fld FJL.CTRL_EN + 2 ^ p)
    let d2 := if (d.link p).wasDown then d1.putFails p 0 else d1
    (d2.putLink p { d2.link p with wasDown := false }).fullTraining p

/-- The port is DISABLED at once, its epoch ends, and records not yet accepted are discarded (R286). -/
def Dev.linkOff (d : Dev) (p : Nat) : Dev :=
  let l := { (d.link p).quiet with held := [], inTime := [], txQueue := [], replay := [], expSeq := [], txSeq := [], wasDown := d.linkSt p == 9 }
  (((d.unlockLanes p true).putLink p { l with rxLimit := [], rxUsed := [], txLimit := [], txUsed := [] }).putLinkSt p 0).linkRefresh p

/-- EN of a port becomes 0. -/
def Dev.portOff (d : Dev) (p : Nat) : Dev :=
  if bit (d.fld FJL.CTRL_EN) p then (d.put FJL.CTRL_EN (d.fld FJL.CTRL_EN - 2 ^ p)).linkOff p else d

/-- A write of FJL_CTRL: each EN bit that changes (R258, R286). -/
def Dev.fjlCtrlWrite (d : Dev) (v : Nat) : Dev :=
  ([0, 1, 2, 3].foldl (fun d p => if bit v p then d.portOn p else d.portOff p) d).answer .done

/-- FJL_PORT_ENABLE (R258). -/
def execFjlPortEnable (port : Nat) (s : State) : Host.Outcome State Fault Refusal :=
  run s fun _ d => d.atC (fun d => (if port < 4 then d.portOn port else d).answer .done)

/-- FJL_PORT_DISABLE (R286). -/
def execFjlPortDisable (port : Nat) (s : State) : Host.Outcome State Fault Refusal :=
  run s fun _ d => d.atC (fun d => (if port < 4 then d.portOff port else d).answer .done)

/-- RETRAIN of FJL_P_CMD: a retrain from ACTIVE, a new training from DOWN (R259). -/
def Dev.cmdRetrain (d : Dev) (p : Nat) : Dev :=
  if d.linkSt p = 9 then (d.putFails p 0).fullTraining p else if d.linkSt p = 7 then d.retrain p else d

/-- RESET of FJL_P_CMD: a link reset with reason 2. -/
def Dev.cmdReset (d : Dev) (p : Nat) : Dev := if d.linkSt p = 7 || d.linkSt p = 8 then d.linkReset p 2 else d

/-- CLR_PEER of FJL_P_CMD (R283). -/
def Dev.clrPeer (d : Dev) (p : Nat) : Dev := ((d.flag (FJL.P_PEER_VALID p) false).put (FJL.P_PEER_CODE p) 0).cause (376 + p) false

/-- A write of FJL_P_CMD. -/
def Dev.fjlCmdWrite (d : Dev) (p v : Nat) : Dev :=
  let d1 := if bit v 2 then d.clrPeer p else d
  let d2 := if bit v 1 then d1.cmdReset p else d1
  (if bit v 0 then d2.cmdRetrain p else d2).answer .done

def execFjlCmdRetrain (port : Nat) (s : State) : Host.Outcome State Fault Refusal :=
  run s fun _ d => if port < 4 then d.at (clusterDie port) (fun d => d.fjlCmdWrite port 1) else d

def execFjlCmdReset (port : Nat) (s : State) : Host.Outcome State Fault Refusal :=
  run s fun _ d => if port < 4 then d.at (clusterDie port) (fun d => d.fjlCmdWrite port 2) else d

def execClrPeer (port : Nat) (s : State) : Host.Outcome State Fault Refusal :=
  run s fun _ d => if port < 4 then d.at (clusterDie port) (fun d => d.fjlCmdWrite port 4) else d

/-- A write of FJL_P_INJ (Table 08.11): discarded while ARM is 1 and where it sets ARM with a reserved MODE. -/
def Dev.fjlInjWrite (d : Dev) (p v : Nat) : Dev :=
  let mode := v % 8
  if injTaken (d.on (FJL.P_INJ_ARM p)) v (1 ≤ mode && mode ≤ 4) then
    ((((d.flag (FJL.P_INJ_ARM p) (bit v 31)).put (FJL.P_INJ_MODE p) mode).lockInjection p)).answer .done
  else d.answer .discarded

def execFjlPInj (port value : Nat) (s : State) : Host.Outcome State Fault Refusal :=
  run s fun _ d => if port < 4 then d.at (clusterDie port) (fun d => d.fjlInjWrite port value) else d

/-- BLOCK_LOCK_LOSS (R282): 16 invalid sync headers or reserved types in 1 024 rows, or a loss of deskew. -/
def execBlockLockLoss (port : Nat) (s : State) : Host.Outcome State Fault Refusal :=
  run s fun _ d => if port < 5 && d.linkSt port = 7 then d.retrain port else d

/-- RESET_BLOCK (R282). -/
def execResetBlock (port reason : Nat) (s : State) : Host.Outcome State Fault Refusal :=
  run s fun _ d => if port < 5 && 1 ≤ reason && (d.linkSt port = 7 || d.linkSt port = 8) then d.linkReset port 0 else d

/-! Service rows from the other side (R256, R275 to R277). -/

/-- RESYNC ends a loss of framing once a NACK has been sent for every channel (R275). -/
def LinkPort.resyncSeen (l : LinkPort) (resync : Bool) : LinkPort :=
  if resync && l.framingLost && [0, 1, 2, 3].all l.nacked.contains then { l with framingLost := false, cause := 0, nacked := [] } else l

/-- MARK (R256): the wrong EPOCH is a protocol error. -/
def execMark (port epoch : Nat) (resync : Bool) (s : State) : Host.Outcome State Fault Refusal :=
  run s fun _ d =>
    if port < 4 && d.judged port then
      if epoch != d.linkEpoch port then d.protocolError port
      else if d.retrainNow port then d else d.putLink port ((d.link port).resyncSeen resync)
    else d

/-- Distance of a sequence number from the oldest record held on a channel; none where it lies outside them (Table 08.9). -/
def LinkPort.covered (l : LinkPort) (vc nextSeq : Nat) : Option Nat :=
  let n := (l.replay.filter (fun r => r.1 == vc)).length
  let k := (nextSeq + 4294967296 - (tabGet 0 l.txSeq vc + 4294967296 - n) % 4294967296) % 4294967296
  if k ≤ n then some k else none

/-- Drop the first `k` records of a channel from the replay buffer. -/
def dropVc (vc : Nat) : Nat → List (Nat × Nat × LinkRecord) → List (Nat × Nat × LinkRecord)
  | 0, l => l
  | _, [] => []
  | k + 1, r :: rs => if r.1 = vc then dropVc vc k rs else r :: dropVc vc (k + 1) rs

/-- An acknowledgement frees what it covers (R274, R277). -/
def Dev.ackTaken (d : Dev) (p vc nextSeq : Nat) : Option LinkPort :=
  let l := d.link p
  (l.covered vc nextSeq).map (fun k => { l with replay := dropVc vc k l.replay })

/-- ACK (R274). On BOND its lane-0 block carries RESYNC (R284). -/
def execAck (port vc nextSeq : Nat) (resync : Bool) (s : State) : Host.Outcome State Fault Refusal :=
  run s fun _ d =>
    if port < 5 && vc < 4 && d.judged port then
      match d.ackTaken port vc nextSeq with
      | none => d.protocolError port
      | some l => if d.retrainNow port then d else d.putLink port (if port = 4 then l.resyncSeen resync else l)
    else d

/-- Channels that the device sends on: the accelerator answers for STENCIL, CONTROL and MGMT (Table 08.2). -/
def sendChannels (p : Nat) : List Nat := if p < 4 then [1, 2, 3] else [0, 1, 2, 3]

/-- Resend what the replay buffer holds: each channel from its NEXT_SEQ, in sequence order, before what waits (R276). -/
def LinkPort.replayAll (l : LinkPort) : LinkPort :=
  let back (vc : Nat) : Nat :=
    let n := (l.replay.filter (fun r => r.1 == vc)).length
    (tabGet 0 l.txSeq vc + 4294967296 - n) % 4294967296
  { l with txQueue := l.replay.map (fun r => r.2.2) ++ l.txQueue, replay := [], resync := true, nacks := [],
           txSeq := [0, 1, 2, 3].foldl (fun t vc => tabSet 0 t vc (back vc)) l.txSeq }

/-- NACK (R276). -/
def execNack (port vc nextSeq cause : Nat) (resync : Bool) (s : State) : Host.Outcome State Fault Refusal :=
  run s fun _ d =>
    if port < 5 && vc < 4 && (cause = 1 || cause = 2 || cause = 4) && d.judged port then
      match d.ackTaken port vc nextSeq with
      | none => d.protocolError port
      | some l =>
        if d.retrainNow port then d else
        let l0 := if port = 4 then l.resyncSeen resync else l
        let l1 := { l0 with nacks := tabSet none l0.nacks vc (some nextSeq) }
        d.putLink port (if (sendChannels port).all (fun c => (tabGet none l1.nacks c).isSome) then l1.replayAll else l1)
    else d

/-- CREDIT (R264): the cumulative limit of a channel. -/
def execCredit (port vc limit : Nat) (s : State) : Host.Outcome State Fault Refusal :=
  run s fun _ d =>
    if port < 5 && vc < 4 && d.linkSt port = 7 then
      let l := d.link port
      d.putLink port { l with txLimit := tabSet 0 l.txLimit vc (limit % 65536) }
    else d

/-- The channel of each service-row slot (R255). -/
def rotationVc (i : Nat) : Nat := [0, 2, 0, 1, 0, 2, 0, 3].getD (i % 8) 0

/-- SERVICE_ROW_TRANSMIT (R255, R265, R275, R276, R278). -/
def Dev.serviceRow (d : Dev) (p : Nat) : Dev :=
  if d.linkSt p != 7 then d
  else
    let l := d.link p
    let vc := rotationVc l.rotation
    let nack := l.framingLost || (l.cause = 4 && !l.nacked.contains vc)
    let nacked := if nack && !l.nacked.contains vc then l.nacked ++ [vc] else l.nacked
    let opened := l.cause = 4 && [0, 1, 2, 3].all nacked.contains
    let cl := (rxCredits (p = 4) vc + tabGet 0 l.rxLimit vc) % 65536
    let row := [if nack then 0x55 else 0x4B, vc, tabGet 0 l.expSeq vc, if nack then l.cause else 0, cl, b2n l.resync]
    let l1 := { l with rotation := (l.rotation + 1) % 8, resync := false, lastRow := row }
    d.putLink p { l1 with nacked := if opened then [] else nacked, cause := if opened then 0 else l.cause }

def execServiceRowTransmit (port : Nat) (s : State) : Host.Outcome State Fault Refusal :=
  run s fun _ d => if port < 5 && d.reach (linkDie port) then d.serviceRow port else d

/-! Transmission (R263, R264, R272, R277). -/

/-- Bytes of a record on the link. -/
def recordBytes (r : LinkRecord) : Nat := 32 + 8 * cdiv (r.payload.length + 4) 8

/-- Records that are the first of their channel and whose credits are available. -/
def LinkPort.startable (l : LinkPort) : List LinkRecord :=
  [0, 1, 2, 3].filterMap (fun vc => (l.txQueue.find? (fun r => r.vc == vc)).filter (fun r =>
    recCredits r.payload.length ≤ (tabGet 0 l.txLimit vc + 65536 - tabGet 0 l.txUsed vc % 65536) % 65536))

/-- RECORD_TRANSMIT (R264): the oldest record that may start, with its trailer. -/
def Dev.transmitRecord (d : Dev) (p : Nat) : Dev :=
  let l := d.link p
  if d.linkSt p != 7 || l.resync then d
  else
    match l.txQueue.find? (fun r => l.startable.contains r) with
    | none => d
    | some r =>
      let used := (l.replay.map (fun x => recordBytes x.2.2)).foldl (· + ·) 0
      if 65536 < used + recordBytes r then d
      else
        let seq := tabGet 0 l.txSeq r.vc
        let inj := d.fjlArmed p 2
        let t := trailerOf (seq + b2n inj) (headerBytes r ++ r.payload)
        let l1 := { l with txQueue := l.txQueue.erase r, replay := l.replay ++ [(r.vc, seq, { r with trailer := t })] }
        let c := (tabGet 0 l1.txUsed r.vc + recCredits r.payload.length) % 65536
        let l2 := { l1 with txSeq := tabSet 0 l1.txSeq r.vc ((seq + 1) % 4294967296), txUsed := tabSet 0 l1.txUsed r.vc c }
        let d1 := d.putLink p { l2 with txBytes := l2.txBytes + r.payload.length }
        if inj then d1.fjlDisarm p else d1

def execRecordTransmit (port : Nat) (s : State) : Host.Outcome State Fault Refusal :=
  run s fun _ d => if port < 5 && d.reach (linkDie port) then d.transmitRecord port else d

/-! Reception (R264, R273 to R275, check 1 of Table 08.8). -/

/-- Kinds with their channel, range of LENGTH and whether WATCH, SLOT 1 to 2 and ARG may differ from 0, for the accelerator's direction. -/
def kindRow (p kind vc : Nat) : Option (Nat × Nat × Bool × Nat × Nat × Bool) :=
  if p < 4 then
    match kind, vc with
    | 0x01, 0 => some (1, 4096, true, 0, 2, false)
    | 0x01, 2 => some (1, 4096, true, 1, 1, false)
    | 0x12, 1 => some (0, 0, true, 0, 0, true)
    | 0x13, 1 => some (0, 0, false, 0, 0, true)
    | 0x21, 3 => some (64, 64, false, 0, 0, false)
    | 0x22, 3 => some (0, 4096, false, 0, 0, true)
    | _, _ => none
  else
    match kind, vc with
    | 0x40, 0 => some (28, 28, false, 0, 0, false)
    | 0x41, 1 => some (12, 12, false, 0, 0, false)
    | 0x42, 2 => some (24, 24, false, 0, 0, false)
    | 0x43, 2 => some (8, 8, false, 0, 0, false)
    | _, _ => none

/-- Bits of ARG that a kind gives a meaning (Table 08.7). -/
def argMax (kind : Nat) : Nat := match kind with | 0x12 => 4294967296 | 0x13 => 8192 | 0x22 => 65536 | _ => 1

/-- Check 1 of Table 08.8. -/
def Dev.headerOk (d : Dev) (p : Nat) (r : LinkRecord) : Bool :=
  match kindRow p r.kind r.vc with
  | none => false
  | some (lo, hi, named, s0, s1, _) =>
    r.reserved == 0 && lo ≤ r.length && r.length ≤ hi && r.watch < 4096 && (named || r.watch == 0) && s0 ≤ r.slot && r.slot ≤ s1
      && (if r.kind = 1 then r.fmt < 15 else r.fmt == 0 && r.offset == 0) && r.arg < argMax r.kind && r.linkTag == d.linkTag p

/-- A loss of framing (R275, R278). -/
def Dev.loseFraming (d : Dev) (p cause : Nat) : Dev :=
  let l := d.link p
  let d1 := d.putLink p { l with framingLost := true, cause := cause, nacked := [], losses := l.losses + 1 }
  let d2 := if p < 4 then (d1.count (FJL.P_LINKERR_FRAMING p) 1).raise (linkDie p) (352 + p) else d1
  if d.retryMax p ≤ l.losses + 1 then d2.retrain p else d2

/-- Acceptance window of R280, in this cycle: from B(k + 1) − EARLY / Fs to RP(k). -/
def Dev.inWindow (d : Dev) (p k : Nat) : Bool :=
  let back := (d.frame + 4294967296 - k % 4294967296) % 4294967296
  let early := min (d.fld (FJL.P_CFG_EARLY p)) d.len
  let opened := 1 ≤ back || d.instantPast (frameAdd k 4294967295) (16 * (d.len - early))
  let closed := d.rpPast k || (match d.gate.lastRp with
    | none => false
    | some r => r == k || framePrecedes k r)
  d.ticking && back ≤ 2 && opened && !closed

/-- A record that a retrain cut short is discarded and its credits are free (R264); in the cycle of the retrain a protocol error that it
shows prevails (R282). -/
def Dev.recordCut (d : Dev) (p : Nat) (r : LinkRecord) : Dev :=
  let l := d.link p
  let vc := r.vc % 4
  let n := recCredits r.payload.length
  let take := { l with rxUsed := tabSet 0 l.rxUsed vc (tabGet 0 l.rxUsed vc + n) }
  let sound := r.trailer == trailerOf (tabGet 0 l.expSeq vc) (headerBytes r ++ r.payload) && r.kind != 0 && r.length ≤ 4096 && r.padZero
  if d.retrainNow p && (l.rxFree (p = 4) vc < n || (sound && !d.headerOk p r)) then d.protocolError p
  else d.putLink p (take.free vc r.payload.length)

/-- RECORD_RECEIVED (R274): a record's trailer has arrived. -/
def Dev.recordIn (d : Dev) (p : Nat) (r : LinkRecord) : Dev :=
  let l := d.link p
  let vc := r.vc % 4
  if d.linkSt p = 8 || d.retrainNow p then d.recordCut p r
  else if d.linkSt p != 7 then d
  else
    let n := recCredits r.payload.length
    let spill := d.fjlArmed p 4
    let take := { l with rxUsed := tabSet 0 l.rxUsed vc (tabGet 0 l.rxUsed vc + n) }
    if l.framingLost then d.putLink p (take.free vc r.payload.length)
    else if spill || l.rxFree (p = 4) vc < n then (if spill then d.fjlDisarm p else d).protocolError p
    else
      let inj := d.fjlArmed p 1
      let bad := r.trailer != trailerOf (tabGet 0 l.expSeq vc) (headerBytes r ++ r.payload) || inj
      let d1 := if inj then d.fjlDisarm p else d
      if bad || r.kind = 0 || 4096 < r.length || !r.padZero then
        (d1.putLink p (take.free vc r.payload.length)).loseFraming p (if bad then 1 else 2)
      else
        let l1 := { take with expSeq := tabSet 0 take.expSeq vc ((tabGet 0 take.expSeq vc + 1) % 4294967296), losses := 0 }
        if d1.headerOk p r then d1.putLink p { l1 with held := l1.held ++ [r], inTime := l1.inTime ++ [d.inWindow p r.frame] } else (d1.putLink p l1).protocolError p

def execRecordReceived (port : Nat) (record : LinkRecord) (s : State) : Host.Outcome State Fault Refusal :=
  run s fun _ d => if port < 5 && d.reach (linkDie port) then d.recordIn port record else d

/-! Checks 2 to 4 (R279, R280) and what accepted records do. -/

/-- The oldest record held on a channel, where it has the kind. -/
def Dev.heldRec (d : Dev) (p vc kind : Nat) : Option LinkRecord :=
  ((d.link p).held.find? (fun r => r.vc == vc)).filter (fun r => r.kind == kind)

/-- Take a held record off, with its credits freed unless it goes on to a consumer. -/
def Dev.unhold (d : Dev) (p : Nat) (r : LinkRecord) (free : Bool) : Dev :=
  let l := d.link p
  let i := l.held.idxOf r
  let l1 := { l with held := l.held.erase r, inTime := l.inTime.eraseIdx i }
  d.putLink p (if free then l1.free r.vc r.payload.length else l1)

/-- Check 2 of Table 08.8, as it came out in the cycle of the record's trailer check (R280). -/
def Dev.timely (d : Dev) (p : Nat) (r : LinkRecord) : Bool := (d.link p).inTime.getD ((d.link p).held.idxOf r) false

/-- Payload bytes of an accepted record. -/
def Dev.accepted (d : Dev) (p n : Nat) : Dev :=
  let l := d.link p
  d.putLink p { l with rxBytes := l.rxBytes + n }

/-- Check 2 fails. -/
def Dev.windowDrop (d : Dev) (p : Nat) : Dev := (d.count (FJL.P_DROP_WINDOW p) 1).raise (linkDie p) (368 + p)

/-- Check 3 fails. -/
def Dev.strayDrop (d : Dev) (p : Nat) : Dev := (d.count (FJL.P_DROP_STRAY p) 1).raise (linkDie p) (372 + p)

/-- Check 3 for DATA and HEARTBEAT. -/
def Dev.namedWatch (d : Dev) (p w k : Nat) : Bool :=
  (d.watchOf w).state.checks && d.wdSrcType w == 0 && d.wdPort w == p && d.inRange w k

/-- The watch takes a DATA record of a channel. -/
def Dev.takesData (d : Dev) (w vc k : Nat) : Bool :=
  if vc = 0 then d.wdKind w == 0 || d.wdKind w == 1
  else d.wdKind w == 7 && (tabGet none d.plan.stencils w).any (fun i => i.sent && frameAdd k 1 == i.tick)

/-- DATA (R279): checks 2 and 3, then delivery to the watch and to the SEQ watches of the port. -/
def Dev.dataIn (d : Dev) (p vc : Nat) : Dev :=
  match d.heldRec p vc 1 with
  | none => d
  | some r =>
    if !d.timely p r then (d.unhold p r true).windowDrop p
    else if !d.namedWatch p r.watch r.frame || !d.takesData r.watch vc r.frame then (d.unhold p r true).strayDrop p
    else
      let d1 := (d.unhold p r false).accepted p r.payload.length
      let l := d1.link p
      let d2 := d1.putLink p { l with deliver := l.deliver ++ [r] }
      if vc = 0 then d2.seqTensor p r.watch r.frame else d2

def execData (port vc : Nat) (s : State) : Host.Outcome State Fault Refusal :=
  run s fun _ d => if port < 4 && (vc = 0 || vc = 2) then d.dataIn port vc else d

/-- HEARTBEAT (R140). -/
def Dev.heartbeatIn (d : Dev) (p : Nat) : Dev :=
  match d.heldRec p 1 0x12 with
  | none => d
  | some r =>
    let d1 := d.unhold p r true
    if !d.timely p r then d1.windowDrop p
    else if !d.namedWatch p r.watch r.frame || d.wdKind r.watch != 8 || !d.seqHbEn r.watch then d1.strayDrop p
    else d1.seqHeartbeat r.watch r.frame (r.arg % 4294967296)

def execHeartbeat (port : Nat) (s : State) : Host.Outcome State Fault Refusal :=
  run s fun _ d => if port < 4 then d.heartbeatIn port else d

/-- CHECKIN (R208, check 4). -/
def Dev.checkinIn (d : Dev) (p : Nat) : Dev :=
  match d.heldRec p 1 0x13 with
  | none => d
  | some r => (d.unhold p r true).checkinFjl p (r.arg % 256) (bitsAt r.arg 12 8)

def execCheckin (port : Nat) (s : State) : Host.Outcome State Fault Refusal :=
  run s fun _ d => if port < 4 then d.checkinIn port else d

/-- IDENT_RSP (R271). -/
def Dev.identIn (d : Dev) (p : Nat) : Dev :=
  match d.heldRec p 3 0x21 with
  | none => d
  | some r =>
    let d1 := (d.unhold p r true).accepted p r.payload.length
    (List.range 16).foldl (fun d j => d.put (FJL.P_IDENT_IDENT p j) (leAt r.payload (4 * j) 4)) d1

def execIdentRsp (port : Nat) (s : State) : Host.Outcome State Fault Refusal :=
  run s fun _ d => if port < 4 then d.identIn port else d

/-- PEER_ALERT (R271): its window is checked, its code kept and its payload discarded. -/
def Dev.alertIn (d : Dev) (p : Nat) : Dev :=
  match d.heldRec p 3 0x22 with
  | none => d
  | some r =>
    let d1 := d.unhold p r true
    if !d.timely p r then d1.windowDrop p
    else (((d1.accepted p r.payload.length).flag (FJL.P_PEER_VALID p) true).put (FJL.P_PEER_CODE p) (r.arg % 65536)).raiseCause
      (linkDie p) (376 + p)

def execPeerAlert (port : Nat) (s : State) : Host.Outcome State Fault Refusal :=
  run s fun _ d => if port < 4 then d.alertIn port else d

end Sys2Proof.Machine
end

