-- ==== Sys2Proof/Machine/Gate.lean ====
section
/-!
DEFINITION. Sample ports and release gates (chapter 9): port locks, the intake of samples, substitution content, switches and ramps, pins,
talkers and listeners, and the release conditions of Table 01.6.
-/

namespace Sys2Proof.Machine

/-! Ports and their locks (R291 to R294). -/

/-- Port `p` is active (R317). -/
def Dev.tdmEn (d : Dev) (p : Nat) : Bool := bit (d.fld SGT.CTRL_PORT_EN) p

def Dev.tdm (d : Dev) (p : Nat) : TdmPort := tabGet TdmPort.reset d.gate.ports p

def Dev.putTdm (d : Dev) (p : Nat) (x : TdmPort) : Dev :=
  { d with gate := { d.gate with ports := tabSet TdmPort.reset d.gate.ports p x } }

/-- A port that is not FOLLOW is locked: a MASTER port from its enabling on, a SLAVE port by its measurement (R294). -/
def Dev.ownLock (d : Dev) (p : Nat) : Bool :=
  d.tdmEn p && (d.fld (SGT.P_CFG_CLK p) == 0 || (d.fld (SGT.P_CFG_CLK p) == 1 && d.on (SGT.P_STAT_LOCKED p)))

/-- Port `p` is locked: a FOLLOW port exactly while the port it follows is enabled and locked (R291). -/
def Dev.portLocked (d : Dev) (p : Nat) : Bool :=
  if d.fld (SGT.P_CFG_CLK p) = 2 then d.tdmEn p && d.ownLock (d.fld (SGT.P_CFG_FOLLOW p)) else d.ownLock p

/-- SGT_P_STAT.LOCKED of the MASTER and FOLLOW ports follows their lock. -/
def Dev.showLocks (d : Dev) : Dev :=
  (List.range 6).foldl (fun d p => d.flag (SGT.P_STAT_LOCKED p) (d.portLocked p)) d

/-- MCLK_AUD periods in a sample tick (R292). -/
def mclkPerTick (sel : Nat) : Nat := match sel with | 0 => 768 | 1 => 512 | 2 => 512 | 3 => 256 | 4 => 256 | _ => 128

/-- Two phases lie within 2 MCLK_AUD periods of each other. -/
def Dev.samePhase (d : Dev) (a b : Nat) : Bool :=
  let n := mclkPerTick (d.fld TCK.FRAME_FS_SEL)
  (a + n - b % n) % n ≤ 2 || (b + n - a % n) % n ≤ 2

/-! Intake of samples (R288, R297). -/

/-- Watches that test samples as they arrive: BND watches that check, and those that are ARMED, whose first frame is already under way or to come
(R46, R52, R119). -/
def Dev.bndWatches (d : Dev) (c : Nat) : List Nat :=
  d.activeWatches.filter (fun w => d.wdKind w == 2 && (d.chanList w 0 16).contains c)

/-- A PASS-class watch switches its bound channels after the sample in progress (R46, R304, R305). -/
def Dev.cutChannels (d : Dev) (w k : Nat) : Dev :=
  let x := d.watchOf w
  let later := match x.holds with | none => k | some f => if framePrecedes f k then k else f
  (d.wdChans w).foldl (fun d c =>
    { d with gate := { d.gate with outs := tabUpd OutCh.reset d.gate.outs c (fun o => { o with cut := true }) } })
    (d.putWatch w { x with holds := some later, release := false })

/-- The per-sample tests of watch `w` on the sample of channel `c` with index `n`: those of a PASS watch act at once, and WCH_SIG_INJ mode 1
takes one sample of BND_CH[0] as 2^31 in magnitude (R46, R147). -/
def Dev.bndTest (d : Dev) (c n : Nat) (x : Int) (w : Nat) : Dev :=
  let k := n / d.len % 4294967296
  if !d.inRange w k then d
  else
    let inj := d.sigArmed w 1 && (d.chanList w 0 16).head? == some c && bit (d.wdKindWord w 4) 0
    let high := inj && d.wdKindWord w 5 < 2147483648
    let d1 := if inj then d.sigDisarm else d
    let d2 := if high then d1.sigFail w n 1 0 else d1
    if d.wdPass w && (high || d.bndSample w c n x != []) then d2.cutChannels w k else d2

/-- HOLD channels whose gate buffer takes the samples of input `c`. -/
def Dev.holdOf (d : Dev) (c : Nat) : List Nat :=
  d.enabledOuts.filter (fun o => d.fld (SGT.OUT_CLASS o) == 0 && d.fld (SGT.OUT_SRC o) == c)

/-- SGT_INJ is armed with a mode. -/
def Dev.sgtArmed (d : Dev) (mode : Nat) : Bool := d.on SGT.INJ_ARM && d.fld SGT.INJ_MODE == mode

/-- One sample of input channel `c` arrives with index `n` (R288): it is stored, and per-sample tests run. SGT_INJ mode 3 inverts two check bits
of the next gate buffer write of its channel. -/
def Dev.takeSample (d : Dev) (c n : Nat) (x : Int) : Dev :=
  let d1 := { d with gate := { d.gate with inputs := tabSet none d.gate.inputs (inKey c n) (some x) } }
  let o := d1.fld SGT.INJ_CHANNEL
  let d2 := if d1.sgtArmed 3 && (d1.holdOf c).contains o then
      { d1.flag SGT.INJ_ARM false with gate := { d1.gate with badEcc := tabSet false d1.gate.badEcc (128 * n + o) true } }
    else d1
  if d2.running && d2.checks then (d2.bndWatches c).foldl (fun d w => d.bndTest c n x w) d2 else d2

/-- Every enabled TDM input channel of port `p` takes its slot's sample of the current tick (R288, R301). -/
def Dev.takeFrame (d : Dev) (p : Nat) (slots : List Nat) : Dev :=
  ((List.range 128).filter (fun c => d.on (SGT.IN_EN c) && d.fld (SGT.IN_TYPE c) == 0 && d.fld (SGT.IN_UNIT c) == p
      && d.fld (SGT.IN_SLOT c) ≤ d.fld (SGT.P_CFG_SLOTS_M1 p))).foldl (fun d c =>
    let lag := d.fld (SGT.IN_LAG c)
    if d.gate.tick < lag then d
    else d.takeSample c (d.gate.tick - lag) (signedOf 32 (slots.getD (d.fld (SGT.IN_SLOT c)) 0))) d

/-- A clock fault of a SLAVE port (R294): the frame's samples are missing and the phase is measured again. -/
def Dev.clockFault (d : Dev) (p : Nat) : Dev :=
  let d1 := ((d.count (SGT.P_STAT_CLKFAULTS p) 1).flag (SGT.P_STAT_LOCKED p) false).putTdm p { d.tdm p with measured := 0 }
  let mine (e : Nat × Option Int) : Bool :=
    let c := e.1 % 128
    d.on (SGT.IN_EN c) && d.fld (SGT.IN_TYPE c) == 0 && d.fld (SGT.IN_UNIT c) == p && e.1 / 128 + d.fld (SGT.IN_LAG c) == d.gate.tick
  ({ d1 with gate := { d1.gate with inputs := d1.gate.inputs.filter (fun e => !mine e) } }.raiseCause .s (384 + p)).showLocks

/-- TDM_INPUT_FRAME (R294): the frame of one sample tick on port `p`, with the phase of its FSYNC edge, or none for a missing edge, and whether a
second edge falls in the tick. A MASTER or FOLLOW port measures no phase. -/
def Dev.tdmFrame (d : Dev) (p : Nat) (edge : Option Nat) (second : Bool) (slots : List Nat) : Dev :=
  if !d.tdmEn p then d
  else if d.fld (SGT.P_CFG_CLK p) != 1 then (if d.portLocked p then d.takeFrame p slots else d)
  else
    let x := d.tdm p
    if d.on (SGT.P_STAT_LOCKED p) then
      match edge with
      | some a => if second || !d.samePhase a x.phase then d.clockFault p else d.takeFrame p slots
      | none => d.clockFault p
    else
      match edge with
      | some a =>
        if second then d.putTdm p { x with measured := 0 }
        else if x.measured = 0 then d.putTdm p { x with measured := 1, phase := a }
        else if d.samePhase a x.phase then d.putTdm p { x with measured := min 16 (x.measured + 1) }
        else d.putTdm p { x with measured := 0 }
      | none => d.putTdm p { x with measured := 0 }

def execTdmInputFrame (port : Nat) (edge : Option Nat) (second : Bool) (slots : List Nat) (s : State) : Host.Outcome State Fault Refusal :=
  run s fun _ d => if port < 6 then d.tdmFrame port edge second slots else d

/-- PORT_LOCK (R294): 16 frames are measured; LOCKED is set and the cause of SGT_CLK_FAULT ends (R316). -/
def Dev.portLock (d : Dev) (p : Nat) : Dev :=
  if d.tdmEn p && d.fld (SGT.P_CFG_CLK p) == 1 && (d.tdm p).measured == 16 && !d.on (SGT.P_STAT_LOCKED p) then
    ((d.flag (SGT.P_STAT_LOCKED p) true).cause (384 + p) false).showLocks
  else d

def execPortLock (port : Nat) (s : State) : Host.Outcome State Fault Refusal :=
  run s fun _ d => if port < 6 then d.portLock port else d

/-- A port is enabled (R294, R317): its lock starts. -/
def Dev.portEnable (d : Dev) (p : Nat) : Dev := (d.putTdm p { d.tdm p with measured := 0, phase := 0 }).flag (SGT.P_STAT_LOCKED p) false

/-- SDO of a port is at 0: so is the last sample of each of its channels. -/
def Dev.sdoZero (d : Dev) (p : Nat) : Dev :=
  { d with gate := { d.gate with outs := d.gate.outs.map (fun e =>
      (e.1, if !d.on (SGT.OUT_TYPE e.1) && d.fld (SGT.OUT_UNIT e.1) == p then { e.2 with last := 0 } else e.2)) } }

/-- A port is disabled (R313, R316, R317): SDO at 0, MUTE_n and VALID low, LOCKED 0, no cause of SGT_CLK_FAULT. -/
def Dev.portDisable (d : Dev) (p : Nat) : Dev :=
  ((((((d.putTdm p { d.tdm p with measured := 0, phase := 0 }).flag (SGT.P_STAT_LOCKED p) false).flag (SGT.P_STAT_VALID p) false).flag
    (SGT.P_STAT_MUTED p) true).cause (384 + p) false)).sdoZero p

/-- A write of SGT_CTRL (R317). -/
def Dev.sgtCtrlWrite (d : Dev) (v : Nat) : Dev :=
  let d1 := d.put SGT.CTRL_PORT_EN v
  ((List.range 6).foldl (fun e p =>
    if bit v p = d.tdmEn p then e else if bit v p then e.portEnable p else e.portDisable p) d1).showLocks.answer .done

/-- SGT_CTRL with bit `p` of PORT_EN given a value. -/
def Dev.sgtEnBit (d : Dev) (p : Nat) (b : Bool) : Nat :=
  let v := d.fld SGT.CTRL_PORT_EN
  if d.tdmEn p = b then v else if b then v + 2 ^ p else v - 2 ^ p

def execSgtPortEnable (port : Nat) (s : State) : Host.Outcome State Fault Refusal :=
  run s fun _ d => if port < 6 then d.sgtCtrlWrite (d.sgtEnBit port true) else d

def execSgtPortDisable (port : Nat) (s : State) : Host.Outcome State Fault Refusal :=
  run s fun _ d => if port < 6 then d.sgtCtrlWrite (d.sgtEnBit port false) else d

/-- A write of SGT_INJ (Table 09.8). -/
def Dev.sgtInjWrite (d : Dev) (v : Nat) : Dev :=
  let mode := v % 4
  let c := bitsAt v 22 16
  if injTaken (d.on SGT.INJ_ARM) v (mode != 0 && !(mode == 3 && d.on (SGT.OUT_CLASS c))) then
    (((d.flag SGT.INJ_ARM (bit v 31)).put SGT.INJ_CHANNEL c).put SGT.INJ_MODE mode).answer .done
  else d.answer .discarded

def execSgtInj (value : Nat) (s : State) : Host.Outcome State Fault Refusal := run s fun _ d => d.sgtInjWrite value

/-! AVTP listeners (R296, R297). -/

/-- The nsr code of a rate; the codes are those of IEEE 1722-2016. -/
def nsrOf (sel : Nat) : Nat := match sel with | 0 => 3 | 1 => 4 | 2 => 5 | 3 => 6 | 4 => 7 | 5 => 8 | _ => 9

/-- A raw sample of an AAF format as a 32-bit value: 24-bit and 16-bit samples are left aligned. -/
def aafSample (fmt v : Nat) : Int :=
  if fmt = 2 then signedOf 32 v else if fmt = 3 then signedOf 24 v * 256 else signedOf 16 v * 65536

/-- The time base that the tick unit is locked to. -/
def Dev.tickNs (d : Dev) : Int := tmNs (d.tb (d.fld TIM.TICK_CFG_TBSEL)).val

/-- Sample tick whose interval holds the presentation time nearest to now that `stamp` names (R297, R350). -/
def Dev.tickOf (d : Dev) (stamp : Nat) : Int :=
  let now := d.tickNs
  let off := ((stamp : Int) - now + 2147483648) % 4294967296 - 2147483648
  match d.time.start with
  | some s => (now + off - s) * d.fs / 1000000000
  | none => d.gate.tick + off * d.fs / 1000000000

/-- The packet is one of listener `l`: enabled, and every property as AVT_L_CFG and AVT_L_ID give it (R296). -/
def Dev.aafMatches (d : Dev) (l : Nat) (k : AafPacket) : Bool :=
  bit (d.fld AVT.CTRL_LIST_EN) l && bit (d.fld (AVT.L_CFG_PORTS l)) k.port && k.id == d.fld (AVT.L_ID_LO_ID l) + 4294967296 * d.fld (AVT.L_ID_HI_ID l)
    && k.format == d.fld (AVT.L_CFG_FMT l) && k.nsr == nsrOf (d.fld TCK.FRAME_FS_SEL)
    && k.rows.length == d.fld (AVT.L_CFG_SPP_M1 l) + 1 && k.rows.all (fun r => r.length == d.fld (AVT.L_CFG_CHANS_M1 l) + 1)

/-- One sample of a listener for sample tick `t` (R297): late or early ones are counted and discarded. -/
def Dev.listenSample (d : Dev) (l : Nat) (t : Int) (c : Nat) (x : Int) : Dev :=
  let n := t - d.fld (SGT.IN_LAG c)
  let floor : Int := match d.gate.lastRp with | some k => (d.frameStart k : Int) | none => 0
  if n < floor || (d.gate.tick + 4 * d.len : Nat) < t then d.count (AVT.L_CNT_LATE l) 1 else d.takeSample c n.toNat x

/-- AVTP_LISTENER_PACKET (R297). -/
def Dev.listen (d : Dev) (l : Nat) (k : AafPacket) : Dev :=
  if !d.reach .x || !d.aafMatches l k then d
  else
    let gap := d.on (AVT.L_STAT_LOCKED l) && tabGet 0 d.gate.listenSeq l != k.seq
    let d1 := if gap then d.count (AVT.L_CNT_SEQ_GAP l) 1 else d
    let g := { d1.gate with listenAt := tabSet 0 d1.gate.listenAt l d1.now, listenSeq := tabSet 0 d1.gate.listenSeq l ((k.seq + 1) % 256) }
    let d2 := (({ d1 with gate := g }).flag (AVT.L_STAT_LOCKED l) true).cause (392 + l) false
    if !d2.running then d2
    else
      let t0 := d2.tickOf k.time
      let cs := (List.range 128).filter (fun c => d2.on (SGT.IN_EN c) && d2.on (SGT.IN_TYPE c) && d2.fld (SGT.IN_UNIT c) == l
        && d2.fld (SGT.IN_SLOT c) ≤ d2.fld (AVT.L_CFG_CHANS_M1 l))
      (List.range k.rows.length).foldl (fun d (i : Nat) =>
        cs.foldl (fun d c => d.listenSample l (t0 + (i : Int)) c (aafSample k.format ((k.rows.getD i []).getD (d.fld (SGT.IN_SLOT c)) 0))) d) d2

def execAvtpListenerPacket (listener : Nat) (packet : AafPacket) (s : State) : Host.Outcome State Fault Refusal :=
  run s fun _ d => if listener < 16 then d.listen listener packet else d

/-- AVT_STREAM_LOST (R297): no accepted packet for 1 ms. -/
def Dev.streamLost (d : Dev) (l : Nat) : Dev :=
  if d.reach .x && bit (d.fld AVT.CTRL_LIST_EN) l && tabGet 0 d.gate.listenAt l + msCycles 1 ≤ d.now
      && !tabGet false d.snag.cause (392 + l) then
    (d.flag (AVT.L_STAT_LOCKED l) false).raiseCause .x (392 + l)
  else d

def execAvtStreamLost (listener : Nat) (s : State) : Host.Outcome State Fault Refusal :=
  run s fun _ d => if listener < 16 then d.streamLost listener else d

/-! Substitution content (R306 to R309). -/

def Dev.out (d : Dev) (c : Nat) : OutCh := tabGet OutCh.reset d.gate.outs c

def Dev.putOut (d : Dev) (c : Nat) (o : OutCh) : Dev :=
  { d with gate := { d.gate with outs := tabSet OutCh.reset d.gate.outs c o } }

/-- Channel `c` is a PASS channel. -/
def Dev.isPass (d : Dev) (c : Nat) : Bool := d.on (SGT.OUT_CLASS c)

/-- MARGIN in force for the frame that the gates emit. -/
def Dev.emitMargin (d : Dev) : Nat := d.marginOf (d.gate.lastRp.getD 0)

/-- d of R306. -/
def Dev.refDelay (d : Dev) (c : Nat) : Nat := if d.isPass c then 0 else 2 * d.len + d.emitMargin

/-- Sample `i` of a chime; LOOP restarts it (R306). -/
def Dev.chimeSample (d : Dev) (x : Nat) (loops : Bool) (i : Nat) : Int :=
  let n := d.fld (SGT.CHIME_LEN x)
  if n = 0 then 0
  else if i < n then tabGet 0 d.gate.chime (key2 x i)
  else if loops then tabGet 0 d.gate.chime (key2 x (i % n)) else 0

/-- Content of Table 09.5 for channel `c` at output tick `t`; none where it cannot be formed (R309). `bad`: a reference or chime word reads with an
uncorrected error. -/
def Dev.substContent (d : Dev) (c t : Nat) (bad : Bool) : Option Int :=
  let i : Int := (t : Int) - d.refDelay c
  match d.fld (SGT.OUT_POLICY c) with
  | 0 => some 0
  | 1 => if bad then none else d.sampleAt (d.fld (SGT.SUB_REF c)) i
  | 2 => if bad then none else some (d.chimeSample (d.fld (SGT.SUB_CHIME c)) (d.on (SGT.SUB_LOOP c)) (d.out c).subPos)
  | _ =>
    if i < 0 then none
    else tabGet none d.gate.fallback (fbKey (d.fld (SGT.SUB_FB c)) (d.fld (SGT.SUB_FB_OUT c)) i.toNat)

/-! Emission (R302, R304, R305, R310, R311). -/

/-- The port that channel `c` uses is locked; a talker stream has no port clock. -/
def Dev.outClock (d : Dev) (c : Nat) : Bool := d.on (SGT.OUT_TYPE c) || d.portLocked (d.fld (SGT.OUT_UNIT c))

/-- The frame under emission has ended and the next release point has not come (R33). -/
def Dev.marginGap (d : Dev) (t : Nat) : Bool :=
  match d.gate.lastRp with
  | none => false
  | some k => d.frameStart k + 3 * d.len + d.marginOf k ≤ t

/-- SGT_INJ mode 1 takes the next sample of PASS channel `c` as failed. -/
def Dev.passInj (d : Dev) (c : Nat) : Bool := d.sgtArmed 1 && d.fld SGT.INJ_CHANNEL == c && d.isPass c

/-- Released or passed content of channel `c` at output tick `t`; none where the channel substitutes. -/
def Dev.liveContent (d : Dev) (c t : Nat) : Option Int :=
  if !d.outClock c then none
  else
    match (d.out c).content with
    | .subst => none
    | .pass => if d.passInj c then none else d.sampleAt (d.fld (SGT.OUT_SRC c)) t
    | .frame k => some ((d.sampleAt (d.fld (SGT.OUT_SRC c)) ((t : Int) - ((2 * d.len + d.marginOf k : Nat) : Int))).getD 0)

/-- Length of a channel's ramp (R310). -/
def rampLen (code : Nat) : Nat := match code with | 0 => 1 | 1 => 16 | 2 => 32 | 3 => 64 | _ => 128

/-- Sample `i` of a ramp from `l` to `y` over `r` samples, rounded toward zero (R310). -/
def rampSample (l y : Int) (i r : Nat) : Int := (l * ((r : Int) - 1 - i) + y * ((i : Int) + 1)).tdiv r

/-- One sample of output channel `c` at output tick `t`: its value, its state, and whether it carries released or passed content with no ramp. -/
def Dev.emitOut (d : Dev) (c t : Nat) (bad : Bool) : OutCh × Bool :=
  let o := d.out c
  let live := d.liveContent c t
  let sub := live.isNone
  let turn := sub != o.shown
  let r := if o.hard || d.passInj c then 1 else rampLen (d.fld (SGT.OUT_RAMP c))
  let pos := if turn then 0 else o.subPos
  let y : Int := match live with
    | some v => v
    | none => ((d.putOut c { o with subPos := pos }).substContent c t bad).getD 0
  let ramp := if turn then (if r = 1 then none else some (o.last, 0, r)) else o.ramp
  let v : Int := if !d.on (SGT.OUT_TYPE c) && !d.tdmEn (d.fld (SGT.OUT_UNIT c)) then 0
    else match ramp with | some (l, i, n) => rampSample l y i n | none => y
  let next := match ramp with
    | some (l, i, n) => if i + 1 < n then some (l, i + 1, n) else none
    | none => none
  let o1 := { o with last := v, ramp := next, inRamp := ramp.isSome, shown := sub, subPos := if sub then pos + 1 else 0, hard := if turn then false else o.hard }
  (if o.cut then { o1 with cut := false, hard := true, content := .subst } else o1, !sub && ramp.isNone)

/-- Output channels that emit in tick `t`. -/
def Dev.emitOne (t : Nat) (bad : List Nat) (a : Dev × List Nat) (c : Nat) : Dev × List Nat :=
  let (d, good) := a
  if !d.isPass c && d.marginGap t then
    (d.putOut c { d.out c with last := 0, inRamp := false }, if (d.out c).shown || (d.out c).ramp.isSome then good else c :: good)
  else
    let isBad := bad.contains c
    let live := d.liveContent c t
    let (o, carries) := d.emitOut c t isBad
    let missing := live.isNone && ((d.putOut c { d.out c with subPos := if (d.out c).shown then (d.out c).subPos else 0 }).substContent c t isBad).isNone
    let d1 := d.putOut c o
    let d2 := if missing && !d1.on (SGT.OUT_TYPE c) then d1.count (SGT.P_STAT_SUBFAIL (d1.fld (SGT.OUT_UNIT c))) 1 else d1
    let d3 := if isBad && live.isNone && (d2.fld (SGT.OUT_POLICY c) == 1 || d2.fld (SGT.OUT_POLICY c) == 2) then d2.raise .s 390 else d2
    let d4 := if d3.passInj c then d3.flag SGT.INJ_ARM false else d3
    (d4, if carries then c :: good else good)

/-- Channel `c` emits MUTE content (R313). -/
def Dev.emitsMute (d : Dev) (c : Nat) : Bool := d.fld (SGT.OUT_POLICY c) == 0 && (d.out c).shown && !(d.out c).inRamp

/-- TDM output channels of port `p`. -/
def Dev.portOuts (d : Dev) (p : Nat) : List Nat :=
  d.enabledOuts.filter (fun c => !d.on (SGT.OUT_TYPE c) && d.fld (SGT.OUT_UNIT c) == p)

/-- The pins of one port at the FSO edge of an output frame (R312, R313, R314). -/
def Dev.pinsOf (good : List Nat) (d : Dev) (p : Nat) : Dev :=
  let outs := d.portOuts p
  let masked := outs.filter (fun c => bit (d.fld (SGT.P_VMASK_VMASK p)) (d.fld (SGT.OUT_SLOT c)))
  let drives := d.leadBit && !(d.tdm p).forcedLow
  let inj := d.sgtArmed 2 && d.fld (SGT.OUT_UNIT (d.fld SGT.INJ_CHANNEL)) == p && !d.on (SGT.OUT_TYPE (d.fld SGT.INJ_CHANNEL))
  let valid := d.tdmEn p && drives && d.portLocked p && !d.on SNG.STAT_SAFE && masked != [] && masked.all good.contains && !inj
  let muted := !d.tdmEn p || !drives || outs.all d.emitsMute || (d.on SNG.STAT_SAFE && d.on (SGT.P_CFG_MUTE_SAFE p))
  let d1 := ((d.flag (SGT.P_STAT_VALID p) valid).flag (SGT.P_STAT_MUTED p) muted).flag (SGT.P_STAT_DRIVING p)
    (drives && (d.tdmEn p || d.on (SGT.P_STAT_DRIVING p)))
  if inj then d1.flag SGT.INJ_ARM false else d1

/-! Talkers (R298, R299, R331). -/

/-- Two's-complement bytes of a sample. -/
def sampleBytes (x : Int) : List Byte := beBytes 4 (ofSigned 32 x)

/-- The PDU of a talker: the AAF header and its sample rows. The header's layout is that of IEEE 1722-2016. -/
def Dev.talkPdu (d : Dev) (t seq stamp : Nat) (rows : List (List Int)) : List Byte :=
  let chans := d.fld (AVT.T_CFG_CHANS_M1 t) + 1
  let body := rows.flatMap (fun r => r.flatMap sampleBytes)
  [0x02, 0x81] ++ beBytes 1 seq ++ [0] ++ beBytes 4 (d.fld (AVT.T_ID_HI_ID t)) ++ beBytes 4 (d.fld (AVT.T_ID_LO_ID t)) ++ beBytes 4 stamp
    ++ [0x02] ++ beBytes 1 (nsrOf (d.fld TCK.FRAME_FS_SEL) * 16) ++ beBytes 1 chans ++ [32] ++ beBytes 2 body.length ++ [0, 0] ++ body

/-- Length of a talker's frame from destination address to FCS, as R320 counts it, on port `p`. -/
def Dev.talkLen (d : Dev) (t p : Nat) : Nat :=
  14 + 4 + (if bit (d.fld ETH.CB_CTRL_TALK_GEN) t then 6 else 0) + (if d.on (ETH.P_MS_CTRL_EN p) then 32 else 0) + 24
    + 4 * (d.fld (AVT.T_CFG_CHANS_M1 t) + 1) * (d.fld (AVT.T_CFG_SPP_M1 t) + 1) + 4

/-- One sample position of talker `t` in tick `u`; its packet is sent when the last position is in (R298). A packet that none of its ports can carry
then is not sent in time (R316; log entry 118). -/
def Dev.talkTick (u : Nat) (good : List Nat) (d : Dev) (t : Nat) : Dev :=
  let spp := d.fld (AVT.T_CFG_SPP_M1 t) + 1
  let chans := d.fld (AVT.T_CFG_CHANS_M1 t) + 1
  let bound (j : Nat) : Option Nat := d.enabledOuts.find? (fun c => d.on (SGT.OUT_TYPE c) && d.fld (SGT.OUT_UNIT c) == t && d.fld (SGT.OUT_SLOT c) == j)
  let valid := bitsOf 7 (fun j => (bound j).any good.contains)
  let row := (List.range (chans - 1)).map (fun j => match bound j with | some c => (d.out c).last | none => 0)
    ++ [signedOf 32 (d.statusWord valid)]
  let old := tabGet [] d.gate.talk t
  let rows := (if u % spp = 0 then [] else old) ++ [row]
  let keep (l : List (List Int)) : Dev := { d with gate := { d.gate with talk := tabSet [] d.gate.talk t l } }
  if (u + 1) % spp != 0 then keep rows
  else if rows.length != spp then keep []
  else if !d.leadBit then keep []
  else
    let d1 := keep []
    let stamp := ofSigned 32 (d1.tickNs - (((spp - 1) * 1000000000 / max 1 d1.fs : Nat) : Int) + d1.fld (AVT.T_MTT_MTT t))
    let pdu := d1.talkPdu t (u / spp % 256) stamp rows
    let ports := if bit (d1.fld ETH.CB_CTRL_TALK_GEN) t then 3 else d1.fld (AVT.T_CFG_PORTS t)
    let d2 := ([0, 1].filter (fun p => bit ports p && d1.portEn p)).foldl (fun d p =>
      d.enqueue p (d.fld (AVT.T_CFG_PCP t))
        { bytes := pdu, len := d.talkLen t p, statusAt := none, plain := false, late := false,
          rtag := if bit (d.fld ETH.CB_CTRL_TALK_GEN) t then some (u / spp % 65536) else none,
          tag := some (d.fld (AVT.T_DA_HI_VID t), d.fld (AVT.T_CFG_PCP t)),
          dst := some (d.fld (AVT.T_DA_LO_DA t) + 4294967296 * d.fld (AVT.T_DA_HI_DA t)), ip := none }) d1
    let late := ports != 0 && [0, 1].all (fun p => !(bit ports p && d1.portUp p))
    let d3 := { d2 with gate := { d2.gate with talkCount := tabUpd 0 d2.gate.talkCount t (· + 1) } }
    if late then d3.raise .x 408 else d3

/-- Every enabled talker takes its sample position (R298); a standby gathers them and sends no packet, so that a takeover within a packet's ticks
leaves no gap (R331), and the lost X-die stops them (R315). -/
def Dev.talk (d : Dev) (u : Nat) (good : List Nat) : Dev :=
  if d.running && d.reach .x then
    ((List.range 16).filter (fun t => bit (d.fld AVT.CTRL_TALK_EN) t)).foldl (Dev.talkTick u good) d
  else { d with gate := { d.gate with talk := [] } }

/-! Release (R25, R34, R44, R47, R203, R302). -/

/-- The verdict of watch `w` for frame `k`, where it is final: code and COV. -/
def Dev.verdictOf (d : Dev) (w k : Nat) : Option (Nat × Nat) :=
  ((d.watchOf w).verdicts.find? (fun v => v.1 == k)).map (fun v => v.2)

/-- An STN watch serves frame `k`: it has a job or a verdict for it (R203). Every other kind serves every frame of its range. -/
def Dev.serves (d : Dev) (w k : Nat) : Bool := d.wdKind w != 7 || (d.jobOf w k).isSome || (d.verdictOf w k).isSome

/-- Watches bound to channel `c` whose verdict for frame `k` enters condition 1 of Table 01.6. -/
def Dev.gating (d : Dev) (c k : Nat) : List Nat :=
  d.activeWatches.filter (fun w => d.wdBinds w c && (d.watchOf w).state.checks && d.inRange w k && d.serves w k)

/-- A FAILED watch with LATCH holds channel `c` (Table 02.2). -/
def Dev.latched (d : Dev) (c : Nat) : Bool :=
  d.activeWatches.any (fun w => d.wdBinds w c && (d.watchOf w).state == .failed && d.wdLatch w)

/-- Every watch that gates channel `c` has passed frame `k` at or above its minimum coverage (conditions 1 and 2, R47). -/
def Dev.watchesPass (d : Dev) (c k : Nat) : Bool :=
  let ws := d.gating c k
  ws != [] && ws.all (fun w => match d.verdictOf w k with | some (code, cov) => code == 0 && d.wdMinCov w ≤ cov | none => false)

/-- A sample of the gate buffer of channel `c` reads with inverted check bits. -/
def Dev.bufferBad (d : Dev) (c k : Nat) : Bool :=
  (List.range d.len).any (fun i => tabGet false d.gate.badEcc (128 * (d.frameStart k + i) + c))

/-- Condition 3: every sample of frame `k` is in the gate buffer and reads without an uncorrected error (R301). -/
def Dev.samplesIn (d : Dev) (c k : Nat) (bad : List Nat) : Bool :=
  let src := d.fld (SGT.OUT_SRC c)
  !bad.contains c && !d.bufferBad c k && (List.range d.len).all (fun i => (d.sampleAt src ((d.frameStart k + i : Nat) : Int)).isSome)

/-- Condition 4 (R419, R420): no source at SAFE or RESTART is set and the safe state does not hold. -/
def Dev.unsafe4 (d : Dev) : Bool := d.safeSource || d.on SNG.STAT_SAFE

/-- Conditions 1 to 4 of Table 01.6 for frame `k` of HOLD channel `c`; SGT_INJ mode 1 fails its next frame. -/
def Dev.meets (d : Dev) (k : Nat) (bad : List Nat) (c : Nat) : Bool :=
  d.watchesPass c k && !d.latched c && d.samplesIn c k bad && !d.unsafe4 && !framePrecedes k (d.out c).from_
    && !(d.sgtArmed 1 && d.fld SGT.INJ_CHANNEL == c)

/-- Enabled HOLD channels. -/
def Dev.holdChannels (d : Dev) : List Nat := d.enabledOuts.filter (fun c => !d.isPass c)

end Sys2Proof.Machine
end

