-- ==== Sys2Proof/Machine/Twin.lean ====
section
/-!
DEFINITION. Twin operation (chapter 15): ownership of the outputs, planned handover, verdict agreement, the records of BOND and the rows that the
twin pins and records drive.
-/

namespace Sys2Proof.Machine

/-- A PENDING operation of a session ends (R367): its status is kept, a cached reply takes it (R370), and OP_DONE is sent (R377). -/
def Dev.opDone (d : Dev) (sess reqId status : Nat) (result : List Byte) : Dev :=
  match d.session sess with
  | none => d
  | some x =>
    let ops := x.ops.map (fun o => if o.reqId = reqId && o.status.isNone then { o with status := some status } else o)
    let cache := x.cache.map (fun c => if c.reqId = reqId then { c with reply := { c.reply with status := status } } else c)
    (d.withSession sess (some { x with ops := ops, cache := cache })).event sess 13
      (beBytes 4 reqId ++ beBytes 2 status ++ [0, 0] ++ result)

/-! Pins and records. -/

/-- The device and its peer decide frames together (R498): one of them is lead and the other READY. -/
def Dev.joint (d : Dev) : Bool :=
  (d.fld TWN.STAT_STATE == 2 && d.fld TWN.PEER_STATE == 4) || d.fld TWN.STAT_STATE == 4

/-- TWN_INJ is armed with a mode. -/
def Dev.twnArmed (d : Dev) (mode : Nat) : Bool := d.on TWN.INJ_ARM && d.fld TWN.INJ_MODE == mode

/-- The instant D(k) is clamped (R498). -/
def Dev.guardClamp (d : Dev) : Bool := 16 * (d.len + d.fld TCK.RELEASE_MARGIN) < d.fld TWN.CFG_GUARD + 16

/-- A record of BOND under the current frame. -/
def Dev.bondSend (d : Dev) (kind vc frame : Nat) (payload : List Byte) : Dev :=
  if d.on TWN.CTRL_PAIR then d.sendRecord 4 kind vc 0 frame 0 0 0 0 payload else d

/-- A HANDOVER record (Table 15.9). -/
def Dev.sendHandover (d : Dev) (h code : Nat) : Dev :=
  d.bondSend 0x43 2 d.frame (leBytes 4 h ++ leBytes 1 code ++ [0, 0, 0])

/-- The STATE record of the device (Table 15.9). -/
def Dev.statePayload (d : Dev) : List Byte :=
  leBytes 1 (d.fld TWN.STAT_STATE) ++ leBytes 1 (d.fld SNG.STAT_SAFE_OK) ++ leBytes 1 (d.fld TWN.CFG_PREFER_LEAD) ++ [0]
    ++ leBytes 8 d.ownDigest ++ leBytes 4 (d.fld SEC.UID_LO_UID) ++ leBytes 4 (d.fld SEC.UID_HI_UID)
    ++ leBytes 2 d.boot.compat ++ leBytes 2 (d.fld SEC.IDENT_DEVICE_ID)

/-- The planned handover is abandoned: a request that waits for it ends with STATE (R497). -/
def Dev.abandon (d : Dev) : Dev :=
  match d.twin.handover with
  | none => d
  | some h =>
    let d1 := { d with twin := { d.twin with handover := none } }
    match h.waiting with
    | none => d1
    | some (s, r) => d1.opDone s r 0x0106 []

/-! Ownership (R494 to R497, Table 15.8). -/

/-- The switch edge is recorded (Table 15.13). -/
def Dev.switchInfo (d : Dev) (kind : Nat) : Dev :=
  ((d.put TWN.LAST_SWITCH_FRAME_NO d.frame).put TWN.SWITCH_INFO_KIND kind).put TWN.SWITCH_INFO_TICK (d.gate.tick % max 1 d.len)

/-- A channel that the incoming device does not substitute starts with a switch from 0 (R495). -/
def OutCh.fromZero (o : OutCh) (r : Nat) : OutCh :=
  if o.shown then o else { o with last := 0, ramp := if r = 1 then none else some (0, 0, r) }

/-- The device takes the outputs at a switch edge: kind 1 with ramps, kind 3 without. -/
def Dev.takeOver (d : Dev) (kind : Nat) : Dev :=
  let outs := if kind = 1 then d.enabledOuts else []
  let d1 := outs.foldl (fun d c => d.putOut c ((d.out c).fromZero (rampLen (d.fld (SGT.OUT_RAMP c))))) d
  let d2 := { d1 with twin := { d1.twin with owns := true, acquireAt := none, lowTicks := 0, safeTicks := 0 } }
  ((((d2.flag TWN.STAT_OWN_OUT true).switchInfo kind).raise .s 674).twinRefresh.twinEvent 3).triggerStatus 4

/-- The device releases the outputs at a switch edge. -/
def Dev.giveUp (d : Dev) (kind : Nat) : Dev :=
  let d1 := { d with twin := { d.twin with owns := false, releaseAt := none, safeTicks := 0 } }
  ((((d1.flag TWN.STAT_OWN_OUT false).switchInfo kind).twinRefresh).twinEvent 4).triggerStatus 4

/-- Sample tick of the planned edge of a handover to frame `h` (R497). -/
def Dev.edgeTick (d : Dev) (h : Nat) : Nat := d.frameStart h + 2 * d.len + d.marginOf h

/-- The planned handover at the current sample tick: the lead's drop point and the edge itself. -/
def Dev.handoverTick (d : Dev) : Dev :=
  match d.twin.handover with
  | none => d
  | some h =>
    let e := d.edgeTick h.frame
    if !d.running then d
    else if d.gate.tick = e && h.confirmed then
      let d1 := { d with twin := { d.twin with handover := none } }
      let d2 := (if d.twin.owns then d1.giveUp 3 else d1.takeOver 3).twinEvent 5
      match h.waiting with
      | none => d2
      | some (s, r) => d2.opDone s r 0 []
    else if d.gate.tick + 2 = e && h.proposed then
      if h.confirmed then d.flag TWN.STAT_OWN_OUT false else d.abandon
    else if e < d.gate.tick then d.abandon
    else d

/-- Count down to a switch edge, and take it. -/
def Dev.edges (d : Dev) : Dev :=
  let d1 := match d.twin.acquireAt with
    | none => d
    | some n => if n ≤ 1 then d.takeOver 1 else { d with twin := { d.twin with acquireAt := some (n - 1) } }
  match d1.twin.releaseAt with
  | none => d1
  | some (n, k) => if n ≤ 1 then d1.giveUp k else { d1 with twin := { d1.twin with releaseAt := some (n - 1, k) } }

/-- Bits 0 and 16 of a sample tick: an owner in the safe state releases to a READY peer, and an acquirer raises TWN_OWN_OUT. -/
def Dev.ownBits (d : Dev) : Dev :=
  let t := d.twin
  if t.owns then
    if d.on SNG.STAT_SAFE && d.fld TWN.PEER_STATE == 4 then
      let n := t.safeTicks + 1
      let d1 := { d with twin := { t with safeTicks := n } }
      if 4 ≤ n then d1.abandon.giveUp 4
      else if t.releaseAt.isNone then
        let d2 := d1.abandon.flag TWN.STAT_OWN_OUT false
        { d2 with twin := { d2.twin with releaseAt := some (2, 2) } }
      else d1
    else { d with twin := { t with safeTicks := 0 } }
  else if t.acquireAt = some 1 then d.flag TWN.STAT_OWN_OUT true
  else d

/-- Both devices have raised TWN_OWN_OUT (Table 15.8, collision). -/
def Dev.collide (d : Dev) : Dev :=
  let mine := d.on TWN.CFG_PREFER_LEAD
  if mine && !d.twin.peerPrefer then d
  else
    let wait := if mine = d.twin.peerPrefer then d.fld SEC.UID_LO_UID % 16 + 1 else 0
    let d1 := d.flag TWN.STAT_OWN_OUT false
    { d1 with twin := { d1.twin with acquireAt := none, retryAt := wait, lowTicks := 0 } }

/-- Bit 32 of a sample tick: TWN_OWN_IN is sampled, for collisions and for the acquire row. -/
def Dev.ownSample (d : Dev) (level : Bool) : Dev :=
  let inj := d.twnArmed 3
  let high := level && !inj
  let d1 := (if inj then d.flag TWN.INJ_ARM false else d).flag TWN.STAT_OWN_IN level
  let t := d1.twin
  let low := if high then 0 else min 2 (t.lowTicks + 1)
  let d2 := { d1 with twin := { t with lowTicks := low, retryAt := t.retryAt - 1 } }
  let need := if d.fld TWN.STAT_STATE = 4 then 1 else 2
  let planned := match t.handover with | some h => h.confirmed && d.edgeTick h.frame ≤ d.gate.tick + 2 | none => false
  if t.acquireAt = some 1 && high then d2.collide
  else if !t.owns && t.acquireAt.isNone && t.releaseAt.isNone && t.retryAt ≤ 1 && !planned && d2.on SNG.STAT_SAFE_OK
      && !d2.on SEC.STATE_MAINT && need ≤ low then
    let d3 := { d2 with twin := { d2.twin with acquireAt := some 2 } }
    if d3.on TWN.STAT_PEER_OK then d3.raise .s 680 else d3
  else d2

/-- TWIN_OWNERSHIP: the sample points of one sample tick (R494). -/
def Dev.twinTick (d : Dev) (ownIn : Bool) : Dev :=
  if d.on TWN.CTRL_PAIR then d.edges.handoverTick.ownBits.ownSample ownIn else d.flag TWN.STAT_OWN_IN ownIn

/-- Both devices report LEAD (R494, Table 15.10). -/
def Dev.dualLead (d : Dev) : Dev :=
  if d.fld TWN.STAT_STATE == 2 && d.fld TWN.PEER_STATE == 2 then
    let d1 := if tabGet false d.snag.cause 679 then d else d.raiseCause .s 679
    let uid := d.fld SEC.UID_LO_UID + 4294967296 * d.fld SEC.UID_HI_UID
    let peer := d.fld TWN.PEER_UID_LO_UID + 4294967296 * d.fld TWN.PEER_UID_HI_UID
    let yields := if d.on TWN.CFG_PREFER_LEAD = d.twin.peerPrefer then peer < uid else !d.on TWN.CFG_PREFER_LEAD
    if yields && d1.twin.releaseAt.isNone then { d1 with twin := { d1.twin with releaseAt := some (1, 5) } } else d1
  else d.cause 679 false

/-! Records received. -/

/-- STATE (R491, R500). -/
def Dev.stateIn (d : Dev) : Dev :=
  match d.heldRec 4 2 0x42 with
  | none => d
  | some r =>
    let b := r.payload
    let was := d.fld TWN.PEER_STATE
    let now := leAt b 0 1 % 16
    let d1 := (((d.unhold 4 r true).put TWN.PEER_STATE now).flag TWN.PEER_SAFE_OK (leAt b 1 1 % 2 == 1)).put TWN.PEER_DEVICE_ID (leAt b 22 2)
    let d2 := (d1.put TWN.PEER_DIGEST_LO_DIGEST (leAt b 4 4)).put TWN.PEER_DIGEST_HI_DIGEST (leAt b 8 4)
    let d3 := (d2.put TWN.PEER_UID_LO_UID (leAt b 12 4)).put TWN.PEER_UID_HI_UID (leAt b 16 4)
    let ready := if now = 4 then (match d3.twin.peerReadyFrom with | some t => some t | none => some d3.now) else none
    let t := { d3.twin with stateAt := d3.now, stateFresh := true, peerCompat := leAt b 20 2, peerPrefer := leAt b 2 1 % 2 == 1 }
    let d4 := { d3 with twin := { t with peerReadyFrom := ready } }.twinRefresh
    (if was = now || (was != 4 && now != 4) then d4 else if now = 4 then d4.twinEvent 6 else d4.twinEvent 7).dualLead

def execState (s : State) : Host.Outcome State Fault Refusal := run s fun _ d => if d.on TWN.CTRL_PAIR then d.stateIn else d

/-- STATE_SEND (R500): every 250 us. -/
def Dev.stateSend (d : Dev) : Dev :=
  if d.on TWN.CTRL_PAIR && d.twin.sentAt + usCycles 250 ≤ d.now then
    { d.bondSend 0x42 2 d.frame d.statePayload with twin := { d.twin with sentAt := d.now } }
  else d

def execStateSend (s : State) : Host.Outcome State Fault Refusal := run s fun _ d => d.stateSend

/-- PEER_STATE_TIMEOUT (R491): no STATE record for 1 ms. -/
def Dev.stateTimeout (d : Dev) : Dev :=
  if d.twin.stateFresh && d.twin.stateAt + msCycles 1 ≤ d.now then
    { d with twin := { d.twin with stateFresh := false } }.twinRefresh.dualLead
  else d

def execPeerStateTimeout (s : State) : Host.Outcome State Fault Refusal := run s fun _ d => d.stateTimeout

/-- Two boundaries of one frame lie within 2 us of each other (R492). -/
def Dev.stepCount (d : Dev) (a b : Int) : Dev :=
  let near := decide (-2000 ≤ a - b) && decide (a - b ≤ 2000)
  { d with twin := { d.twin with inStep := if near then min 64 (d.twin.inStep + 1) else 0 } }

/-- SYNC (R492, R500): compared with the own boundary of that frame, which may be about to come. -/
def Dev.syncIn (d : Dev) : Dev :=
  match d.heldRec 4 1 0x41 with
  | none => d
  | some r =>
    let ns : Int := ((leAt r.payload 0 6 * 1000000000 + leAt r.payload 6 4 : Nat) : Int)
    let d1 := d.unhold 4 r true
    let d2 := { d1 with twin := { d1.twin with peerSync := some (r.frame, ns) } }
    (match d2.twin.ownSync with
      | some (k, t) =>
        if k = r.frame then d2.stepCount ns t
        else if frameAdd k 1 = r.frame then d2
        else { d2 with twin := { d2.twin with inStep := 0 } }
      | none => d2).twinRefresh

def execSync (s : State) : Host.Outcome State Fault Refusal := run s fun _ d => if d.on TWN.CTRL_PAIR then d.syncIn else d

/-- The own boundary of frame `k` at time `t`: compared with a SYNC record that came first; a missing record breaks the run (R492). -/
def Dev.syncOwn (d : Dev) (k : Nat) (t : Int) : Dev :=
  let d1 := { d with twin := { d.twin with ownSync := some (k, t) } }
  match d.twin.peerSync with
  | none => d1
  | some (f, ns) =>
    if f = k then d1.stepCount ns t
    else if frameAdd f 1 = k then d1
    else { d1 with twin := { d1.twin with inStep := 0 } }

/-- HANDOVER (R497, Table 15.9). -/
def Dev.handoverIn (d : Dev) : Dev :=
  match d.heldRec 4 2 0x43 with
  | none => d
  | some r =>
    let h := leAt r.payload 0 4
    let d1 := d.unhold 4 r true
    match leAt r.payload 4 1 with
    | 1 =>
      if d1.fld TWN.STAT_STATE = 4 && d1.twin.handover.isNone then
        ({ d1 with twin := { d1.twin with handover := some ⟨h, false, true, none⟩ } }).sendHandover h 2
      else d1.sendHandover h 3
    | 2 =>
      match d1.twin.handover with
      | some x =>
        if x.proposed && x.frame = h && d1.gate.tick + 2 ≤ d1.edgeTick h then
          { d1 with twin := { d1.twin with handover := some { x with confirmed := true } } }
        else d1
      | none => d1
    | 3 =>
      match d1.twin.handover with
      | some x => if x.proposed && x.frame = h then d1.abandon else d1
      | none => d1
    | _ => d1

def execHandover (s : State) : Host.Outcome State Fault Refusal := run s fun _ d => if d.on TWN.CTRL_PAIR then d.handoverIn else d

/-- The lead proposes a handover to frame `h`, 0 for the earliest (R497); none where it is not accepted. -/
def Dev.propose (d : Dev) (h : Nat) (waiting : Option (Nat × Nat)) : Option Dev :=
  let f := if h = 0 then frameAdd d.frame 4 else h
  let ahead := (f + 4294967296 - d.frame) % 4294967296
  if d.fld TWN.STAT_STATE = 2 && d.fld TWN.PEER_STATE = 4 && 4 ≤ ahead && ahead ≤ 2147483647 && d.twin.handover.isNone then
    some (({ d with twin := { d.twin with handover := some ⟨f, true, false, waiting⟩ } }).sendHandover f 1)
  else none

/-- A write of TWN_CMD (R504): HANDOVER proposes TWN_HANDOVER.FRAME. -/
def Dev.twnCmdWrite (d : Dev) (mid v : Nat) : Dev :=
  if !trusted mid then d.answer .error
  else ((if bit v 0 then (d.propose (d.fld TWN.HANDOVER_FRAME) none).getD d else d)).answer .done

def execTwnCmdHandover (mid : Nat) (s : State) : Host.Outcome State Fault Refusal := run s fun _ d => d.twnCmdWrite mid 1

/-- GIVE_BACK (R497): the preferred peer has been READY for GB_S seconds. -/
def Dev.giveBack (d : Dev) : Dev :=
  match d.twin.peerReadyFrom with
  | none => d
  | some t =>
    if d.on TWN.CFG_GIVE_BACK && !d.on TWN.CFG_PREFER_LEAD && d.twin.peerPrefer && t + sCycles (d.fld TWN.GB_GB_S) ≤ d.now then
      (d.propose 0 none).getD d
    else d

def execGiveBack (s : State) : Host.Outcome State Fault Refusal := run s fun _ d => d.giveBack

/-- A write of TWN_CTRL (R491, R504, R506): PAIR starts BOND's training; from then on the device drives only what it acquires. -/
def Dev.twnCtrlWrite (d : Dev) (mid v : Nat) : Dev :=
  let want := bit v 0
  if !trusted mid then d.answer .error
  else if want && !d.on PWR.STRAP_TWIN_EN then d.answer .rejected
  else if want = d.on TWN.CTRL_PAIR then d.answer .done
  else if want then
    let t := { Twin.reset with contents := d.twin.contents, sentAt := d.now }
    let d1 := ({ d with twin := t }.flag TWN.CTRL_PAIR true).flag TWN.STAT_OWN_OUT false
    ((d1.putFails 4 0).fullTraining 4).twinRefresh.answer .done
  else
    let d1 := (d.abandon.flag TWN.CTRL_PAIR false).flag TWN.STAT_OWN_OUT true
    let d2 := { d1 with twin := { Twin.reset with contents := d1.twin.contents } }
    ((d2.linkOff 4).twinRefresh.cause 679 false).answer .done

def execTwnCtrlPair (mid value : Nat) (s : State) : Host.Outcome State Fault Refusal := run s fun _ d => d.twnCtrlWrite mid value

/-! The peer's pins (Table 15.10, source 673). -/

/-- The cause of TWN_PEER_LOST. -/
def Dev.peerCause (d : Dev) : Dev :=
  if d.on TWN.STAT_PEER_OK && d.on TWN.STAT_PEER_HB_OK then d.cause 673 false
  else if tabGet false d.snag.cause 673 then d else d.raiseCause .s 673

/-- PEER_OK_CHANGE: the level of TWN_PEER_OK. -/
def execPeerOkChange (level : Bool) (s : State) : Host.Outcome State Fault Refusal :=
  run s fun _ d => (d.flag TWN.STAT_PEER_OK level).peerCause

/-- PEER_HB_LOSS: no edge of TWN_PEER_HB for 150 us, or, with `edge`, an edge after that. -/
def execPeerHbLoss (edge : Bool) (s : State) : Host.Outcome State Fault Refusal :=
  run s fun _ d => (d.flag TWN.STAT_PEER_HB_OK edge).peerCause

/-- A write of TWN_INJ (Table 15.13). -/
def Dev.twnInjWrite (d : Dev) (v : Nat) : Dev :=
  if injTaken (d.on TWN.INJ_ARM) v (v % 4 != 0) then ((d.flag TWN.INJ_ARM (bit v 31)).put TWN.INJ_MODE v).answer .done
  else d.answer .discarded

def execTwnInj (value : Nat) (s : State) : Host.Outcome State Fault Refusal := run s fun _ d => d.twnInjWrite value

/-! Verdict agreement (R498, R499). -/

/-- WATCH_ID and verdict code of every final evaluation of frame `k`, in WATCH_ID order. -/
def Dev.finalCodes (d : Dev) (k : Nat) : List (Nat × Nat) :=
  d.watch.watches.filterMap (fun e => (e.2.verdicts.find? (fun v => v.1 == k)).map (fun v => (e.1, v.2.1)))

/-- The device decides frame `k` at D(k) and sends its AGREE record (R498). -/
def Dev.agreeDecide (d : Dev) : Dev :=
  let k := match d.gate.lastRp with | none => 0 | some r => frameAdd r 1
  let due := d.running && d.joint && framePrecedes k d.frame
  if !due || d.twin.own.any (fun a => a.frame == k) then d
  else
    let map := bitsOf 128 (fun c => (d.holdChannels.contains c) && d.meets k [] c)
    let digest := (beBytes 64 (Config.sha512 ((d.finalCodes k).flatMap (fun e => leBytes 2 e.1 ++ leBytes 1 e.2)))).take 8
    let d1 := { d with twin := { d.twin with own := ⟨k, map, digest⟩ :: d.twin.own.take 3 } }
    if d1.twnArmed 2 then d1.flag TWN.INJ_ARM false
    else
      let inj := d1.twnArmed 1
      let sent := if inj then (if bit map 0 then map - 1 else map + 1) else map
      let d2 := if inj then d1.flag TWN.INJ_ARM false else d1
      d2.bondSend 0x40 0 k (leBytes 16 sent ++ digest ++ leBytes 4 (d.fld SNG.STAT_SAFE_OK))

def execAgreeDecision (s : State) : Host.Outcome State Fault Refusal := run s fun _ d => d.agreeDecide

/-- AGREE (R498, R499): the peer's record, where it is final before the cycle of RP(k) (R26). -/
def Dev.agreeIn (d : Dev) : Dev :=
  match d.heldRec 4 0 0x40 with
  | none => d
  | some r =>
    let d1 := d.unhold 4 r true
    let late := d1.rpPast r.frame || (match d1.gate.lastRp with | none => false | some f => f == r.frame || framePrecedes r.frame f)
    if late then d1
    else { d1 with twin := { d1.twin with peer := ⟨r.frame, leAt r.payload 0 16, slice r.payload 16 8⟩ :: d1.twin.peer.take 3 } }

def execAgree (s : State) : Host.Outcome State Fault Refusal := run s fun _ d => if d.on TWN.CTRL_PAIR then d.agreeIn else d

/-- One outcome enters the filter of R499, which trips when its count reaches FILT_K. -/
def Dev.disagreeFilter (d : Dev) (differ : Bool) : Dev :=
  let filt := (differ :: d.twin.filt).take (d.fld TWN.FILT_FILT_N)
  let n := (filt.filter id).length
  let d1 := { d with twin := { d.twin with filt := filt } }.put TWN.FILT_STAT_FILT_CNT n
  if n < d1.fld TWN.FILT_FILT_K then d1.cause 675 false
  else if tabGet false d1.snag.cause 675 then d1
  else (d1.raiseCause .s 675).twinEvent 8

/-- Channels whose decisions for frame `k` agree (condition 5 of Table 01.6), with the counts of R499: none where no pair decides together. -/
def Dev.agreement (d : Dev) (k : Nat) : Option Nat × Dev :=
  if !d.joint then (none, d)
  else
    match d.twin.own.find? (fun a => a.frame == k) with
    | none => (some 0, d)
    | some a =>
      match d.twin.peer.find? (fun p => p.frame == k) with
      | none =>
        let d1 := (d.count TWN.AGREE_MISSING 1).disagreeFilter true
        (some 0, { d1 with twin := { d1.twin with inStep := 0 } }.twinRefresh)
      | some p =>
        if a.bitmap != p.bitmap then (some (Nat.land a.bitmap p.bitmap), (d.count TWN.AGREE_DIFFER 1).disagreeFilter true)
        else (some a.bitmap, (if a.digest != p.digest then d.raise .s 676 else d).disagreeFilter false)

end Sys2Proof.Machine
end

