-- ==== Sys2Proof/Machine/Release.lean ====
section
/-!
DEFINITION. The sample tick and the release point: emission of every output channel, the decision of each HOLD channel's frame (Table 01.6, R302),
the return of PASS channels (R45, R311), and the return of a RETIRING watch to IDLE (Table 02.9).
-/

namespace Sys2Proof.Machine



/-! PASS channels (R45, R311). -/

/-- Channel `c` must stay in substitution: a watch holds it, LATCH holds it, or the safe state does. -/
def Dev.passHeld (d : Dev) (c : Nat) : Bool :=
  d.unsafe4 || d.latched c || d.watch.watches.any (fun e => e.2.holds.isSome && d.wdBinds e.1 c)

/-- PASS channels that nothing holds go back to pass-through. -/
def Dev.passReturn (d : Dev) : Dev :=
  (d.enabledOuts.filter (fun c => d.isPass c && (d.out c).content == .subst)).foldl (fun d c =>
    if d.passHeld c then d else d.putOut c { d.out c with content := .pass, hard := false, cut := false }) d

/-- Watches whose releasing verdict is final, and watches that returned to IDLE, stop holding their channels. -/
def Dev.dropHolds (d : Dev) : Dev :=
  (d.watch.watches.filter (fun e => e.2.release)).foldl (fun d e => d.putWatch e.1 { d.watchOf e.1 with holds := none, release := false }) d

/-- A translation context opens or closes (R229): firmware rewrites its record with OPEN changed. -/
def Dev.setContext (d : Dev) (ctx : Nat) (open_ : Bool) : Dev := d.store [⟨ctxRecord ctx + 6, if open_ then 1 else 0, .sound⟩]

/-- The watch returns to IDLE and its translation context is closed (Table 02.9). -/
def Dev.goIdle (d : Dev) (w : Nat) : Dev :=
  let lin := d.wdKind w == 0
  let d1 := (d.toIdle w).setContext (watchCtx w) false
  if lin then d1.updateMinMs else d1

/-! The sample tick. -/

/-- The outputs of one sample tick. -/
def Dev.emit (d : Dev) (bad : List Nat) : Dev :=
  let t := d.gate.tick
  let (d1, good) := d.enabledOuts.foldl (Dev.emitOne t bad) (d, [])
  ((List.range 6).foldl (Dev.pinsOf good) d1).talk t good

/-- The next sample tick begins; while the tick unit is stopped no index passes and the samples taken in are gone. -/
def Dev.nextTick (d : Dev) : Dev :=
  if d.ticking then { d with gate := { d.gate with tick := d.gate.tick + 1 } }
  else { d with gate := { d.gate with inputs := [] } }

/-- SAMPLE_TICK (R28, R302, R310, R494): ownership at the sample points of REF_PORT, then one sample of every output channel. `ownIn` is the level of
TWN_OWN_IN at bit 32; `bad` are channels whose reference or chime word reads with an uncorrected error. -/
def Dev.sampleTick (d : Dev) (ownIn : Bool) (bad : List Nat) : Dev :=
  if d.ladder.coreLost then d
  else
    let d1 := d.twinTick ownIn
    let d2 := if d1.running then d1 else d1.dropHolds.passReturn
    (d2.emit bad).nextTick

def execSampleTick (ownIn : Bool) (bad : List Nat) (s : State) : Host.Outcome State Fault Refusal :=
  run s fun _ d => d.sampleTick ownIn bad

/-! The release point. -/

/-- The frame that the next release point decides. -/
def Dev.nextRp (d : Dev) : Nat := match d.gate.lastRp with | none => 0 | some r => frameAdd r 1

/-- RP(k) of the next frame has come: B(k + 2) has passed, and M sample ticks after it (R30). -/
def Dev.rpDue (d : Dev) : Bool := d.rpPast d.nextRp

/-- Channel `c` takes its decision for frame `k`. -/
def Dev.decide (k : Nat) (bad : List Nat) (agreed : Option Nat) (d : Dev) (c : Nat) : Dev :=
  let ok := d.meets k bad c && (match agreed with | none => true | some b => bit b c)
  let inj := d.sgtArmed 1 && d.fld SGT.INJ_CHANNEL == c
  let ecc := bad.contains c || d.bufferBad c k
  let d1 := d.putOut c { d.out c with content := if ok then .frame k else .subst }
  let d2 := if inj then d1.flag SGT.INJ_ARM false else d1
  if ecc then d2.raise .s 390 else d2

/-- A RETIRING watch whose last frame is `k` or earlier goes to IDLE once that frame's evaluation is final (Table 02.9). -/
def Dev.retireAtRp (k : Nat) (d : Dev) (w : Nat) : Dev :=
  let x := d.watchOf w
  match x.retireAt with
  | none => d
  | some r =>
    let last := frameAdd r 4294967295
    if x.state != .retiring || framePrecedes k last then d
    else if x.ring.any (fun j => j.frame == last && !j.final) then d.putWatch w { x with rpPassed := true }
    else d.goIdle w

/-- Verdicts of frames before `k` and buffer marks of frames up to `k` are used up. -/
def Dev.pruneRp (d : Dev) (k : Nat) : Dev :=
  let ws := d.watch.watches.map (fun e => (e.1, { e.2 with verdicts := e.2.verdicts.filter (fun v => v.1 == k || framePrecedes k v.1) }))
  let marks := d.gate.badEcc.filter (fun e => d.frameStart k + d.len ≤ e.1 / 128)
  { d with watch := { d.watch with watches := ws }, gate := { d.gate with badEcc := marks, lastRp := some k } }

/-- RELEASE_POINT (R302): the gate decides the next frame of every HOLD channel. `bad` are channels whose gate buffer reads with an uncorrected
error. -/
def Dev.releasePoint (d : Dev) (bad : List Nat) : Dev :=
  if !d.rpDue then d
  else
    let k := d.nextRp
    let (agreed, d1) := d.agreement k
    let d2 := d1.holdChannels.foldl (Dev.decide k bad agreed) d1
    let d3 := d2.activeWatches.foldl (Dev.retireAtRp k) d2
    d3.pruneRp k

def execReleasePoint (bad : List Nat) (s : State) : Host.Outcome State Fault Refusal := run s fun _ d => d.releasePoint bad

end Sys2Proof.Machine
end

