-- ==== Sys2Proof/Machine/Watches.lean ====
section
/-!
DEFINITION. Evaluations (R56 to R66, R70, R71): what a job gave at E(k), its verdict, the records and the filter; PASS verdicts (R45); the staged arm
list (R48), descriptor writes (R51) and WCH_INJ.
-/

namespace Sys2Proof.Machine

/-! What an evaluation has. -/

/-- Records of a job that have arrived: those its checker holds and those that still wait in the link's buffer. -/
def Dev.arrivedRecs (d : Dev) (w k : Nat) : List Rec :=
  let l := d.link (d.wdPort w)
  (d.jobIn w k).recs ++ ((l.deliver.filter (fun r => r.watch == w && r.frame == k)).map (fun r => ⟨r.slot, r.offset, r.payload, true⟩))

/-- Declared input is missing (R59, ABSENT). -/
def Dev.inputMissing (d : Dev) (w k : Nat) (j : Job) : Bool :=
  let recs := d.arrivedRecs w k
  match d.wdKind w with
  | 0 =>
    let some1 := d.linkSample (d.wdPort w)
    (List.range j.declared).any (fun c =>
      if some1 && !j.sample.contains c then
        ((d.columnNeeds w c).filter (fun n => n.1 != 1)).any (fun n => !hasRange recs n.1 n.2)
      else !d.columnHere w c recs)
  | 1 =>
    let v := d.nlsV w
    let (ins, slot) := match d.nlsShare w with
      | some z => (d.arrivedRecs z k, 1)
      | none => (recs, 0)
    !hasRange recs 1 (elemRange (d.nlsOut w) 0 j.declared) || !hasRange ins slot (elemRange (d.nlsIn w) 0 (j.declared / v * v))
  | 7 => !hasRange recs 1 (elemRange (d.slotFmt w 1) 0 j.declared)
  | 8 => (d.jobIn w k).arrivals < j.declared
  | 6 =>
    let lo := d.frameStart k
    j.incomplete || (d.watchInputs w).any (fun c => (List.range d.len).any (fun i => (d.sampleAt c ((lo + i : Nat) : Int)).isNone))
      || (d.shdType w = 1 && d.stageIncompleteCmp (d.shdWatch w) k)
  | _ => j.incomplete || (j.status != 2 && (d.signalResult w k).2.2)

/-- Units that arrived, that completed their check in the attempt that counts, and whether one failed, with its DETAIL. -/
def Dev.unitsOf (d : Dev) (w k : Nat) (j : Job) : Nat × Nat × Bool × Nat :=
  if d.wdKind w = 8 then
    let x := d.jobIn w k
    match x.fail with
    | none => (x.arrivals, x.arrivals, false, 0)
    | some (c, n) => (x.arrivals, x.arrivals, true, c * 16777216 + min 65535 n)
  else (j.arrived, j.checked, j.failed, j.detail)

/-- The evaluation's verdict code and COV (R59, R61, R63); no job posted is ABSENT, and the loss of the X-die, or HBM
that is not trained, stops every check (R248). -/
def Dev.verdict (d : Dev) (w k : Nat) (j : Job) : Nat × Nat :=
  let (arrived, c, failed, _) := d.unitsOf w k j
  let cov := c * 32768 / max 1 j.declared
  let done := j.status == 2 || d.wdKind w == 8
  if j.declared < arrived then (6, 0)
  else
    (if failed then 1
      else if !j.posted || d.inputMissing w k j || (!done && !d.reach .x) || !d.on MEM.HBM_STAT_TRAINED then 4
      else if j.ended || (0 < j.restarts && !done) then 5
      else if !done then 2
      else if cov < d.wdMinCov w then 3
      else 0, cov)

/-- The DETAIL word of the evaluation's record (R92, R143). -/
def Dev.detailOf (d : Dev) (w k : Nat) (j : Job) (code : Nat) : Nat :=
  let (_, c, _, detail) := d.unitsOf w k j
  if code = 1 then detail
  else (if d.wdKind w = 0 && (d.jobTable w j).status ≠ 2 then 5 * 16777216 else 0) + min 65535 c

/-- A verdict log record (Table 02.11). -/
def Dev.verdictRecord (d : Dev) (w k code : Nat) (inj late : Bool) (cov detail : Nat) : Dev :=
  d.logRec .verdict [k, w + 4096 * d.wdKind w + 65536 * (code + 16 * b2n inj + 32 * b2n late) + 16777216 * d.wdGroup w,
    cov + 65536 * (d.watchOf w).planCov, detail]

/-! PASS watches (R45). -/

/-- A failing verdict of a PASS watch for frame `k` switches every bound channel; a passing one for a late enough frame releases them. -/
def Dev.passVerdict (d : Dev) (w k code : Nat) : Dev :=
  let x := d.watchOf w
  if code = 0 then
    match x.holds with
    | some f => if framePrecedes k f then d else d.putWatch w { x with release := true }
    | none => d
  else
    let later := match x.holds with | none => k | some f => if framePrecedes f k then k else f
    (d.wdChans w).foldl (fun d c => d.putOut c { d.out c with content := .subst }) (d.putWatch w { x with holds := some later, release := false })

/-! The end of a frame's evaluations (R65, R377). -/

/-- Some evaluation of frame `k` is still to come. -/
def Dev.evalsOpen (d : Dev) (k : Nat) : Bool :=
  d.activeWatches.any (fun w => (d.watchOf w).state.checks && (d.watchOf w).ring.any (fun j => j.frame == k && !j.final))

/-- Watch, code and COV of every final evaluation of frame `k`, in WATCH_ID order. -/
def Dev.evalsOf (d : Dev) (k : Nat) : List (Nat × Nat × Nat) :=
  d.watch.watches.filterMap (fun e => (e.2.verdicts.find? (fun v => v.1 == k)).map (fun v => (e.1, v.2)))

/-- VERDICT_EVENT of a frame to one session (R377). -/
def Dev.verdictEvent (k : Nat) (evs : List (Nat × Nat × Nat)) (low : Nat) (d : Dev) (sess : Nat) : Dev :=
  match d.session sess with
  | none => d
  | some x =>
    match evs.filter (fun e => e.2.1 != 0) with
    | [] => d
    | e :: es =>
      if bit x.mask 1 then
        d.event sess 63 (beBytes 4 k ++ beBytes 2 (min 65535 (es.length + 1)) ++ beBytes 2 low ++ beBytes 2 e.1 ++ beBytes 1 e.2.1 ++ [0])
      else d

/-- WCH_COV_FRAME and WCH_COV_LOW, once the last evaluation of a frame is final (R65). -/
def Dev.frameReport (d : Dev) (k : Nat) : Dev :=
  let evs := d.evalsOf k
  if evs == [] || d.evalsOpen k then d
  else
    let low := evs.foldl (fun a e => if e.2.2 < a.2 then (e.1, e.2.2) else a) (0, 65536)
    let d1 := ((d.put WCH.COV_FRAME_FRAME_NO k).put WCH.COV_LOW_COV low.2).put WCH.COV_LOW_WATCH_ID low.1
    sessionNumbers.foldl (Dev.verdictEvent k evs low.2) d1

/-! EVALUATION_FINAL. -/

/-- What the device-written area records of a final evaluation (Table 02.6). -/
def Watch.record (x : Watch) (k code cov : Nat) (inj : Bool) : Watch :=
  { x with lastFrame := k, lastCov := cov, lastVerdict := code, lastInjected := inj,
           totalFail := if code = 0 then x.totalFail else satAdd 4294967295 x.totalFail 1,
           totalEval := satAdd 4294967295 x.totalEval 1,
           covLow := if x.totalEval = 0 then cov else min x.covLow cov,
           verdicts := x.verdicts ++ [(k, code, cov)] }

/-- The job leaves its ring, or stays for a late result where its result is not final (R56, R57). -/
def Dev.closeJob (d : Dev) (w : Nat) (j : Job) : Dev :=
  let x := d.watchOf w
  let late := j.posted && j.status != 2 && d.wdKind w != 8
  let ring := if late then x.ring.map (fun i => if i.frame = j.frame then { i with final := true } else i)
    else x.ring.filter (fun i => i.frame != j.frame)
  let d1 := d.putWatch w { x with ring := ring }
  let d2 := (if late then d1.dropOps (.job w j.frame) else d1).closeStage (.job w j.frame)
  if d2.wdKind w = 7 then { d2 with plan := { d2.plan with stencils := tabUpd none d2.plan.stencils w (fun i =>
    i.filter (fun i => i.tick != frameAdd j.frame 1)) } } else d2

/-- WCH_INJ forces the next evaluation of watch `w` (R70). -/
def Dev.forced (d : Dev) (w : Nat) : Bool := d.on WCH.INJ_ARM && d.fld WCH.INJ_WATCH_ID == w

/-- The evaluation of frame `k` of watch `w`, whose job is `j`, becomes final (R56 to R71). -/
def Dev.evaluate (d : Dev) (w k : Nat) (j : Job) : Dev :=
  let (computed, cov) := d.verdict w k j
  let inj := d.forced w
  let code := if inj then d.fld WCH.INJ_CODE else computed
  let detail := d.detailOf w k j code
  let d1 := if inj then d.flag WCH.INJ_ARM false else d
  let d2 := if code = 5 then d1.count TCK.RESTART_ABORTS 1 else d1
  let d3 := (d2.putWatch w ((d2.watchOf w).record k code cov inj)).closeJob w j
  let thin := d3.on WCH.LOG_CTRL_LOG_THIN && cov < (d3.watchOf w).planCov
  let d4 := if code != 0 || thin then d3.verdictRecord w k code inj false cov detail else d3
  let d5 := d4.filterAdvance w k code
  let d6 := if d5.wdPass w then d5.passVerdict w k code else d5
  (d6.frameReport k).freeFormer

/-- EVALUATION_FINAL (R56): E(k) has come, with the liveness limit of a SEQ watch where that is not later (R141). A RETIRING watch whose last
release point has passed returns to IDLE. -/
def Dev.evaluationFinal (d : Dev) (w k : Nat) : Dev :=
  match d.jobOf w k with
  | none => d
  | some j =>
    let x := d.watchOf w
    if !x.state.checks || j.final || !d.evalPast w k then d
    else
      let d1 := ((d.livenessLimit w k).evaluate w k j).planCheckins
      let y := d1.watchOf w
      let last := match y.retireAt with | some r => frameAdd k 1 == r | none => false
      if y.state == .retiring && y.rpPassed && last then d1.goIdle w else d1

def execEvaluationFinal (watch frame : Nat) (s : State) : Host.Outcome State Fault Refusal :=
  run s fun _ d => d.evaluationFinal watch frame

/-- LATE_RESULT (R56, R71): a result that comes at E(k) or later is logged, flagged, and releases nothing. -/
def Dev.lateResult (d : Dev) (w k code detail : Nat) : Dev :=
  match d.jobOf w k with
  | none => d
  | some j =>
    if !j.final || 6 < code then d
    else
      let x := d.watchOf w
      let cov := match d.verdictOf w k with | some (_, c) => c | none => x.lastCov
      (d.putWatch w { x with ring := x.ring.filter (fun i => i.frame != k) }).verdictRecord w k code false true cov detail

def execLateResult (watch frame code detail : Nat) (s : State) : Host.Outcome State Fault Refusal :=
  run s fun _ d => d.lateResult watch frame code detail

/-! The staged arm list (R48). -/

/-- The staged list and its count. -/
def Dev.putArms (d : Dev) (l : List ArmEntry) : Dev :=
  { d with watch := { d.watch with staged := l } }.put WCH.ARM_COUNT_ENTRIES l.length

/-- A write of WCH_ARM_OP (Table 02.15). -/
def Dev.armOpWrite (d : Dev) (v : Nat) : Dev :=
  let op := bitsAt v 31 30
  if op = 0 || op = 3 then (d.flag WCH.ARM_STATUS_BAD_OP true).answer .discarded
  else if 256 ≤ d.watch.staged.length then (d.flag WCH.ARM_STATUS_LIST_FULL true).answer .discarded
  else (d.putArms (d.watch.staged ++ [⟨op == 1, v % 4096⟩])).answer .done

def execArmEntryAppend (watch : Nat) (s : State) : Host.Outcome State Fault Refusal :=
  run s fun _ d => d.armOpWrite (1073741824 + watch % 4096)

def execRetireEntryAppend (watch : Nat) (s : State) : Host.Outcome State Fault Refusal :=
  run s fun _ d => d.armOpWrite (2147483648 + watch % 4096)

/-- A write of WCH_ARM_CLEAR. -/
def Dev.armClearWrite (d : Dev) (v : Nat) : Dev := (if bit v 0 then d.putArms [] else d).answer .done

def execArmListClear (value : Nat) (s : State) : Host.Outcome State Fault Refusal := run s fun _ d => d.armClearWrite value

/-! Descriptors (R40, R51). -/

/-- An ARM entry for the watch waits in a capture (R51). -/
def Dev.captured (d : Dev) (w : Nat) : Bool :=
  match d.capture with
  | none => false
  | some c => c.arms.any (fun e => e.arm && e.watch == w)

/-- Host bytes of the watch may be written. -/
def Dev.descOpen (d : Dev) (w : Nat) : Bool := (d.watchOf w).state == .idle && !d.captured w

/-- A host write of word `i` of the descriptor of watch `w`. -/
def Dev.descWrite (d : Dev) (w i v : Nat) : Dev :=
  if 48 ≤ i then d.answer .done
  else if d.descOpen w then
    { d with watch := { d.watch with desc := tabSet 0 d.watch.desc (64 * w + i) (v % 4294967296) } }.answer .done
  else (d.raise .s 0).answer .discarded

def execDescriptorWrite (watch word value : Nat) (s : State) : Host.Outcome State Fault Refusal :=
  run s fun _ d => if watch < 4096 && word < 64 then d.descWrite watch word value else d

/-- A write of WCH_INJ (R70, Table 02.21). -/
def Dev.wchInjWrite (d : Dev) (v : Nat) : Dev :=
  let code := bitsAt v 19 16
  if injTaken (d.on WCH.INJ_ARM) v (code ≤ 6) then
    (((d.flag WCH.INJ_ARM (bit v 31)).put WCH.INJ_CODE code).put WCH.INJ_WATCH_ID (v % 4096)).answer .done
  else d.answer .discarded

def execWchInj (value : Nat) (s : State) : Host.Outcome State Fault Refusal := run s fun _ d => d.wchInjWrite value

end Sys2Proof.Machine
end

