-- ==== Sys2Proof/Machine/Health.lean ====
section
/-!
DEFINITION. Hairline monitors, temperature and voltage sensors, the margin loop, the rotating self-test and the spare engines
(15 R475 to R488, R503).
-/

namespace Sys2Proof.Machine

/-! Sensors (R475 to R477). -/

/-- The block is active while MARGIN_EN is 1 or the tick unit runs (R503). -/
def Dev.hlnOn (d : Dev) : Bool := d.on HLN.CTRL_MARGIN_EN || d.running

/-- HLN_INJ is armed in a mode. -/
def Dev.hlnArmed (d : Dev) (mode : Nat) : Bool := d.on HLN.INJ_ARM && d.fld HLN.INJ_MODE == mode

/-- Die of a hairline monitor (Table 15.1). -/
def slackDie (m : Nat) : Die := if m < 24 then .c0 else if m < 48 then .c1 else if m < 56 then .x else .s

/-- Monitors that the margin loop follows. -/
def loopMonitor (m : Nat) : Bool := m < 20 || (24 ≤ m && m < 44)

/-- The monitors of the loop on dies that report. -/
def Dev.loopMonitors (d : Dev) : List Nat := (List.range 64).filter (fun m => loopMonitor m && d.reach (slackDie m))

/-- The worst slack of the loop's monitors and the monitor that holds it. -/
def Dev.worst (d : Dev) : Nat × Nat :=
  d.loopMonitors.foldl (fun a m => let v := d.fld (HLN.SLACK_NOW m); if v < a.1 then (v, m) else a) (256, 0)

/-- The grade limit T_G in quarters of a degree (R476). -/
def Dev.tempLimit (d : Dev) : Int := if d.fld PWR.INFO_GRADE = 0 then 500 else 440

/-- T_G − WARN_OFF. -/
def Dev.tempWarn (d : Dev) : Int := d.tempLimit - 4 * (d.fld HLN.TEMP_CFG_WARN_OFF : Int)

/-- A temperature in quarters of a degree. -/
def Dev.temp (d : Dev) (i : Nat) : Int := signedOf 16 (d.fld (HLN.TEMP_TEMP i))

/-- A temperature sensor has reported. -/
def Dev.tempKnown (d : Dev) (i : Nat) : Bool := bit d.health.tempSeen i

/-- The highest C-die temperature; none before a sensor has reported. -/
def Dev.hotC (d : Dev) : Option Int :=
  (List.range 10).foldl (fun a i =>
    if d.tempKnown i && d.reach (if i < 5 then .c0 else .c1) then
      match a with
      | none => some (d.temp i)
      | some t => some (max t (d.temp i))
    else a) none

/-- The conditions of the last two rows of Table 15.2, but for their time. -/
def Dev.calm (d : Dev) : Bool :=
  let w := d.worst.1
  w < 256 && d.fld HLN.MARGIN_SLACK_HIGH < w &&
    (match d.hotC with
     | none => false
     | some t => t < d.tempWarn - 20)

/-- Keep the cycle from which those conditions have held. -/
def Dev.calmStep (d : Dev) : Dev :=
  let c := if d.calm then some (d.health.calmFrom.getD d.now) else none
  { d with health := { d.health with calmFrom := c } }

/-- Causes that follow the slacks (Table 15.10). -/
def Dev.slackCauses (d : Dev) : Dev :=
  let crit := (List.range 64).any (fun m => d.reach (slackDie m) && d.fld (HLN.SLACK_NOW m) < d.fld HLN.MARGIN_SLACK_CRIT)
  let floor := d.fld HLN.FREQ_CUR_MHZ ≤ d.fld HLN.FREQ_MIN_MHZ && d.worst.1 < d.fld HLN.MARGIN_SLACK_LOW
  (d.cause 577 crit).cause 578 floor

/-- One monitor's report. The X-die, the S-die and the C_SVC monitors raise HLN_SLACK_CRIT themselves (R480). -/
def Dev.slackIn (d : Dev) (m v : Nat) : Dev :=
  if !d.reach (slackDie m) then d
  else
    let inj := d.hlnArmed 2 && d.fld HLN.INJ_TARGET % 64 == m
    let x := if inj then 0 else v
    let d1 := if inj then d.flag HLN.INJ_ARM false else d
    let d2 := (d1.put (HLN.SLACK_NOW m) x).put (HLN.SLACK_MIN m) (min x (d.fld (HLN.SLACK_MIN m)))
    if !loopMonitor m && x < d.fld HLN.MARGIN_SLACK_CRIT then d2.raiseInj (slackDie m) 577 m inj else d2

/-- HAIRLINE_SAMPLE (R475): the slacks that the 64 monitors report. -/
def Dev.hairline (d : Dev) (slacks : List Nat) : Dev :=
  let d1 := (List.range 64).foldl (fun d m => d.slackIn m (min 255 (slacks.getD m 255))) d
  let (w, m) := d1.worst
  let d2 := if w < 256 then (d1.put HLN.STAT_WORST w).put HLN.STAT_WORST_MON m else d1
  d2.calmStep.slackCauses

def execHairlineSample (slacks : List Nat) (s : State) : Host.Outcome State Fault Refusal :=
  run s fun _ d => if d.hlnOn then d.hairline slacks else d

/-- Die of a temperature sensor; the stack's own sensor reports through the X-die. -/
def tempDie (i : Nat) : Die := if i < 5 then .c0 else if i < 10 then .c1 else if i < 13 then .x else if i < 15 then .s else .x

/-- Sensors of the die of a sensor (Table 15.1). -/
def tempGroup (i : Nat) : List Nat :=
  if i < 5 then [0, 1, 2, 3, 4] else if i < 10 then [5, 6, 7, 8, 9] else if i < 13 then [10, 11, 12]
  else if i < 15 then [13, 14] else [15]

/-- Two sensors of the die of sensor `i` differ by more than 15 °C. -/
def Dev.tempSpread (d : Dev) (i : Nat) : Bool :=
  let g := (tempGroup i).filter d.tempKnown
  g.any (fun a => g.any (fun b => d.temp a + 60 < d.temp b))

/-- TEMPERATURE_SAMPLE (R476). -/
def Dev.temperature (d : Dev) (i v : Nat) : Dev :=
  let seen := if d.tempKnown i then d.health.tempSeen else d.health.tempSeen + 2 ^ i
  let d1 := ({ d with health := { d.health with tempSeen := seen } }).put (HLN.TEMP_TEMP i) v
  let any (p : Nat → Bool) : Bool := (List.range 16).any (fun j => d1.tempKnown j && p j)
  let d2 := ((d1.cause 580 (any (fun j => d1.tempWarn < d1.temp j))).cause 581 (any (fun j => d1.tempLimit < d1.temp j))).cause
    582 (any d1.tempSpread)
  let d3 := if d1.tempWarn < d1.temp i then d2.raise (tempDie i) 580 else d2
  let d4 := if d1.tempLimit < d1.temp i then d3.raise (tempDie i) 581 else d3
  (if d1.tempSpread i then d4.raise (tempDie i) 582 else d4).calmStep

def execTemperatureSample (sensor value : Nat) (s : State) : Host.Outcome State Fault Refusal :=
  run s fun _ d => if sensor < 16 && d.hlnOn && d.reach (tempDie sensor) then d.temperature sensor value else d

/-- Commanded voltage of a C-die rail in mV (R509). -/
def Dev.rail (d : Dev) (r : Nat) : Nat := tabGet 800 d.health.volt r

/-- Nominal of the rail that a monitor watches (Table 16.3). -/
def Dev.railNominal (d : Dev) (v : Nat) : Nat :=
  match v with
  | 0 => d.rail 0
  | 3 => d.rail 1
  | 1 | 4 | 7 => 850
  | 2 | 5 | 10 => 1200
  | 6 | 9 => 800
  | 8 => 1100
  | _ => 1800

/-- A reading differs from its nominal by more than a number of percent. -/
def outsidePct (mv nominal pct : Nat) : Bool := nominal * pct < 100 * (mv - nominal + (nominal - mv))

/-- Die of a voltage monitor. -/
def voltDie (v : Nat) : Die := if v < 3 then .c0 else if v < 6 then .c1 else if v < 9 then .x else .s

/-- VOLTAGE_SAMPLE (R477): `lasting` where the monitor has been outside ±6 % for 1 µs. -/
def Dev.voltage (d : Dev) (v mv : Nat) (lasting : Bool) : Dev :=
  let n := d.railNominal v
  let d1 := ((d.put (HLN.VMON_MV v) mv).flag (HLN.VMON_WARN v) (outsidePct mv n 3)).flag (HLN.VMON_FAIL v) (outsidePct mv n 6)
  let d2 := (d1.cause 583 ((List.range 12).any (fun j => d1.on (HLN.VMON_WARN j)))).cause 584
    ((List.range 12).any (fun j => d1.on (HLN.VMON_FAIL j)))
  let d3 := if outsidePct mv n 3 then d2.raise (voltDie v) 583 else d2
  if outsidePct mv n 6 && lasting then d3.raise (voltDie v) 584 else d3

def execVoltageSample (monitor mv : Nat) (lasting : Bool) (s : State) : Host.Outcome State Fault Refusal :=
  run s fun _ d => if monitor < 12 && d.hlnOn && d.reach (voltDie monitor) then d.voltage monitor mv lasting else d

/-! The margin loop (R478 to R480). -/

/-- C_ARITH changes its frequency (R480). -/
def Dev.setFreq (d : Dev) (mhz : Nat) : Dev := ((d.put HLN.FREQ_CUR_MHZ mhz).raise .s 576).slackCauses

/-- Decide a step of C_ARITH that applies in `n` boundaries; at once while the tick unit is stopped. One step waits at a time. -/
def Dev.freqStep (d : Dev) (mhz n : Nat) : Dev :=
  if !d.running then (d.setFreq mhz).replan
  else
    match d.health.step with
    | some (m, k) => if n < k then { d with health := { d.health with step := some (m, n) } } else d
    | none =>
      let d1 := { d with health := { d.health with step := some (mhz, n) } }
      if n = 2 then d1.replan else d1

/-- A tick boundary counts towards the step that waits, and applies it; the plan for the frequency follows, unless it applies with it. -/
def Dev.freqBoundary (d : Dev) : Dev :=
  match d.health.step with
  | none => d
  | some (mhz, k) =>
    if 1 < k then { d with health := { d.health with step := some (mhz, k - 1) } }
    else
      let d1 := ({ d with health := { d.health with step := none } }).setFreq mhz
      match d.plan.replanIn with
      | some 1 => d1
      | _ => d1.replan

/-- A regulator serves a C-die rail. -/
def Dev.regulated (d : Dev) (r : Nat) : Bool :=
  (List.range 4).any (fun i => d.on (HLN.PMB_EN i) && d.fld (HLN.PMB_DIE i) == r)

/-- Command a rail voltage, where a regulator serves the rail and no command is under way. -/
def Dev.railStep (d : Dev) (r mv : Nat) : Dev :=
  if d.regulated r && d.health.command.isNone && mv != d.rail r then { d with health := { d.health with command := some (r, mv) } } else d

/-- Voltage steps are suspended under R478. -/
def Dev.railsHeld (d : Dev) : Bool := tabGet false d.snag.cause 579

/-- MARGIN_LOOP: the first action of Table 15.2 that applies. -/
def Dev.marginLoop (d : Dev) : Dev :=
  let (w, m) := d.worst
  let cur := d.fld HLN.FREQ_CUR_MHZ
  let atMin := cur ≤ d.fld HLN.FREQ_MIN_MHZ
  let vmax := d.fld HLN.VOLT_VMAX
  let vmin := d.fld HLN.VOLT_VMIN
  let hot := match d.hotC with
    | none => false
    | some t => d.tempWarn < t
  let long := match d.health.calmFrom with
    | none => false
    | some c => c + sCycles 10 ≤ d.now
  if w < d.fld HLN.MARGIN_SLACK_CRIT then
    let d1 := d.raise (slackDie m) 577
    if atMin then (d1.raise .s 578).slackCauses else d1.freqStep (cur - 25) 1
  else if w < d.fld HLN.MARGIN_SLACK_LOW || hot then
    if d.rail 0 < vmax && d.rail 1 < vmax && !d.railsHeld then
      let r := if m < 24 then 0 else 1
      d.railStep r (min vmax (d.rail r + d.fld HLN.CTRL_VSTEP))
    else if atMin then (d.raise .s 578).slackCauses
    else d.freqStep (cur - 25) 2
  else if d.calm && long then
    if cur < 1050 then d.freqStep (cur + 25) 1
    else if d.railsHeld then d
    else if vmin < d.rail 0 then d.railStep 0 (max vmin (d.rail 0 - d.fld HLN.CTRL_VSTEP))
    else if vmin < d.rail 1 then d.railStep 1 (max vmin (d.rail 1 - d.fld HLN.CTRL_VSTEP))
    else d
  else d

/-- MARGIN_LOOP (R479). -/
def execMarginLoop (s : State) : Host.Outcome State Fault Refusal :=
  run s fun _ d => if d.on HLN.CTRL_MARGIN_EN then d.calmStep.marginLoop else d

/-- A PMBus transaction ends (R478): VOUT_COMMAND and its read-back in mV where a command is under way, else a read of VOUT_MODE. -/
def Dev.pmbusDone (d : Dev) (ack : Bool) (readback : Nat) : Dev :=
  match d.health.command with
  | none => if ack then d.cause 579 false else d.raiseCause .s 579
  | some (r, mv) =>
    let d1 := { d with health := { d.health with command := none } }
    if !ack then d1.raiseCause .s 579
    else
      let inj := d.hlnArmed 3
      let d2 := { d1 with health := { d1.health with volt := tabSet 800 d1.health.volt r mv } }
      let d3 := if d2.rail (1 - r) ≤ d2.rail r then d2.put HLN.STAT_VOUT readback else d2
      if inj then ((d3.flag HLN.INJ_ARM false).raiseInj .s 579 0 true).cause 579 true
      else if 2 * d.fld HLN.CTRL_VSTEP < readback - mv + (mv - readback) then d3.raiseCause .s 579
      else d3.cause 579 false

/-- PMBUS_TRANSACTION_DONE (R478). -/
def execPmbusTransactionDone (ack : Bool) (readback : Nat) (s : State) : Host.Outcome State Fault Refusal :=
  run s fun _ d => d.pmbusDone ack readback

/-! The rotating self-test (R481 to R484). -/

/-- Slots of a rotation (Table 15.3). -/
def rotationSlots : Nat := 2294

/-- The slot of the running tick is an engine segment whose operation has issued, or a segment that needs no array time. -/
def Dev.slotRan (d : Dev) : Bool :=
  d.health.slotDue && d.arr.plan.all (fun o => match o.owner with
    | .selfTest _ => false
    | _ => true)

/-- The slot's operation leaves the array. -/
def Dev.slotOff (d : Dev) : Dev :=
  match d.arr.running with
  | some (q, o) => if o.owner = .selfTest (d.fld HLN.ST_STAT_POS) then (d.charge q o (o.clk - o.charged)).stopRunning else d
  | none => d

/-- The rotation advances by one slot. -/
def Dev.slotNext (d : Dev) : Dev :=
  let pos := d.fld HLN.ST_STAT_POS + 1
  let d1 := { d with health := { d.health with slotDue := false } }
  if pos < rotationSlots then d1.put HLN.ST_STAT_POS pos
  else
    let d2 := (d1.put HLN.ST_STAT_POS 0).count HLN.ST_STAT_ROTATIONS 1
    { d2 with health := { d2.health with rotationTicks := 0 } }

/-- The SRAM that a slot reads: its die, the MEMORY and UNIT codes of Table 07.12, and the master that reads it. -/
def slotMemory (pos : Nat) : Die × Nat × Nat × Nat :=
  if pos < 1600 then let c := (pos - 1280) / 16; (if c < 10 then .c0 else .c1, 0, c, 10 + c / 5)
  else if pos < 2112 then let c := (pos - 1600) / 128; (clusterDie c, 1, c, 10 + c)
  else if pos < 2144 then let c := (pos - 2112) / 8; (clusterDie c, 3, c, 14 + c)
  else if pos < 2256 then (.s, 2, 0, 1)
  else (.s, 4, 0, 1)

/-- What the slot of the running tick found: `ok` and, for a pair slice, `chkOk`; the address of an uncorrectable word. -/
def Dev.segmentDone (d : Dev) (ok chkOk : Bool) (addr : Nat) : Dev :=
  let pos := d.fld HLN.ST_STAT_POS
  if pos < 1280 then
    let e := pos / 64
    let inj := d.hlnArmed 1 && d.fld HLN.INJ_TARGET == e
    let d1 := (if inj then d.flag HLN.INJ_ARM false else d).slotOff
    (if !ok || inj then d1.suspectEngine e else d1).slotNext
  else if pos < 2284 then
    if ok then d.slotNext
    else
      let (die, memory, unit, mid) := slotMemory pos
      ((d.sramUe die memory unit mid addr).raise die 585).slotNext
  else
    let p := pos - 2284
    (if (ok && chkOk) || d.pairState p != 0 then d else d.sliceDone p ok chkOk).slotNext

/-- SELFTEST_SEGMENT_DONE (R484). -/
def execSelftestSegmentDone (ok chkOk : Bool) (addr : Nat) (s : State) : Host.Outcome State Fault Refusal :=
  run s fun _ d => if d.slotRan then d.segmentDone ok chkOk addr else d

/-- A tick boundary gives the rotation its slot (R481, R482): none in a tick with a forced stencil; a slot that has not issued waits on. -/
def Dev.slotBoundary (d : Dev) (forced : Bool) : Dev :=
  if !d.on HLN.ST_CTRL_EN then d
  else
    let t := d.health.rotationTicks + 1
    let pos := d.fld HLN.ST_STAT_POS
    let d1 := { d with health := { d.health with rotationTicks := t } }
    let d2 := if t = 2 * rotationSlots + 1 then d1.raise .s 586 else d1
    let busy : Bool := match d2.arr.running with
      | some (_, o) => o.owner == OpOwner.selfTest pos
      | none => false
    let plan := d2.arr.plan.filter (fun o => match o.owner with
      | .selfTest _ => false
      | _ => true)
    if busy then d2
    else if forced then { d2 with arr := { d2.arr with plan := plan }, health := { d2.health with slotDue := false } }
    else
      let op := markLast [ArrOp.mk1 (.selfTest pos) (2 ^ 40) 0 d2.now [48] 0]
      { d2 with arr := { d2.arr with plan := if pos < 1280 then plan ++ op else plan }, health := { d2.health with slotDue := true } }

/-! Spare engines (R485 to R487). -/

/-- A physical engine enters a state; its LOGICAL number is 0 but where it is mapped. -/
def Dev.engineState (d : Dev) (e st logical : Nat) : Dev := (d.put (HLN.ENG_STAT_STATE e) st).put (HLN.ENG_STAT_LOGICAL e) logical

/-- A cluster maps fewer than four engines (R487). -/
def Dev.clusterShort (d : Dev) : Bool :=
  [0, 1, 2, 3].any (fun c => ([0, 1, 2, 3, 4].filter (fun i => d.fld (HLN.ENG_STAT_STATE (5 * c + i)) == 0)).length < 4)

/-- HLN_SPARE_NONE: its cause is present while a cluster maps fewer than four engines. -/
def Dev.spareNone (d : Dev) : Dev := (d.raise .s 588).cause 588 d.clusterShort

/-- Step 1 of R486: the suspect's logical engine is unmapped, and the cluster's spare enters TESTING. -/
def Dev.repairStart (d : Dev) (r : Repair) : Dev × Repair :=
  let mapped := r.logical < 16
  let d1 := if mapped then d.flag (MTX.ENG_MAP_VALID r.logical) false else d
  let c := r.suspect / 5
  let spare := if mapped then ([0, 1, 2, 3, 4].map (fun i => 5 * c + i)).find? (fun e => d1.fld (HLN.ENG_STAT_STATE e) == 1) else none
  let d2 := match spare with
    | some e => d1.engineState e 3 0
    | none => if mapped then d1.spareNone else d1
  (d2, { r with spare := spare, step := 1 })

/-- Steps 2 and 3 of R486: a spare that passed is mapped; the suspect becomes the SPARE or FAILED. -/
def Dev.repairEnd (d : Dev) (failed : List Nat) (r : Repair) : Dev :=
  let d1 := match r.spare with
    | none => d
    | some e =>
      if failed.contains e then ((d.engineState e 4 0).raise .s 587).spareNone
      else
        let d1 := (d.flag (MTX.ENG_MAP_VALID r.logical) true).put (MTX.ENG_MAP_CLUSTER r.logical) (e / 5)
        (d1.put (MTX.ENG_MAP_CORE r.logical) (e % 5)).engineState e 0 r.logical
  let t := d1.fld (HLN.ENG_STAT_TRANSIENTS r.suspect)
  if failed.contains r.suspect || 2 ≤ t then
    let d2 := if failed.contains r.suspect then d1 else d1.put (HLN.ENG_STAT_TRANSIENTS r.suspect) 3
    (d2.engineState r.suspect 4 0).raise .s 587
  else (d1.put (HLN.ENG_STAT_TRANSIENTS r.suspect) (t + 1)).engineState r.suspect 1 0

/-- One repair at a tick boundary. -/
def Dev.repairStep (failed : List Nat) (a : Dev × List Repair) (r : Repair) : Dev × List Repair :=
  if r.step = 0 then let (d1, r1) := a.1.repairStart r; (d1, a.2 ++ [r1]) else (a.1.repairEnd failed r, a.2)

/-- The data in a suspect core's scratchpad is lost (R486): the listed bytes take free values. -/
def Dev.scratchLost (d : Dev) (m : Mem) (core : Nat) : Dev :=
  let lo := scratchBase core
  m.cells.foldl (fun d c => if lo ≤ c.1 && c.1 < lo + 1048576 then let (v, d1) := d.draw; d1.store [⟨c.1, BitVec.ofNat 8 v, .sound⟩] else d) d

/-- A tick boundary advances the repairs in ascending order of the engine detected (R486, R487). -/
def Dev.repairBoundary (d : Dev) (m : Mem) (failed : List Nat) : Dev :=
  if d.health.repairs = [] then d
  else
    let moved := (d.health.repairs.filter (fun r => r.step == 0 && r.logical < 16)).map (·.suspect)
    let (d1, rest) := (sortBy (fun r => r.suspect) d.health.repairs).foldl (Dev.repairStep failed) (d, [])
    let d2 := { d1 with health := { d1.health with repairs := rest } }
    let d3 := (moved.foldl (fun d e => d.scratchLost m e) d2).showEngines
    (if d3.engines = d.engines then d3 else d3.replan).cause 588 (tabGet false d3.snag.cause 588 && d3.clusterShort)

/-- A write of HLN_INJ (Table 15.12). -/
def Dev.hlnInjWrite (d : Dev) (v : Nat) : Dev :=
  if injTaken (d.on HLN.INJ_ARM) v (v % 4 != 0) then
    (((d.flag HLN.INJ_ARM (bit v 31)).put HLN.INJ_TARGET (bitsAt v 12 8)).put HLN.INJ_MODE (v % 4)).answer .done
  else d.answer .discarded

/-- HLN_INJ (R503). -/
def execHlnInj (value : Nat) (s : State) : Host.Outcome State Fault Refusal := run s fun _ d => d.hlnInjWrite value

end Sys2Proof.Machine
end

