-- ==== Sys2Proof/Machine/Power.lean ====
section
/-!
DEFINITION. Supplies, references and PLLs, and the TWIN_EN strap (16 R506, R512 to R515, R527, R528).
-/

namespace Sys2Proof.Machine

/-! MCLK_AUD and REFCLK_SYS (R515). -/

/-- The frequency of MCLK_AUD that FS_SEL needs (Table 01.7). -/
def mclkHz (sel : Nat) : Nat := if sel = 1 || sel = 3 || sel = 5 then 22579200 else 24576000

/-- A measurement is more than 1 000 ppm from what FS_SEL needs. -/
def Dev.mclkOut (d : Dev) (hz : Nat) : Bool :=
  let n := mclkHz (d.fld TCK.FRAME_FS_SEL)
  n < 1000 * (hz - n + (n - hz))

/-- PWR_INJ is armed in a mode. -/
def Dev.pwrArmed (d : Dev) (mode : Nat) : Bool := d.on PWR.INJ_ARM && d.fld PWR.INJ_MODE == mode

/-- MCLK_MEASURE: REFCLK_SYS measures MCLK_AUD. PWR_MCLK_AUD is raised while RUN is 1. -/
def Dev.mclk (d : Dev) (hz : Nat) : Dev :=
  let inj := d.pwrArmed 2
  let out := d.mclkOut hz || inj
  let d1 := (if inj then d.flag PWR.INJ_ARM false else d).put PWR.MCLK_MEAS_HZ hz
  let d2 := (d1.flag PWR.CLK_STAT_MCLK_OK (!out)).cause 705 (out && d.running)
  if out && d.running then d2.raiseInj .s 705 0 inj else d2

def execMclkMeasure (hz : Nat) (s : State) : Host.Outcome State Fault Refusal := run s fun _ d => d.mclk hz

/-- PWR_REFCLK_SYS: S_RC finds REFCLK_SYS out of range or stopped. -/
def execPwrRefclkSys (s : State) : Host.Outcome State Fault Refusal :=
  run s fun _ d => (d.flag PWR.CLK_STAT_REFCLK_SYS_OK false).raiseCause .s 704

/-- REFCLK_SYS_RETURN. -/
def execRefclkSysReturn (s : State) : Host.Outcome State Fault Refusal :=
  run s fun _ d => (d.flag PWR.CLK_STAT_REFCLK_SYS_OK true).cause 704 false

/-! PLLs, numbered as PWR_CLK_STAT.LOCKED numbers them. -/

/-- Give a PLL's LOCKED bit a value. -/
def Dev.pllBit (d : Dev) (i : Nat) (b : Bool) : Dev :=
  let v := d.fld PWR.CLK_STAT_LOCKED
  if bit v i = b then d else d.put PWR.CLK_STAT_LOCKED (if b then v + 2 ^ i else v - 2 ^ i)

/-- A PLL loses lock: its LOCKED bit falls and its source is raised. -/
def Dev.pllLoss (d : Dev) (i : Nat) (inj : Bool) : Dev := ((d.pllBit i false).raiseInj .s (706 + i) 0 inj).cause (706 + i) true

/-- PLL_LOCK_LOSS (R515). -/
def execPllLockLoss (pll : Nat) (s : State) : Host.Outcome State Fault Refusal :=
  run s fun _ d => if pll < 10 then d.pllLoss pll false else d

/-- PLL_RELOCK (R515). -/
def execPllRelock (pll : Nat) (s : State) : Host.Outcome State Fault Refusal :=
  run s fun _ d => if pll < 10 then (d.pllBit pll true).cause (706 + pll) false else d

/-- A write of PWR_INJ (Table 16.14). MODE 1 acts at once; the PLL relocks 1 µs later. -/
def Dev.pwrInjWrite (d : Dev) (v : Nat) : Dev :=
  let mode := v % 4
  let pll := bitsAt v 11 8
  if injTaken (d.on PWR.INJ_ARM) v ((mode == 1 || mode == 2) && pll < 10) then
    let d1 := ((d.put PWR.INJ_MODE mode).put PWR.INJ_PLL pll).answer .done
    if !bit v 31 then d1
    else if mode = 1 then d1.pllLoss pll true
    else d1.flag PWR.INJ_ARM true
  else d.answer .discarded

/-- PWR_INJ (R528). -/
def execPwrInj (value : Nat) (s : State) : Host.Outcome State Fault Refusal := run s fun _ d => d.pwrInjWrite value

/-! The strap and the supplies. -/

/-- STRAP_CHANGE (R506): the present level of TWIN_EN. -/
def Dev.strap (d : Dev) (level : Bool) : Dev :=
  let differ := level != d.on PWR.STRAP_TWIN_EN
  let d1 := (d.flag PWR.STRAP_TWIN_EN_NOW level).cause 716 differ
  if differ then d1.raise .s 716 else d1

def execStrapChange (level : Bool) (s : State) : Host.Outcome State Fault Refusal := run s fun _ d => d.strap level

/-- A die loses its supply (R489, R512): a C-die or the X-die stops; without the S-die no pin is driven. -/
def Dev.dieOff (d : Dev) (i : Nat) : Dev :=
  if bit d.power.lost i then d
  else
    let d1 := { d with power := { d.power with lost := d.power.lost + 2 ^ i } }
    if i < 3 then (if d1.on (hbOkFld i) then d1.dieLost i false else d1)
    else
      let d2 := (List.range 6).foldl (Dev.forcePort true) d1
      let d3 := ((d2.flag SNG.STAT_SAFE_OK false).flag SNG.STAT_SAFE true).flag TWN.STAT_OWN_OUT false
      { d3 with snag := { d3.snag with hbLevel := false }, twin := { d3.twin with owns := false } }

/-- SUPPLY_LOSS (R512): the dies that lose a supply, bit 0 C-die 0, 1 C-die 1, 2 X-die, 3 S-die. -/
def execSupplyLoss (dies : Nat) (s : State) : Host.Outcome State Fault Refusal :=
  run s fun _ d => [0, 1, 2, 3].foldl (fun d i => if bit dies i then d.dieOff i else d) d

end Sys2Proof.Machine
end

