-- ==== Sys2Proof/Machine/Arm.lean ====
section
/-!
DEFINITION. Validation and application of a captured arm list (02 R48 to R53, R544; the kind rules R78, R117 to R142, R200, R219; the
capacities R142, R144; the plan R189).
-/

namespace Sys2Proof.Machine

/-! Reserved bits (reason 13). -/

/-- Bits `hi` to `lo`. -/
def maskOf (hi lo : Nat) : Nat := 2 ^ (hi + 1) - 2 ^ lo

/-- Defined bits of word `i` of the kind area, by kind (Tables 03.1 to 03.5, 04.3 to 04.10, 06.4). -/
def kindMask (kind i : Nat) : Nat :=
  let full := 4294967295
  match kind with
  | 0 => if i = 1 then maskOf 9 4 + maskOf 2 0 else if i < 4 then full else 0
  | 1 =>
    match i with
    | 0 => maskOf 31 19 + maskOf 15 0
    | 1 | 4 => 65535
    | 2 | 3 => full
    | _ => 0
  | 2 => if i = 4 then maskOf 13 8 + maskOf 3 0 else if i < 9 then full else 0
  | 3 => if i = 0 then maskOf 26 16 + maskOf 13 8 + maskOf 7 0 else if i < 9 then full else 0
  | 4 => if i = 4 then maskOf 21 16 + maskOf 13 8 + maskOf 2 0 else if i < 9 then full else 0
  | 5 => if i = 0 then maskOf 18 0 else if i = 2 then maskOf 5 0 else if i < 5 then full else 0
  | 6 =>
    if i = 2 then maskOf 27 16 + maskOf 12 8 + maskOf 5 4 + maskOf 1 0
    else if i = 4 then maskOf 11 0
    else if i < 23 then full
    else 0
  | 7 =>
    match i with
    | 0 => maskOf 23 16 + maskOf 11 0
    | 1 => maskOf 27 16 + maskOf 11 0
    | 2 => 65535
    | 3 => 3
    | _ => if i < 8 then full else 0
  | _ =>
    match i with
    | 0 => maskOf 27 16 + maskOf 11 0
    | 1 => maskOf 31 29 + maskOf 15 0
    | 2 => 65535
    | 3 => full
    | _ => 0

/-- Defined bits of a host-written word (Tables 02.1 to 02.5). -/
def wordMask (kind i : Nat) : Nat :=
  match i with
  | 0 => maskOf 23 16 + maskOf 10 8 + maskOf 6 0
  | 1 => maskOf 22 16 + maskOf 6 0
  | 2 => maskOf 29 28 + maskOf 1 0
  | 3 | 4 => 65535
  | 5 | 6 | 8 | 9 | 10 | 11 => 4294967295
  | _ => if 16 ≤ i then kindMask kind (i - 16) else 0

/-- A reserved bit of the host-written bytes is 1. -/
def Dev.reservedSet (d : Dev) (w : Nat) : Bool :=
  (List.range 48).any (fun i => (d.wd w i ||| wordMask (d.wdKind w) i) != wordMask (d.wdKind w) i)

/-! Kind rules (reason 11). -/

/-- Channel lists of a kind: byte offset, entries, minimum (R117, Tables 04.3 to 04.9). -/
def kindLists (kind : Nat) : List (Nat × Nat × Nat) :=
  match kind with
  | 2 => [(0, 16, 1)]
  | 3 => [(0, 1, 1), (4, 8, 1)]
  | 4 => [(0, 4, 1), (4, 8, 1), (12, 4, 0)]
  | 5 => [(0, 1, 1), (4, 4, 1)]
  | 6 => [(0, 8, 0), (12, 4, 0)]
  | _ => []

/-- A list breaks R117: entries after its end, or too few of them. -/
def Dev.listBad (d : Dev) (w : Nat) (l : Nat × Nat × Nat) : Bool :=
  let bytes := (List.range l.2.1).map (fun i => d.kindByte w (l.1 + i))
  let n := (bytes.takeWhile (fun b => bit b 7)).length
  n < l.2.2 || (bytes.drop (n + 1)).any (fun b => b != 0)

/-- No element occurs twice. -/
def distinct : List Nat → Bool
  | [] => true
  | a :: l => !l.contains a && distinct l

/-- R117 for all lists of a watch. -/
def Dev.listsBad (d : Dev) (w : Nat) : Bool :=
  let ls := kindLists (d.wdKind w)
  let all := ls.flatMap (fun l => d.chanList w l.1 l.2.1)
  ls.any (d.listBad w) || !distinct all || all.any (fun c => !d.on (SGT.IN_EN c))

/-- An ARM entry of the list names the watch. -/
def arms (l : List ArmEntry) (w : Nat) : Bool := l.any (fun e => e.arm && e.watch == w)

/-- A RETIRE entry of the list names the watch. -/
def retires (l : List ArmEntry) (w : Nat) : Bool := l.any (fun e => !e.arm && e.watch == w)

/-- The named watch runs, or is armed by the same list (R134, R137). -/
def Dev.runsOrArms (d : Dev) (l : List ArmEntry) (z : Nat) : Bool := (d.watchOf z).state == .running || arms l z

/-- An FP32 word is negative or not finite. -/
def badFloat (v : Nat) : Bool :=
  match fp32 v with
  | none => true
  | some x => x.lt .zero

/-- Bytes of a unit's table buffer that watches other than IDLE reserve for both epochs (SKM_U_TBUF). -/
def Dev.tbufUsed (d : Dev) (u : Nat) : Nat :=
  ((d.linWatches.filter (fun w => d.wdPort w == u)).map (fun w => 2 * d.tableBytes w)).foldl (· + ·) 0

/-- LIN (R78). `before`: the ARM entries earlier in the list. -/
def Dev.linBad (d : Dev) (before : List Nat) (w : Nat) : Bool :=
  let float := d.linFloat w
  let i := d.linIn w
  let wt := d.linW w
  let acc := d.linAcc w
  let out := d.linOut w
  let form := d.linForm w
  let fmts := if float then 4 ≤ i && i ≤ 14 && 4 ≤ wt && wt ≤ 14 && 6 ≤ acc && acc ≤ 8 && 4 ≤ out && out ≤ 8
    else i ≤ 2 && (wt == 0 || wt == 2) && acc == 3 && out == 3
  let lay := d.layerOf w
  let same := lay.getD 0 0 == d.wdKindWord w 0 && bitsAt (lay.getD 1 0) 2 0 == form && bit (lay.getD 1 0) 3 == d.linBias w
  let u := if d.linAny w then 2 else 1
  let need := (before.filter (fun v => d.wdKind v == 0 && d.wdPort v == d.wdPort w)).foldl (fun a v => a + 2 * d.tableBytes v)
    (2 * d.tableBytes w)
  2 < form || !fmts || (!float && d.linAny w) || (form == 2 && d.linBias w) || (form != 1 && d.wdKindWord w 3 != 0)
    || !same || (form == 1 && d.linK w != d.convCin w * d.convTaps w)
    || (float && 2 ^ fmtU acc ≤ 2 * (d.linL w + 1) * u)
    || 1048576 < need + d.tbufUsed (d.wdPort w)

/-- NLS (R134). -/
def Dev.nlsBad (d : Dev) (l : List ArmEntry) (w : Nat) : Bool :=
  let op := d.nlsOp w
  let v := d.nlsV w
  let i := d.nlsIn w
  let o := d.nlsOut w
  let fl (f : Nat) : Bool := 4 ≤ f && f ≤ 8
  let fmts := if op = 1 then i == 3 && o ≤ 2 else fl i && fl o
  let row := bitsAt ((d.layerOf w).getD 3 0) 15 0 + 1
  let rows := if d.wdSparse w && d.on TCK.PLAN_CTRL_ALLOW_SAMPLE then d.cmin w else d.units w
  let share := match d.nlsShare w with
    | none => false
    | some z => d.wdKind z != 0 || d.wdSrcType z != 0 || d.wdPort z != d.wdPort w || !d.runsOrArms l z || d.linM z != v
        || d.linkSample (d.wdPort w)
  3 < op || !fmts || 6 < d.nlsFunc w || (if op ≤ 1 then v != 1 else v != row) || d.wdDecl w % v != 0
    || badFloat (d.wdKindWord w 2) || badFloat (d.wdKindWord w 3) || 524288 < (d.stagedBytes w rows).2 || share

/-- BND (R120). -/
def Dev.bndBad (d : Dev) (w : Nat) : Bool :=
  let en := bitsAt (d.wdKindWord w 4) 3 0
  en == 0 || (bit en 2 && bit en 3 && d.wdKindWord w 7 < d.wdKindWord w 8)

/-- CON (R123). -/
def Dev.conBad (d : Dev) (w : Nat) : Bool := 4096 < bitsAt (d.wdKindWord w 0) 26 16 + 2 * d.len

/-- DIV (R126). -/
def Dev.divBad (d : Dev) (w : Nat) : Bool :=
  let en := bitsAt (d.wdKindWord w 4) 2 0
  en == 0 || (bit en 2 && d.chanList w 12 4 == [])

/-- PRS (R129). -/
def Dev.prsBad (d : Dev) (w : Nat) : Bool :=
  4096 < bitsAt (d.wdKindWord w 0) 18 8 + bitsAt (d.wdKindWord w 2) 5 0 + 1 + 2 * d.len

/-- The band edges break R137. -/
def Dev.edgesBad (d : Dev) (w : Nat) : Bool :=
  let n := d.shdBands w
  (List.range (n - 1)).any (fun b => d.shdEdge w (b + 1) ≤ d.shdEdge w b) || d.len < 2 * d.shdEdge w (n - 1)
    || (List.range 32).any (fun b => n ≤ b && d.shdEdge w b != 0)

/-- SHD (R137). -/
def Dev.shdBad (d : Dev) (l : List ArmEntry) (w : Nat) : Bool :=
  let m := d.model (d.wdModel w)
  let t := d.shdType w
  let z := d.shdWatch w
  1 < t || 2 < d.shdMeasure w || (d.chanList w 0 8).length != m.nIn || (t == 0 && (d.chanList w 12 4).length != m.nOut)
    || (d.shdMeasure w == 2) != (t == 1) || d.edgesBad w || (t == 1 && (1 < d.wdKind z || !d.runsOrArms l z))
    || badFloat (d.wdKindWord w 5) || badFloat (d.wdKindWord w 6)

/-- STN (R200, R219). -/
def Dev.stnBad (d : Dev) (w : Nat) : Bool :=
  let es := (d.model (d.wdModel w)).stencils
  let rot := (es.drop (d.stnFirst w)).take (d.stnCount w)
  let float := d.stnFloat w
  es == [] || es.length < d.stnFirst w + d.stnCount w || rot.any (fun e => e.getD 4 0 != d.wdDecl w) || 1 < bitsAt (d.wdKindWord w 3) 1 0
    || (float && rot.any (fun e => !isFloatFmt (bitsAt (e.getD 5 0) 15 8)))
    || d.stnPeriod w ≤ d.stnPhase w || d.stnPeriod w ≤ d.fld TCK.STENCIL_STN_MAX_DEFER || 16 * d.len ≤ d.stnSend w
    || d.planE w ≤ d.stnSend w || (float && rot.any (fun e => 524288 < e.getD 3 0))

/-- SEQ (R142), but for its capacity. -/
def Dev.seqBad (d : Dev) (w : Nat) : Bool :=
  let recEn := d.seqRecEn w
  let hbEn := d.seqHbEn w
  let w0 := d.wdKindWord w 0
  (!recEn && !hbEn) || (recEn && bitsAt w0 27 16 < bitsAt w0 11 0) || 16 * (d.len + d.fld TCK.RELEASE_MARGIN) < d.seqLive w
    || d.wdDecl w != (if recEn then bitsAt (d.wdKindWord w 1) 15 0 else 0) + b2n hbEn

/-- The kind area fails the checks of the kind's chapter. -/
def Dev.kindBad (d : Dev) (l : List ArmEntry) (before : List Nat) (w : Nat) : Bool :=
  d.listsBad w ||
    (match d.wdKind w with
     | 0 => d.linBad before w
     | 1 => d.nlsBad l w
     | 2 => d.bndBad w
     | 3 => d.conBad w
     | 4 => d.divBad w
     | 5 => d.prsBad w
     | 6 => d.shdBad l w
     | 7 => d.stnBad w
     | _ => d.seqBad w)

/-! The entry-level reasons (Table 02.8). -/

/-- SRC_TYPE of a kind (Table 02.7). -/
def kindSource (kind : Nat) : Nat := if kind ≤ 1 || kind = 7 || kind = 8 then 0 else if kind = 6 then 2 else 1

/-- The kind names a model. -/
def kindModel (kind : Nat) : Bool := kind ≤ 1 || kind == 6 || kind == 7

/-- The kind declares its units in DECL_UNITS. -/
def kindDeclares (kind : Nat) : Bool := kind ≤ 1 || kind == 7 || kind == 8

/-- Reason SOURCE. -/
def Dev.sourceBad (d : Dev) (w : Nat) : Bool :=
  let k := d.wdKind w
  let t := d.wdSrcType w
  let p := d.wdPort w
  t != kindSource k || (t != 0 && p != 0) || (d.wdModel w != 0) != kindModel k || (t == 0 && !bit (d.fld FJL.CTRL_EN) p)
    || (k == 0 && !d.skimOn p)

/-- Reason CLASS: a bound channel is disabled or has the other class. -/
def Dev.classBad (d : Dev) (w : Nat) : Bool := (d.wdChans w).any (fun c => !d.on (SGT.OUT_EN c) || d.isPass c != d.wdPass w)

/-- Reason MODEL: the model or the layer is not loaded (R177). -/
def Dev.modelBad (d : Dev) (w : Nat) : Bool :=
  let k := d.wdKind w
  let m := d.model (d.wdModel w)
  kindModel k && (!d.modelRuns (d.wdModel w) || (k == 6) != (m.kind == 1) || (k == 6 && !bit m.flags 0)
    || (k ≤ 1 && m.nLayers ≤ d.wdLayer w))

/-- A dependent of the watch stays when it retires (R138). -/
def Dev.dependents (d : Dev) (l : List ArmEntry) (v : Nat) : Bool :=
  let names (w : Nat) : Bool := (d.wdKind w == 1 && d.nlsShare w == some v) || (d.wdKind w == 6 && d.shdType w == 1 && d.shdWatch w == v)
  (d.activeWatches.any (fun w => names w && !retires l w)) || l.any (fun e => e.arm && names e.watch)

/-- The first reason that an entry breaks; 0 where it breaks none. -/
def Dev.entryReason (d : Dev) (l : List ArmEntry) (before : List ArmEntry) (e : ArmEntry) : Nat :=
  let w := e.watch
  let st := (d.watchOf w).state
  let dup := before.any (fun x => x.watch == w)
  if e.arm then
    let n := d.wdN w
    if st != .idle then 1
    else if dup then 2
    else if 8 < d.wdKind w then 3
    else if d.sourceBad w then 4
    else if n = 0 || 64 < n || d.wdK w = 0 || n < d.wdK w then 5
    else if 32768 < d.wdMinCov w then 6
    else if 16 * (d.len + d.fld TCK.RELEASE_MARGIN) < d.wdDeadline w then 7
    else if d.classBad w then 8
    else if d.modelBad w then 9
    else if (d.wdDecl w != 0) != kindDeclares (d.wdKind w) then 10
    else if d.kindBad l ((before.filter (·.arm)).map (·.watch)) w then 11
    else if d.reservedSet w then 13
    else 0
  else if st == .idle || st == .retiring || d.dependents l w then 1
  else if dup then 2
  else 0

/-- The first failing entry, in list order. -/
def Dev.firstBad (d : Dev) (l : List ArmEntry) : List ArmEntry → List ArmEntry → Option (Nat × Nat)
  | _, [] => none
  | before, e :: rest =>
    let r := d.entryReason l before e
    if r = 0 then d.firstBad l (before ++ [e]) rest else some (e.watch, r)

/-! The list-wide checks. -/

/-- What a watch takes of the capacities of Table 04.12: channel entries, delay histories, correlators, and SEQ watches on ports 0 to 3. -/
def Dev.sigUse (d : Dev) (w : Nat) : List Nat :=
  let k := d.wdKind w
  let seq (p : Nat) : Nat := b2n (k == 8 && d.wdPort w == p)
  let corr := if k = 5 then (d.chanList w 4 4).length * (bitsAt (d.wdKindWord w 2) 5 0 + 1) else 0
  [(d.channelEntries w).length, b2n (k == 3 || k == 5), corr, seq 0, seq 1, seq 2, seq 3]

/-- Limits of Table 04.12. -/
def sigLimits : List Nat := [512, 16, 1024, 16, 16, 16, 16]

/-- Add what a watch takes. -/
def addUse (a b : List Nat) : List Nat := (a.zip b).map (fun x => x.1 + x.2)

/-- The first ARM entry at which a running total passes its limit (R49). -/
def Dev.firstOver (d : Dev) (total : List Nat) : List Nat → Option Nat
  | [] => none
  | w :: ws =>
    let t := addUse total (d.sigUse w)
    if (t.zip sigLimits).any (fun x => x.2 < x.1) then some w else d.firstOver t ws

/-- The watches' states once the list has applied: what the plan reads. -/
def Dev.listStates (d : Dev) (l : List ArmEntry) : Dev :=
  l.foldl (fun d e =>
    let x := d.watchOf e.watch
    d.putWatch e.watch { x with state := if e.arm then .armed else if x.state == .armed then .idle else .retiring }) d

/-- Why a captured list is rejected: the watch and the reason; none where it applies. -/
def Dev.listReason (d : Dev) (l : List ArmEntry) : Option (Nat × Nat) :=
  if 256 < l.length then some ((l.getD 256 ⟨true, 0⟩).watch, 14)
  else
    match d.firstBad l [] l with
    | some r => some r
    | none =>
      let ws := (l.filter (·.arm)).map (·.watch)
      let base := (d.activeWatches.filter (fun w => !retires l w)).foldl (fun a w => addUse a (d.sigUse w)) [0, 0, 0, 0, 0, 0, 0]
      let cap := d.firstOver base ws
      let plan := (d.listStates l).overloader ws
      let at_ (w : Nat) : Nat := ws.findIdx (fun v => v == w)
      match cap, plan with
      | none, none => none
      | some c, none => some (c, 11)
      | none, some p => some (p, 12)
      | some c, some p => if at_ c ≤ at_ p then some (c, 11) else some (p, 12)

/-! Application. -/

/-- ARM applies (R52, Table 02.9): the device-written area is cleared, the translation context is opened, and a LIN watch's tables are built. -/
def Dev.armWatch (d : Dev) (w a : Nat) : Dev :=
  let d1 := d.putWatch w { Watch.idle with state := .armed, first := a }
  let d2 := d1.setContext (watchCtx w) true
  if d.wdKind w = 0 then
    let k := d2.skim
    ({ d2 with skim := { k with current := tabErase k.current w, next := tabErase k.next w, former := tabErase k.former w } }).updateMinMs
  else d2

/-- RETIRE applies at B(r); while the tick unit is stopped the watch is IDLE at once (R544). -/
def Dev.retireWatch (d : Dev) (w r : Nat) (stopped : Bool) : Dev :=
  let x := d.watchOf w
  if stopped || x.state == .armed then d.goIdle w
  else d.putWatch w { x with state := .retiring, retireAt := some r, rpPassed := false, tripped := x.tripped || x.state == .failed }

/-- The entries of a list apply in list order. `a` is the first frame under them. -/
def Dev.applyList (d : Dev) (l : List ArmEntry) (a : Nat) (stopped : Bool) : Dev :=
  let d1 := l.foldl (fun d e => if e.arm then d.armWatch e.watch a else d.retireWatch e.watch a stopped) d
  let d2 := ((d1.put WCH.ARM_STATUS_RESULT 1).put WCH.ARM_STATUS_REASON 0).put WCH.ARM_STATUS_WATCH_ID 0
  d2.startBuilds

/-- WCH_ARM_STATUS after a rejection. -/
def Dev.listRejected (d : Dev) (w reason : Nat) : Dev :=
  ((d.put WCH.ARM_STATUS_RESULT 2).put WCH.ARM_STATUS_REASON reason).put WCH.ARM_STATUS_WATCH_ID w

end Sys2Proof.Machine
end

