-- ==== Sys2Proof/Machine/Commit.lean ====
section
/-!
DEFINITION. Captures of the staged set (00 R12; 01 R30, R33; 06 R212 to R215): commit groups, their validation (Tables 06.8 and 09.1) and application, and
the replies of the requests that wait for them (11 R368). Also RUN of TCK_CTRL (R350).
-/

namespace Sys2Proof.Machine

/-! Replies of the command engine. -/

/-- A packet carries at most 1 344 payload bytes; packets of a message (R359, R360). -/
def packetsOf (n : Nat) : Nat := max 1 ((n + 1343) / 1344)

/-- Opcodes that Table 11.4 marks as not idempotent. -/
def nonIdempotent : List Nat :=
  [0x03, 0x11, 0x12, 0x14, 0x32, 0x33, 0x38, 0x39, 0x61, 0x62, 0x64, 0x71, 0x72, 0x80, 0x82, 0x83, 0x84, 0x86, 0x87, 0x88, 0x89, 0x8A, 0x91, 0x92,
   0xA0, 0xA2]

/-- Send the one reply of a request (R367) and keep it in the reply cache where the opcode is not idempotent (R370). -/
def Dev.reply (d : Dev) (sess reqId op status : Nat) (request payload : List Byte) : Dev :=
  match d.session sess with
  | none => d
  | some x =>
    let m : Msg := { session := sess, opcode := op, event := false, reqId := reqId, status := status, payload := payload, dest := 0,
                     seq := x.txSeq + 1, at_ := d.now, peer := (x.addr, x.port) }
    let entry : Cached := ⟨reqId, op, request, m, d.now⟩
    let cache := if nonIdempotent.contains op then (x.cache ++ [entry]).drop (x.cache.length + 1 - 64) else x.cache
    (d.withSession sess (some { x with txSeq := x.txSeq + packetsOf payload.length, cache := cache })).post m

/-! Commit groups (Table 06.8, R289). -/

/-- The commit group whose members include the register at an address. -/
def groupOf (a : Nat) : Option Nat :=
  if a = TCK.RELEASE then some 0
  else if a = TCK.BUDGET || a = TCK.PLAN_CTRL || (TCK.PORT_END 0 ≤ a && a ≤ TCK.PORT_END 3) then some 1
  else if a = TCK.STENCIL then some 2
  else if a = SKM.EPOCH_LEN then some 3
  else if a / 65536 = 0x0102 then some 4
  else if a / 65536 = 0x0108 then some 8
  else none

/-- The groups in ascending order. -/
def commitGroups : List Nat := [0, 1, 2, 3, 4, 5, 8]

/-- The field with a key of the register table. -/
def fieldOfKey (k : Nat) : Option Fld :=
  match blockOf (k / 32) with
  | none => none
  | some ds =>
    match fieldsAt ds (k / 32 % 65536) with
    | none => none
    | some fs => fs.find? (fun f => f.lo == k % 32)

/-- Members of a group that a capture would change, with their new values. -/
def Dev.groupChanges (d : Dev) (fields : Tab Nat) (g : Nat) : List (Fld × Nat) :=
  fields.filterMap (fun e =>
    if groupOf (e.1 / 32) == some g then
      match fieldOfKey e.1 with
      | none => none
      | some f => if d.fld f = e.2 then none else some (f, e.2)
    else none)

/-- The values of a group in force. The staged copies keep what software wrote. -/
def Dev.applyFields (d : Dev) (cs : List (Fld × Nat)) : Dev :=
  cs.foldl (fun d c =>
    let s := d.stagedFld c.1
    (d.put c.1 c.2).putStaged c.1 s) d

/-! Validation. Each check reads the device as it would be with the group applied. -/

/-- FRAME: MARGIN, DEADLINE and LIVE (R30, R50). -/
def Dev.frameOk (t : Dev) : Bool :=
  let m := t.fld TCK.RELEASE_MARGIN
  let limit := 16 * (t.len + m)
  m ≤ t.len && t.activeWatches.all (fun w => (t.watchOf w).state == .retiring
    || (t.wdDeadline w ≤ limit && (t.wdKind w != 8 || t.seqLive w ≤ limit)))

/-- The loaded models charge a resource over budget in a refused variant (R190). -/
def Dev.modelsOver (t : Dev) : Bool :=
  t.variants.any (fun v =>
    let a := t.allot v
    a.1 && ((t.overBudget v a.2).any (fun r =>
      (r == 0 && t.fallbackModels != []) || (r == 13 && t.fallbackModels.any (fun i => 0 < (t.model i).streamed)))))

/-- PLAN: ranges of Table 06.1, and R189 on the armed set and the loaded models. -/
def Dev.planOk (t : Dev) : Bool :=
  let within (f : Fld) (hi : Nat) : Bool := 1 ≤ t.fld f && t.fld f ≤ hi
  within TCK.BUDGET_ARRAY_PCT 95 && within TCK.BUDGET_SKIM_PCT 100 && within TCK.BUDGET_LINK_PCT 100 && within TCK.BUDGET_DMA_PCT 30
    && (t.overloader t.planWatches).isNone && !t.modelsOver

/-- STENCIL. -/
def Dev.stencilOk (t : Dev) : Bool :=
  let n := t.fld TCK.STENCIL_STN_MAX_DEFER
  n ≤ 32 && t.activeWatches.all (fun w => t.wdKind w != 7 || n < t.stnPeriod w)

/-- EPOCH (R109). -/
def Dev.epochOk (t : Dev) : Bool := 50 ≤ t.fld SKM.EPOCH_LEN_EPOCH_MS && t.fld SKM.EPOCH_LEN_EPOCH_MS ≤ 60000

/-- WINDOWS, for one window (R207, Table 06.5, Table 06.7). -/
def Dev.windowOk (t : Dev) (w : Nat) : Bool :=
  let p := t.fld (SWD.CFG_PERIOD_M1 w) + 1
  t.fld (SWD.CFG_SRC w) != 3 && t.fld (SWD.CFG_MID w) ≤ 9 && (!t.on (SWD.CFG_EN w) ||
    (t.fld (SWD.TIME_OPEN w) < t.fld (SWD.TIME_CLOSE w) && t.fld (SWD.TIME_CLOSE w) ≤ 16 * t.len * p && t.fld (SWD.PHASE_PHASE w) < p
      && (t.fld (SWD.CFG_SRC w) != 2 || t.fld (SWD.EXPECT_EXPECT w) < 128)))

/-! CHANNELS (Table 09.1). -/

/-- Enabled input channels. -/
def Dev.enabledIns (t : Dev) : List Nat := (List.range 128).filter (fun c => t.on (SGT.IN_EN c))

/-- The unit of an enabled channel is enabled and has its slot (conditions 1, 2). -/
def Dev.bindOk (t : Dev) (avtp : Bool) (unit slot streams : Nat) : Bool :=
  if avtp then bit streams unit
  else t.tdmEn unit && slot ≤ t.fld (SGT.P_CFG_SLOTS_M1 unit)

/-- What an input channel and an output channel are bound to. -/
def Dev.inBind (t : Dev) (c : Nat) : Nat := (t.fld (SGT.IN_TYPE c) * 16 + t.fld (SGT.IN_UNIT c)) * 16 + t.fld (SGT.IN_SLOT c)
def Dev.outBind (t : Dev) (c : Nat) : Nat := (t.fld (SGT.OUT_TYPE c) * 16 + t.fld (SGT.OUT_UNIT c)) * 16 + t.fld (SGT.OUT_SLOT c)

/-- Clock root of a port: MASTER ports share one (R303). -/
def Dev.clockRoot (t : Dev) (p : Nat) : Nat :=
  let q := if t.fld (SGT.P_CFG_CLK p) = 2 then t.fld (SGT.P_CFG_FOLLOW p) else p
  if t.fld (SGT.P_CFG_CLK q) = 0 then 6 else q

/-- Input channel `i` may feed PASS channel `c` (R303). -/
def Dev.passSource (t : Dev) (c i : Nat) : Bool :=
  !t.on (SGT.IN_TYPE i) && t.fld (SGT.IN_SLOT i) == t.fld (SGT.OUT_SLOT c) && t.fld (SGT.IN_LAG i) == 0
    && (t.fld (SGT.IN_UNIT i) == t.fld (SGT.OUT_UNIT c) || t.clockRoot (t.fld (SGT.IN_UNIT i)) == t.clockRoot (t.fld (SGT.OUT_UNIT c)))

/-- Gate demand of R300 in samples. -/
def Dev.gateUse (t : Dev) : Nat :=
  ((t.enabledOuts.filter (fun c => !t.isPass c)).map (fun c =>
    if t.fld (SGT.OUT_POLICY c) = 1 then 2 * (3 * t.len + 1) else 3 * t.len + 1)).foldl (· + ·) 0

/-- Input entries of a fallback slot, and whether the list is well formed (Table 04.2). -/
def Dev.fbList (t : Dev) (m : Nat) : List Nat :=
  (List.range 8).map (fun i => if i < 4 then bitsAt (t.fld (SGT.FB_IN0_IN m)) (8 * i + 7) (8 * i)
    else bitsAt (t.fld (SGT.FB_IN1_IN m)) (8 * (i - 4) + 7) (8 * (i - 4)))

/-- An enabled fallback slot can run (condition 8). -/
def Dev.fbOk (t : Dev) (m : Nat) : Bool :=
  let k := t.model (t.fld (SGT.FB_MODEL_ID m))
  let ins := (t.fbList m).takeWhile (fun b => bit b 7)
  !t.on (SGT.FB_EN m) || (k.state == 2 && k.kind == 1 && bit k.flags 1 && ins.length == k.nIn
    && ((t.fbList m).drop ins.length).all (fun b => b == 0))

/-- The unit and slot codes of a channel are in use, also while it is disabled (R5, condition 1). -/
def bindCodes (avtp : Bool) (unit slot : Nat) : Bool := if avtp then slot < 8 else unit < 6

/-- No channel holds a reserved encoding (R5, condition 1). -/
def Dev.codesOk (t : Dev) : Bool :=
  (List.range 128).all (fun c => bindCodes (t.on (SGT.IN_TYPE c)) (t.fld (SGT.IN_UNIT c)) (t.fld (SGT.IN_SLOT c))
    && bindCodes (t.on (SGT.OUT_TYPE c)) (t.fld (SGT.OUT_UNIT c)) (t.fld (SGT.OUT_SLOT c)) && t.fld (SGT.OUT_RAMP c) ≤ 4)

/-- One enabled input channel (conditions 1, 2). -/
def Dev.inOk (t : Dev) (c : Nat) : Bool := t.bindOk (t.on (SGT.IN_TYPE c)) (t.fld (SGT.IN_UNIT c)) (t.fld (SGT.IN_SLOT c)) (t.fld AVT.CTRL_LIST_EN)

/-- Substitution content of one enabled output channel (conditions 3, 5, 6, 7). -/
def Dev.policyOk (t : Dev) (c : Nat) : Bool :=
  match t.fld (SGT.OUT_POLICY c) with
  | 0 => true
  | 1 => t.on (SGT.IN_EN (t.fld (SGT.SUB_REF c))) && (!t.isPass c || t.passSource c (t.fld (SGT.SUB_REF c)))
  | 2 =>
    let x := t.fld (SGT.SUB_CHIME c)
    t.on (SGT.CHIME_VALID x) && t.fld (SGT.CHIME_FS_SEL x) == t.fld TCK.FRAME_FS_SEL
  | _ =>
    let m := t.fld (SGT.SUB_FB c)
    !t.isPass c && t.on (SGT.FB_EN m) && t.fld (SGT.SUB_FB_OUT c) < (t.model (t.fld (SGT.FB_MODEL_ID m))).nOut

/-- One enabled output channel (conditions 1 to 7, 11). -/
def Dev.outOk (t : Dev) (c : Nat) : Bool :=
  let avtp := t.on (SGT.OUT_TYPE c)
  let u := t.fld (SGT.OUT_UNIT c)
  t.bindOk avtp u (t.fld (SGT.OUT_SLOT c)) (t.fld AVT.CTRL_TALK_EN)
    && t.on (SGT.IN_EN (t.fld (SGT.OUT_SRC c))) && t.policyOk c
    && (!t.isPass c || (!avtp && t.passSource c (t.fld (SGT.OUT_SRC c))))
    && (!avtp || t.fld (SGT.OUT_SLOT c) < t.fld (AVT.T_CFG_CHANS_M1 u))

/-- Channels that watches need stay as they are (condition 10). `d` is the device before the group applies. -/
def Dev.boundOk (d t : Dev) : Bool :=
  d.activeWatches.all (fun w =>
    (d.wdChans w).all (fun c => t.on (SGT.OUT_EN c) && t.isPass c == d.isPass c) && (d.watchInputs w).all (fun c => t.on (SGT.IN_EN c)))

/-- Every enabled talker's frame fits MAXFRM on the ports it uses (condition 12). -/
def Dev.talkersOk (t : Dev) : Bool :=
  (List.range 16).all (fun k => !bit (t.fld AVT.CTRL_TALK_EN) k || [0, 1].all (fun p =>
    !bit (if bit (t.fld ETH.CB_CTRL_TALK_GEN) k then 3 else t.fld (AVT.T_CFG_PORTS k)) p || t.talkLen k p ≤ t.fld (ETH.P_CFG_MAXFRM p)))

/-- Table 09.1. -/
def Dev.channelsOk (d t : Dev) : Bool :=
  let ins := t.enabledIns
  let outs := t.enabledOuts
  t.codesOk && ins.all t.inOk && outs.all t.outOk && distinct (ins.map t.inBind) && distinct (outs.map t.outBind) && (List.range 8).all t.fbOk
    && t.gateUse ≤ 262144 && d.boundOk t && t.talkersOk

/-- A group other than ARM is accepted; `t` is `d` with the group applied. -/
def Dev.groupOk (d t : Dev) (g : Nat) : Bool :=
  match g with
  | 0 => t.frameOk
  | 1 => t.planOk
  | 2 => t.stencilOk
  | 3 => t.epochOk
  | 4 => (List.range 256).all t.windowOk
  | _ => d.channelsOk t

/-! Application. -/

/-- What the boundary of a capture knows: the first frame under it, and whether the tick unit is stopped or stops. -/
structure CommitAt where
  frame : Nat
  stopped : Bool
  first : Bool

/-- A change of MARGIN from `old` (R33): frames before a − 2 keep it. -/
def Dev.marginChange (d : Dev) (at_ : CommitAt) (old : Nat) : Dev :=
  if at_.stopped || at_.first then { d with gate := { d.gate with margins := [] } }
  else
    let k := frameAdd at_.frame 4294967294
    let base := if d.gate.margins == [] then [(frameAdd k 3221225472, old)] else d.gate.margins
    { d with gate := { d.gate with margins := base ++ [(k, d.fld TCK.RELEASE_MARGIN)] } }

/-- Numbers of the array elements that changes of one block name, for registers from `first` on with a stride. -/
def changedUnits (cs : List (Fld × Nat)) (first stride count : Nat) : List Nat :=
  (List.range count).filter (fun i => cs.any (fun c => first + stride * i ≤ c.1.addr && c.1.addr < first + stride * (i + 1)))

/-- A changed window (R210): its open instance closes without an event, its cause ends, and its instances begin anew. -/
def Dev.windowChange (a : Nat) (d : Dev) (w : Nat) : Dev :=
  let d1 := d.putWin w none
  { d1 with plan := { d1.plan with windowFrom := tabSet 0 d1.plan.windowFrom w a } }.cause (96 + w) false

/-- A field whose change empties an output channel's gate buffer (R290): any of SGT_OUT but POLICY and RAMP. -/
def rebinds (f : Fld) : Bool := 8 ≤ f.lo

/-- A changed output channel starts as a newly enabled one (R34, R290). -/
def Dev.channelChange (a : Nat) (d : Dev) (c : Nat) : Dev :=
  let o := { d.out c with content := .subst, ramp := none, from_ := a, cut := false }
  d.putOut c (if (d.out c).shown then o else { o with hard := false })

/-- The effects of a group that has applied with changes. `old`: MARGIN before. -/
def Dev.groupEffect (d : Dev) (at_ : CommitAt) (old g : Nat) (cs : List (Fld × Nat)) : Dev :=
  match g with
  | 0 => d.marginChange at_ old
  | 4 => (changedUnits cs (SWD.CFG 0) 32 256).foldl (Dev.windowChange at_.frame) d
  | 8 =>
    let outs := changedUnits (cs.filter (fun c => rebinds c.1)) (SGT.OUT 0) 4 128
    let d1 := outs.foldl (Dev.channelChange at_.frame) d
    if at_.stopped then d1.passReturn else d1
  | _ => d

/-- Progress through the groups of a capture: something has changed, groups rejected so far, the plan is to be rebuilt. -/
structure CommitRun where
  changed : Bool
  rejected : List Nat
  plan : Bool

/-- Group ARM (R49, R213). -/
def Dev.armGroup (d : Dev) (at_ : CommitAt) (l : List ArmEntry) (r : CommitRun) : Dev × CommitRun :=
  if l == [] then (d, r)
  else
    match d.listReason l with
    | some (w, reason) => (d.listRejected w reason, { r with rejected := r.rejected ++ [5] })
    | none => (d.applyList l at_.frame at_.stopped, { r with changed := true, plan := true })

/-- One group of a capture (R213). -/
def Dev.commitGroup (at_ : CommitAt) (fields : Tab Nat) (l : List ArmEntry) (a : Dev × CommitRun) (g : Nat) : Dev × CommitRun :=
  let (d, r) := a
  if g = 5 then d.armGroup at_ l r
  else
    let cs := d.groupChanges fields g
    if cs == [] && !r.changed then (d, r)
    else
      let t := d.applyFields cs
      if !d.groupOk t g then (d, { r with rejected := r.rejected ++ [g] })
      else if cs == [] then (d, r)
      else (t.groupEffect at_ (d.fld TCK.RELEASE_MARGIN) g cs, { r with changed := true, plan := r.plan || g == 1 || g == 2 })

/-- TCK_COMMIT_STATUS, TCK_COMMIT_REJ and TCK_COMMIT_FRAME, and TCK_COMMIT_REJECT (R214). -/
def Dev.commitStatus (d : Dev) (at_ : CommitAt) (rej : List Nat) : Dev :=
  let d1 := ((d.put TCK.COMMIT_STATUS_RESULT (if rej == [] then 1 else 2)).put TCK.COMMIT_STATUS_GROUP (rej.headD 0)).put
    TCK.COMMIT_STATUS_REJECTED rej.length
  let d2 := (d1.put TCK.COMMIT_REJ0_REJ (bitsOf 32 rej.contains)).put TCK.COMMIT_REJ1_REJ (bitsOf 32 (fun j => rej.contains (32 + j)))
  let d3 := d2.put TCK.COMMIT_FRAME_FRAME_NO (if at_.stopped then 0 else at_.frame)
  if rej == [] then d3 else d3.raise .s 66

/-- The 32-bit value of a register as reads show it: its fields in force. -/
def Dev.regWord (d : Dev) (fs : List Fld) : Nat := fs.foldl (fun a f => a + d.fld f * 2 ^ f.lo) 0

/-- WCH_ARM_STATUS as a word. -/
def Dev.armStatusWord (d : Dev) : Nat :=
  d.regWord [WCH.ARM_STATUS_LIST_FULL, WCH.ARM_STATUS_BAD_OP, WCH.ARM_STATUS_RESULT, WCH.ARM_STATUS_REASON, WCH.ARM_STATUS_WATCH_ID]

/-- The reply payload of COMMIT (Table 11.4). -/
def Dev.commitReply (d : Dev) : List Byte :=
  beBytes 1 (d.fld TCK.COMMIT_STATUS_RESULT) ++ beBytes 1 (d.fld TCK.COMMIT_STATUS_GROUP) ++ beBytes 1 (d.fld TCK.COMMIT_STATUS_REJECTED) ++ [0]
    ++ beBytes 4 (d.fld TCK.COMMIT_REJ0_REJ) ++ beBytes 4 (d.fld TCK.COMMIT_REJ1_REJ) ++ beBytes 4 (d.fld TCK.COMMIT_FRAME_FRAME_NO)
    ++ beBytes 4 d.armStatusWord

/-- The first `n` requests that wait get their replies (R368, R374). -/
def Dev.commitReplies (d : Dev) (n : Nat) : Dev :=
  let status := if d.fld TCK.COMMIT_STATUS_RESULT = 2 then 0x0109 else 0
  let rest := d.cmd.commitWait.drop n
  (d.cmd.commitWait.take n).foldl (fun d x => d.reply x.session x.reqId x.opcode status x.payload d.commitReply)
    { d with cmd := { d.cmd with commitWait := rest } }

/-- The register values and descriptors that the configuration digest covers (R493). -/
def Dev.twinContents (d : Dev) : List Nat :=
  let skip := [0x0106, 0x0107, 0x0111, 0x0112]
  let fields := d.regs.filter (fun e => !skip.contains (e.1 / 32 / 65536) &&
    (match fieldOfKey e.1 with
     | some f => f.acc == .rwStatic || f.acc == .staged || f.acc == .rwl
     | none => false))
  (fields.flatMap (fun e => [e.1, e.2])) ++ d.activeWatches.flatMap (fun w => w :: (List.range 48).map (d.wd w))
    ++ (d.arr.models.filter (fun e => e.2.state == 2)).flatMap (fun e => e.1 :: e.2.digest.map (·.toNat))

/-- CONFIG_DIGEST: the digest is computed anew (R493). -/
def Dev.configDigest (d : Dev) : Dev := { d with twin := { d.twin with contents := d.twinContents } }.twinRefresh

/-- A capture applies: its groups in ascending order, the plan, the status registers, the replies and the configuration digest. -/
def Dev.commitApply (d : Dev) (at_ : CommitAt) (fields : Tab Nat) (l : List ArmEntry) (waiting : Nat) : Dev :=
  let (d1, r) := commitGroups.foldl (Dev.commitGroup at_ fields l) (d, ⟨false, [], false⟩)
  let d2 := if r.plan then d1.buildPlan else d1
  ((d2.commitStatus at_ r.rejected).commitReplies waiting).configDigest

/-! Captures (R12, R215). -/

/-- Staged copies of a later commit write keep the values in force before `d` where the earlier capture has changed them. -/
def keepOld (old new : Dev) (fields : Tab Nat) (taken : Tab Nat) : Tab Nat :=
  taken.foldl (fun t e =>
    match fieldOfKey e.1 with
    | none => t
    | some f => if new.fld f = old.fld f || t.any (fun x => x.1 == e.1) then t else tabInsert e.1 (old.fld f) t) fields

/-- The captures due at a boundary apply. Of a capture whose last commit write lies in the cycle of the boundary, only what it extended applies. -/
def Dev.captureApply (d : Dev) (at_ : CommitAt) : Dev :=
  match d.capture with
  | none => d
  | some c =>
    if c.cycle < d.now then
      ({ d with capture := none }.commitApply at_ c.fields c.arms d.cmd.commitWait.length).flag TCK.COMMIT_STATUS_PENDING false
    else
      match c.before with
      | none => d
      | some (fields, n, waiting) =>
        let d1 := d.commitApply at_ fields (c.arms.take n) waiting
        { d1 with capture := some { c with fields := keepOld d d1 c.fields fields, arms := c.arms.drop n, before := none } }

/-- A capture that no boundary will take applies at once (R215). -/
def Dev.captureStopped (d : Dev) : Dev :=
  match d.capture with
  | none => d
  | some c =>
    ({ d with capture := none }.commitApply ⟨0, true, false⟩ c.fields c.arms d.cmd.commitWait.length).flag TCK.COMMIT_STATUS_PENDING false

/-- A write of 1 to TCK_COMMIT (R12, R48, R215): the staged copies replace those captured before, the staged arm list is appended. -/
def Dev.commitWrite (d : Dev) : Dev :=
  let (arms, before) := match d.capture with
    | none => ([], none)
    | some c =>
      (c.arms, if c.cycle < d.now then some (c.fields, c.arms.length, d.cmd.commitWait.length) else c.before)
  let c : Capture := { fields := d.staged, arms := arms ++ d.watch.staged, cycle := d.now, before := before }
  let d1 := ({ d with capture := some c }.putArms []).flag WCH.ARM_STATUS_LIST_FULL false
  let d2 := (d1.flag WCH.ARM_STATUS_BAD_OP false).flag TCK.COMMIT_STATUS_PENDING true
  if d2.running then d2 else d2.captureStopped

/-- TCK_COMMIT: a write of TCK_COMMIT with COMMIT = 1. -/
def execTckCommit (s : State) : Host.Outcome State Fault Refusal := run s fun _ d => d.commitWrite.answer .done

/-! RUN (Table 06.10, R350, R515). -/

/-- S of R350: the first instant of START's grid at least 10 µs after now on time base TBSEL. -/
def Dev.startInstant (d : Dev) : Int :=
  let start : Int := (((d.fld TIM.TICK_START_SEC_LO_START + 4294967296 * d.fld TIM.TICK_START_SEC_HI_START) * 1000000000
    + d.fld TIM.TICK_START_NS_START : Nat) : Int)
  let least := d.tickNs + 10000
  let per := d.len * 1000000000
  let gap := (least - start).toNat
  let j := gap * d.fs / max 1 per
  let at_ (i : Nat) : Int := start + ((i * per / max 1 d.fs : Nat) : Int)
  if least ≤ at_ j then at_ j else if least ≤ at_ (j + 1) then at_ (j + 1) else at_ (j + 2)

/-- A write of 1 to RUN starts the tick unit; B(0) follows as TICK_BOUNDARY. `hz` is the measurement of MCLK_AUD that R515 makes at the write. -/
def Dev.tickStart (d : Dev) (hz : Nat) : Dev :=
  let d1 := ({ d with plan := { d.plan with starting := true, stopping := false } }.flag TCK.CTRL_RUN true).flag TCK.CTRL_START_ERR false
  let d2 := d1.mclk hz
  if d2.on TIM.TICK_CFG_LOCK_EN then
    let s := d2.startInstant
    let sec := (s / 1000000000).toNat
    let d3 := { d2 with time := { d2.time with start := some s, outside := 0, inside := 0 } }
    ((d3.put TIM.TICK_START_NS_START (s % 1000000000).toNat).put TIM.TICK_START_SEC_LO_START sec).put TIM.TICK_START_SEC_HI_START (sec / 4294967296)
  else { d2 with time := { d2.time with start := none } }

/-- A write of TCK_CTRL with RUN = 1. -/
def Dev.runStart (d : Dev) (hz : Nat) : Dev :=
  if d.running then { d with plan := { d.plan with stopping := false } }.answer .done
  else if d.len < d.fld TCK.RELEASE_MARGIN then (d.flag TCK.CTRL_START_ERR true).answer .done
  else (d.tickStart hz).answer .done

/-- A write of TCK_CTRL with RUN = 0: the unit stops at the next tick boundary. -/
def Dev.runStop (d : Dev) : Dev :=
  if !d.running then d.answer .done
  else { d with plan := { d.plan with stopping := true } }.answer .done

def execTickRunStart (hz : Nat) (s : State) : Host.Outcome State Fault Refusal := run s fun _ d => d.runStart hz

def execTickRunStop (s : State) : Host.Outcome State Fault Refusal := run s fun _ d => d.runStop

end Sys2Proof.Machine
end

