-- ==== Sys2Proof/Machine/Tick.lean ====
section
/-!
DEFINITION. The tick boundary (01 R28 to R34, 02 R52 to R58, 06 R180, R201 to R206, R215, 10 R350, R351) and the send point of a stencil. Everything
that a boundary makes other chapters do happens here, in one command.
-/

namespace Sys2Proof.Machine

/-! Stencil instances (R201 to R206). -/

def Dev.stnInst (d : Dev) (w : Nat) : Option StnInst := tabGet none d.plan.stencils w

def Dev.putStn (d : Dev) (w : Nat) (x : Option StnInst) : Dev :=
  { d with plan := { d.plan with stencils := tabSet none d.plan.stencils w x } }

/-- Tick `j` is a slot tick of STN watch `w` (R201). -/
def Dev.slotTick (d : Dev) (w j : Nat) : Bool :=
  let p := d.stnPeriod w
  (j + p - d.stnPhase w % p) % p == 0

/-- Open the instances of tick `j`: a deferred one is due again, and a slot tick has a new one. One at its deferral limit is forced (R205). -/
def Dev.openStencil (j : Nat) (d : Dev) (w : Nat) : Dev :=
  let limit := d.fld TCK.STENCIL_STN_MAX_DEFER
  if !(d.watchOf w).state.checks || !d.inRange w (frameAdd j 4294967295) then d.putStn w none
  else
    match d.stnInst w with
    | some i =>
      if i.tick = j then d.putStn w (some { i with forced := Nat.ble limit i.count })
      else if d.slotTick w j then d.putStn w (some ⟨j, 0, limit == 0, false⟩) else d
    | none => if d.slotTick w j then d.putStn w (some ⟨j, 0, limit == 0, false⟩) else d

/-- STN watches with an instance in tick `j`, in the order of decision (R206). -/
def Dev.dueStencils (d : Dev) (j : Nat) : List Nat :=
  sortBy (fun w => match d.stnInst w with | some i => 64 - min 64 i.count | none => 0)
    (d.activeWatches.filter (fun w => d.wdKind w == 7 && (d.stnInst w).any (fun i => i.tick == j)))

/-- Units of every watch of the plan in a tick with these stencil instances. -/
def Dev.tickUnits (d : Dev) (stn : List Nat) : Tab (Option Nat) := setTrial [] d.planWatches (fun w => d.unitsNow w stn)

/-- Resources over budget in the projected demand of R204: the variant with the instances, the work carried over and the wasted clocks. -/
def Dev.projectedOver (d : Dev) (stn : List Nat) (wasted : Nat) : List Nat :=
  let c := d.tickUnits stn
  (List.range 14).filter (fun r => d.budget r < d.demand stn c r + (if r = 0 then d.plan.carried + wasted else 0))

/-- Thin one watch to cmin where it charges a resource that is still over budget (R205). -/
def Dev.thinOne (stn : List Nat) (wasted : Nat) (d : Dev) (w : Nat) : Dev :=
  let c := d.unitsNow w stn
  if (d.projectedOver stn wasted).any (fun r => 0 < d.jobCost w c r) && d.cmin w < c then
    { d with plan := { d.plan with thinned := tabSet 0 d.plan.thinned w (d.cmin w + 1) } }
  else d

/-- LIN and NLS watches that may be thinned, lowest PRIO first and then by descending WATCH_ID (R205). -/
def Dev.thinOrder (d : Dev) : List Nat :=
  sortBy (fun w => d.wdPrio w * 4096 + (4095 - w)) (d.planWatches.filter (fun w => d.wdSparse w && d.wdKind w ≤ 1))

/-- The forced instances of a tick (R205). `wasted`: the wasted clocks of the tick before. -/
def Dev.forceStencils (d : Dev) (j wasted : Nat) : Dev :=
  let forced := (d.dueStencils j).filter (fun w => (d.stnInst w).any (fun i => i.forced))
  if forced == [] then d
  else
    let d1 := d.thinOrder.foldl (Dev.thinOne forced wasted) d
    (forced.foldl (fun d _ => d.count TCK.STN_STAT_FORCED 1) d1).raise .s 65

/-- The stencil input of an instance goes out on STENCIL in records of 4 096 bytes (R201). -/
def Dev.sendStencil (d : Dev) (w k : Nat) : Dev :=
  match d.jobOf w k with
  | none => d
  | some j =>
    let e := d.stnEntry w j
    let input := slice (d.model (d.wdModel w)).stencilSect (e.getD 0 0) (e.getD 1 0)
    (List.range ((input.length + 4095) / 4096)).foldl (fun d i =>
      d.sendRecord (d.wdPort w) 1 2 w k 0 (bitsAt (e.getD 5 0) 7 0) (4096 * i) 0 (slice input (4096 * i) 4096)) d

/-- B(j) + SEND of the running tick has come for STN watch `w` (R201). -/
def Dev.sendDue (d : Dev) (w : Nat) : Bool := d.instantPast (frameAdd d.frame 4294967295) (d.stnSend w)

/-- Of two instances due in one tick, `v` is decided before `w`: it has more deferrals, or as many and the lower WATCH_ID (R206). -/
def Dev.stnPrecedes (d : Dev) (v w : Nat) : Bool :=
  match d.stnInst v, d.stnInst w with
  | some x, some y => x.tick == y.tick && (y.count < x.count || (y.count == x.count && v < w))
  | _, _ => false

/-- An instance that precedes `w` is still to be decided, and its send point has come. -/
def Dev.stnWaits (d : Dev) (j w : Nat) : Bool :=
  (d.dueStencils j).any (fun v => d.stnPrecedes v w && (d.stnInst v).any (fun x => !x.sent) && d.sendDue v)

/-- The instances whose demand is included where `w` is decided (R206): those sent or forced, and of those that precede `w` each that fits. -/
def Dev.stnDemand (d : Dev) (j w : Nat) : List Nat :=
  let others := (d.dueStencils j).filter (fun v => v != w)
  let sure := others.filter (fun v => (d.stnInst v).any (fun x => x.sent || x.forced))
  (others.filter (fun v => d.stnPrecedes v w && !sure.contains v)).foldl (fun l v =>
    if d.projectedOver (l ++ [v]) d.plan.waste == [] then l ++ [v] else l) sure

/-- STENCIL_SEND_POINT (R204): the instance of STN watch `w` in the running tick is sent or deferred. -/
def Dev.stencilPoint (d : Dev) (w : Nat) : Dev :=
  let j := d.frame
  let k := frameAdd j 4294967295
  match d.stnInst w with
  | none => d
  | some i =>
    if i.tick != j || i.sent || !d.sendDue w || d.stnWaits j w then d
    else
      if i.forced || d.projectedOver (d.stnDemand j w ++ [w]) d.plan.waste == [] then
        (d.putStn w (some { i with sent := true })).sendStencil w k
      else
        let x := d.watchOf w
        let d1 := (d.putWatch w { x with ring := x.ring.filter (fun y => y.frame != k) }).dropOps (.job w k)
        let d2 := (d1.closeStage (.job w k)).putJobIn w k .empty
        ((d2.putStn w (some ⟨frameAdd j 1, i.count + 1, false, false⟩)).count TCK.STN_STAT_DEFERRED 1).frameReport k

def execStencilSendPoint (watch : Nat) (s : State) : Host.Outcome State Fault Refusal := run s fun _ d => d.stencilPoint watch

/-! The tick that ends: counters of the last completed tick. -/

/-- The array's, the Skim units', the DMA's, the links' and the talkers' counters. -/
def Dev.closeTick (d0 : Dev) : Dev :=
  let d := d0.chargeRunning
  let total := d.len * d.fArith / max 1 d.fs
  let a := d.arr
  let d1 := ((d.put MTX.PLAN_CLK_CLK (min 4294967295 a.planClk)).put MTX.BG_CLK_CLK (min 4294967295 a.bgClk)).put MTX.IDLE_CLK_CLK
    (total - (a.planClk + a.bgClk))
  let d2 := ((d1.put MTX.PREEMPT_COUNT (min 65535 a.preempts)).put MTX.PREEMPT_MAXLAT (min 65535 a.maxLat)).put TCK.WASTE_CLK
    (min 4294967295 d.plan.waste)
  let skim (d : Dev) (u : Nat) : Dev :=
    let n := tabGet 0 d.skim.skipped u
    (((d.put (SKM.U_BYTES_BYTES u) (tabGet 0 d.skim.bytes u)).put (SKM.U_UNITS_CHECKED u) (min 65535 (tabGet 0 d.skim.checked u))).put
      (SKM.U_UNITS_SKIPPED u) (min 65535 n)).flag (SKM.U_STAT_SAMPLED u) (n != 0)
  let link (d : Dev) (p : Nat) : Dev :=
    let l := d.link p
    ((d.put (FJL.P_RX_BYTES_BYTES p) l.rxBytes).put (FJL.P_TX_BYTES_BYTES p) l.txBytes).putLink p { l with rxBytes := 0, txBytes := 0 }
  let d3 := [0, 1, 2, 3].foldl link ([0, 1, 2, 3].foldl skim d2)
  let d4 := [0, 1, 2, 3].foldl (fun d c => d.put (MEM.DMA_LINES_LINES c) (tabGet 0 d.memsys.lines c)) d3
  let d5 := (List.range 16).foldl (fun d t => d.put (AVT.T_STAT_PKTS t) (tabGet 0 d.gate.talkCount t)) d4
  { d5 with
    arr := { d5.arr with planClk := 0, bgClk := 0, preempts := 0, maxLat := 0,
                         spent := (d5.arr.spent.filter (fun e => e.2.1 != 0)).map (fun e => (e.1, (0, e.2.1))) },
    skim := { d5.skim with bytes := [], checked := [], skipped := [] },
    memsys := { d5.memsys with lines := [] },
    gate := { d5.gate with talkCount := [] },
    plan := { d5.plan with waste := 0 },
    net := { d5.net with macsecRaised := [] },
    cmd := { d5.cmd with authRaised := false } }

/-! The tick that begins. -/

/-- A frame long past is brought nearer, so that comparisons of R29 keep their meaning. -/
def nearFrame (a f : Nat) : Nat :=
  let n := (a + 4294967296 - f % 4294967296) % 4294967296
  if 1048576 < n && n ≤ 2147483647 then frameAdd a (4294967296 - 524288) else f

/-- Array clocks that stages of frames before `k` still owe (R204). -/
def Dev.owedClocks (d : Dev) (k : Nat) : Nat :=
  let old (o : ArrOp) : Bool := match o.owner with
    | .job _ f => framePrecedes f k
    | .fallback _ f => framePrecedes f k
    | _ => false
  let ops := d.arr.plan ++ (match d.arr.running with
    | some (.plan, o) => [o]
    | _ => [])
  ((ops.filter old).map (fun o => d.clocksOf o * (o.tiles - o.done) / max 1 o.tiles)).foldl (· + ·) 0

/-- Clocks of a tick's stages that the plan itself lets run past the tick's end. -/
def Dev.plannedOwed (d : Dev) : Nat :=
  let ends := d.stageEnds (d.stages [] (d.tickUnits []))
  (ends.foldl max 0 - 16 * d.len * d.fArith) / max 1 (16 * d.fs)

/-- Boundaries for which a job whose result was late waits for that result (R56). -/
def lateTicks : Nat := 8

/-- One watch at a boundary to frame `a`: a job that is final leaves the ring once its late result is no longer waited for. -/
def Watch.nextTick (x : Watch) (a : Nat) : Watch :=
  { x with ring := x.ring.filter (fun j => !j.final || !framePrecedes (frameAdd j.frame lateTicks) a),
           first := if x.state.checks then nearFrame a x.first else x.first }

/-- FRAME_NO becomes `a`, and what older frames left behind goes. -/
def Dev.newTick (d : Dev) (a : Nat) : Dev :=
  let wraps := if a = 0 && d.frame = 4294967295 then d.gate.wraps + 1 else d.gate.wraps
  let t := (4294967296 * wraps + a) * d.len
  let old := frameAdd a 4294967293
  let owed := d.owedClocks (frameAdd a 4294967295) - d.plannedOwed
  let d1 := d.put TCK.FRAME_NO_FRAME_NO a
  let g := d1.gate
  let margins := if g.margins.all (fun e => framePrecedes (frameAdd e.1 8) a) then [] else g.margins
  { d1 with
    watch := { d1.watch with watches := d1.watch.watches.map (fun e => (e.1, e.2.nextTick a)) },
    skim := { d1.skim with jobs := d1.skim.jobs.filter (fun e => !framePrecedes (e.1 % 4294967296) old) },
    sig := { d1.sig with fails := d1.sig.fails.filter (fun f => t ≤ f.at_ + 8192) },
    arr := { d1.arr with shadow := d1.arr.shadow.filter (fun e => t ≤ e.1 / 16384 + 8192) },
    gate := { g with
      tick := t,
      wraps := wraps,
      inputs := g.inputs.filter (fun e => t ≤ e.1 / 128 + 8192),
      fallback := g.fallback.filter (fun e => t ≤ e.1 / 32 + 8192),
      outs := g.outs.map (fun e => (e.1, { e.2 with from_ := nearFrame a e.2.from_ })),
      margins := margins },
    plan := { d1.plan with
      boundaryAt := d1.now, planTasks := d1.plan.planTasks.filter (fun e => e.1 == a || d1.openInstance e.1), thinned := [], carried := owed,
      windowFrom := d1.plan.windowFrom.map (fun e => (e.1, nearFrame a e.2)) } }

/-! Jobs (R55, R58, R104, R133, R201, R307). -/

/-- The key of the permutation that samples a watch in an epoch (R95). -/
def Dev.sampleKey (d : Dev) (w : Nat) : Nat := (d.boot.step5At * 4294967296 + d.fld SKM.EPOCH_NO_EPOCH) * 4096 + w

/-- The first `c` places of a permutation of `pool`, drawn with a key and a frame (R104). -/
def drawPlaces (key k n : Nat) : Nat → List Nat → List Nat
  | 0, _ => []
  | c + 1, pool =>
    match pool with
    | [] => []
    | a :: rest =>
      let r := Config.secretOrder key k n c % (rest.length + 1)
      let x := (a :: rest).getD r a
      x :: drawPlaces key k n c ((a :: rest).erase x)

/-- The units that a job checks: columns, rows, or the stencil entry. -/
def Dev.drawSample (d : Dev) (w k c : Nat) : List Nat :=
  let n := d.units w
  match d.wdKind w with
  | 0 => if n ≤ c then List.range n else drawPlaces (d.sampleKey w) k n c (List.range n)
  | 1 => if n ≤ c then List.range n else drawPlaces (d.sampleKey w) k n c (List.range n)
  | 7 => [d.stnFirst w + Config.secretOrder (d.sampleKey w) k (d.stnCount w) 0 % d.stnCount w]
  | _ => []

/-- The column request of a job (R105, R269): a bitmap of D bits in records of 4 096 bytes. -/
def Dev.columnRequest (d : Dev) (w k : Nat) (cols : List Nat) : Dev :=
  let n := d.units w
  let map := (List.range ((n + 7) / 8)).map (fun b => BitVec.ofNat 8 (bitsOf 8 (fun i => cols.contains (8 * b + i))))
  (List.range ((map.length + 4095) / 4096)).foldl (fun d i =>
    d.sendRecord (d.wdPort w) 0x11 1 w k 0 0 (4096 * i) (n + 4294967296 * cols.length) (slice map (4096 * i) 4096)) d

/-- JOB_POST (R55): the job of watch `w` for frame `k`, in a tick with the stencil instances `stn`. -/
def Dev.postJob (k : Nat) (stn : List Nat) (d : Dev) (w : Nat) : Dev :=
  let x := d.watchOf w
  let full := 4 ≤ (x.ring.filter (fun j => j.posted && !j.final)).length
  let kind := d.wdKind w
  let c := d.unitsNow w stn
  let sample := d.drawSample w k c
  let j := { Job.start k (d.declared w) sample with
    posted := !full, epoch := d.fld SKM.EPOCH_NO_EPOCH, status := if kind ≤ 1 && sample == [] then 2 else 0 }
  let d1 := d.putWatch w { x with ring := x.ring ++ [j] }
  if full then d1.raise .s 68
  else
    let rows := if kind ≤ 1 then sample.length else d1.units w
    let d2 := { d1 with
      arr := { d1.arr with plan := d1.arr.plan ++ d1.stageOps w k rows },
      skim := if kind ≤ 1 then { d1.skim with skipped := tabUpd 0 d1.skim.skipped (d1.wdPort w) (· + (d1.units w - sample.length)) } else d1.skim }
    if kind = 0 && d2.linkSample (d2.wdPort w) then d2.columnRequest w k sample else d2

/-- The watch has a job for frame `k`: it checks it, and an STN watch has an instance in the tick (R201, R203). -/
def Dev.postsFor (d : Dev) (k : Nat) (w : Nat) : Bool :=
  (d.watchOf w).state.checks && d.inRange w k && (d.jobOf w k).isNone
    && (d.wdKind w != 7 || (d.stnInst w).any (fun i => i.tick == frameAdd k 1))

/-- ARMED becomes RUNNING at B(a + 1) (Table 02.9). -/
def Dev.startWatch (k : Nat) (d : Dev) (w : Nat) : Dev :=
  let x := d.watchOf w
  if x.state == .armed && d.inRange w k then d.putWatch w { x with state := .running } else d

/-- The fallback run of frame `k` in a slot (R307). -/
def Dev.postFallback (k : Nat) (d : Dev) (slot : Nat) : Dev :=
  if !d.on (SGT.FB_EN slot) || !d.modelRuns (d.fld (SGT.FB_MODEL_ID slot)) then d
  else
    let e := 16 * (d.frameStart k + 2 * d.len + d.marginOf k)
    let ops := markLast ((d.model (d.fld (SGT.FB_MODEL_ID slot))).ops.map (fun x => ArrOp.mk1 (.fallback slot k) e 7 d.now x 0))
    { d with arr := { d.arr with plan := d.arr.plan ++ ops, fbTries := tabErase d.arr.fbTries slot } }

/-- The TICK record of frame `a` on every ACTIVE port (R269). -/
def Dev.sendTicks (d : Dev) (a : Nat) : Dev :=
  let t := (d.tb 0).val
  [0, 1, 2, 3].foldl (fun d p => d.sendRecord p 0x10 1 0 a 0 0 0 (t.ns + 4294967296 * (t.sec % 4294967296)) []) d

/-- A cluster whose pair A is fenced while its pair B is split has no core to run its stages: its open jobs end ABORT (R488). -/
def Dev.clusterJobs (d : Dev) (c : Nat) : Dev :=
  if d.pairState (2 + 2 * c) != 4 || !d.pairSplit (3 + 2 * c) then d
  else
    (d.activeWatches.filter (fun w => (d.wdSrcType w == 0 && d.wdPort w == c) || d.stagePort w == some c)).foldl (fun d w =>
      (d.watchOf w).ring.foldl (fun d j =>
        if j.final || j.status == 2 then d else (d.putJob w { j with ended := true }).dropOps (.job w j.frame)) d) d

/-- The jobs of frame `k` at B(k + 1), the stencil instances of the tick first. -/
def Dev.postAll (d : Dev) (k wasted : Nat) : Dev :=
  let j := frameAdd k 1
  let d1 := d.activeWatches.foldl (Dev.startWatch k) d
  let d2 := (d1.activeWatches.filter (fun w => d1.wdKind w == 7)).foldl (Dev.openStencil j) d1
  let d3 := d2.forceStencils j wasted
  let stn := d3.dueStencils j
  let d4 := (d3.activeWatches.filter (d3.postsFor k)).foldl (Dev.postJob k stn) d3
  [0, 1, 2, 3].foldl Dev.clusterJobs ((List.range 8).foldl (Dev.postFallback k) d4)

/-! Time (R351) and the twin (R492, R500). -/

/-- TICK_ERROR_MEASURE. -/
def Dev.tickError (d : Dev) (k : Nat) : Dev :=
  match d.time.start with
  | none => d
  | some s =>
    if !d.on TIM.TICK_CFG_LOCK_EN || !d.reach .x then d
    else
      let e := d.tickNs - d.schedule s k
      let n := e.natAbs
      let out := d.fld TIM.TICK_CFG_WIN < n
      let d1 := (d.put TIM.TICK_ERR_ERR (ofSigned 16 (clampInt (-32767) 32767 e))).put TIM.TICK_STAT_MAXERR
        (max (d.fld TIM.TICK_STAT_MAXERR) (min 32767 n))
      let t := d1.time
      if out then
        let c := min 4 (t.outside + 1)
        let d2 := { d1 with time := { t with outside := c, inside := 0 } }
        if c = 4 && d2.on TIM.TICK_STAT_LOCKED then (d2.flag TIM.TICK_STAT_LOCKED false).raiseCause .x 433 else d2
      else
        let c := min 16 (t.inside + 1)
        let d2 := { d1 with time := { t with outside := 0, inside := c } }
        if c = 16 && !d2.on TIM.TICK_STAT_LOCKED then (d2.flag TIM.TICK_STAT_LOCKED true).cause 433 false else d2

/-- SYNC of frame `a` to the peer, and the own boundary in the comparison of R492. -/
def Dev.twinSync (d : Dev) (a : Nat) : Dev :=
  if !d.on TWN.CTRL_PAIR then d
  else
    let t := (d.tb 0).val
    ((d.bondSend 0x41 1 a (leBytes 6 t.sec ++ leBytes 4 t.ns ++ [0, 0])).syncOwn a (tmNs t)).twinRefresh

/-! The boundary. -/

/-- A window whose opening falls in the cycle of the boundary opens with it (R207). -/
def Dev.openWindows (d : Dev) (a : Nat) : Dev :=
  ((List.range 256).filter (fun w => d.on (SWD.CFG_EN w) && d.fld (SWD.TIME_OPEN w) == 0)).foldl (fun d w => d.windowOpen w a) d

/-- What ends every boundary: release of PASS channels, the exit from the safe state (R424), the status message (R376). -/
def Dev.boundaryEnd (d : Dev) : Dev :=
  let d1 := if d.snag.resumePending && !d.setAlarms.safeCause then d.safeExit else d
  (d1.dropHolds.passReturn).sendStatus 0

/-- The boundary B(a) of a running tick unit, a > 0. -/
def Dev.boundaryRun (d : Dev) (m : Mem) (failed : List Nat) : Dev :=
  let a := frameAdd d.frame 1
  let wasted := d.plan.waste
  let d1 := (d.closeTick.newTick a).captureApply ⟨a, false, false⟩
  let d2 := (d1.freqBoundary.replanStep).repairBoundary m failed
  let d3 := (if d2.swapReady then d2.epochSwap a else d2).startRetires
  let d4 := ((d3.sendTicks a).postAll (frameAdd a 4294967295) wasted).freeFormer
  let d5 := d4.slotBoundary ((d4.dueStencils a).any (fun w => (d4.stnInst w).any (fun i => i.forced)))
  let d6 := ((d5.openWindows a).planCheckins.tickError a).twinSync a
  d6.boundaryEnd

/-- What a new start leaves of the watches (R52, R544): open evaluations are dropped, and checking begins with frame 0. No watch changes its state:
a RETIRING one goes on until the release point of its last frame number (R53). -/
def Dev.restartWatches (d1 : Dev) : Dev :=
  let ws := d1.watch.watches.map (fun e =>
    (e.1, { e.2 with first := 0, ring := [], rpPassed := false, verdicts := [], holds := e.2.holds.map (fun _ => 4294967295) }))
  let running := match d1.arr.running with
    | some (.plan, o) => some (ArrQueue.plan, { o with aborted := true })
    | r => r
  { d1 with
    watch := { d1.watch with watches := ws },
    skim := { d1.skim with jobs := [] },
    sig := { d1.sig with lostDelay := [], lostEnergy := [], fails := [], blocks := 0,
                         seq := d1.sig.seq.map (fun e => (e.1, { e.2 with lastFrame := none })) },
    memsys := { d1.memsys with stages := [] },
    arr := { d1.arr with plan := [], stage := none, running := running, shadow := [], fbTries := [], spent := [] } }

/-- Output channels at a start (R34). -/
def OutCh.start (pass : Bool) (o : OutCh) : OutCh := if pass then { o with from_ := 0 } else { o with content := .subst, from_ := 0, cut := false }

/-- B(0) of a start: frame 0 begins. -/
def Dev.boundaryFirst (d : Dev) (m : Mem) (failed : List Nat) : Dev :=
  let d0 := { d with plan := { d.plan with starting := false } }
  let d1 := ((d0.closeTick.restartWatches).put TCK.FRAME_NO_FRAME_NO 0).newTick 0
  let g := { d1.gate with lastRp := none, margins := [], badEcc := [], fallback := [], inputs := [], talk := [], wraps := 0, tick := 0,
                          outs := d1.gate.outs.map (fun e => (e.1, e.2.start (d1.isPass e.1))) }
  let p := { d1.plan with stencils := [], windows := [], windowFrom := [], planTasks := [], carried := 0 }
  let t := { d1.twin with own := [], peer := [] }
  let d2 := { d1 with gate := g, plan := p, twin := t }.captureApply ⟨0, false, true⟩
  let d3 := if d2.skim.epochOpen then d2 else { d2 with skim := { d2.skim with epochOpen := true, swapAt := d2.now } }.startBuilds
  let locked := d3.on TIM.TICK_CFG_LOCK_EN
  let d4 := ((d3.flag TIM.TICK_STAT_LOCKED locked).put TIM.TICK_STAT_MAXERR 0).cause 433 false
  let d5 := ((d4.freqBoundary.replanStep).repairBoundary m failed).startRetires
  let d6 := ((d5.sendTicks 0).slotBoundary false).openWindows 0
  ((d6.planCheckins.tickError 0).twinSync 0).boundaryEnd

/-- A boundary at which the unit stops (R215): no frame begins, and what waits for a boundary happens at once. -/
def Dev.boundaryStop (d : Dev) (m : Mem) (failed : List Nat) : Dev :=
  let d1 := d.closeTick.captureApply ⟨0, true, false⟩
  let outs := d1.gate.outs.map (fun e => (e.1, if d1.isPass e.1 then e.2 else { e.2 with content := .subst, cut := false }))
  let d2 := ({ d1 with
    plan := { d1.plan with starting := false, stopping := false, windows := [], stencils := [] },
    gate := { d1.gate with outs := outs, margins := [] } }.flag TCK.CTRL_RUN false).captureStopped.cause 705 false
  let d3 := match d2.health.step with
    | none => d2
    | some (mhz, _) => ({ d2 with health := { d2.health with step := none } }).setFreq mhz
  let d4 := if d3.plan.replanIn.isSome || d2.health.step.isSome then d3.buildPlan else d3
  ((d4.repairBoundary m failed).startRetires).boundaryEnd

/-- TICK_BOUNDARY (R29). `failed`: engines whose pattern tests, run since the last boundary, have failed (R486). -/
def Dev.boundary (d : Dev) (m : Mem) (failed : List Nat) : Dev :=
  if !d.running || d.ladder.coreLost then d
  else if d.plan.stopping then d.boundaryStop m failed
  else if d.plan.starting then d.boundaryFirst m failed
  else d.boundaryRun m failed

def execTickBoundary (failed : List Nat) (s : State) : Host.Outcome State Fault Refusal := run s fun m d => d.boundary m failed

end Sys2Proof.Machine
end

