-- ==== Sys2Proof/Machine/Image.lean ====
section
/-!
DEFINITION. Images: the signed container (14 R450, R451), the model image with the checks of its load (05 R171 to R177, 06 R190, R198) and the
records of Topcoat (14 R460).
-/

namespace Sys2Proof.Machine

/-! Containers (Table 14.3). -/

/-- SHA-512 as bytes. -/
def shaBytes (x : List Byte) : List Byte := beBytes 64 (Config.sha512 x)

def imgKind (c : List Byte) : Nat := leAt c 6 1
def imgClass (c : List Byte) : Nat := leAt c 7 1
def imgVersion (c : List Byte) : Nat := leAt c 8 4
def imgKeyIndex (c : List Byte) : Nat := leAt c 12 1
def imgArbStep (c : List Byte) : Nat := leAt c 13 1
def imgCompat (c : List Byte) : Nat := leAt c 14 2
def imgBind (c : List Byte) : Nat := leAt c 24 8
def imgManifest (c : List Byte) : List Byte := c.take 256
def imgKeys (c : List Byte) : List Byte := slice c 256 1984
def imgPayload (c : List Byte) : List Byte := c.drop 5632

/-- What the signatures cover: "ZLZ-IMG" and the manifest. -/
def imgMessage (c : List Byte) : List Byte := [0x5A, 0x4C, 0x5A, 0x2D, 0x49, 0x4D, 0x47] ++ imgManifest c

/-- Check 1 of Table 14.4 for an image of a kind. ARM_STEP and COMPAT are 0 but for FIRMWARE, whose ARB_STEP is at most 64. -/
def imgLayoutOk (kind : Nat) (c : List Byte) : Bool :=
  c.length == 5632 + leAt c 16 8 && leAt c 0 4 == 0x5A434E54 && leAt c 4 2 == 1 && imgKind c == kind
    && allZero (slice c 96 160) && allZero (slice c 0x15ED 19)
    && (if kind = 1 then imgArbStep c ≤ 64 else imgArbStep c == 0 && imgCompat c == 0)

/-- The fused unique number (Table 14.2). -/
def deviceUid : Nat := Config.fuseUid 0 % 4294967296 + 4294967296 * (Config.fuseUid 1 % 4294967296)

/-- A fuse bit or field, as read: blown where either copy is (R448). -/
def fuseOr (f : Nat × Nat) : Nat := f.1 ||| f.2

/-- Check 2: the key class, a slot that is programmed and not revoked, and its digest. -/
def Dev.imgKeyOk (d : Dev) (kind : Nat) (c : List Byte) : Bool :=
  let k := imgKeyIndex c
  let hash := Config.sha512 (imgKeys c)
  if kind = 1 then
    imgClass c == 0 && k < 4 && !bit (fuseOr d.boot.fuses.vendorRevoke) k && hash == Config.vendorDigest k
  else
    let slot := fuseOr (if k = 0 then d.boot.fuses.owner0 else d.boot.fuses.owner1)
    imgClass c == 1 && k < 2 && slot != 0 && !bit d.boot.ownerRevoke k && hash == slot

/-- The first check of Table 14.4 that the container fails, 0 where it verifies; `bad4` makes it fail check 4. -/
def Dev.imgCheck (d : Dev) (kind : Nat) (bad4 : Bool) (c : List Byte) : Nat :=
  let keys := imgKeys c
  if !imgLayoutOk kind c then 1
  else if !d.imgKeyOk kind c then 2
  else if !Config.verify 0 (keys.take 32) (imgMessage c) (slice c 0x8C0 64) then 3
  else if bad4 || !Config.verify 1 (keys.drop 32) (imgMessage c) (slice c 0x900 3309) then 4
  else if shaBytes (imgPayload c) != slice c 32 64 then 5
  else if imgBind c != deviceUid && (imgBind c != 0 || kind == 3) then 6
  else if kind = 1 && imgArbStep c < d.fld SEC.ARB_FUSED then 7
  else 0

/-- The verification of a staged image. SEC_INJ mode 1 acts on the next one that reaches check 4 (Table 14.11); a failure raises SEC_IMG_REJECT. -/
def Dev.verifyStaged (d : Dev) (kind : Nat) (c : List Byte) : Nat × Dev :=
  let armed := d.on SEC.INJ_ARM && d.fld SEC.INJ_MODE == 1
  let r := d.imgCheck kind armed c
  let d1 := if armed && (r = 0 || 4 ≤ r) then d.flag SEC.INJ_ARM false else d
  (r, if r = 0 then d1 else d1.raise .s 520)

/-! Model images: sections (R171). -/

/-- Offset and length of section `i`. -/
def mSect (p : List Byte) (i : Nat) : Nat × Nat := (leAt p (0x28 + 8 * i) 4, leAt p (0x2C + 8 * i) 4)

/-- The bytes of a section. -/
def mBytes (p : List Byte) (i : Nat) : List Byte := slice p (mSect p i).1 (mSect p i).2

def mKind (p : List Byte) : Nat := leAt p 6 1
def mId (p : List Byte) : Nat := leAt p 8 2
def mLayers (p : List Byte) : Nat := leAt p 10 2
def mOps (p : List Byte) : Nat := leAt p 12 2

/-- Entry `i` of a section in entries of `n` bytes. -/
def mEntry (p : List Byte) (sect n i : Nat) : List Byte := slice (mBytes p sect) (n * i) n

/-- The sixteen words of a 64-byte entry. -/
def words16 (e : List Byte) : List Nat := (List.range 16).map (fun i => leAt e (4 * i) 4)

/-- A section starts at a multiple of 64 and lies behind the header inside the payload; an empty one has offset 0. -/
def sectIn (len : Nat) (s : Nat × Nat) : Bool :=
  if s.2 = 0 then s.1 == 0 else s.1 % 64 == 0 && 128 ≤ s.1 && s.1 + s.2 ≤ len

/-- Two sections have no byte in common. -/
def sectApart (a b : Nat × Nat) : Bool := a.2 == 0 || b.2 == 0 || a.1 + a.2 ≤ b.1 || b.1 + b.2 ≤ a.1

def sectsApart : List (Nat × Nat) → Bool
  | [] => true
  | s :: ss => ss.all (sectApart s) && sectsApart ss

/-- The header of Table 05.11 and its sections; WEIGHT_BYTES is the length of WEIGHTS (log entry 116). -/
def headerOk (p : List Byte) : Bool :=
  let k := mKind p
  let sects := (List.range 7).map (mSect p)
  let between (off n lo hi : Nat) : Bool := lo ≤ leAt p off n && leAt p off n ≤ hi
  128 ≤ p.length && leAt p 0 4 == 0x4C444D5A && leAt p 4 2 == 1 && k ≤ 1 && between 8 2 1 1023 && between 10 2 1 4096
    && leAt p 0x13 1 == 0 && leAt p 0x1C 4 == 0 && allZero (slice p 0x60 32)
    && (if k = 0 then leAt p 7 1 == 0 && mOps p == 0 && leAt p 14 1 == 0 && leAt p 15 1 == 0 && leAt p 16 2 == 0 && leAt p 18 1 == 255
          && (mSect p 1).2 == 0 && (mSect p 2).2 == 0 && (mSect p 3).2 == 0
        else leAt p 7 1 ≤ 3 && between 12 2 1 4096 && between 14 1 1 8 && between 15 1 1 4 && (mSect p 6).2 == 0)
    && sects.all (sectIn p.length) && sectsApart sects
    && leAt p 32 8 == (mSect p 5).2 && (mSect p 0).2 == 64 * mLayers p && (mSect p 1).2 == 64 * mOps p
    && (mSect p 2).2 % 16 == 0 && (mSect p 2).2 ≤ 65536 && (mSect p 3).2 == 4 * (leAt p 14 1 + leAt p 15 1)

/-! Layer entries and records (R173 to R175). -/

/-- Weight formats of Table 03.6. -/
def weightFmt (f : Nat) : Bool := f == 0 || f == 2 || (4 ≤ f && f ≤ 14)

/-- A requantisation record (R174). -/
def requantOk (r : List Byte) : Bool :=
  let mult := leAt r 0 4
  r.length == 16 && 0 < mult && mult < 2147483648 && leAt r 4 1 ≤ 62 && leAt r 5 1 ≤ 2 && leAt r 12 4 == 0

/-- A piecewise-linear table (R175) at an offset of a section. -/
def pwlOk (sect : List Byte) (off : Nat) : Bool :=
  let segs := leAt sect (off + 8) 2
  let step := fp32 (leAt sect (off + 4) 4)
  off + 16 + 8 * segs ≤ sect.length && 1 ≤ segs && segs ≤ 256 && allZero (slice sect (off + 10) 6)
    && (match step with | some y => Dy.zero.lt y | none => false)

/-- An offset into PARAMS that is absent, or leaves room for `n` bytes. -/
def offOk (len off n : Nat) : Bool := off == 0xFFFFFFFF || off + n ≤ len

/-- K elements along which a format's blocks lie: any number, or for an MX format a multiple of 32 (R149). -/
def blocksOk (fmt k : Nat) : Bool := fmt < 9 || k % 32 == 0

/-- A layer entry of Table 05.12. -/
def layerOk (p : List Byte) (i : Nat) : Bool :=
  let e := mEntry p 0 64 i
  let par := mBytes p 4
  let w (j : Nat) : Nat := leAt e (4 * j) 4
  let form := bitsAt (w 1) 2 0
  let bias := bit (w 1) 3
  let bf := bitsAt (w 1) 11 8
  let m := bitsAt (w 0) 15 0 + 1
  let v := bitsAt (w 3) 15 0 + 1
  form ≤ 2 && w 1 < 4096 && weightFmt (bitsAt (w 1) 7 4) && blocksOk (bitsAt (w 1) 7 4) (bitsAt (w 0) 31 16 + 1) && !(form == 2 && bias) && (form == 1 || w 2 == 0) && w 3 < 131072
    && leAt e 16 8 + leAt e 24 8 ≤ (mSect p 5).2
    && (!bias || ((bf == 3 || bf == 6 || bf == 7 || bf == 8) && w 8 + m * fmtBytes bf ≤ par.length))
    && offOk par.length (w 8) 0 && offOk par.length (w 9) (8 * v + 4)
    && (w 10 == 0xFFFFFFFF || requantOk (slice par (w 10) 16)) && (w 11 == 0xFFFFFFFF || pwlOk par (w 11))
    && allZero (slice e 48 16)

/-! Tensors and inputs (R172). -/

def mTensors (p : List Byte) : Nat := (mSect p 2).2 / 16

/-- BYTES, FMT, PLACE and SRC_OFF of a tensor. -/
def tensorAt (p : List Byte) (i : Nat) : Nat × Nat × Nat × Nat :=
  let e := mEntry p 2 16 i
  (leAt e 0 4, leAt e 4 1, leAt e 5 1, leAt e 8 4)

/-- A tensor entry. -/
def tensorOk (p : List Byte) (i : Nat) : Bool :=
  let e := mEntry p 2 16 i
  let (n, f, place, off) := tensorAt p i
  f ≤ 14 && place ≤ 4 && leAt e 6 2 == 0 && leAt e 12 4 == 0
    && (if place = 1 || place = 2 then off + n ≤ (mSect p 5).2 else place != 3 || off + n ≤ (mSect p 4).2)

/-- An input or output: N FP32 samples. -/
def ioOk (p : List Byte) (i : Nat) : Bool :=
  let x := leAt (mEntry p 3 4 i) 0 4
  let t := tensorAt p x
  x < mTensors p && t.2.1 == 8 && t.1 == 4 * leAt p 16 2

/-! Stencil entries (R198, Table 06.3). -/

def stencilCount (p : List Byte) : Nat := leAt (mBytes p 6) 0 2

/-- Entry `i` of the STENCIL section. -/
def stencilEntry (p : List Byte) (i : Nat) : List Byte := slice (mBytes p 6) (16 + 32 * i) 32

def stencilOk (p : List Byte) (i : Nat) : Bool :=
  let s := (mSect p 6).2
  let e := stencilEntry p i
  let w (j : Nat) : Nat := leAt e (4 * j) 4
  w 0 % 64 == 0 && 1 ≤ w 1 && w 1 ≤ 16777216 && w 2 % 64 == 0 && leAt e 20 1 ≤ 14 && leAt e 21 1 ≤ 14 && allZero (slice e 22 10)
    && w 0 + w 1 ≤ s && w 2 + w 3 ≤ s

def stencilSectOk (p : List Byte) : Bool :=
  (mSect p 6).2 == 0 || (1 ≤ stencilCount p && stencilCount p ≤ 4096 && allZero (slice (mBytes p 6) 2 14)
    && 16 + 32 * stencilCount p ≤ (mSect p 6).2 && (List.range (stencilCount p)).all (stencilOk p))

/-! The loader's own computation of ACT_BYTES and RES_BYTES (Table 05.13, code 2). -/

/-- The sixteen words of operation `i`, as the image holds them. -/
def opAt (p : List Byte) (i : Nat) : List Nat := words16 (mEntry p 1 64 i)

/-- Activation tensors, and the two copies of the state tensors (R196), per cluster. -/
def actNeed (p : List Byte) : Nat :=
  (List.range (mTensors p)).foldl (fun a i =>
    let t := tensorAt p i
    if t.2.2.1 = 0 then a + t.1 else if t.2.2.1 = 4 then a + 2 * t.1 else a) 0

/-- Bytes that cluster `u` holds of the weights of one GEMM-class operation, whose tile t runs on engine t mod 16 (R157): operand A in blocks of
32 rows, or operand B in blocks of 32 columns, by slices of K. -/
def tileShare (desc : List Nat) (isA : Bool) (u : Nat) : Nat :=
  let (_, s, k1, _) := gemmTiling desc
  let mb := cdiv (opM desc) 32
  let nb := cdiv (opN desc) 32
  let blocks := if isA then mb else nb
  let lines := if isA then opM desc else opN desc
  let f := if isA then opA desc else opB desc
  let other := if isA then nb else mb
  (List.range blocks).foldl (fun a b =>
    (List.range s).foldl (fun a x =>
      let here := (List.range other).any (fun o =>
        let t := if isA then (o * mb + b) * s + x else (b * mb + o) * s + x
        t % 16 / 4 == u)
      if here then a + min 32 (lines - 32 * b) * spanBytes f (min k1 (opK desc - k1 * x)) else a) a) 0

/-- Bytes of resident tensor `i` in cluster `u`: its share by the first operation whose operand it is, or the whole tensor. -/
def residentIn (p : List Byte) (u i : Nat) : Nat :=
  let ops := (List.range (mOps p)).map (opAt p)
  match ops.find? (fun o => opGemm o && (o.getD 4 0 == i + 1 || o.getD 5 0 == i + 1)) with
  | some o => tileShare o (o.getD 4 0 == i + 1) u
  | none => (tensorAt p i).1

/-- Resident weight bytes of the fullest cluster. -/
def resNeed (p : List Byte) : Nat :=
  [0, 1, 2, 3].foldl (fun a u =>
    max a (((List.range (mTensors p)).filter (fun i => (tensorAt p i).2.2.1 == 1)).foldl (fun b i => b + residentIn p u i) 0)) 0

/-! Records in the tensors of operations (R174, R175). -/

/-- The bytes that the image holds for a tensor: weights, streamed or resident, and parameters. -/
def tensorData (p : List Byte) (i : Nat) : Option (List Byte) :=
  let (n, _, place, off) := tensorAt p i
  if place = 1 || place = 2 then some (slice (mBytes p 5) off n) else if place = 3 then some (slice (mBytes p 4) off n) else none

/-- The requantisation records or the piecewise-linear table that H_AUX of an operation names, where the image holds them. -/
def auxOk (p : List Byte) (o : List Nat) : Bool :=
  let aux := o.getD 8 0
  let sub := o.getD 11 0
  match (if aux = 0 || mTensors p < aux then none else tensorData p (aux - 1)) with
  | none => true
  | some x =>
    match opCode o with
    | 0x14 => (List.range (if bit sub 0 then opM o else 1)).all (fun r => requantOk (slice x (16 * r) 16))
    | 0x10 => !((sub % 256 == 8 || sub % 256 == 9) && bitsAt sub 11 8 == 6) || pwlOk x 0
    | _ => true

/-- The image keeps R171 to R175 and R198 (MODEL_FORMAT). -/
def formatOk (p : List Byte) : Bool :=
  headerOk p && (List.range (mLayers p)).all (layerOk p) && (List.range (mTensors p)).all (tensorOk p)
    && (List.range (leAt p 14 1 + leAt p 15 1)).all (ioOk p) && stencilSectOk p && (List.range (mOps p)).all (fun i => auxOk p (opAt p i))
    && (mKind p == 0 || (actNeed p ≤ leAt p 20 4 && resNeed p ≤ leAt p 24 4))

/-! Descriptors (R161, R162). -/

/-- Shape rules of the GEMM class (Table 05.5, R148, R149, R153). DESIGN CHOICE (log entry 113): an integer pair takes an integer accumulator, and a
float pair FP32. -/
def gemmOk (o : List Nat) : Bool :=
  let code := opCode o
  let dft := code == 4
  let fwd := !bit (o.getD 11 0) 0
  let l := if fwd then opK o else opM o
  let two := if fwd then opM o else opK o
  let acc := opAcc o
  let intPair := opA o ≤ 2
  rho4 (opA o) (if dft && opB o == 15 then opA o else opB o) acc != 0
    && (if intPair then acc != 0 else acc == 0) && (acc != 2 || opOut o == 3)
    && (code != 2 || opN o == 1)
    && (code != 3 || opK o == (bitsAt (o.getD 3 0) 31 16 + 1) * (bitsAt (o.getD 3 0) 5 0 + 1))
    && blocksOk (opA o) (opK o) && (dft || blocksOk (opB o) (opK o))
    && (!dft || ((opA o == 6 || opA o == 7) && o.getD 11 0 ≤ 1 && l % 2 == 0 && 16 ≤ l && l ≤ 4096 && two == 2 * (l / 2 + 1)))

/-- The operation and its sub-function are defined. -/
def opcodeOk (o : List Nat) : Bool :=
  let sub := o.getD 11 0
  match opCode o with
  | 1 => gemmOk o
  | 2 => gemmOk o
  | 3 => gemmOk o
  | 4 => gemmOk o
  | 0x10 => sub < 8192 && sub % 256 ≤ 12 && blocksOk (opA o) (opK o) && (sub % 256 != 8 && sub % 256 != 9 || bitsAt sub 11 8 ≤ 6)
  | 0x11 => sub ≤ 5
  | 0x12 => sub ≤ 1
  | 0x13 => true
  | 0x14 => sub ≤ 1
  | 0x21 => sub ≤ 2
  | _ => false

/-- A descriptor of a RUN image (MODEL_OP_INVALID otherwise). -/
def descriptorOk (p : List Byte) (i : Nat) : Bool :=
  let o := opAt p i
  let w (j : Nat) : Nat := o.getD j 0
  w 0 < 134217728 && bitsAt (w 0) 26 25 ≤ 2 && opAcc o ≤ 2 && opA o ≤ 14 && opB o ≤ 14 && opOut o ≤ 14 && w 2 < 65536
    && (opCode o == 3 || w 3 == 0) && w 12 == 0 && w 13 == 0 && w 14 == 0
    && [4, 5, 6, 7, 8].all (fun j => w j ≤ mTensors p) && opcodeOk o

/-! Loading (R176). -/

/-- 64 KiB pages of HBM that a model holds: weights, parameters and stencil entries (Table 07.3). -/
def Model.pageCount (m : Model) : Nat := cdiv (m.weightBytes + m.params.length + m.stencilSect.length) 65536

/-- Pages of the general region. -/
def generalPages : Nat := 243456

/-- Models that are not EMPTY. -/
def Dev.heldModels (d : Dev) : List (Nat × Model) := d.arr.models.filter (fun e => e.2.state != 0)

/-- Pages that the image stages hold (R374): a TOKEN stage lies in S-die SRAM. -/
def Dev.stagePages (d : Dev) : Nat :=
  (d.cmd.stages.map (fun e => match e.2 with | some s => if s.kind = 3 then 0 else cdiv s.size 65536 | none => 0)).foldl (· + ·) 0

/-- Pages of the general region that models hold, or that are retired (R245). -/
def Dev.takenPages (d : Dev) : List Nat :=
  d.heldModels.flatMap (fun e => e.2.pages) ++ d.memsys.gone.filter (fun p => Nat.ble 18688 p)

/-- Free pages of the general region. -/
def Dev.freePages (d : Dev) : Nat := generalPages - d.takenPages.length - d.stagePages

/-- The `n` lowest free pages of the general region (log entry 29). -/
def Dev.takePages (d : Dev) (n : Nat) : List Nat :=
  let used := d.takenPages
  (((List.range (n + used.length)).map (· + 18688)).filter (fun p => !used.contains p)).take n

/-- The lowest place at which `n` units fit between the ranges in use. -/
def firstFit (used : List (Nat × Nat)) (start n : Nat) : Nat :=
  let free (a : Nat) : Bool := used.all (fun u => u.1 + u.2 ≤ a || a + n ≤ u.1)
  (start :: used.map (fun u => u.1 + u.2)).foldl (fun best a => if free a && a < best then a else best) 1000000000

/-- Layer entries in use. -/
def Dev.layersHeld (d : Dev) : Nat := (d.heldModels.map (fun e => e.2.nLayers)).foldl (· + ·) 0

/-- LAYER_BASE of a model with `n` layer entries: the first gap, or behind the entries in use once they are packed. -/
def Dev.layerBase (d : Dev) (n : Nat) : Nat :=
  let b := firstFit (d.heldModels.map (fun e => (e.2.layerBase, e.2.nLayers))) 0 n
  if b + n ≤ 65536 then b else d.layersHeld

/-- Pack layer entries: each model's follow those of the model before it. -/
def packLayers (base : Nat) : Tab Model → Tab Model
  | [] => []
  | e :: es => (e.1, { e.2 with layerBase := base }) :: packLayers (base + e.2.nLayers) es

/-- The tensor handle of tensor index plus 1 of a model, 0 for none (R172, R228). -/
def modelHandle (id x : Nat) : Nat := if x = 0 then 0 else 2147483648 + (4095 + id) * 262144 + (x - 1)

/-- A descriptor with its tensor indices replaced by handles. -/
def linkOp (id : Nat) (o : List Nat) : List Nat :=
  (List.range 16).map (fun j => if 4 ≤ j && j ≤ 8 then modelHandle id (o.getD j 0) else o.getD j 0)

/-- The directory entry of an image, LOADING. -/
def Dev.modelEntry (d : Dev) (p : List Byte) : Model :=
  let ops := (List.range (mOps p)).map (fun i => linkOp (mId p) (opAt p i))
  let m : Model := { Model.empty with
    state := 1, kind := mKind p, flags := leAt p 7 1, nLayers := mLayers p, nOps := mOps p, layerBase := d.layerBase (mLayers p),
    nIn := leAt p 14 1, nOut := leAt p 15 1, frameLen := leAt p 16 2, fsSel := leAt p 18 1, actBytes := leAt p 20 4, resBytes := leAt p 24 4,
    weightBytes := leAt p 32 8, digest := shaBytes p, layers := (List.range (mLayers p)).map (fun i => words16 (mEntry p 0 64 i)), ops := ops,
    tensors := (List.range (mTensors p)).map (tensorAt p), io := (List.range (leAt p 14 1 + leAt p 15 1)).map (fun i => leAt (mEntry p 3 4 i) 0 4),
    stencils := (List.range (stencilCount p)).map (fun i => (List.range 8).map (fun j => leAt (stencilEntry p i) (4 * j) 4)),
    params := mBytes p 4, stencilSect := mBytes p 6 }
  { m with pages := d.takePages m.pageCount, runClk16 := m.runClocks 16 }

/-- Region bytes of a cluster that loaded RUN models leave free (R179, R218). -/
def Dev.freeRegion (d : Dev) (act : Bool) : Nat :=
  65536 * (if act then d.fld MTX.CTRL_ACT_PAGES else d.fld MTX.CTRL_RES_PAGES)
    - ((d.heldModels.filter (fun e => e.2.kind == 1)).map (fun e => if act then e.2.actBytes else e.2.resBytes)).foldl (· + ·) 0

/-- Load status codes 0 and 2 to 8 of Table 05.13 for a payload whose container has verified. -/
def Dev.loadStatus (d : Dev) (p : List Byte) : Nat :=
  let m := d.modelEntry p
  if !formatOk p then 2
  else if (d.model (mId p)).state != 0 then 3
  else if 65536 < d.layersHeld + m.nLayers then 4
  else if d.freePages < m.pageCount then 5
  else if !(List.range (mOps p)).all (descriptorOk p) then 6
  else if m.kind = 1 && d.freeRegion false < m.resBytes then 7
  else if m.kind = 1 && (m.frameLen != d.len || m.fsSel != d.fld TCK.FRAME_FS_SEL) then 8
  else 0

/-- Give the directory an entry. -/
def Dev.putModel (d : Dev) (id : Nat) (m : Model) : Dev := { d with arr := { d.arr with models := tabSet .empty d.arr.models id m } }

/-- Give the directory the entry of a model that is to load. Where no gap holds its layer entries, those in use are packed (DESIGN CHOICE, log
entry 117). -/
def Dev.installEntry (d : Dev) (id : Nat) (m : Model) : Dev :=
  let gap := firstFit (d.heldModels.map (fun e => (e.2.layerBase, e.2.nLayers))) 0 m.nLayers + m.nLayers ≤ 65536
  (if gap then d else { d with arr := { d.arr with models := packLayers 0 d.arr.models } }).putModel id m

/-- Forget the tensors of a model: its state tensors read 0 (R172). -/
def Dev.clearTensors (d : Dev) (id : Nat) : Dev :=
  { d with arr := { d.arr with tensors := d.arr.tensors.filter (fun e => e.1 / 16384 != id) } }

/-- A load of a verified payload is refused with MODEL_OVER_BUDGET (R190). -/
def Dev.loadOver (d : Dev) (id : Nat) (m : Model) : Bool :=
  m.kind == 1 && ((bit m.flags 1 && !(d.putModel id { m with state := 2 }).planFits)
    || ((d.putModel id .empty).freeRegion true < m.actBytes))

/-- Writes of a model's weights to its pages. -/
def Model.weightWrites (m : Model) (weights : List Byte) : List MemWrite := weights.zipIdx.map (fun b => ⟨m.weightAddr b.2, b.1, .sound⟩)

/-- The image is kept: its entry is LOADED, its weights lie in HBM, its context opens (R229), L takes its digest (R470), and what depends on the
models follows (R180, R493). -/
def Dev.keepModel (d : Dev) (id : Nat) (m : Model) (weights : List Byte) : Dev :=
  let m1 := { m with state := 2, loadFrame := if d.running then d.frame else 0 }
  let d1 := (((d.clearTensors id).putModel id m1).store (m.weightWrites weights)).setContext (modelCtx id) true
  let d2 := { d1 with boot := { d1.boot with loaded := shaBytes ((if d1.boot.loaded = [] then zeroBytes 64 else d1.boot.loaded) ++ m1.digest) } }
  d2.replan.configDigest

/-! Topcoat records (R460, Table 14.6). -/

/-- One record of Topcoat. -/
inductive TcRecord where
  | reg (pairs : List (Nat × Nat))
  | ctrlKey (index : Nat) (key : CtrlKey)
  | statusKey (key : List Byte)
  | chime (index fsSel : Nat) (samples : List Nat)
  | bootModel (chip offset length : Nat)
  | malformed
  deriving DecidableEq, Repr

/-- `n` pairs of words. -/
def wordPairs (x : List Byte) (n : Nat) : List (Nat × Nat) := (List.range n).map (fun i => (leAt x (8 * i) 4, leAt x (8 * i + 4) 4))

/-- The record of a type with its data. -/
def tcRecord (type : Nat) (x : List Byte) : TcRecord :=
  let n := x.length
  match type with
  | 1 => if n % 8 = 0 then .reg (wordPairs x (n / 8)) else .malformed
  | 2 =>
    if n = 1988 && leAt x 0 1 ≤ 15 && leAt x 1 1 ≤ 2 && leAt x 2 2 = 0 then .ctrlKey (leAt x 0 1) ⟨leAt x 1 1, slice x 4 32, slice x 36 1952⟩
    else .malformed
  | 3 => if n = 32 then .statusKey x else .malformed
  | 4 =>
    if 4 ≤ n && n % 4 = 0 && leAt x 0 1 ≤ 15 && leAt x 1 1 ≤ 6 && leAt x 2 2 = 0 then
      .chime (leAt x 0 1) (leAt x 1 1) ((List.range (n / 4 - 1)).map (fun i => leAt x (4 + 4 * i) 4))
    else .malformed
  | 5 => if n = 12 && leAt x 0 1 ≤ 1 && allZero (slice x 1 3) then .bootModel (leAt x 0 1) (leAt x 4 4) (leAt x 8 4) else .malformed
  | _ => .malformed

/-- `n` records from the front of the bytes; one that runs past the end or is not padded with zeros is malformed, and ends the list. -/
def tcRecords : Nat → List Byte → List TcRecord
  | 0, _ => []
  | n + 1, x =>
    let len := leAt x 2 2
    let whole := cdiv len 4 * 4
    if x.length < 4 + whole || !allZero (slice x (4 + len) (whole - len)) then [.malformed]
    else tcRecord (leAt x 0 2) (slice x 4 len) :: tcRecords n (x.drop (4 + whole))

/-- The records of a Topcoat payload. -/
def tcPayload (p : List Byte) : List TcRecord := if p.length < 8 then [.malformed] else tcRecords (leAt p 0 4) (p.drop 8)

/-- SEQ of a Topcoat payload. -/
def tcSeq (p : List Byte) : Nat := leAt p 4 4

end Sys2Proof.Machine
end

