-- ==== Sys2Proof/Machine/Security.lean ====
section
/-!
DEFINITION. Security (chapter 14): the token challenge and tokens, the seal, maintenance and debug, slots and trials, the entropy test, injection, and
the end of sessions (11 R366).
-/

namespace Sys2Proof.Machine

/-! Sessions end. -/

/-- A session is closed. What it left under way runs on, and answers to no later session of its number (R366). -/
def Dev.dropSession (d : Dev) (n : Nat) : Dev :=
  let c := d.cmd
  let c1 : Cmd := { c with
    sessions := tabSet none c.sessions n none, partials := c.partials.filter (fun p => p.session != n),
    stages := c.stages.filter (fun e => match e.2 with | some s => s.session != n | none => true),
    commitWait := c.commitWait.map (fun w => if w.session = n then { w with session := 0 } else w) }
  let b : Boot := { d.boot with
    installs := d.boot.installs.map (fun i => if i.session = n then { i with session := 0 } else i),
    hppr := d.boot.hppr.map (fun h => if h.1 = n then (0, h.2) else h) }
  let t : Twin := { d.twin with handover := d.twin.handover.map (fun h =>
    { h with waiting := h.waiting.map (fun w => if w.1 = n then (0, w.2) else w) }) }
  let a : Arr := { d.arr with loads := d.arr.loads.map (fun l => if l.session = n then { l with session := 0 } else l) }
  { d with cmd := c1, boot := b, twin := t, arr := a }

/-- SESSION_END with a reason, then the session ends (R366). -/
def Dev.endSession (d : Dev) (n reason : Nat) : Dev :=
  if (d.session n).isSome then (d.event n 15 (beBytes 1 reason ++ [0, 0, 0])).dropSession n else d

/-- Every session ends. -/
def Dev.endSessions (d : Dev) (reason : Nat) : Dev := sessionNumbers.foldl (fun d n => d.endSession n reason) d

/-! Challenge and tokens (R467). -/

/-- A new token challenge. -/
def Dev.newChal (d : Dev) : Dev :=
  let (ws, d1) := d.drbgWords 8
  (List.range 8).foldl (fun d i => d.put (SEC.TOKEN_CHAL_CHAL i) (ws.getD i 0)) d1

/-- SEC_TOKEN_CHAL as bytes. -/
def Dev.challenge (d : Dev) : List Byte := (List.range 8).flatMap (fun i => leBytes 4 (d.fld (SEC.TOKEN_CHAL_CHAL i)))

/-- A token payload of a type fits Table 14.7 and carries the challenge. -/
def Dev.tokenOk (d : Dev) (type : Nat) (p : List Byte) : Bool :=
  p.length == 64 && leAt p 0 1 == type && leAt p 1 1 ≤ 1 && leAt p 2 2 == 0 && allZero (slice p 12 20) && slice p 32 32 == d.challenge
    && (type == 2 || (leAt p 1 1 == 0 && 1 ≤ leAt p 8 4 && leAt p 8 4 ≤ 86400 && leAt p 4 4 / 1024 % 64 == 0 && leAt p 4 4 < 262144))

/-- The token engine: true where the container holds an accepted token. Either way the challenge is drawn anew; a refusal raises
SEC_TOKEN_REJECT. -/
def Dev.takeToken (d : Dev) (type : Nat) (c : List Byte) : Bool × Dev :=
  let (r, d1) := d.verifyStaged 3 c
  let ok := r == 0 && d1.tokenOk type (imgPayload c)
  (ok, (if ok then d1 else d1.raise .s 519).newChal)

/-- An UNSEAL token opens the seal (R465), and with REVOKE blows the revocation bit of the other owner slot (R469). -/
def Dev.unseal (d : Dev) (c : List Byte) : Dev :=
  let f := d.boot.fuses
  let m := if leAt (imgPayload c) 1 1 = 1 then 2 ^ (1 - imgKeyIndex c) else 0
  let fuses : Fuses := { f with ownerRevoke := (f.ownerRevoke.1 ||| m, f.ownerRevoke.2 ||| m) }
  { d with boot := { d.boot with fuses := fuses } }.flag SEC.STATE_SEALED false

/-- A DEBUG token opens the debug port (R468). -/
def Dev.openDebug (d : Dev) (c : List Byte) : Dev :=
  let scope := leAt (imgPayload c) 4 4
  let until_ := d.now + sCycles (leAt (imgPayload c) 8 4)
  (({ d with boot := { d.boot with debugUntil := some until_, debugScope := scope } }.flag SEC.STATE_DEBUG_OPEN true).put SEC.DEBUG_PAIRS
    (scope % 1024)).raiseCause .s 517

/-! Restarts by command. -/

/-- A warm restart falls due; the first one asked for stays. -/
def Dev.restartDue (d : Dev) (due cause : Nat) : Dev :=
  match d.cmd.restartAt with
  | some _ => d
  | none => { d with cmd := { d.cmd with restartAt := some (due, cause) } }

/-- Debug closes, which is a warm restart with cause 3 (R468). -/
def Dev.closeDebug (d : Dev) : Dev := if d.on SEC.STATE_DEBUG_OPEN then d.restartDue d.now 3 else d

/-! Maintenance state (R466). -/

/-- The device enters maintenance state. -/
def Dev.enterMaint (d : Dev) : Dev := (d.flag SEC.STATE_MAINT true).raiseCause .s 516

/-! Slots and trials (R457). -/

/-- NEXT and TRIAL are written; the slot to return to is the one in NEXT before the trial was asked for. -/
def Dev.selectSlot (d : Dev) (next : Nat) (trial : Bool) : Dev :=
  let prev := if d.on SEC.BOOT_SEL_TRIAL then d.boot.previous else d.fld SEC.BOOT_SEL_NEXT
  ({ d with boot := { d.boot with previous := prev } }.put SEC.BOOT_SEL_NEXT next).flag SEC.BOOT_SEL_TRIAL trial

/-- The running boot is a trial that has neither passed nor failed. -/
def Dev.trialOpen (d : Dev) : Bool := d.on SEC.BOOT_STAT_TRIAL && d.on SEC.BOOT_SEL_TRIAL && !d.on SEC.STATE_BOOT_DONE

/-- TRIAL_S has passed since step 5. -/
def Dev.trialLate (d : Dev) : Bool := d.boot.step5At + sCycles (d.fld SEC.CTRL_TRIAL_S) < d.now

/-- A failed trial: NEXT returns to the previous slot, and SEC_TRIAL_REVERT is raised at the next boot. -/
def Dev.revertTrial (d : Dev) : Dev :=
  { (d.put SEC.BOOT_SEL_NEXT d.boot.previous).flag SEC.BOOT_SEL_TRIAL false with boot := { d.boot with revertDue := true } }

/-- TRIAL_TIMEOUT (R457). -/
def execTrialTimeout (s : State) : Host.Outcome State Fault Refusal :=
  run s fun _ d => if d.trialOpen && d.boot.haltAt.isNone && d.trialLate then d.revertTrial else d

/-- A write of SEC_BOOT_SEL (R474). -/
def Dev.bootSelWrite (d : Dev) (mid v : Nat) : Dev :=
  if trusted mid then (d.selectSlot (bitsAt v 0 0) (bit v 8)).answer .done else d.answer .error

/-- SEC_BOOT_SEL_WRITE (R457). -/
def execSecBootSelWrite (mid value : Nat) (s : State) : Host.Outcome State Fault Refusal := run s fun _ d => d.bootSelWrite mid value

/-! The measurement register (R470). -/

/-- SEC_MEASURE as bytes. -/
def Dev.measure (d : Dev) : List Byte := (List.range 16).flatMap (fun i => leBytes 4 (d.fld (SEC.MEASURE_M i)))

/-- M = SHA-512(M ‖ x). -/
def Dev.extend (d : Dev) (x : List Byte) : Dev :=
  let m := shaBytes (d.measure ++ x)
  (List.range 16).foldl (fun d i => d.put (SEC.MEASURE_M i) (leAt m (4 * i) 4)) d

/-! SEC_CMD (Table 14.11, R474). -/

/-- A write discarded under R13. -/
def Dev.discard (d : Dev) : Dev := (d.raise .s 0).answer .discarded

/-- BOOT_DONE (R464): once per boot, by firmware. The seal locks, the measurement is complete, and a trial in time passes (R457). -/
def Dev.bootDone (d : Dev) (mid : Nat) : Dev :=
  if 1 < mid || d.on SEC.STATE_BOOT_DONE || d.boot.haltAt.isSome then d.discard
  else
    let d1 :=
      if !d.trialOpen then d
      else if d.trialLate then d.revertTrial
      else { d.flag SEC.BOOT_SEL_TRIAL false with boot := { d.boot with arbDue := true } }
    (((d1.flag SEC.STATE_BOOT_DONE true).flag SEC.STATE_SEALED true).extend [1]).answer .done

/-- ARB_ADVANCE (R458): maintenance state only. `ok` says that each blow reads back. -/
def Dev.arbWrite (d : Dev) (ok : Bool) : Dev := if d.on SEC.STATE_MAINT then (d.arbAdvance ok).answer .done else d.discard

/-- BOOT_DONE (R464). -/
def execBootDone (mid : Nat) (s : State) : Host.Outcome State Fault Refusal :=
  run s fun _ d => if trusted mid then d.bootDone mid else d.answer .error

/-- ARB_ADVANCE (R458). -/
def execArbAdvance (mid : Nat) (ok : Bool) (s : State) : Host.Outcome State Fault Refusal :=
  run s fun _ d => if trusted mid then d.arbWrite ok else d.answer .error

/-- NEW_CHAL (R467). -/
def execNewChal (mid : Nat) (s : State) : Host.Outcome State Fault Refusal :=
  run s fun _ d => if trusted mid then d.newChal.answer .done else d.answer .error

/-- One action of a write of SEC_CMD; a discard anywhere shows in the response. -/
def Dev.cmdAct (d : Dev) (act : Bool) (f : Dev → Dev) : Dev :=
  if act then
    let d1 := f d
    if d.resp = .discarded then d1.answer .discarded else d1
  else d

/-- A write of SEC_CMD, its bits from the lowest up. Whether a blow reads back is a free value. -/
def Dev.secCmdWrite (d : Dev) (mid v : Nat) : Dev :=
  if !trusted mid then d.answer .error
  else
    let d1 := (d.answer .done).cmdAct (bit v 0) (fun d => d.bootDone mid)
    let d2 := d1.cmdAct (bit v 1) (fun d => let (x, e) := d.draw; e.arbWrite (x % 2 == 0))
    let d3 := d2.cmdAct (bit v 2) (fun d => d.closeDebug.answer .done)
    d3.cmdAct (bit v 3) (fun d => d.newChal.answer .done)

/-! Entropy (R455) and injection. -/

/-- A health test of the entropy source. A failed one stops table rebuilds, a passed one lets them go on (R95). SEC_INJ mode 2 makes the next one fail. -/
def Dev.entropyTest (d : Dev) (ok : Bool) : Dev :=
  let inj := d.on SEC.INJ_ARM && d.fld SEC.INJ_MODE == 2
  let d1 := if inj then d.flag SEC.INJ_ARM false else d
  if ok && !inj then ((d1.flag SEC.STATE_ENTROPY_OK true).cause 518 false).startBuilds
  else (((d1.flag SEC.STATE_ENTROPY_OK false).raiseInj .s 518 0 inj).cause 518 true).stopBuilds

/-- ENTROPY_HEALTH_TEST (R455). -/
def execEntropyHealthTest (ok : Bool) (s : State) : Host.Outcome State Fault Refusal := run s fun _ d => d.entropyTest ok

/-- A write of SEC_INJ (Table 14.11); a key-store parity fault acts at once (R449). -/
def Dev.secInjWrite (d : Dev) (v : Nat) : Dev :=
  let mode := bitsAt v 1 0
  if injTaken (d.on SEC.INJ_ARM) v (mode != 0) then
    let d1 := (d.put SEC.INJ_MODE mode).answer .done
    if !bit v 31 then d1 else if mode = 3 then d1.raiseInjected .s 523 else d1.flag SEC.INJ_ARM true
  else d.answer .discarded

/-- SEC_INJ (R474). -/
def execSecInj (value : Nat) (s : State) : Host.Outcome State Fault Refusal := run s fun _ d => d.secInjWrite value

/-- XSPI_RELEASE (R454): 10 ms after a halt. -/
def execXspiRelease (s : State) : Host.Outcome State Fault Refusal :=
  run s fun _ d =>
    match d.boot.haltAt with
    | none => d
    | some t => if t + msCycles 10 ≤ d.now then { d with boot := { d.boot with xspiReleased := true } } else d

end Sys2Proof.Machine
end

