-- ==== Sys2Proof/Machine/Bus.lean ====
section
/-!
DEFINITION. The register bus (00 R4 to R14, 01 R35 to R38): a read and a write of any address by any master. A register with an operation of its own
calls the operation of its command; every other field follows its access type.
-/

namespace Sys2Proof.Machine

/-! Where registers live (Table 01.9). -/

/-- The block of an address: the address over 64 KiB, 0x0100 for SNG to 0x0113 for PWR. -/
def blockNo (a : Nat) : Nat := a / 65536

/-- The address lies in a register block. -/
def isBlock (a : Nat) : Bool := 0x0100 ≤ blockNo a && blockNo a < 0x0114

/-- The dies that hold a register, any one of which answers (R38, Table 01.9). DESIGN CHOICE (log entry 74): Table 01.9 gives FJL, SKM, MTX and LCK
the C-dies, MEM the X-die and the C-dies, and HLN all dies, and does not say which register lies where. Here a register of a unit of FJL and SKM
lies on the unit's C-die, one of a cluster's DMA engine in MEM on the cluster's C-die, the others of MEM on the X-die, one of a pair on the pair's
die, and HLN answers on the S-die. -/
def homeDies (a : Nat) : List Die :=
  let o := a % 32768
  match blockNo a with
  | 0x0106 => [.x]
  | 0x0107 => [.x]
  | 0x0109 => [.x]
  | 0x010E => if 0x50 ≤ o && o < 0x70 then [clusterDie ((o - 0x50) / 8)] else [.x]
  | 0x010A => if 0x100 ≤ o && o < 0x500 then [clusterDie (o / 256 - 1)] else [.c0, .c1]
  | 0x010C => if 0x100 ≤ o && o < 0x200 then [clusterDie (o / 64 - 4)] else [.c0, .c1]
  | 0x010D => [.c0, .c1]
  | 0x0110 => if 0x100 ≤ o && o < 0x240 then [pairDie ((o - 0x100) / 32)] else [.s]
  | _ => [.s]

/-- An access of a master goes to a die that holds the register, which must be reachable, and by the hub where it crosses (R17, R38). -/
def Dev.home (d : Dev) (mid a : Nat) (k : Dev → Dev) : Dev :=
  if (homeDies a).any (fun y => d.reach y && d.access mid y) then k d else d.answer .error

/-- Blocks that a split core may not write (R393). -/
def guarded (b : Nat) : Bool := [0x010B, 0x0108, 0x0100, 0x0101, 0x0105, 0x0102, 0x0112, 0x0111].contains b

/-! Static fields (R13) and the seal (R14). -/

/-- Some model is LOADING or LOADED, or the tick unit runs (R179). -/
def Dev.mtxOn (d : Dev) : Bool := d.running || d.arr.models.any (fun e => e.2.state == 1 || e.2.state == 2)

/-- Skim unit `u` is active (R109). -/
def Dev.skimActive (d : Dev) (u : Nat) : Bool := d.activeWatches.any (fun w => d.wdSrcType w == 0 && d.wdPort w == u)

/-- ETH (R356): global fields, filters, meters and recovery with any port enabled, a port's own with it; gate lists while a change is pending (R324). -/
def Dev.ethStatic (d : Dev) (o : Nat) : Bool :=
  if 0x1000 ≤ o && o < 0x3000 then
    let p := o / 0x1000 - 1
    let r := o % 0x1000
    d.portEn p || (((0x20 ≤ r && r < 0x34) || 0x400 ≤ r) && d.on (ETH.P_GATE_STAT_PENDING p))
  else d.fld ETH.CTRL_EN != 0

/-- TIM (R353, R357). -/
def Dev.timStatic (d : Dev) (o : Nat) : Bool :=
  if o = 4 || o = 0x200 || o = 0x204 then [0, 1, 2, 3].any (fun t => d.fld (TIM.TB_CFG_SRC t) != 0)
  else if 0x210 ≤ o && o < 0x220 then d.running
  else if 0x300 ≤ o && o < 0x380 then d.fld (TIM.SYNC_CFG_MODE ((o - 0x300) / 32)) != 0
  else if 0x400 ≤ o && o < 0x480 then d.on (TIM.CAP_CFG_EN ((o - 0x400) / 32))
  else false

/-- The RW-S fields of the register at an address are static now. -/
def Dev.static (d : Dev) (a : Nat) : Bool :=
  let o := a % 65536
  match blockNo a with
  | 0x0101 => d.on (WDG.CFG_EN ((o - 0x100) / 64))
  | 0x0104 => d.on (CRC.STAT_BUSY ((o - 0x1000) / 64))
  | 0x0105 => d.running
  | 0x0106 => d.timStatic o
  | 0x0107 => d.ethStatic o
  | 0x0108 => d.tdmEn ((o - 0x100) / 32)
  | 0x0109 => if o < 0x400 then bit (d.fld AVT.CTRL_LIST_EN) ((o - 0x100) / 32) else bit (d.fld AVT.CTRL_TALK_EN) ((o - 0x400) / 32)
  | 0x010A => bit (d.fld FJL.CTRL_EN) (o / 256 - 1)
  | 0x010D => d.mtxOn
  | 0x010E => d.on MEM.HBM_STAT_TRAINED
  | 0x010F => d.hlnOn
  | _ => false

/-- The part of a write that names a field. -/
def Fld.of (f : Fld) (v : Nat) : Nat := bitsAt v f.hi f.lo

/-- The source that a discarded write to a field raises (R13, R14); none where the write takes effect. -/
def Dev.bar (d : Dev) (f : Fld) : Option Nat :=
  if f.acc = .rwStatic && d.static f.addr then some 0
  else if f.acc = .rwl && d.sealed then some 1
  else none

/-- A field after a write that its access type allows. -/
def Dev.takeField (d : Dev) (v : Nat) (f : Fld) : Dev :=
  match f.acc with
  | .ro => d
  | .wo => d
  | .staged => d.putStaged f (f.of v)
  | .w1c => d.clearBitsOf f (f.of v)
  | _ => d.put f (f.of v)

/-! Reserved encodings and ranges (R5). `t` is the device with the write taken. -/

def within (n lo hi : Nat) : Bool := lo ≤ n && n ≤ hi

/-- SGT_P_CFG of port `p` (R291, Table 09.8). -/
def Dev.tdmCfgOk (t : Dev) (p : Nat) : Bool :=
  let clk (q : Nat) : Nat := t.fld (SGT.P_CFG_CLK q)
  let fol (q : Nat) : Nat := t.fld (SGT.P_CFG_FOLLOW q)
  let slots := t.fld (SGT.P_CFG_SLOTS_M1 p)
  let others := [0, 1, 2, 3, 4, 5].filter (fun q => q != p)
  clk p != 3 && fol p ≤ 5 && t.fld (SGT.P_CFG_BDIV p) != 3
    && (clk p != 2 || (fol p != p && clk (fol p) != 2 && others.all (fun q => clk q != 2 || fol q != p)))
    && t.enabledIns.all (fun c => t.on (SGT.IN_TYPE c) || t.fld (SGT.IN_UNIT c) != p || t.fld (SGT.IN_SLOT c) ≤ slots)
    && t.enabledOuts.all (fun c => t.on (SGT.OUT_TYPE c) || t.fld (SGT.OUT_UNIT c) != p || t.fld (SGT.OUT_SLOT c) ≤ slots)

def Dev.ethOk (t : Dev) (o : Nat) : Bool :=
  if o = 0x40 then within (t.fld ETH.CMD_CTRL_MAX_SESS) 1 8 && t.fld ETH.CMD_CTRL_SESS_IDLE != 0
  else if 0x1000 ≤ o && o < 0x3000 then
    let p := o / 0x1000 - 1
    match o % 0x1000 with
    | 0 => within (t.fld (ETH.P_CFG_MAXFRM p)) 1518 2304
    | 0x14 => !t.on (ETH.P_PRE_EN p) || bit (t.fld (ETH.P_PRE_EXPRESS p)) 7
    | 0x20 => t.fld (ETH.P_GATE_CTRL_ADMIN_LEN p) ≤ 256
    | 0x100 => t.fld (ETH.P_MS_CTRL_RX_SC p) ≤ 4
    | _ => true
  else if 0x4800 ≤ o && o < 0x4A00 && o % 16 = 0 then within (t.fld (ETH.CBR_CFG_TIMEOUT ((o - 0x4800) / 16))) 1 1000
  else true

def Dev.timOk (t : Dev) (o : Nat) : Bool :=
  if o = 0x10 || o = 0x20 then
    let i := o / 16 - 1
    within (t.fld (TIM.PTP_CFG_ANN_LOSS i)) 2 15 && within (t.fld (TIM.PTP_CFG_SYNC_LOSS i)) 2 15
  else if 0x100 ≤ o && o < 0x180 && o % 32 = 0x1C then
    let r := signedOf 32 (t.fld (TIM.TB_RATE_PPB ((o - 0x100) / 32)))
    !(r < -500000) && !(500000 < r)
  else if o = 0x200 then within (t.fld TIM.SERVO_SLEW_MAX) 100 100000
  else if o = 0x210 then within (t.fld TIM.TICK_CFG_WIN) 50 32767
  else if 0x300 ≤ o && o < 0x380 && o % 32 = 0 then t.fld (TIM.SYNC_CFG_MODE ((o - 0x300) / 32)) ≤ 3
  else if 0x400 ≤ o && o < 0x480 && o % 32 = 0 then t.fld (TIM.CAP_CFG_EDGE ((o - 0x400) / 32)) != 0
  else true

/-- Master identities that a mailbox side may name (R396). -/
def mbxMid (m : Nat) : Bool := m < 10 || m == 18 || m == 19 || (22 ≤ m && m ≤ 25)

/-- HLN (Table 15.12). -/
def Dev.hlnOk (t : Dev) (o : Nat) : Bool :=
  match o with
  | 4 => within (t.fld HLN.CTRL_VSTEP) 1 20
  | 8 => t.fld HLN.MARGIN_SLACK_CRIT < t.fld HLN.MARGIN_SLACK_LOW && t.fld HLN.MARGIN_SLACK_LOW < t.fld HLN.MARGIN_SLACK_HIGH
  | 0x20 => within (t.fld HLN.FREQ_MIN_MHZ) 800 1050 && t.fld HLN.FREQ_MIN_MHZ % 25 == 0
  | 0x300 => within (t.fld HLN.ST_CTRL_SLOT_CLK) 2048 32768
  | _ => if within o 0x10 0x1C then t.fld (HLN.PMB_DIE ((o - 0x10) / 4)) ≤ 1 else true

/-- No field of the register at an address holds a reserved encoding. -/
def Dev.regOk (t : Dev) (a : Nat) : Bool :=
  let o := a % 65536
  match blockNo a with
  | 0x0101 => o != 4 || (t.fld WDG.CTRL_MAX_TRIES != 0 && t.fld WDG.CTRL_LADDER_MS != 0)
  | 0x0103 =>
    if o = 4 then t.fld MBX.CTRL_ACK_TIMEOUT != 0
    else if 0x100 ≤ o && o < 0x200 then
      let ch := (o - 0x100) / 4
      let x := t.fld (MBX.BIND_MID_A ch)
      let y := t.fld (MBX.BIND_MID_B ch)
      !t.on (MBX.BIND_EN ch) || (x != y && mbxMid x && mbxMid y)
    else true
  | 0x0105 => o != 8 || (t.fld TCK.FRAME_FS_SEL != 7 && within t.len 16 1024 && t.gateUse ≤ 262144)
  | 0x0106 => t.timOk o
  | 0x0107 => t.ethOk o
  | 0x0108 => !(0x100 ≤ o && o < 0x1C0 && o % 32 = 0) || t.tdmCfgOk ((o - 0x100) / 32)
  | 0x0109 =>
    if 0x100 ≤ o && o < 0x300 && o % 32 = 8 then within (t.fld (AVT.L_CFG_FMT ((o - 0x100) / 32))) 2 4
    else if 0x400 ≤ o && o < 0x600 && o % 32 = 0x14 then t.fld (AVT.T_MTT_MTT ((o - 0x400) / 32)) ≤ 15000000
    else true
  | 0x010A =>
    let p := o / 256 - 1
    if o < 0x100 then true
    else if o % 256 = 0 then t.fld (FJL.P_CFG_RETRY_MAX p) != 0
    else if o % 256 = 4 then t.fld (FJL.P_EQ_TRAIN_MAX p) != 0 && t.fld (FJL.P_EQ_TX_PRESET p) ≤ 10
    else true
  | 0x010D => t.fld MTX.CTRL_ACT_PAGES + t.fld MTX.CTRL_RES_PAGES ≤ 96
  | 0x010E => t.fld MEM.CTRL_CE_ROW_THR != 0
  | 0x010F => t.hlnOk o
  | 0x0110 => !(0x100 ≤ o && o % 32 = 0) || within (t.fld (LCK.P_CFG_WIN_LOG2 ((o - 0x100) / 32))) 6 16
  | 0x0111 => t.fld SEC.CTRL_TRIAL_S != 0
  | 0x0112 =>
    if o = 8 then t.fld TWN.CFG_REF_PORT ≤ 5 && within (t.fld TWN.CFG_GUARD) 16 2048
    else if o = 0xC then within (t.fld TWN.FILT_FILT_N) 1 64 && within (t.fld TWN.FILT_FILT_K) 1 (t.fld TWN.FILT_FILT_N)
    else true
  | _ => true

/-! What follows a change of some RW fields. -/

/-- Ports that ETH_CTRL.EN enabled or disabled. -/
def Dev.ethEnabled (d : Dev) : Dev :=
  [0, 1].foldl (fun d p => (d.preActive p).linkCause p) d

/-- Listeners that AVT_CTRL enabled or disabled, `old` being LIST_EN before: the 1 ms of R297 starts, or the stream is no longer lost. -/
def Dev.avtEnabled (d : Dev) (old : Nat) : Dev :=
  (List.range 16).foldl (fun d l =>
    let b := bit (d.fld AVT.CTRL_LIST_EN) l
    if b = bit old l then d
    else if b then { d with gate := { d.gate with listenAt := tabSet 0 d.gate.listenAt l d.now } }
    else (d.flag (AVT.L_STAT_LOCKED l) false).cause (392 + l) false) d

/-- After a write of register `a` with value `v`; `old` is the device before it. -/
def Dev.after (d old : Dev) (a v : Nat) : Dev :=
  let o := a % 65536
  match blockNo a with
  | 0x0106 =>
    if 0x300 ≤ o && o < 0x380 && o % 32 = 0 then
      let i := (o - 0x300) / 32
      if d.fld (TIM.SYNC_CFG_MODE i) = old.fld (TIM.SYNC_CFG_MODE i) then d else d.syncMode i (d.fld (TIM.SYNC_CFG_MODE i))
    else d
  | 0x0107 =>
    if o = 4 then d.ethEnabled
    else if (o = 0x1020 || o = 0x2020) && bit v 30 then d.gateGo (o / 0x1000 - 1)
    else d
  | 0x0109 => if o = 4 then d.avtEnabled (old.fld AVT.CTRL_LIST_EN) else d
  | _ => d

/-- The fields of the register at an address. -/
def regFields (a : Nat) : Option (List Fld) :=
  match blockOf a with
  | none => none
  | some ds => fieldsAt ds (a % 65536)

/-- A write of a register by its fields' access types (R9). Discarded fields keep their values, a reserved encoding rejects the write. -/
def Dev.regWrite (d : Dev) (a v : Nat) : Dev :=
  match regFields a with
  | none => d.answer .done
  | some fs =>
    let bars := (fs.filterMap d.bar).dedup
    let t := fs.foldl (fun t f => if (d.bar f).isSome then t else t.takeField v f) (bars.foldl (fun t n => t.raise .s n) d)
    if !t.regOk a then (bars.foldl (fun t n => t.raise .s n) d).answer .rejected
    else (t.after d a v).answer (if bars = [] then .done else .discarded)

/-! Registers with an operation of their own. -/

/-- CLR_LOST of a log. -/
def Dev.clrLost (d : Dev) (l : LogId) (v : Nat) : Dev := (if bit v 30 then d.put (logLost l) 0 else d).answer .done

/-- SKM_CTRL: the bits of an active unit are static (Table 03.12), and a write while any unit is active raises the source of R13. -/
def Dev.skmCtrlWrite (d : Dev) (v : Nat) : Dev :=
  let keep := bitsOf 4 d.skimActive
  let mix (f : Fld) : Nat := bitsOf 4 (fun u => if bit keep u then bit (d.fld f) u else bit (f.of v) u)
  let d1 := (d.put SKM.CTRL_LINK_SAMPLE (mix SKM.CTRL_LINK_SAMPLE)).put SKM.CTRL_EN (mix SKM.CTRL_EN)
  if keep = 0 then d1.answer .done else d1.discard

/-- SNG_CMD.RESUME from the bus; whether a fuse blow of R458 reads back is a free value. -/
def Dev.sngCmdWrite (d : Dev) (v : Nat) : Dev :=
  if bit v 0 then
    let (x, d1) := d.draw
    d1.resumeWrite (x % 2 == 0)
  else d.answer .done

/-- A service of a watchdog from the bus: the program counter and the outcomes of the slices that a fault may start are free values. -/
def Dev.dogWrite (d : Dev) (mid w v : Nat) : Dev :=
  if mid != w then d.answer .error
  else
    let (xs, d1) := d.drawN 3
    d1.dogService w (v % 256) (xs.getD 0 0 % 2 ^ 64) (xs.getD 1 0 % 2 == 0) (xs.getD 2 0 % 2 == 0)

/-- WDG registers. -/
def Dev.wdgWrite (d : Dev) (mid o v : Nat) : Option Dev :=
  let w := (o - 0x100) / 64
  if o = 0x10 then some (if mid = 18 && !bit v 0 then d.answer .done else d.ladderClr mid)
  else if o = 0x18 then some (d.wdgInjWrite v)
  else if o < 0x100 || 0x380 ≤ o then none
  else if o % 64 = 0 then some (if bit v 31 then d.dogEnable w else d.answer .done)
  else if o % 64 = 0x10 then some (d.dogWrite mid w v)
  else none

/-- A mailbox register of side `k` (Table 12.6). -/
def Dev.mbxReg (d : Dev) (k r v : Nat) : Dev :=
  match r with
  | 0 => d.mbxPost k v
  | 4 =>
    let x := d.mbxSide k
    (if bit v 15 && !d.freshBit (MBX.TX_STAT_PEER_RESET k) 0 then d.putMbx k { x with peerReset := false, discarded := 0 } else d).answer .done
  | 0x10 =>
    let y := d.mbxSide (otherSide k)
    let d1 := if bit v 1 then d.putMbx (otherSide k) { y with dbIn := true, ringAt := some d.now } else d
    if bit v 0 then d1.mbxDbClear k else d1.answer .done
  | _ => d.answer .done

/-- CRC_CMD: START, then END; BYTES above 4 is reserved. -/
def Dev.crcCmdWrite (d : Dev) (ch v : Nat) : Dev :=
  if bit v 30 && 4 < v % 8 then d.answer .rejected
  else
    let d1 := if bit v 31 then d.crcStart ch else d.answer .done
    if bit v 30 then d1.crcEnd ch (v % 8) else d1

/-- A CRC register of channel `ch` (Table 12.7). -/
def Dev.crcReg (d : Dev) (a ch v : Nat) : Dev :=
  match a % 64 with
  | 0x24 => d.crcCmdWrite ch v
  | 0x28 => d.crcData ch v
  | 0x34 => d.crcRunWrite ch false v
  | 0x38 => d.crcRunWrite ch true v
  | _ => d.regWrite a v

/-- TIM registers. -/
def Dev.timWrite (d : Dev) (o v : Nat) : Option Dev :=
  if o = 0x500 then some (d.timInjWrite v)
  else if 0x100 ≤ o && o < 0x180 then
    let t := (o - 0x100) / 32
    if o % 32 = 0 then some (d.tbCfgWrite t v) else if o % 32 = 0x18 then some (d.tbStepWrite t v) else none
  else none

/-- A MACsec key register of port `p` (R334). -/
def Dev.keyWrite (d : Dev) (p r v : Nat) : Dev :=
  if r = 0x130 then
    if 20 ≤ v % 32 then d.answer .rejected
    else { d with net := { d.net with keySel := tabSet 0 d.net.keySel p (v % 32) } }.answer .done
  else if r = 0x178 then if bit v 0 then d.macsecInstall p else d.answer .done
  else (d.putKeyReg p ((r - 0x140) / 4) v).answer .done

/-- ETH registers. -/
def Dev.ethWrite (d : Dev) (o v : Nat) : Option Dev :=
  if o = 0x4C then some (d.ethCmdInjWrite v)
  else if 0x1000 ≤ o && o < 0x3000 then
    let r := o % 0x1000
    if r = 0x130 || (0x140 ≤ r && r < 0x17C) then some (d.keyWrite (o / 0x1000 - 1) r v) else none
  else none

/-- WCH registers. -/
def Dev.wchWrite (d : Dev) (o v : Nat) : Option Dev :=
  match o with
  | 0x10 => some (d.armOpWrite v)
  | 0x18 => some (d.armClearWrite v)
  | 0x64 => some (d.logAdvance .verdict (v % 1024))
  | 0x68 => some (d.clrLost .verdict v)
  | 0x70 => some (d.wchInjWrite v)
  | 0x88 => some (d.sigInjWrite v)
  | _ => none

/-- LCK_P_CMD of pair `p` (R390); whether the slices of UNFENCE pass is a free value. -/
def Dev.lckCmdWrite (d : Dev) (mid p v : Nat) : Dev :=
  if !lckWriter mid p then d.answer .error
  else
    let d1 :=
      if bit v 1 then
        let (xs, e) := d.drawN 2
        e.unfence p (xs.getD 0 0 % 2 == 0) (xs.getD 1 0 % 2 == 0)
      else d
    (if bit v 0 then d1.pairReset p else d1).answer .done

/-- SNG registers. -/
def Dev.sngWrite (d : Dev) (mid o v : Nat) : Option Dev :=
  if o = 0xC then some (d.sngCmdWrite v)
  else if o = 0x14 then some (d.sngInjWrite mid v)
  else if o = 0x24 then some (d.logAdvance .fault (v % 512))
  else if o = 0x28 then some (d.clrLost .fault v)
  else if 0x100 ≤ o && o < 0x180 then some (d.setClearWrite mid ((o - 0x100) / 4) v)
  else if 0x1000 ≤ o && o < 0x1400 then some (d.sevWrite ((o - 0x1000) / 4) v)
  else none

/-- SWD registers. -/
def Dev.swdWrite (d : Dev) (mid o v : Nat) : Option Dev :=
  match o with
  | 4 => some (d.checkinWrite mid v)
  | 0x14 => some (d.logAdvance .event (v % 256))
  | 0x18 => some (d.clrLost .event v)
  | 0x20 => some (d.swdInjWrite v)
  | _ => none

/-- TCK registers. A start of RUN takes the last measurement of MCLK_AUD (R515). -/
def Dev.tckWrite (d : Dev) (o v : Nat) : Option Dev :=
  match o with
  | 4 => some (if bit v 0 then d.runStart (d.fld PWR.MCLK_MEAS_HZ) else d.runStop)
  | 0x10 => some ((if bit v 0 then d.commitWrite else d).answer .done)
  | _ => none

/-- SEC registers. -/
def Dev.secWrite (d : Dev) (mid o v : Nat) : Option Dev :=
  match o with
  | 0x10 => some (d.bootSelWrite mid v)
  | 0x14 => some (d.secCmdWrite mid v)
  | 0xB0 => some (d.secInjWrite v)
  | _ => none

/-- TWN registers. -/
def Dev.twnWrite (d : Dev) (mid o v : Nat) : Option Dev :=
  match o with
  | 4 => some (d.twnCtrlWrite mid v)
  | 0x44 => some (d.twnCmdWrite mid v)
  | 0x60 => some (d.twnInjWrite v)
  | _ => none

/-- FJL and SKM registers. -/
def Dev.fjlWrite (d : Dev) (o v : Nat) : Option Dev :=
  if o = 4 then some (d.fjlCtrlWrite v)
  else if 0x100 ≤ o && o < 0x500 then
    if o % 256 = 0x2C then some (d.fjlCmdWrite (o / 256 - 1) v) else if o % 256 = 0x30 then some (d.fjlInjWrite (o / 256 - 1) v) else none
  else none

def Dev.skmWrite (d : Dev) (o v : Nat) : Option Dev :=
  if o = 4 then some (d.skmCtrlWrite v)
  else if o = 0x1C then some (d.rekeyWrite v)
  else if 0x100 ≤ o && o < 0x200 && o % 64 = 0x14 then some (d.skimInjWrite (o / 64 - 4) v)
  else none

/-- MEM registers. -/
def Dev.memWrite (d : Dev) (o v : Nat) : Option Dev :=
  match o with
  | 0x40 => some (d.memErrClr v)
  | 0x44 => some (d.xltInvWrite v)
  | 0x300 => some (d.memInjWrite v)
  | _ => none

/-- The registers of every block that have an operation of their own. -/
def Dev.special (d : Dev) (mid a v : Nat) : Option Dev :=
  let o := a % 65536
  match blockNo a with
  | 0x0100 => d.sngWrite mid o v
  | 0x0101 => d.wdgWrite mid o v
  | 0x0102 => d.swdWrite mid o v
  | 0x0103 =>
    if o = 0x20 then some (d.mbxInjWrite v)
    else if 0x1000 ≤ o && o < 0x2000 then some (d.mbxAccess mid ((o - 0x1000) / 64) (fun k d => d.mbxReg k (o % 64) v))
    else none
  | 0x0104 =>
    if 0x1000 ≤ o && o < 0x2000 then
      let ch := (o - 0x1000) / 64
      some (d.crcOwner mid ch (fun d => d.crcReg a ch v))
    else if 0xE00 ≤ o && o < 0x1000 then some (d.crcOwner mid (o % 256 / 4) (fun d => d.answer .done))
    else none
  | 0x0105 => d.tckWrite o v
  | 0x0106 => d.timWrite o v
  | 0x0107 => d.ethWrite o v
  | 0x0108 => if o = 4 then some (d.sgtCtrlWrite v) else if o = 0x20 then some (d.sgtInjWrite v) else none
  | 0x010A => d.fjlWrite o v
  | 0x010B => d.wchWrite o v
  | 0x010C => d.skmWrite o v
  | 0x010D => if o = 0x30 then some (d.mtxInjWrite v) else none
  | 0x010E => d.memWrite o v
  | 0x010F => if o = 0x400 then some (d.hlnInjWrite v) else none
  | 0x0110 =>
    if o = 0x10 then some (d.lckInjWrite v)
    else if 0x100 ≤ o && o < 0x240 && o % 32 = 0x18 then some (d.lckCmdWrite mid ((o - 0x100) / 32) v)
    else none
  | 0x0111 => d.secWrite mid o v
  | 0x0112 => d.twnWrite mid o v
  | 0x0113 => if o = 0x20 then some (d.pwrInjWrite v) else none
  | _ => none

/-- A write of a register block: nothing at a staged-copy address (R11). -/
def Dev.blockWrite (d : Dev) (mid a v : Nat) : Dev :=
  if guarded (blockNo a) && d.splitMaster mid then d.answer .error
  else d.home mid a (fun d => if 32768 ≤ a % 65536 then d.answer .done else (d.special mid a v).getD (d.regWrite a v))

/-- A write by master `mid` of `bytes` bytes at address `a` (R6, R35 to R38, R178). -/
def Dev.busWrite (d : Dev) (mid a v bytes : Nat) : Dev :=
  if bytes != 4 || a % 4 != 0 then d.answer .error
  else if isBlock a then d.blockWrite mid a (v % 4294967296)
  else if within a 0x02000000 0x020FFFFF then if d.access mid .s then d.descWrite (a / 256 % 4096) (a % 256 / 4) v else d.answer .error
  else if within a 0x03000000 0x03FFFFFF then if d.access mid .x then d.at .x (fun d => d.answer .done) else d.answer .error
  else d.answer .error

/-- REGISTER_WRITE (R9). -/
def execRegisterWrite (mid addr value bytes : Nat) (s : State) : Host.Outcome State Fault Refusal :=
  run s fun _ d => d.busWrite mid addr value bytes

/-! Reads. -/

/-- Watches, MODEL channels and enabled fallback slots that name a model (Table 05.14, R177). -/
def Dev.modelUsers (d : Dev) (id : Nat) : Nat :=
  let slot (m : Nat) : Bool := d.on (SGT.FB_EN m) && d.fld (SGT.FB_MODEL_ID m) == id
  (d.activeWatches.filter (fun w => d.wdModel w == id)).length
    + (d.enabledOuts.filter (fun c => d.fld (SGT.OUT_POLICY c) == 3 && slot (d.fld (SGT.SUB_FB c)))).length
    + ((List.range 8).filter slot).length

/-- The model entry of Table 05.14; `enc n v` writes a value of `n` bytes. -/
def Dev.modelBytes (d : Dev) (enc : Nat → Nat → List Byte) (id : Nat) : List Byte :=
  let m := d.model id
  enc 4 (m.state + 256 * m.kind + 65536 * m.flags) ++ enc 2 m.nLayers ++ enc 2 m.nOps ++ enc 4 m.layerBase ++ enc 1 m.nIn ++ enc 1 m.nOut
    ++ enc 2 m.frameLen ++ enc 4 m.actBytes ++ enc 4 m.resBytes ++ enc 8 m.weightBytes ++ enc 4 m.runClk16
    ++ enc 4 (if m.state = 0 then 0 else m.runClocks d.engines)
    ++ enc 4 m.loadFrame ++ enc 4 (if m.state = 0 then 0 else d.modelUsers id) ++ (m.digest ++ zeroBytes (64 - m.digest.length)) ++ zeroBytes 144

/-- A word of the directory (R178). -/
def Dev.dirWord (d : Dev) (o : Nat) : Nat :=
  if o < 0x40000 then if o < 256 then 0 else leAt (d.modelBytes leBytes (o / 256)) (o % 256) 4
  else if o < 0x440000 then
    let j := (o - 0x40000) / 64
    match d.heldModels.find? (fun e => e.2.layerBase ≤ j && j < e.2.layerBase + e.2.nLayers) with
    | none => 0
    | some e => (e.2.layers.getD (j - e.2.layerBase) []).getD (o % 64 / 4) 0
  else 0

/-- A word of a descriptor (Tables 02.2 and 02.6). -/
def Dev.descWord (d : Dev) (w i : Nat) : Nat :=
  let x := d.watchOf w
  match i with
  | 48 => wstateCode x.state + 256 * b2n x.tripped
  | 49 => x.planCov
  | 50 => x.lastFrame
  | 51 => x.lastCov * 65536 + 16 * b2n x.lastInjected + x.lastVerdict
  | 52 => x.hist % 4294967296
  | 53 => x.hist / 4294967296 % 4294967296
  | 54 => x.filtCnt
  | 55 => x.totalFail
  | 56 => x.totalEval
  | 57 => x.covLow
  | _ => if i < 48 then d.wd w i else 0

/-- A word of a log, by its offset in the log's window. -/
def Dev.logWord (d : Dev) (l : LogId) (o : Nat) : Nat := (tabGet [] (d.logOf l) (o / 16)).getD (o % 16 / 4) 0

/-- SNG_STAT (Table 13.8). -/
def Dev.sngStat (d : Dev) : Nat :=
  let alarm := d.on (alarmFld 0) || d.on (alarmFld 1) || d.on (alarmFld 2)
  d.regWord [SNG.STAT_SAFE, SNG.STAT_SAFE_OK] + 2 ^ 29 * b2n (d.on SNG.STAT_RESUME_REFUSED || d.snag.refused.isSome) + 2 ^ 28 * b2n d.holdBoot
    + 2 ^ 27 * d.fld SEC.STATE_DEBUG_OPEN
    + 2 ^ 26 * d.fld WDG.LADDER_LOCKED + 2 ^ 25 * b2n (d.safeSource || alarm) + 65536 * d.maxSev + d.nset

/-- SNG registers that show state. -/
def Dev.sngRead (d : Dev) (o : Nat) : Option Nat :=
  if o = 4 then some d.sngStat
  else if 0x100 ≤ o && o < 0x180 then some (bitsOf 32 (fun j => d.isSet (8 * (o - 0x100) + j)))
  else if 0x200 ≤ o && o < 0x280 then some (bitsOf 32 (fun j => d.causeNow (8 * (o - 0x200) + j)))
  else if 0x4000 ≤ o && o < 0x6000 then some (d.logWord .fault (o - 0x4000))
  else none

/-- WCH registers that show state. -/
def Dev.wchRead (d : Dev) (o : Nat) : Option Nat :=
  let use (i : Nat) : Nat := (d.activeWatches.map (fun w => (d.sigUse w).getD i 0)).foldl (· + ·) 0
  match o with
  | 0x20 => some (65536 * d.stateCount .armed + d.stateCount .idle)
  | 0x24 => some (65536 * d.stateCount .failed + d.stateCount .running)
  | 0x28 => some (d.stateCount .retiring)
  | 0x80 => some (65536 * use 1 + use 0)
  | 0x84 => some (use 2)
  | _ => if 0x40 ≤ o && o < 0x60 then some (d.grpTrip ((o - 0x40) / 4)) else if 0x4000 ≤ o then some (d.logWord .verdict (o - 0x4000)) else none

/-- WDG registers that show state. -/
def Dev.wdgRead (d : Dev) (o : Nat) : Option Nat :=
  if o = 0xC then
    some (d.regWord [WDG.LADDER_LOCKED, WDG.LADDER_STEP1_WDG, WDG.LADDER_TRIES] + 2 ^ 30 * b2n d.step1Recent)
  else if 0x100 ≤ o && o < 0x380 && o % 64 = 0x14 then
    let w := (o - 0x100) / 64
    some (if d.on (WDG.CFG_EN w) then 2147483648 * b2n (d.dogOf w).serviced + d.dogCount w % 2097152 else 0)
  else none

/-- MTX, MEM, SKM and FJL registers that show state. -/
def Dev.arrRead (d : Dev) (b o : Nat) : Option Nat :=
  if b = 0x010D && o = 0x28 then
    let ms := d.arr.models.filter (fun e => e.2.state == 1 || e.2.state == 2)
    some (4194304 * ms.length + (ms.map (fun e => e.2.nLayers)).foldl (· + ·) 0)
  else if b = 0x010D && o = 0x2C then some (cdiv ((d.heldModels.map (fun e => e.2.weightBytes)).foldl (· + ·) 0) 1048576)
  else if b = 0x010E && 0x50 ≤ o && o < 0x70 && o % 8 = 0 then
    let c := (o - 0x50) / 8
    let p := (d.ring c .plan).length
    some (2 ^ 31 * b2n (p != 0) + 2 ^ 30 * b2n (d.ring c .background != []) + 65536 * (p % 256) + d.fld (MEM.DMA_STAT_LAST_STATUS c))
  else if b = 0x010C && 0x100 ≤ o && o < 0x200 && o % 64 = 0 then
    let u := o / 64 - 4
    some (2 ^ 31 * b2n (d.skimActive u) + d.regWord [SKM.U_STAT_SAMPLED u, SKM.U_STAT_KAT_FAIL u])
  else if b = 0x010C && 0x100 ≤ o && o < 0x200 && o % 64 = 0x10 then some (d.tbufUsed (o / 64 - 4))
  else if b = 0x010A && 0x100 ≤ o && o < 0x500 && o % 256 = 0x24 then
    let l := d.link (o / 256 - 1)
    some (65536 * l.rxFree false 0 + l.rxFree false 2)
  else none

/-- A mailbox register as side `k` reads it. -/
def Dev.mbxRead (d : Dev) (mid k r : Nat) : Dev :=
  let x := d.mbxSide k
  let y := d.mbxSide (otherSide k)
  match r with
  | 4 => d.answer (.value (65536 * x.consumed + 32768 * b2n x.peerReset + 256 * x.discarded + 16 * x.overflow + (8 - x.out.length)))
  | 8 =>
    let changed := match y.out with | [] => false | w :: _ => w.epoch != y.epoch
    d.answer (.value (256 * b2n changed + y.out.length))
  | 0xC => d.sideRead mid (MBX.RX (k / 2)) (fun d => d.mbxTake k)
  | 0x10 => d.answer (.value (b2n x.dbIn))
  | _ => d.answer (.value 0)

/-- TIM reads that latch (R340, R354) and the words they latch. -/
def Dev.timRead (d : Dev) (mid o : Nat) : Option Dev :=
  if 0x100 ≤ o && o < 0x180 then
    let t := (o - 0x100) / 32
    match o % 32 with
    | 4 => some (d.sideRead mid (TIM.TB_NS t) (fun d => d.tbLatch t))
    | 8 => some (d.answer (.value ((d.tbAt t).latched % 4294967296)))
    | 0xC => some (d.answer (.value ((d.tbAt t).latched / 4294967296 % 65536)))
    | _ => none
  else if 0x400 ≤ o && o < 0x480 then
    let c := (o - 0x400) / 32
    match o % 32 with
    | 8 => some (d.sideRead mid (TIM.CAP_NS c) (fun d => d.capNsRead c))
    | 0xC => some (d.answer (.value ((tabGet ⟨false, 0, 0⟩ d.time.capLatch c).sec % 4294967296)))
    | 0x10 => some (d.sideRead mid (TIM.CAP_SEC_HI c) (fun d => d.capSecHiRead c))
    | _ => none
  else none

/-- Seconds until the debug port closes. -/
def Dev.debugRemain (d : Dev) : Nat :=
  match d.boot.debugUntil with
  | some t => if d.on SEC.STATE_DEBUG_OPEN then cdiv (t - d.now) (sCycles 1) else 0
  | none => 0

/-- Registers whose value is not the fields as they stand. -/
def Dev.shown (d : Dev) (a : Nat) : Option Nat :=
  let o := a % 65536
  match blockNo a with
  | 0x0100 => d.sngRead o
  | 0x0101 => d.wdgRead o
  | 0x0102 =>
    if 0x40 ≤ o && o < 0x60 then some (bitsOf 32 (fun j => d.isSet (96 + 8 * (o - 0x40) + j)))
    else if 0x4000 ≤ o && o < 0x5000 then some (d.logWord .event (o - 0x4000)) else none
  | 0x0107 => if o = 0x48 then some (bitsOf 8 (fun j => (d.session (j + 1)).isSome)) else none
  | 0x0108 => if o = 8 then some d.gateUse else if 0x10 ≤ o && o < 0x20 then some (d.substWord ((o - 0x10) / 4)) else none
  | 0x010B => d.wchRead o
  | 0x0111 =>
    if o = 0xA0 then some (d.regWord [SEC.DEBUG_PAIRS] + d.debugRemain % 131072)
    else if 0x1000 ≤ o && o < 0x5000 then some (Config.idCert ((o - 0x1000) / 4) % 4294967296) else none
  | 0x0112 =>
    if o = 0x20 then some (d.regWord [TWN.STAT_PEER_HB_OK, TWN.STAT_PEER_OK, TWN.STAT_OWN_IN, TWN.STAT_OWN_OUT, TWN.STAT_STATE] + 4096 * b2n d.guardClamp)
    else if o = 0x48 then some (d.ownDigest % 4294967296) else if o = 0x4C then some (d.ownDigest / 4294967296) else none
  | b => d.arrRead b o

/-- A register by its fields; a WO field reads as 0. -/
def Dev.plainRead (d : Dev) (a : Nat) (staged : Bool) : Nat :=
  match regFields a with
  | none => 0
  | some fs =>
    if staged then (fs.filter (fun f => f.acc == .staged)).foldl (fun x f => x + d.stagedFld f * 2 ^ f.lo) 0
    else d.regWord (fs.filter (fun f => f.acc != .wo))

/-- A read of a register block. -/
def Dev.blockRead (d : Dev) (mid a : Nat) : Dev :=
  let o := a % 65536
  d.home mid a (fun d =>
    if 32768 ≤ o then d.answer (.value (d.plainRead (a - 32768) true))
    else if blockNo a = 0x0103 && 0x1000 ≤ o && o < 0x2000 then d.mbxAccess mid ((o - 0x1000) / 64) (fun k d => d.mbxRead mid k (o % 64))
    else if blockNo a = 0x0104 && 0x1000 ≤ o && o < 0x2000 then
      d.crcOwner mid ((o - 0x1000) / 64) (fun d => d.answer (.value (d.plainRead a false)))
    else if blockNo a = 0x0104 && 0xE00 ≤ o && o < 0x1000 then d.crcOwner mid (o % 256 / 4) (fun d => d.answer (.value (d.plainRead a false)))
    else if blockNo a = 0x0106 then (d.timRead mid o).getD (d.answer (.value (d.plainRead a false)))
    else d.answer (.value ((d.shown a).getD (d.plainRead a false))))

/-- A read by master `mid` of `bytes` bytes at address `a`. -/
def Dev.busRead (d : Dev) (mid a bytes : Nat) : Dev :=
  if bytes != 4 || a % 4 != 0 then d.answer .error
  else if isBlock a then d.blockRead mid a
  else if within a 0x02000000 0x020FFFFF then
    if d.access mid .s then d.answer (.value (d.descWord (a / 256 % 4096) (a % 256 / 4))) else d.answer .error
  else if within a 0x03000000 0x03FFFFFF then
    if d.access mid .x then d.at .x (fun d => d.answer (.value (d.dirWord (a - 0x03000000)))) else d.answer .error
  else d.answer .error

end Sys2Proof.Machine
end

