-- ==== Sys2Proof/Machine/Boot.lean ====
section
/-!
DEFINITION. Reset and boot (14 R452 to R463, 16 R516 to R518): power-on, warm restarts by every cause, the boot steps of Table 14.5 up to step 8,
and the Topcoat overlay. Step 9 is the command BOOT_DONE.
-/

namespace Sys2Proof.Machine

/-! What a reset leaves. -/

/-- The register fields that a warm restart keeps: those the spec calls retained, and the counts and measurements it gives since power-on. -/
def retainedFlds : List Fld :=
  [WDG.LADDER_LOCKED, WDG.LADDER_STEP1, WDG.LADDER_STEP1_WDG, WDG.LADDER_TRIES, WDG.RESET_CAUSE_WDG, WDG.RESET_CAUSE_CAUSE, SNG.RESTART_SRC_VALID,
    SNG.RESTART_SRC_SOURCE, PWR.RST_CNT_COUNT, SEC.BOOT_STAT_HALT, SEC.BOOT_STAT_TC_FAIL, SEC.BOOT_SEL_NEXT, SEC.BOOT_SEL_TRIAL,
    PWR.STRAP_TWIN_EN, PWR.CLK_STAT_LOCKED, PWR.CLK_STAT_REFCLK_SYS_OK, PWR.CLK_STAT_MCLK_OK, PWR.MCLK_MEAS_HZ]
  ++ (List.range 10).flatMap (fun w =>
    [WDG.EV_PC_LO_PC w, WDG.EV_PC_HI_PC w, WDG.EV_SVC_NS_NS w, WDG.EV_SVC_SEC_LO_SEC w, WDG.EV_SVC_SEC_HI_SEC w, WDG.EV_SVC_SEC_HI_SHADOW_FREE w,
      WDG.EV_FRAME_FRAME_NO w, LCK.P_STAT_TRANSIENTS w])
  ++ (List.range 64).map HLN.SLACK_MIN ++ (List.range 20).map HLN.ENG_STAT_TRANSIENTS

/-- The firmware or Topcoat slots in the flashes: a write that a reset interrupts leaves a slot that fails R451 (R459). -/
def Dev.flashAfter (d : Dev) (topcoat : Bool) : Tab (List Byte) :=
  (d.boot.installs.filter (fun i => i.topcoat == topcoat)).foldl (fun t i => tabSet [] t i.slot [])
    (if topcoat then d.boot.flashTc else d.boot.flashFw)

/-- The device at a reset, before step 1: power-on values, with the model's own counters, the fuses and the flashes. -/
def Dev.base (d : Dev) : Dev :=
  { Dev.reset with
    now := d.now, free := d.free, drbg := d.drbg,
    boot := { Boot.reset with
      fuses := d.boot.fuses, flashFw := d.flashAfter false, flashTc := d.flashAfter true, flashModel := d.boot.flashModel },
    snag := { Snag.reset with newAt := d.now, hbDue := d.now }, cmd := { Cmd.reset with statusAt := d.now }, ladder := { Ladder.reset with calmFrom := d.now } }

/-- The engines of a cluster at boot (R487): FAILED engines stay so, the others take the logical engines in order, and the fifth is the spare. -/
def Dev.mapCluster (failed : List Nat) (d : Dev) (c : Nat) : Dev :=
  let good := (List.range 5).filter (fun k => !failed.contains (5 * c + k))
  let d1 := (List.range 5).foldl (fun d k => if good.contains k then d else
    (d.put (HLN.ENG_STAT_STATE (5 * c + k)) 4).put (HLN.ENG_STAT_LOGICAL (5 * c + k)) 0) d
  let d2 := (List.range 4).foldl (fun d i => match good[i]? with
    | some k => (((d.put (HLN.ENG_STAT_STATE (5 * c + k)) 0).put (HLN.ENG_STAT_LOGICAL (5 * c + k)) (4 * c + i)).put
        (MTX.ENG_MAP_CORE (4 * c + i)) k)
    | none => d.flag (MTX.ENG_MAP_VALID (4 * c + i)) false) d1
  match good[4]? with
  | some k => (d2.put (HLN.ENG_STAT_STATE (5 * c + k)) 1).put (HLN.ENG_STAT_LOGICAL (5 * c + k)) 0
  | none => d2

/-- The array's map where engines are FAILED; HLN_SPARE_NONE where a cluster maps fewer than four. -/
def Dev.mapEngines (d : Dev) (failed : List Nat) : Dev :=
  if failed = [] then d
  else
    let d1 := ([0, 1, 2, 3].foldl (Dev.mapCluster failed) d).showEngines
    if (List.range 16).all (fun e => d1.on (MTX.ENG_MAP_VALID e)) then d1 else d1.raiseCause .s 588

/-- WDG_RESET_CAUSE and SNG_RESTART_SRC of a restart; `unit` is the watchdog or the source behind it. -/
def Dev.recordCause (d : Dev) (cause unit : Nat) : Dev :=
  let d1 := (d.put WDG.RESET_CAUSE_CAUSE cause).flag SNG.RESTART_SRC_VALID (cause == 2)
  let d2 := if cause = 1 then d1.put WDG.RESET_CAUSE_WDG unit else d1
  if cause = 2 then d2.put SNG.RESTART_SRC_SOURCE unit else d2

/-- TRIES has reached MAX_TRIES by the ladder event behind the restart that is due: the device restarts with the ladder locked (Table 13.6). -/
def Dev.locksLadder (d : Dev) : Bool :=
  d.on WDG.LADDER_LOCKED ||
    (match d.snag.restart with
     | some r => r.ladder && d.fld WDG.CTRL_MAX_TRIES ≤ d.fld WDG.LADDER_TRIES
     | none => false)

/-- The device after the internal reset of a warm restart (R518). -/
def Dev.warmBase (d : Dev) (cause unit : Nat) : Dev :=
  let failed := (List.range 20).filter (fun e => d.fld (HLN.ENG_STAT_STATE e) == 4)
  let locked := d.locksLadder
  let d1 := retainedFlds.foldl (fun x f => x.put f (d.fld f)) d.base
  let d2 := { d1 with
    power := d.power, ladder := { d1.ladder with step1At := d.ladder.step1At },
    memsys := { d1.memsys with marked := d.memsys.marked },
    boot := { d1.boot with previous := d.boot.previous, revertDue := d.boot.revertDue } }
  let d3 := (d2.recordCause cause unit).count PWR.RST_CNT_COUNT 1
  let d4 := d3.mapEngines failed
  if locked then (d4.flag WDG.LADDER_LOCKED true).raiseCause .s 36 else d4

/-- The device at power-on: reset cause 0, the strap latched, references and PLLs in lock. -/
def Dev.powerBase (d : Dev) (twinEn : Bool) : Dev :=
  ((d.base.flag PWR.STRAP_TWIN_EN twinEn).put PWR.CLK_STAT_LOCKED 1023).flag PWR.CLK_STAT_REFCLK_SYS_OK true

/-! Step 1: fuses and dies. -/

/-- The two copies of a fuse field differ. -/
def fuseDiff (f : Nat × Nat) : Bool := f.1 != f.2

/-- Fuses as found: a bit blown before stays blown. -/
def fuseJoin (a b : Nat × Nat) : Nat × Nat := (a.1 ||| b.1, a.2 ||| b.2)

/-- The fuses with those that the environment names as found. -/
def fusesJoin (a b : Fuses) : Fuses :=
  ⟨fuseJoin a.arb b.arb, fuseJoin a.ownerRevoke b.ownerRevoke, fuseJoin a.vendorRevoke b.vendorRevoke, fuseJoin a.hwStart b.hwStart,
    fuseJoin a.debugDisable b.debugDisable, fuseJoin a.owner0 b.owner0, fuseJoin a.owner1 b.owner1⟩

/-- Some pair of copies disagrees. -/
def fusesDiffer (f : Fuses) : Bool :=
  fuseDiff f.arb || fuseDiff f.ownerRevoke || fuseDiff f.vendorRevoke || fuseDiff f.hwStart || fuseDiff f.debugDisable || fuseDiff f.owner0
    || fuseDiff f.owner1

/-- The fuses are read (R448). -/
def Dev.readFuses (d : Dev) (f : Fuses) : Dev :=
  let fuses := fusesJoin d.boot.fuses f
  let d1 := { d with boot := { d.boot with fuses := fuses, ownerRevoke := fuseOr fuses.ownerRevoke, rstout := true } }
  let d2 := (((d1.put SEC.UID_LO_UID (Config.fuseUid 0)).put SEC.UID_HI_UID (Config.fuseUid 1)).put PWR.INFO_GRADE (Config.fuseGrade % 2)).put
    SEC.ARB_FUSED d1.fusedStep
  if fusesDiffer fuses then d2.raise .s 521 else d2

/-- A die leaves reset: one without supply is lost (R417, R512). -/
def Dev.releaseDie (d : Dev) (i : Nat) : Dev := if bit d.power.lost i then d.dieLost i false else d.dieBack i

/-- WDG0 or WDG1 starts where WDG_HW_START is blown (R437). -/
def Dev.hwStart (d : Dev) (w : Nat) : Dev :=
  if fuseOr d.boot.fuses.hwStart = 0 then d
  else ((((d.put (WDG.OPEN_OPEN w) 0).put (WDG.CLOSE_CLOSE w) 10000).put (WDG.WARN_WARN w) 0).flag (WDG.CFG_HW w) true).dogStart w

/-- Step 1: the fuses, then the X-die and the C-dies, then the watchdogs of R437. -/
def Dev.bootOne (d : Dev) (f : Fuses) : Dev :=
  ((((((d.readFuses f).releaseDie 2).releaseDie 0).releaseDie 1).hwStart 0).hwStart 1)

/-! Halts, comparators and entropy. -/

/-- Boot halts (R454); a trial boot that halts has failed (R457). -/
def Dev.halt (d : Dev) (code : Nat) : Dev :=
  let d1 := (if d.on SEC.BOOT_SEL_TRIAL then d.revertTrial else d).put SEC.BOOT_STAT_HALT code
  { d1 with boot := { d1.boot with haltAt := some d.now } }

/-- An owner slot that is programmed and not revoked. -/
def Dev.ownerSlot (d : Dev) (k : Nat) : Bool :=
  fuseOr (if k = 0 then d.boot.fuses.owner0 else d.boot.fuses.owner1) != 0 && !bit d.boot.ownerRevoke k

/-- Step 3: the entropy test, BOOT_SALT (R375) and the first token challenge (R467). -/
def Dev.bootThree (d : Dev) (ok : Bool) : Dev :=
  let (ws, d1) := (d.entropyTest ok).drbgWords 4
  { d1 with cmd := { d1.cmd with bootSalt := ws.flatMap (beBytes 4) } }.newChal

/-! Steps 4 and 5: firmware (R456, R457). -/

/-- A firmware slot verifies. -/
def Dev.fwOk (d : Dev) (slot : Nat) : Bool := d.imgCheck 1 false (tabGet [] d.boot.flashFw slot) == 0

/-- The trial state at a boot: a trial that fell back reverts, one that runs its slot is open. -/
def Dev.bootTrial (d : Dev) (fell : Bool) : Dev :=
  if !d.on SEC.BOOT_SEL_TRIAL then d else if fell then d.revertTrial else d.flag SEC.BOOT_STAT_TRIAL true

/-- Step 5: firmware of a slot starts, and M takes the digest of the boot ROM and the firmware manifest (R470). -/
def Dev.startFirmware (d : Dev) (slot : Nat) (fell : Bool) : Dev :=
  let c := tabGet [] d.boot.flashFw slot
  let d1 := ((d.bootTrial fell).flag SEC.BOOT_STAT_FALLBACK fell).put SEC.BOOT_STAT_SLOT slot
  let d2 := if fell then d1.raiseCause .s 512 else d1
  let d3 := (d2.put SEC.FW_VERSION_VERSION (imgVersion c)).put SEC.ARB_FW_STEP (imgArbStep c)
  ({ d3 with boot := { d3.boot with compat := imgCompat c, step5At := d3.now } }.extend Config.romDigest).extend (imgManifest c)

/-! Step 6: the Topcoat overlay (R460 to R463). -/

/-- The injection registers. -/
def injAddrs : List Nat :=
  [WCH.INJ_ARM.addr, WCH.SIG_INJ_ARM.addr, MTX.INJ_ARM.addr, SWD.INJ_ARM.addr, MEM.INJ_ARM.addr, SGT.INJ_ARM.addr, TIM.INJ_ARM.addr,
    ETH.CMD_INJ_ARM.addr, LCK.INJ_ARM.addr, MBX.INJ_ARM.addr, SNG.INJ_ARM.addr, WDG.INJ_ARM.addr, SEC.INJ_ARM.addr, HLN.INJ_ARM.addr,
    TWN.INJ_ARM.addr, PWR.INJ_ARM.addr]
  ++ (List.range 4).map (fun u => (SKM.U_INJ_ARM u).addr) ++ (List.range 4).map (fun p => (FJL.P_INJ_ARM p).addr)

/-- A REG record may name the address: no injection register and no register with a WO field, TCK_COMMIT among them. -/
def regRecordOk (a : Nat) : Bool :=
  within a 0x01000000 0x0113FFFF && !injAddrs.contains a
    && (match regFields a with
        | some fs => fs.all (fun f => f.acc != .wo)
        | none => true)

/-- The overlay while it runs: the device and the BOOT_MODEL records held so far; none once the slot has failed. -/
abbrev Overlay := Option (Dev × List (Nat × Nat × Nat))

/-- One pair of a REG record. -/
def Dev.overlayReg (d : Dev) (p : Nat × Nat) : Option Dev :=
  if !regRecordOk p.1 then none
  else
    let d1 := d.busWrite 0 p.1 p.2 4
    if d1.resp = .done then some d1 else none

/-- The pairs of a REG record, in order. -/
def Dev.overlayRegs (d : Dev) : List (Nat × Nat) → Option Dev
  | [] => some d
  | p :: ps =>
    match d.overlayReg p with
    | none => none
    | some d1 => d1.overlayRegs ps

/-- Samples of the chimes that are VALID, but for chime `x`. -/
def Dev.chimeTotal (d : Dev) (x : Nat) : Nat :=
  (((List.range 16).filter (fun i => i != x && d.on (SGT.CHIME_VALID i))).map (fun i => d.fld (SGT.CHIME_LEN i))).foldl (· + ·) 0

/-- A CHIME record fills a chime of the store (R308). -/
def Dev.loadChime (d : Dev) (x fsSel : Nat) (samples : List Nat) : Dev :=
  let store := samples.zipIdx.foldl (fun t e => tabSet 0 t (key2 x e.2) (signedOf 32 e.1))
    (d.gate.chime.filter (fun e => e.1 / 4294967296 != x))
  (({ d with gate := { d.gate with chime := store } }.flag (SGT.CHIME_VALID x) true).put (SGT.CHIME_FS_SEL x) fsSel).put (SGT.CHIME_LEN x)
    samples.length

/-- One record of the overlay. -/
def overlayRecord (o : Overlay) (r : TcRecord) : Overlay :=
  match o with
  | none => none
  | some (d, held) =>
    match r with
    | .reg pairs => (d.overlayRegs pairs).map (fun d1 => (d1, held))
    | .ctrlKey i k => some ({ d with boot := { d.boot with ctrlKeys := tabSet none d.boot.ctrlKeys i (some k) } }, held)
    | .statusKey k => some ({ d with boot := { d.boot with statusKey := k } }, held)
    | .chime x fsSel samples =>
      if 262144 < d.chimeTotal x + samples.length then none else some (d.loadChime x fsSel samples, held)
    | .bootModel chip off len => some (d, held ++ [(chip, off, len)])
    | .malformed => none

/-- The records of a slot, then TCK_COMMIT once (R215); none where the slot fails to apply. -/
def Dev.overlay (d : Dev) (payload : List Byte) : Overlay :=
  match (tcPayload payload).foldl overlayRecord (some (d, [])) with
  | none => none
  | some (d1, held) =>
    let d2 := d1.commitWrite
    if d2.fld TCK.COMMIT_STATUS_RESULT = 2 then none else some (d2.answer .idle, held)

/-- A Topcoat slot that boot may use: it verifies and has not failed a boot model since power-on. -/
def Dev.tcUsable (d : Dev) (slot : Nat) : Bool :=
  d.imgCheck 2 false (tabGet [] d.boot.flashTc slot) == 0 && !bit (d.fld SEC.BOOT_STAT_TC_FAIL) slot

/-- The overlay of a slot. -/
def Dev.overlaySlot (d : Dev) (slot : Nat) : Overlay :=
  if d.tcUsable slot then d.overlay (imgPayload (tabGet [] d.boot.flashTc slot)) else none

/-- The slots in the order of R461: the higher SEQ first, slot A on a tie. -/
def Dev.tcOrder (d : Dev) : Nat × Nat :=
  let seq (s : Nat) : Nat := tcSeq (imgPayload (tabGet [] d.boot.flashTc s))
  if seq 0 < seq 1 then (1, 0) else (0, 1)

/-- A slot has applied: it is reported, and M takes its manifest. -/
def Dev.topcoatIn (d : Dev) (slot : Nat) (fell : Bool) : Dev :=
  let c := tabGet [] d.boot.flashTc slot
  let d1 := ((d.put SEC.BOOT_STAT_TC_SLOT slot).put SEC.TC_VERSION_VERSION (imgVersion c)).extend (imgManifest c)
  if fell then d1.raise .s 514 else d1

/-- Step 6, with the slot in force where there is one. -/
def Dev.bootSix (d : Dev) : Dev × Option Nat × List (Nat × Nat × Nat) :=
  let (a, b) := d.tcOrder
  let (d1, slot, held) := match d.overlaySlot a with
    | some (e, held) => (e.topcoatIn a false, some a, held)
    | none =>
      match d.overlaySlot b with
      | some (e, held) => (e.topcoatIn b true, some b, held)
      | none => ((d.raiseCause .s 515).extend (zeroBytes 64), none, [])
  (if d1.on TWN.CTRL_PAIR then d1 else d1.flag TWN.STAT_OWN_OUT true, slot, held)

/-! Steps 7 and 8. -/

/-- HBM training (R248). -/
def Dev.trainHbm (d : Dev) (ok : Bool) (bad : List Nat) : Dev :=
  let lanes := (bad ++ d.memsys.marked).dedup
  let d1 := { d with memsys := { d.memsys with marked := [] } }.put MEM.HBM_STAT_MARKED 0
  if ok then (d1.put MEM.HBM_STAT_REMAPPED (min 255 lanes.length)).flag MEM.HBM_STAT_TRAINED true else d1.raise .x 88

/-- A cluster's B pair starts split where SVC_SPLIT says so (R392). -/
def Dev.startSplit (d : Dev) (c : Nat) : Dev :=
  if bit d.cores.split c then ((d.put (LCK.P_STAT_STATE (3 + 2 * c)) 5).mbxResetMaster (3 + 2 * c)).mbxResetMaster (22 + c) else d

/-- Step 7: HBM training, and the cluster pairs. -/
def Dev.bootSeven (d : Dev) (ok : Bool) (bad : List Nat) : Dev :=
  let d1 := d.trainHbm ok bad
  [0, 1, 2, 3].foldl Dev.startSplit { d1 with cores := { d1.cores with split := d1.fld LCK.CTRL_SVC_SPLIT } }

/-- One boot model is loaded from flash; none where its load gives a status other than MODEL_OK. -/
def Dev.loadBoot (d : Dev) (r : Nat × Nat × Nat) : Option Dev :=
  let c := (tabGet [] d.boot.flashModel (key2 r.1 r.2.1)).take r.2.2
  let p := imgPayload c
  if c.length != r.2.2 || d.imgCheck 0 false c != 0 || d.loadStatus p != 0 then none
  else
    let m := d.modelEntry p
    if d.loadOver (mId p) m then none
    else some ((((d.installEntry (mId p) m).keepModel (mId p) m (mBytes p 5))).extend (imgManifest c))

/-- The held records in order. -/
def Dev.loadBoots (d : Dev) : List (Nat × Nat × Nat) → Option Dev
  | [] => some d
  | r :: rs =>
    match d.loadBoot r with
    | none => none
    | some d1 => d1.loadBoots rs

/-! Boot. -/

/-- Steps 6 to 8; none where the device must restart with cause 6, with the slot that failed. -/
def Dev.bootLate (d : Dev) (env : BootEnv) : Dev × Option Nat :=
  let (d1, slot, held) := d.bootSix
  let d2 := d1.bootSeven env.hbmOk env.badLanes
  match slot with
  | none => (d2, none)
  | some s =>
    match d2.loadBoots held with
    | some d3 => (d3, none)
    | none => (d2, some s)

/-- Steps 4 to 8. -/
def Dev.bootFirmware (d : Dev) (env : BootEnv) : Dev × Option Nat :=
  let next := d.fld SEC.BOOT_SEL_NEXT
  if d.fwOk next then (d.startFirmware next false).bootLate env
  else if d.fwOk (1 - next) then (d.startFirmware (1 - next) true).bootLate env
  else (d.halt 2, none)

/-- SEC_TRIAL_REVERT is raised at the boot after a trial that failed (R457). -/
def Dev.reportRevert (d : Dev) : Dev :=
  if d.boot.revertDue then { d with boot := { d.boot with revertDue := false } }.raise .s 513 else d

/-- Boot from step 1 to step 8 or to a halt. -/
def Dev.boot1 (d : Dev) (env : BootEnv) : Dev × Option Nat :=
  let d1 := d.reportRevert.bootOne env.fuses
  if !d1.ownerSlot 0 && !d1.ownerSlot 1 then (d1.halt 3, none)
  else
    let d2 := (d1.put LCK.BOOT_STAT_FAIL env.comparatorMiss).flag LCK.BOOT_STAT_DONE true
    if d2.fld LCK.BOOT_STAT_FAIL != 0 then (d2.halt 1, none) else (d2.bootThree env.entropyOk).bootFirmware env

/-- Boot; a slot that fails at step 8 sets its TC_FAIL bit, and the device restarts with cause 6 (R462). Each such restart bars one slot. -/
def Dev.bootLoop (env : BootEnv) : Nat → Dev → Dev
  | 0, d => d
  | n + 1, d =>
    match d.boot1 env with
    | (d1, none) => d1
    | (d1, some slot) => bootLoop env n ((d1.put SEC.BOOT_STAT_TC_FAIL (d1.fld SEC.BOOT_STAT_TC_FAIL ||| 2 ^ slot)).warmBase 6 0 |>.strap env.twinEn)

/-- What stands in the flashes at a boot. -/
def Dev.flashes (d : Dev) (env : BootEnv) : Dev :=
  let b := d.boot
  let pair (x : Option (List Byte × List Byte)) (old : Tab (List Byte)) : Tab (List Byte) :=
    match x with
    | some p => tabSet [] (tabSet [] old 0 p.1) 1 p.2
    | none => old
  let models := env.flashModels.foldl (fun t e => tabSet [] t (key2 e.1 e.2.1) e.2.2) b.flashModel
  { d with boot := { b with flashFw := pair env.flashFw b.flashFw, flashTc := pair env.flashTc b.flashTc, flashModel := models } }

/-- Boot of a device that a reset has brought to its base. The safe state holds (R453); SAFE_OK and the pins are low. -/
def Dev.bootFrom (d : Dev) (env : BootEnv) : Dev := (bootLoop env 3 (d.flashes env)).enterSafe

/-- A power-on reset (R516): every die has supply. -/
def Dev.powerOn (d : Dev) (env : BootEnv) : Dev := ((d.powerBase env.twinEn).flag PWR.STRAP_TWIN_EN_NOW env.twinEn).bootFrom env

/-- A warm restart (R517, R518). A trial that has not passed fails with it (R457); a restart in the cycle of a ladder restart keeps the ladder's
cause. -/
def Dev.warmRestart (d : Dev) (env : BootEnv) (cause unit : Nat) : Dev :=
  let (c, u) := match d.snag.restart with
    | some r => if r.due = d.now then (r.cause, r.unit) else (cause, unit)
    | none => (cause, unit)
  let d1 := if d.trialOpen then d.revertTrial else d
  ((d1.warmBase c u).strap env.twinEn).bootFrom env

/-- A command that resets the device: memory starts empty (R40, R452). -/
def runBoot (s : State) (f : Dev → Dev) : Host.Outcome State Fault Refusal :=
  let d := (f s.dev).settle
  .next { s with
    mem := ({ cells := [], check := [] } : Mem).putAll d.memsys.writes,
    dev := { d with memsys := { d.memsys with writes := [] } } }

/-- A warm restart where a device with supply meets a condition. -/
def runRestart (s : State) (c : Dev → Bool) (env : BootEnv) (cause : Dev → Nat × Nat) : Host.Outcome State Fault Refusal :=
  if !s.dev.dead && c s.dev then runBoot s (fun d => d.warmRestart env (cause d).1 (cause d).2) else .next s

/-! The commands. -/

/-- POWER_ON_RESET (R516): PORST_n. It also ends the loss of the S-die's supply. -/
def execPowerOnReset (env : BootEnv) (s : State) : Host.Outcome State Fault Refusal := runBoot s (fun d => d.powerOn env)

/-- The restart that a request asked for is due. -/
def Dev.commandDue (d : Dev) : Bool :=
  match d.cmd.restartAt with
  | some r => r.1 ≤ d.now
  | none => false

/-- WARM_RESTART (R518): the restart by RESTART, MAINT 0 or a debug close, once it is due. -/
def execWarmRestart (env : BootEnv) (s : State) : Host.Outcome State Fault Refusal :=
  runRestart s Dev.commandDue env (fun d => match d.cmd.restartAt with | some r => (r.2, 0) | none => (3, 0))

/-- The ladder's restart, or that of a RESTART source, is due. -/
def Dev.ladderDue (d : Dev) : Bool :=
  match d.snag.restart with
  | some r => r.due ≤ d.now
  | none => false

/-- RESTART_DELAY_EXPIRY (R412, R440): 250 µs after the event. -/
def execRestartDelayExpiry (env : BootEnv) (s : State) : Host.Outcome State Fault Refusal :=
  runRestart s Dev.ladderDue env (fun d => match d.snag.restart with | some r => (r.cause, r.unit) | none => (2, 0))

/-- WRST_PIN (R516): WRST_n, where WRST_EN is 1. -/
def execWrstPin (env : BootEnv) (s : State) : Host.Outcome State Fault Refusal :=
  runRestart s (fun d => d.on PWR.RST_WRST_EN) env (fun _ => (5, 0))

/-- S_CORE_RECOVERY (R444): S_CORE has been within limits for 10 µs. -/
def execSCoreRecovery (env : BootEnv) (s : State) : Host.Outcome State Fault Refusal :=
  runRestart s (fun d => d.ladder.coreLost) env (fun _ => (4, 0))

/-- DEBUG_CLOSE (R468): SEC_CMD.DEBUG_CLOSE closes debug, which is a warm restart with cause 3. -/
def execDebugClose (mid : Nat) (env : BootEnv) (s : State) : Host.Outcome State Fault Refusal :=
  if trusted mid then
    if s.dev.on SEC.STATE_DEBUG_OPEN then runRestart s (fun d => d.on SEC.STATE_DEBUG_OPEN) env (fun _ => (3, 0))
    else run s (fun _ d => d.answer .done)
  else run s (fun _ d => d.answer .error)

/-- DEBUG_EXPIRE (R468): DURATION has passed. -/
def execDebugExpire (env : BootEnv) (s : State) : Host.Outcome State Fault Refusal :=
  runRestart s (fun d => match d.boot.debugUntil with | some t => t ≤ d.now | none => false) env (fun _ => (3, 0))

end Sys2Proof.Machine
end

