-- ==== Sys2Proof/Machine/Lockstep.lean ====
section
/-!
DEFINITION. Comparisons of the lockstep pairs, the end of a debug halt (12 R382 to R395), and the detectors that have no command of their own (13 R412).
-/

namespace Sys2Proof.Machine

/-- A queued store leaves its pair (R384), under the pair's master identity. No pair reaches HBM (R221) or a die that is cut off (R17, R38). -/
def Dev.release (p : Nat) (d : Dev) (x : PairStore) : Dev :=
  match x with
  | .reg a v => d.busWrite p a v 4
  | .mem a b =>
    let die := (memPlace a).2.2.2
    if a < hbmSize || memEnd ≤ a || !d.access p die || !d.reach die then d.answer .error else (d.store [⟨a, b, .sound⟩]).answer .done

/-- LCK_P_CFG takes effect at a comparison (R407). -/
def Dev.takeCfg (d : Dev) (p : Nat) : Dev :=
  d.putPair p { d.pairOf p with
    cfg := some (d.fld (LCK.P_CFG_TRANS_MAX p), d.fld (LCK.P_CFG_ON_SINGLE p), d.fld (LCK.P_CFG_WIN_LOG2 p)) }

/-- A comparison passes: both MISRs restart from 0, the queued stores leave, the loads that waited issue, and a halt that waits for it takes place
(R383, R384, R385, R394). -/
def Dev.comparePass (d : Dev) (p : Nat) : Dev :=
  let x := d.pairOf p
  let d1 := x.stores.foldl (Dev.release p) ((d.putPair p { x with
    misrMain := 0, misrChk := 0, loads := [], stores := [], replay := [], haltReq := false }).put (LCK.P_STAT_LOG_FILL p) 0)
  let d2 := x.loads.foldl (fun d a => d.busRead p a 4) d1
  if x.haltReq then d2.put (LCK.P_STAT_STATE p) 6 else d2

/-- A comparison fails (R386); in the cycle of a pair reset it is discarded (R389). The mismatch is attributed to the job whose stage the pair
controls (R192). -/
def Dev.compareFail (d : Dev) (p main chk : Nat) (inj : Bool) (job : Option (Nat × Nat)) : Dev :=
  if (d.pairOf p).resetAt = some d.now then d
  else
    let d1 := d.mismatch p main chk inj
    match job with
    | some (w, k) => d1.ownerFault (.job w k)
    | none => d1

/-- LCK_INJ mode 1 is armed for a pair (Table 12.5). -/
def Dev.misrInjected (d : Dev) (p : Nat) : Bool := d.on LCK.INJ_ARM && d.fld LCK.INJ_MODE == 1 && d.fld LCK.INJ_PAIR == p

/-- The MISRs are compared (R383, R386): where they agree, the main copy's stores and a waiting load join the queue that the comparison lets go. -/
def Dev.decideMisrs (d : Dev) (p m c : Nat) (y : Pair) (inj : Bool) (job : Option (Nat × Nat)) : Dev :=
  if m = c then (d.putPair p y).comparePass p else d.compareFail p m c inj job

/-- A comparison, at the end of a window or at a checkpoint: each copy has run its events on the inbound values captured for both (R382, R383).
LCK_INJ mode 1 inverts a bit of the checker's MISR at a window end. -/
def Dev.compare (d : Dev) (p : Nat) (inbound : List Nat) (main chk : List CoreEvent) (window : Bool) (load : Option Nat)
    (job : Option (Nat × Nat)) : Dev :=
  let inj := window && d.misrInjected p
  let d1 := (if inj then d.flag LCK.INJ_ARM false else d).takeCfg p
  let x := d1.pairOf p
  let m := runCore main x.misrMain (x.inbound ++ inbound) (storeRoom - x.stores.length)
  let c := runCore chk x.misrChk (x.inbound ++ inbound) (storeRoom - x.stores.length)
  d1.decideMisrs p m.misr (if inj then Nat.xor c.misr 1 else c.misr)
    { x with inbound := m.inbound, stores := x.stores ++ m.stores, loads := x.loads ++ load.toList } inj job

/-- LOCKSTEP_COMPARE (R383): only a LOCKED pair compares. -/
def execLockstepCompare (pair : Nat) (main chk : List CoreEvent) (window : Bool) (bus : PairBus) (job : Option (Nat × Nat))
    (s : State) : Host.Outcome State Fault Refusal :=
  run s fun _ d => if pair < 10 && d.pairState pair = 0 then d.compare pair bus.inbound main chk window bus.load job else d

/-- DEBUG_RESUME (R395): the checker copy takes the logged actions with the logged inbound values, and the MISRs are compared. -/
def Dev.debugResume (d : Dev) (p : Nat) (chk : List CoreEvent) (job : Option (Nat × Nat)) : Dev :=
  let d1 := d.put (LCK.P_STAT_STATE p) 0
  let x := d1.pairOf p
  let m := runCore (x.replay.flatMap DebugAct.events) 0 (x.logged x.replay) storeRoom
  let c := runCore chk 0 (x.logged x.replay) storeRoom
  d1.decideMisrs p m.misr c.misr { x with inbound := m.inbound } false job

def execDebugResume (pair : Nat) (chk : List CoreEvent) (job : Option (Nat × Nat)) (s : State) : Host.Outcome State Fault Refusal :=
  run s fun _ d => if pair < 10 && d.pairState pair = 6 then d.debugResume pair chk job else d

/-- The LIN jobs that are open. -/
def Dev.openLin (d : Dev) : List (Nat × Nat) :=
  (d.activeWatches.filter (fun w => d.wdKind w == 0)).flatMap (fun w =>
    ((d.watchOf w).ring.filter (fun j => (d.openJob w j.frame).isSome)).map (fun j => (w, j.frame)))

/-- What a detection leaves beside its source: a table read error is a fault of the job that needed it (R108, R192), a history error loses a
history entry (R146), a status parity error sets the affected sources (R418), and a memory error is counted and
recorded (R224, R225, R227, R244). Which job, and which place, are free values (log entry 62). -/
def Dev.detectEffect (d : Dev) (source : Nat) : Dev :=
  let (l, d1) := d.drawN 4
  let v (i : Nat) : Nat := l.getD i 0
  match source with
  | 73 =>
    (match d.openLin with
    | [] => d
    | j :: js => let x := (j :: js).getD (v 0 % (js.length + 1)) j; d1.attribute x.1 x.2)
  | 75 => d.historyLost
  | 3 => d1.raise .s (v 0 % 1024)
  | 80 => d.count MEM.SRAM_CNT_CE 1
  | 81 => (d1.count MEM.SRAM_CNT_UE 1).ueInfo (v 0 % 6) (v 1 % 20) (v 2 % 32) (v 3 % 17179869184)
  | 82 => (d1.count MEM.DRAM_CE_CE 1).rowError (v 0 % hbmSize)
  | 83 =>
    let a := v 0 % hbmSize / 64 * 64
    ((d1.count MEM.DRAM_UE_UE 1).ueInfo 6 0 (v 1 % 32) a).schedulePage (a / 65536) 1
  | _ => d

/-- SNAG_SOURCE_DETECT (R412): a detector fires; `lasting` where the condition that its chapter names for its cause holds from now on. -/
def execSnagSourceDetect (die : Die) (source detail : Nat) (lasting : Bool) (s : State) : Host.Outcome State Fault Refusal :=
  run s fun _ d =>
    let d1 := (d.detectEffect source).raiseInj die source detail false
    if lasting && srcExists source then d1.cause source true else d1

end Sys2Proof.Machine
end

