-- ==== Sys2Proof/Machine/Requests.lean ====
section
/-!
DEFINITION. What the requests of Table 11.4 do (11 R372 to R374): one operation per opcode. Sessions, replies and refusals that all opcodes share are in
Command. An operation answers with the status and payload of its reply, and the device.
-/

namespace Sys2Proof.Machine

/-- How a request goes on: its one reply, PENDING, or a reply that waits for a capture (R367, R368). -/
inductive Ans where
  | reply (status : Nat) (payload : List Byte)
  | pending
  | wait
  deriving DecidableEq, Repr

/-- Completed with a payload. -/
def Ans.ok (payload : List Byte) : Ans := .reply 0 payload

/-- Refused with STATE by entry `i` (Table 11.3). -/
def Ans.state (i : Nat) : Ans := .reply 0x0106 (beBytes 2 i)

/-- A refusal without payload. -/
def Ans.refuse (status : Nat) : Ans := .reply status []

/-! Register access by the command engine, master 18. -/

/-- A register value as a request reads it; a read without a value is none. -/
def Dev.fetch (d : Dev) (a : Nat) : Option Nat × Dev :=
  let e := d.busRead 18 a 4
  match e.resp with
  | .value v => (some v, e)
  | _ => (none, e)

/-- Registers in order; an error response stops the request with REG_ERROR (R373). -/
def Dev.readRegs (d : Dev) (i : Nat) (got : List Byte) : List Nat → Ans × Dev
  | [] => (.ok got, d)
  | a :: rest =>
    match d.fetch a with
    | (some v, e) => e.readRegs (i + 1) (got ++ beBytes 4 v) rest
    | (none, e) => (.reply 0x0107 (beBytes 2 i), e)

/-- Registers whose reads have no effect, as words. -/
def Dev.show (d : Dev) (addrs : List Nat) : List Byte := addrs.flatMap (fun a => beBytes 4 ((d.fetch a).1.getD 0))

/-- One entry of REG_WRITE, or of REG_MODIFY: address, mask, value. -/
def Dev.writeEntry (d : Dev) (modify : Bool) (e : Nat × Nat × Nat) : Dev :=
  if modify then
    match d.fetch e.1 with
    | (some old, d1) => d1.busWrite 18 e.1 (Nat.lor (Nat.land old (4294967295 - e.2.1)) (Nat.land e.2.2 e.2.1)) 4
    | (none, d1) => d1.answer .error
  else d.busWrite 18 e.1 e.2.2 4

/-- The entries in order (R373): `i` is the index of the next one, `first` that of the first discarded write. -/
def Dev.writeRegs (d : Dev) (modify : Bool) (i : Nat) (first : Option Nat) : List (Nat × Nat × Nat) → Ans × Dev
  | [] => (.reply (if first.isSome then 0x0108 else 0) (beBytes 2 i ++ beBytes 2 (first.getD 65535)), d)
  | e :: rest =>
    let d1 := d.writeEntry modify e
    match d1.resp with
    | .error => (.reply 0x0107 (beBytes 2 i), d1)
    | .discarded => d1.writeRegs modify (i + 1) (some (first.getD i)) rest
    | _ => d1.writeRegs modify (i + 1) first rest

/-- Entry `i` of `k` words of a payload. -/
def entryWord (p : List Byte) (k i j : Nat) : Nat := beAt p (4 * (k * i + j)) 4

/-- An address that REG_WRITE and REG_MODIFY refuse: an injection register, or WDG_CMD (R373). -/
def commandBarred (a : Nat) : Bool := injAddrs.contains a || a == WDG.CMD_LADDER_CLR.addr

/-- REG_READ. -/
def Dev.opRegRead (d : Dev) (p : List Byte) : Ans × Dev :=
  d.readRegs 0 [] ((List.range (p.length / 4)).map (entryWord p 1 · 0))

/-- REG_WRITE. -/
def Dev.opRegWrite (d : Dev) (p : List Byte) : Ans × Dev :=
  d.writeRegs false 0 none ((List.range (p.length / 8)).map (fun i => (entryWord p 2 i 0, 0, entryWord p 2 i 1)))

/-- REG_MODIFY. -/
def Dev.opRegModify (d : Dev) (p : List Byte) : Ans × Dev :=
  d.writeRegs true 0 none ((List.range (p.length / 12)).map (fun i => (entryWord p 3 i 0, entryWord p 3 i 1, entryWord p 3 i 2)))

/-- REG_READ_BLOCK. -/
def Dev.opReadBlock (d : Dev) (p : List Byte) : Ans × Dev :=
  d.readRegs 0 [] ((List.range (beAt p 4 2)).map (fun i => beAt p 0 4 + 4 * i))

/-- INJECT (R373). -/
def Dev.opInject (d : Dev) (p : List Byte) : Ans × Dev :=
  let d1 := d.busWrite 18 (beAt p 0 4) (beAt p 4 4) 4
  match d1.resp with
  | .error => (.reply 0x0107 (beBytes 2 0), d1)
  | .discarded => (.refuse 0x0108, d1)
  | _ => (.ok [], d1)

/-! The session and the device. -/

/-- DEVICE_INFO. -/
def Dev.opDeviceInfo (d : Dev) (role : Nat) : Ans × Dev :=
  (.ok (beBytes 2 (d.fld SEC.IDENT_DEVICE_ID) ++ beBytes 1 (d.fld PWR.INFO_GRADE) ++ [0xB0] ++ beBytes 4 (d.fld SEC.FW_VERSION_VERSION)
    ++ beBytes 1 (d.fld SEC.BOOT_STAT_SLOT) ++ beBytes 1 (d.fld SEC.ARB_FUSED) ++ beBytes 1 (d.fld SEC.STATE_MAINT) ++ beBytes 1 role
    ++ beBytes 4 (d.fld SEC.TC_VERSION_VERSION) ++ beBytes 4 (d.fld SEC.PAIR_TAG_HI_TAG) ++ beBytes 4 (d.fld SEC.PAIR_TAG_LO_TAG)), d)

/-- STATUS_GET: Table 11.5 with TRIGGER 5. -/
def Dev.opStatusGet (d : Dev) : Ans × Dev := (.ok (d.statusPayload 5), d)

/-- SUBSCRIBE. -/
def Dev.opSubscribe (d : Dev) (n : Nat) (x : Session) (p : List Byte) : Ans × Dev :=
  (.ok [], d.withSession n (some { x with mask := beAt p 0 1, minSev := beAt p 1 1 }))

/-- OP_QUERY. -/
def Dev.opQuery (d : Dev) (x : Session) (p : List Byte) : Ans × Dev :=
  match x.ops.find? (fun o => o.reqId == beAt p 0 4) with
  | none => (.refuse 0x010E, d)
  | some o => (.ok (beBytes 2 (o.status.getD 1) ++ [0, 0]), d)

/-- The body of an attestation report (Table 14.8). -/
def Dev.attestBody (d : Dev) (challenge : List Byte) : List Byte :=
  let t := (d.tb 0).val
  let flags := bitsOf 8 (fun i => match i with
    | 0 => d.on SEC.STATE_SEALED
    | 1 => d.on SEC.STATE_DEBUG_OPEN
    | 2 => d.on SEC.STATE_MAINT
    | 3 => d.on SEC.BOOT_STAT_SLOT
    | 4 => d.on SEC.BOOT_STAT_FALLBACK
    | 5 => d.on SEC.BOOT_STAT_TC_SLOT
    | 6 => d.isSet 515
    | _ => false)
  beBytes 4 0x5A415454 ++ beBytes 1 (d.fld PWR.INFO_GRADE) ++ [0xB0] ++ beBytes 2 (d.fld SEC.IDENT_DEVICE_ID)
    ++ beBytes 4 (d.fld SEC.UID_HI_UID) ++ beBytes 4 (d.fld SEC.UID_LO_UID) ++ beBytes 1 flags ++ beBytes 1 (d.fld SEC.ARB_FUSED)
    ++ beBytes 1 (d.fld SEC.ARB_FW_STEP) ++ [0] ++ beBytes 4 (d.fld SEC.FW_VERSION_VERSION) ++ beBytes 4 (d.fld SEC.TC_VERSION_VERSION)
    ++ beBytes 4 d.frame ++ challenge ++ d.measure ++ (if d.boot.loaded = [] then zeroBytes 64 else d.boot.loaded)
    ++ beBytes 4 (d.fld SEC.PAIR_TAG_HI_TAG) ++ beBytes 4 (d.fld SEC.PAIR_TAG_LO_TAG) ++ beBytes 6 t.sec ++ beBytes 4 t.ns ++ zeroBytes 46

/-- ASCII "ZLZ-ATT". -/
def attestLabel : List Byte := [0x5A, 0x4C, 0x5A, 0x2D, 0x41, 0x54, 0x54]

/-- Exactly `n` bytes. -/
def fit (n : Nat) (x : List Byte) : List Byte := (x ++ zeroBytes n).take n

/-- ATTEST (R471). -/
def Dev.opAttest (d : Dev) (p : List Byte) : Ans × Dev :=
  let body := d.attestBody (slice p 0 32)
  (.ok (body ++ fit 64 (Config.identSign 0 (attestLabel ++ body)) ++ fit 3309 (Config.identSign 1 (attestLabel ++ body))), d)

/-- SESSION_LIST. -/
def Dev.opSessionList (d : Dev) : Ans × Dev :=
  (.ok (sessionNumbers.flatMap (fun n =>
    match d.session n with
    | some x => beBytes 1 n ++ beBytes 1 x.role ++ beBytes 1 x.keyIndex ++ [1]
    | none => beBytes 1 n ++ [0, 0, 0])), d)

/-! Watches and logs. -/

/-- COMMIT: the reply waits for the capture (R368). -/
def Dev.opCommit (d : Dev) (n reqId op : Nat) (p : List Byte) : Ans × Dev :=
  (.wait, { d with cmd := { d.cmd with commitWait := d.cmd.commitWait ++ [(⟨n, reqId, op, p⟩ : Waiting)] } }.commitWrite)

/-- The 48 host words of one entry of WATCH_DEFINE. -/
def Dev.defineWatch (d : Dev) (p : List Byte) (i : Nat) : Dev :=
  (List.range 48).foldl (fun d j => d.descWrite (beAt p (196 * i) 2) j (beAt p (196 * i + 4 + 4 * j) 4)) d

/-- WATCH_DEFINE, from entry `i` on (R374). -/
def Dev.opWatchDefine (d : Dev) (p : List Byte) (i : Nat) : Nat → Ans × Dev
  | 0 => (.ok (beBytes 2 i), d)
  | n + 1 => if d.descOpen (beAt p (196 * i) 2) then (d.defineWatch p i).opWatchDefine p (i + 1) n else (.state i, d)

/-- WATCH_READ. -/
def Dev.opWatchRead (d : Dev) (p : List Byte) : Ans × Dev :=
  (.ok ((List.range 64).flatMap (fun i => beBytes 4 (d.descWord (beAt p 0 2) i))), d)

/-- ARM_LIST (R374). -/
def Dev.opArmList (d : Dev) (n reqId : Nat) (p : List Byte) : Ans × Dev :=
  let flags := beAt p 0 1
  let k := p.length / 4 - 1
  let d1 := if bit flags 1 then d.armClearWrite 1 else d
  let d2 := (List.range k).foldl (fun d i => d.armOpWrite (beAt p (4 + 4 * i) 4)) d1
  if bit flags 0 then d2.opCommit n reqId 0x32 p else (.ok (beBytes 2 d2.watch.staged.length), d2)

/-- LOG_READ and FAULT_LOG_READ: records from the read index on, which ADVANCE moves past them. -/
def Dev.opLogRead (d : Dev) (l : LogId) (p : List Byte) : Ans × Dev :=
  let n := min (beAt p 0 2) (d.logFill l)
  let rd := d.fld (logRd l)
  let recs := (List.range n).flatMap (fun i =>
    let r := tabGet [] (d.logOf l) ((rd + i) % logSize l)
    (List.range 4).flatMap (fun j => beBytes 4 (r.getD j 0)))
  (.ok recs, if bit (beAt p 2 1) 0 && 0 < n then d.logAdvance l (rd + n) else d)

/-- COVERAGE_GET. -/
def Dev.opCoverageGet (d : Dev) (p : List Byte) : Ans × Dev :=
  (.ok (d.show [WCH.COV_FRAME_FRAME_NO.addr, WCH.COV_LOW_COV.addr] ++ (List.range (beAt p 2 2)).flatMap (fun i =>
    beBytes 4 (d.descWord (beAt p 0 2 + i) 50) ++ beBytes 4 (d.descWord (beAt p 0 2 + i) 51))), d)

/-! Image stages (R374). -/

/-- The stage with a number, where the session holds it open with a kind. -/
def Dev.stageOf (d : Dev) (n stage : Nat) (kind : Nat) : Option Stage :=
  match tabGet none d.cmd.stages stage with
  | some s => if s.session = n && s.kind = kind then some s else none
  | none => none

/-- Close a stage. -/
def Dev.freeStage (d : Dev) (stage : Nat) : Dev := { d with cmd := { d.cmd with stages := tabSet none d.cmd.stages stage none } }

/-- The image in a stage; bytes never written are 0. -/
def Stage.image (s : Stage) : List Byte :=
  ((List.range (cdiv s.size 64)).flatMap (fun l => fit 64 (tabGet [] s.chunks l))).take s.size

/-- IMG_OPEN. -/
def Dev.opImgOpen (d : Dev) (n : Nat) (p : List Byte) : Ans × Dev :=
  let kind := beAt p 0 1
  let size := beAt p 8 8
  let held := (List.range 4).any (fun i => match tabGet none d.cmd.stages i with | some s => s.session == n | none => false)
  let room := if kind = 3 then size ≤ 8192 else cdiv size 65536 ≤ d.freePages
  match (List.range 4).find? (fun i => (tabGet none d.cmd.stages i).isNone) with
  | none => (.refuse 0x010B, d)
  | some i =>
    if held || !room then (.refuse 0x010B, d)
    else
      (.ok (beBytes 1 i ++ [0] ++ beBytes 2 1280),
        { d with cmd := { d.cmd with stages := tabSet none d.cmd.stages i (some ⟨n, kind, size, []⟩) } })

/-- IMG_CHUNK: a later write of the same bytes wins. -/
def Dev.opImgChunk (d : Dev) (n : Nat) (p : List Byte) : Ans × Dev :=
  let stage := beAt p 0 1
  let off := beAt p 4 8
  let data := p.drop 12
  match tabGet none d.cmd.stages stage with
  | none => (.refuse 0x010B, d)
  | some s =>
    if s.session != n then (.refuse 0x010B, d)
    else if s.size < off + data.length then (.refuse 0x010B, d)
    else if data.length != 1280 && off + data.length != s.size then (.refuse 0x0101, d)
    else
      let chunks := (List.range (cdiv data.length 64)).foldl (fun t i => tabSet [] t (off / 64 + i) (slice data (64 * i) 64)) s.chunks
      (.ok [], { d with cmd := { d.cmd with stages := tabSet none d.cmd.stages stage (some { s with chunks := chunks }) } })

/-- IMG_CLOSE. -/
def Dev.opImgClose (d : Dev) (n : Nat) (p : List Byte) : Ans × Dev :=
  match tabGet none d.cmd.stages (beAt p 0 1) with
  | none => (.refuse 0x010B, d)
  | some s => if s.session = n then (.ok [], d.freeStage (beAt p 0 1)) else (.refuse 0x010B, d)

/-- What a request does with its staged image; the stage is freed whatever the result. -/
def Dev.withImage (d : Dev) (n stage kind : Nat) (f : Dev → List Byte → Ans × Dev) : Ans × Dev :=
  match d.stageOf n stage kind with
  | none => (.refuse 0x010B, d)
  | some s => let (a, e) := f d s.image; (a, e.freeStage stage)

/-! Models. -/

/-- MODEL_LOAD (R176): the image is verified and its load begins. The status comes with OP_DONE. -/
def Dev.opModelLoad (d : Dev) (n reqId : Nat) (p : List Byte) : Ans × Dev :=
  d.withImage n (beAt p 0 1) 0 fun d c =>
    let (r, d1) := d.verifyStaged 0 c
    let x := imgPayload c
    let status := if r = 0 then d1.loadStatus x else 1
    let m := if status = 0 then d1.modelEntry x else Model.empty
    let d2 := if status = 0 then d1.installEntry (mId x) m else d1
    let job : LoadJob := ⟨n, reqId, mId x, status, if status = 0 then mBytes x 5 else []⟩
    (.pending, { d2 with arr := { d2.arr with loads := d2.arr.loads ++ [job] } })

/-- The first load of a model, and the others. -/
def takeLoad (id : Nat) : List LoadJob → Option (LoadJob × List LoadJob)
  | [] => none
  | l :: ls => if l.model = id then some (l, ls) else (takeLoad id ls).map (fun r => (r.1, l :: r.2))

/-- A load ends (R176, R190); OP_DONE carries 0x0200 plus its code. -/
def Dev.loadDone (d : Dev) (id : Nat) : Dev :=
  match takeLoad id d.arr.loads with
  | none => d
  | some (l, rest) =>
    let d1 := { d with arr := { d.arr with loads := rest } }
    let m := d1.model id
    let tooMuch := l.status = 0 && d1.loadOver id m
    let d2 := if l.status != 0 then d1 else if tooMuch then d1.putModel id .empty else d1.keepModel id m l.weights
    d2.opDone l.session l.reqId (0x0200 + (if tooMuch then 9 else l.status)) (beBytes 2 id)

/-- MODEL_UNLOAD (R177). -/
def Dev.opModelUnload (d : Dev) (p : List Byte) : Ans × Dev :=
  let id := beAt p 0 2
  let m := d.model id
  if m.state != 2 then (.state 0, d)
  else if d.modelUsers id != 0 then (.refuse 0x020A, d)
  else
    (.ok [], ((d.putModel id .empty).setContext (modelCtx id) false).replan.configDigest)

/-- MODEL_INFO. -/
def Dev.opModelInfo (d : Dev) (p : List Byte) : Ans × Dev := (.ok (d.modelBytes beBytes (beAt p 0 2)), d)

/-! Status reads. -/

/-- PORT_STATUS. -/
def Dev.opPortStatus (d : Dev) : Ans × Dev :=
  (.ok (d.show ((List.range 6).map (fun p => (SGT.P_STAT_LOCKED p).addr) ++ [AVT.CTRL_LIST_EN.addr]
    ++ (List.range 16).map (fun l => (AVT.L_STAT_LOCKED l).addr) ++ (List.range 16).map (fun l => (AVT.L_CNT_LATE l).addr))), d)

/-- GATE_STATUS. -/
def Dev.opGateStatus (d : Dev) : Ans × Dev :=
  (.ok ((List.range 4).flatMap (fun i => beBytes 4 (d.substWord i)) ++ d.show [SGT.GATE_USE_SAMPLES.addr]), d)

/-- FALLBACK_STATUS. -/
def Dev.opFallbackStatus (d : Dev) : Ans × Dev := (.ok (d.show ((List.range 8).map (fun i => (SGT.FB_EN i).addr))), d)

/-- TWIN_STATUS (R501). -/
def Dev.opTwinStatus (d : Dev) : Ans × Dev :=
  (.ok (d.show [TWN.STAT_STATE.addr, TWN.PEER_STATE.addr, TWN.AGREE_DIFFER.addr, TWN.FILT_STAT_FILT_CNT.addr, TWN.LAST_SWITCH_FRAME_NO.addr,
    TWN.SWITCH_INFO_KIND.addr]), d)

/-- SELFTEST_STATUS (R502). -/
def Dev.opSelftestStatus (d : Dev) : Ans × Dev :=
  (.ok (d.show (HLN.ST_STAT_POS.addr :: (List.range 20).map (fun e => (HLN.ENG_STAT_STATE e).addr))), d)

/-- The retained registers of a watchdog. -/
def evidenceRegs (w : Nat) : List Nat :=
  [(WDG.EV_PC_LO_PC w).addr, (WDG.EV_PC_HI_PC w).addr, (WDG.EV_SVC_NS_NS w).addr, (WDG.EV_SVC_SEC_LO_SEC w).addr, (WDG.EV_SVC_SEC_HI_SEC w).addr,
    (WDG.EV_FRAME_FRAME_NO w).addr]

/-- WDG_EVIDENCE (R443). -/
def Dev.opWdgEvidence (d : Dev) : Ans × Dev :=
  (.ok (d.show ((List.range 10).flatMap evidenceRegs ++ [WDG.LADDER_LOCKED.addr, WDG.RESET_CAUSE_CAUSE.addr])), d)

/-! Faults. -/

/-- FAULT_LIST: set sources from the first one on, in ascending order. -/
def Dev.opFaultList (d : Dev) (p : List Byte) : Ans × Dev :=
  let ns := (((d.snag.set.filter (fun e => e.2 && beAt p 0 2 ≤ e.1)).map (·.1))).take 256
  (.ok (beBytes 2 ns.length ++ [0, 0] ++ ns.flatMap (fun n => beBytes 2 n ++ beBytes 1 (d.sev n) ++ beBytes 1 (b2n (d.causeNow n)))), d)

/-- FAULT_CLEAR: each source separately, in payload order; `refused` where one has been refused. -/
def Dev.opFaultClear (d : Dev) (refused : Bool) (codes : List Byte) : List Nat → Ans × Dev
  | [] => (.reply (if refused then 0x010A else 0) codes, d)
  | n :: rest =>
    let (c, e) := d.clearSource 18 n
    e.opFaultClear (refused || c == 1) (codes ++ beBytes 1 c) rest

/-- LADDER_CLEAR (R441). -/
def Dev.opLadderClear (d : Dev) : Ans × Dev := if d.on WDG.LADDER_LOCKED then (.ok [], d.ladderClr 18) else (.state 0, d)

/-! Time. -/

/-- TIME_GET. -/
def Dev.opTimeGet (d : Dev) : Ans × Dev :=
  (.ok (beBytes 4 d.frame ++ (List.range 4).flatMap (fun i =>
    beBytes 6 (d.tb i).val.sec ++ beBytes 4 (d.tb i).val.ns ++ beBytes 1 (d.fld (TIM.TB_STAT_STATE i)) ++ [0])), d)

/-- TIME_STEP (R342). -/
def Dev.opTimeStep (d : Dev) (p : List Byte) : Ans × Dev :=
  let e := d.tbStepWrite (beAt p 0 1) (beAt p 4 4)
  (if e.resp = .discarded then .state 0 else .ok [], e)

/-- CAPTURE_READ: up to `n` entries leave the queue of an input (R354). -/
def Dev.opCaptureRead (d : Dev) (c n : Nat) : Ans × Dev :=
  let taken := (d.caps c).take n
  (.ok (taken.flatMap (fun e => beBytes 6 e.sec ++ beBytes 4 e.ns ++ beBytes 1 (b2n e.rise) ++ [0])),
    if taken = [] then d else d.putCaps c ((d.caps c).drop n))

/-! Images, slots and states of the device. -/

/-- The status of a refused container (R451). -/
def imgStatus (r : Nat) : Nat := if r = 7 then 0x010D else 0x010C

/-- An install begins with a staged image that verifies and fits its place in the flash (R459, R520). -/
def Dev.startInstall (d : Dev) (n reqId slot : Nat) (topcoat : Bool) (c : List Byte) : Ans × Dev :=
  if (if topcoat then 1048576 else 8388608) < c.length then (.refuse 0x010B, d)
  else
    let (r, d1) := d.verifyStaged (if topcoat then 2 else 1) c
    if r != 0 then (.refuse (imgStatus r), d1)
    else (.pending, { d1 with boot := { d1.boot with installs := d1.boot.installs ++ [⟨n, reqId, slot, topcoat, c⟩] } })

/-- FW_INSTALL: the slot that is not running. -/
def Dev.opFwInstall (d : Dev) (n reqId : Nat) (p : List Byte) : Ans × Dev :=
  d.withImage n (beAt p 0 1) 1 fun d c => d.startInstall n reqId (1 - d.fld SEC.BOOT_STAT_SLOT) false c

/-- A Topcoat slot holds the Topcoat in force. -/
def Dev.tcInForce (d : Dev) (slot : Nat) : Bool := !tabGet false d.snag.cause 515 && d.fld SEC.BOOT_STAT_TC_SLOT == slot

/-- TOPCOAT_INSTALL. -/
def Dev.opTopcoatInstall (d : Dev) (n reqId : Nat) (p : List Byte) : Ans × Dev :=
  if d.tcInForce (beAt p 1 1) then (.state 0, d)
  else d.withImage n (beAt p 0 1) 2 fun d c => d.startInstall n reqId (beAt p 1 1) true c

/-- The first install of a kind, and the others. -/
def takeInstall (topcoat : Bool) : List Install → Option (Install × List Install)
  | [] => none
  | i :: is => if i.topcoat = topcoat then some (i, is) else (takeInstall topcoat is).map (fun r => (r.1, i :: r.2))

/-- An install ends: the slot holds the container, or one that fails R451 where the flash copy does not verify. -/
def Dev.installDone (d : Dev) (topcoat ok : Bool) : Dev :=
  match takeInstall topcoat d.boot.installs with
  | none => d
  | some (i, rest) =>
    let image := if ok then i.image else []
    let d1 := { d with boot := { d.boot with installs := rest } }
    let d2 := if topcoat then
        { d1 with boot := { d1.boot with flashTc := tabSet [] d1.boot.flashTc i.slot image } }.put SEC.BOOT_STAT_TC_FAIL
          (let v := d1.fld SEC.BOOT_STAT_TC_FAIL; if bit v i.slot then v - 2 ^ i.slot else v)
      else { d1 with boot := { d1.boot with flashFw := tabSet [] d1.boot.flashFw i.slot image } }
    d2.opDone i.session i.reqId (if ok then 0 else 0x010C) []

/-- SLOT_SELECT (R457). -/
def Dev.opSlotSelect (d : Dev) (p : List Byte) : Ans × Dev := (.ok [], d.selectSlot (beAt p 0 1) true)

/-- MAINT with 1 (R466): refused on the lead of a pair whose standby is ready. -/
def Dev.opMaintEnter (d : Dev) : Ans × Dev :=
  if d.on SEC.STATE_MAINT || (d.fld TWN.STAT_STATE == 2 && d.fld TWN.PEER_STATE == 4) then (.state 0, d) else (.ok [], d.enterMaint)

/-- MAINT with 0 (R466). -/
def Dev.opMaintLeave (d : Dev) : Ans × Dev := if d.on SEC.STATE_MAINT then (.ok [], d.restartDue d.now 3) else (.state 0, d)

/-- SEAL_BREAK (R465). -/
def Dev.opSealBreak (d : Dev) (n : Nat) (p : List Byte) : Ans × Dev :=
  if !d.on SEC.STATE_MAINT then (.state 0, d)
  else d.withImage n (beAt p 0 1) 3 fun d c =>
    let (ok, d1) := d.takeToken 2 c
    if ok then (.ok [], d1.unseal c) else (.refuse 0x010C, d1)

/-- DEBUG_OPEN (R468). -/
def Dev.opDebugOpen (d : Dev) (n : Nat) (p : List Byte) : Ans × Dev :=
  if fuseOr d.boot.fuses.debugDisable != 0 then (.state 0, d)
  else d.withImage n (beAt p 0 1) 3 fun d c =>
    let (ok, d1) := d.takeToken 1 c
    if ok then (.ok [], d1.openDebug c) else (.refuse 0x010C, d1)

/-- HPPR (R247): one repair at a time, of an entry of the retirement log. -/
def Dev.opHppr (d : Dev) (n reqId : Nat) (p : List Byte) : Ans × Dev :=
  let i := beAt p 0 1
  if !d.on SEC.STATE_MAINT || d.boot.hppr.isSome || !d.on (MEM.RETIRE_PAGE_VALID i) then (.state 0, d)
  else (.pending, { d with boot := { d.boot with hppr := some (n, reqId, [i]) } })

/-- A page reads as poisoned until it is written. -/
def poisonPage (ppn : Nat) : List MemWrite := (List.range 65536).map (fun i => ⟨65536 * ppn + i, 0, .double⟩)

/-- A repair ends; the data of the repaired rows' page is lost. -/
def Dev.hpprDone (d : Dev) : Dev :=
  match d.boot.hppr with
  | none => d
  | some (n, reqId, is) =>
    let d1 := { d with boot := { d.boot with hppr := none } }
    (is.foldl (fun d i => d.store (poisonPage (d.fld (MEM.RETIRE_PAGE_PPN i)))) d1).opDone n reqId 0 []

/-- STATUS_TEST. -/
def Dev.opStatusTest (d : Dev) : Ans × Dev := (.ok [], d.sendStatus 6)

/-! Twin. -/

/-- TWIN_HANDOVER (R497). -/
def Dev.opTwinHandover (d : Dev) (n reqId : Nat) (p : List Byte) : Ans × Dev :=
  match d.propose (beAt p 0 4) (some (n, reqId)) with
  | some e => (.pending, e)
  | none => (.state 0, d)

/-- TWIN_PAIR (R504): a write of TWN_CTRL.PAIR. Without the strap it is refused (R506). -/
def Dev.opTwinPair (d : Dev) (pair : Bool) : Ans × Dev :=
  if pair && !d.on PWR.STRAP_TWIN_EN then (.state 0, d) else (.pending, d.twnCtrlWrite 18 (b2n pair))

end Sys2Proof.Machine
end

