-- ==== Sys2Proof/Machine/Command.lean ====
section
/-!
DEFINITION. The command engine (chapter 11): packets, handshakes, sessions, refusals and replies, and the requests as commands.
-/

namespace Sys2Proof.Machine

/-! Opcodes (Table 11.4). -/

/-- Opcodes of requests in a session. -/
def requestOps : List Nat :=
  [0x00, 0x03, 0x04, 0x05, 0x06, 0x07, 0x08, 0x09, 0x10, 0x11, 0x12, 0x13, 0x14, 0x30, 0x31, 0x32, 0x33, 0x34, 0x38, 0x39, 0x3A, 0x50, 0x51, 0x52,
   0x60, 0x61, 0x62, 0x63, 0x64, 0x70, 0x71, 0x72, 0x80, 0x81, 0x82, 0x83, 0x84, 0x85, 0x86, 0x87, 0x88, 0x89, 0x8A, 0x90, 0x91, 0x92, 0xA0, 0xA1,
   0xA2]

/-- From 1 to `hi` entries of `k` bytes after `base` bytes. -/
def entriesOk (n base k hi : Nat) : Bool := base + k ≤ n && n ≤ base + k * hi && (n - base) % k == 0

/-- The payload length fits the opcode. -/
def lenOk (op n : Nat) : Bool :=
  match op with
  | 0x06 => n == 4 | 0x07 => n == 4 | 0x08 => n == 32
  | 0x10 => entriesOk n 0 4 256 | 0x11 => entriesOk n 0 8 160 | 0x12 => entriesOk n 0 12 100 | 0x13 => n == 8
  | 0x30 => entriesOk n 0 196 6 | 0x31 => n == 2 | 0x32 => entriesOk n 4 4 256 | 0x33 => n == 4 | 0x34 => n == 4
  | 0x38 => n == 4 | 0x39 => n == 2 | 0x3A => n == 2
  | 0x60 => n == 2 | 0x61 => entriesOk n 0 2 256 | 0x62 => n == 4
  | 0x71 => n == 8 | 0x72 => n == 2
  | 0x80 => n == 16 | 0x81 => within n 13 1292 | 0x82 => n == 1 | 0x83 => n == 1 | 0x84 => n == 2 | 0x85 => n == 1 | 0x86 => n == 1 | 0x87 => n == 1
  | 0x88 => n == 1 | 0x89 => n == 1 | 0x8A => n == 1
  | 0x91 => n == 4 | 0x92 => n == 1 | 0xA0 => n == 8
  | _ => n == 0

/-- Every field of the payload is in its range (BAD_PARAM otherwise). -/
def Dev.paramOk (d : Dev) (op : Nat) (p : List Byte) : Bool :=
  let b (i : Nat) : Nat := beAt p i 1
  let zero (i n : Nat) : Bool := allZero (slice p i n)
  match op with
  | 0x06 => b 0 < 8 && b 1 ≤ 4 && zero 2 2
  | 0x11 => (List.range (p.length / 8)).all (fun i => !commandBarred (beAt p (8 * i) 4))
  | 0x12 => (List.range (p.length / 12)).all (fun i => !commandBarred (beAt p (12 * i) 4))
  | 0x13 => within (beAt p 4 2) 1 256 && zero 6 2
  | 0x30 => (List.range (p.length / 196)).all (fun i => beAt p (196 * i) 2 < 4096 && zero (196 * i + 2) 2)
  | 0x31 => beAt p 0 2 < 4096
  | 0x32 => b 0 ≤ 3 && zero 1 3 && (if bit (b 0) 1 then 0 else d.watch.staged.length) + (p.length / 4 - 1) ≤ 256
  | 0x33 => within (beAt p 0 2) 1 80 && b 2 ≤ 1 && b 3 == 0
  | 0x34 => within (beAt p 2 2) 1 160 && beAt p 0 2 + beAt p 2 2 ≤ 4096
  | 0x38 => b 0 ≤ 3 && zero 1 3
  | 0x39 => within (beAt p 0 2) 1 1023
  | 0x3A => within (beAt p 0 2) 1 1023
  | 0x60 => beAt p 0 2 < 1024
  | 0x61 => (List.range (p.length / 2)).all (fun i => beAt p (2 * i) 2 < 1024)
  | 0x62 => within (beAt p 0 2) 1 80 && b 2 ≤ 1 && b 3 == 0
  | 0x71 => b 0 ≤ 3 && zero 1 3
  | 0x72 => b 0 ≤ 3 && within (b 1) 1 16
  | 0x80 => b 0 ≤ 3 && zero 1 7 && beAt p 8 8 != 0
  | 0x81 => b 0 ≤ 3 && zero 1 3 && beAt p 4 8 % 64 == 0
  | 0x82 => b 0 ≤ 3 | 0x83 => b 0 ≤ 3 | 0x84 => b 0 ≤ 3 && b 1 ≤ 1 | 0x85 => b 0 ≤ 1 | 0x86 => b 0 == 0 | 0x87 => b 0 ≤ 1
  | 0x88 => b 0 ≤ 3 | 0x89 => b 0 ≤ 3 | 0x8A => b 0 ≤ 63
  | 0x92 => b 0 ≤ 1
  | 0xA0 => injAddrs.contains (beAt p 0 4)
  | _ => true

/-- The role that the kind of an image needs: OPERATOR for a model, else MAINTAINER. -/
def kindRole (kind : Nat) : Nat := if kind = 0 then 1 else 2

/-- The lowest role that may send a request (R363, Table 11.4). -/
def Dev.roleFor (d : Dev) (op : Nat) (p : List Byte) : Nat :=
  if [0x64, 0x83, 0x84, 0x85, 0x86, 0x87, 0x88, 0x89, 0x8A, 0x92, 0xA0, 0xA2].contains op then 2
  else if [0x11, 0x12, 0x14, 0x30, 0x32, 0x38, 0x39, 0x61, 0x71, 0x72, 0x91].contains op then 1
  else if op = 0x33 || op = 0x62 then (if bit (beAt p 2 1) 0 then 1 else 0)
  else if op = 0x80 then kindRole (beAt p 0 1)
  else if op = 0x81 || op = 0x82 then
    match tabGet none d.cmd.stages (beAt p 0 1) with
    | some s => kindRole s.kind
    | none => 1
  else 0

/-- The operation of an opcode for session `n`, whose state is `x`. -/
def Dev.operate (d : Dev) (op n reqId : Nat) (x : Session) (p : List Byte) : Ans × Dev :=
  match op with
  | 0x00 => (.ok [], d)
  | 0x03 => (.ok [], d)
  | 0x04 => d.opDeviceInfo x.role
  | 0x05 => d.opStatusGet
  | 0x06 => d.opSubscribe n x p
  | 0x07 => d.opQuery x p
  | 0x08 => d.opAttest p
  | 0x09 => d.opSessionList
  | 0x10 => d.opRegRead p
  | 0x11 => d.opRegWrite p
  | 0x12 => d.opRegModify p
  | 0x13 => d.opReadBlock p
  | 0x14 => d.opCommit n reqId 0x14 p
  | 0x30 => d.opWatchDefine p 0 (p.length / 196)
  | 0x31 => d.opWatchRead p
  | 0x32 => d.opArmList n reqId p
  | 0x33 => d.opLogRead .verdict p
  | 0x34 => d.opCoverageGet p
  | 0x38 => d.opModelLoad n reqId p
  | 0x39 => d.opModelUnload p
  | 0x3A => d.opModelInfo p
  | 0x50 => d.opPortStatus
  | 0x51 => d.opGateStatus
  | 0x52 => d.opFallbackStatus
  | 0x60 => d.opFaultList p
  | 0x61 => d.opFaultClear false [] ((List.range (p.length / 2)).map (fun i => beAt p (2 * i) 2))
  | 0x62 => d.opLogRead .fault p
  | 0x63 => d.opWdgEvidence
  | 0x64 => d.opLadderClear
  | 0x70 => d.opTimeGet
  | 0x71 => d.opTimeStep p
  | 0x72 => d.opCaptureRead (beAt p 0 1) (beAt p 1 1)
  | 0x80 => d.opImgOpen n p
  | 0x81 => d.opImgChunk n p
  | 0x82 => d.opImgClose n p
  | 0x83 => d.opFwInstall n reqId p
  | 0x84 => d.opTopcoatInstall n reqId p
  | 0x85 => d.opSlotSelect p
  | 0x86 => (.ok [], d)
  | 0x87 => if beAt p 0 1 = 1 then d.opMaintEnter else d.opMaintLeave
  | 0x88 => d.opSealBreak n p
  | 0x89 => d.opDebugOpen n p
  | 0x8A => d.opHppr n reqId p
  | 0x90 => d.opTwinStatus
  | 0x91 => d.opTwinHandover n reqId p
  | 0x92 => d.opTwinPair (beAt p 0 1 == 1)
  | 0xA0 => d.opInject p
  | 0xA1 => d.opSelftestStatus
  | 0xA2 => d.opStatusTest
  | _ => (.refuse 0x0100, d)

/-! Replies (R367 to R371). -/

/-- A reply that the cache does not keep. -/
def Dev.bareReply (d : Dev) (n reqId op status : Nat) (payload : List Byte) : Dev :=
  match d.session n with
  | none => d
  | some x =>
    (d.withSession n (some { x with txSeq := x.txSeq + packetsOf payload.length })).post
      { session := n, opcode := op, event := false, reqId := reqId, status := status, payload := payload, dest := 0, seq := x.txSeq + 1,
        at_ := d.now, peer := (x.addr, x.port) }

/-- Requests of a session that execute or are PENDING (R369): those that wait for a capture, and operations that have not ended. -/
def Dev.underWay (d : Dev) (n : Nat) (x : Session) : Nat :=
  (d.cmd.commitWait.filter (fun w => w.session == n)).length + (x.ops.filter (fun o => o.status.isNone)).length

/-- All 64 entries of the reply cache are younger than 1 s (R370). -/
def Dev.cacheFull (d : Dev) (x : Session) : Bool := 64 ≤ (x.cache.filter (fun c => d.now < c.at_ + sCycles 1)).length

/-- The refusal of R371 that comes first, but for UNKNOWN_OPCODE; 0 where the request runs. REQ_ID 0 is refused with BAD_PARAM (R370). -/
def Dev.refusal (d : Dev) (op reqId : Nat) (x : Session) (p : List Byte) : Nat :=
  if !lenOk op p.length then 0x0101
  else if reqId = 0 || !d.paramOk op p then 0x0102
  else if x.role < d.roleFor op p then 0x0103
  else 0

/-- What follows a reply OK: CLOSE ends the session, RESTART restarts 1 ms later, MAINT and DEBUG_OPEN end every session (R366). The reason that
SESSION_END carries after CLOSE is a free value. -/
def Dev.afterReply (d : Dev) (op n : Nat) : Dev :=
  if op = 0x03 then let (v, e) := d.draw; e.endSession n (v % 256)
  else if op = 0x86 then d.restartDue (d.now + msCycles 1) 3
  else if op = 0x87 then d.endSessions 3
  else if op = 0x89 then d.endSessions 4
  else d

/-- A request leaves an operation PENDING; TWIN_PAIR's ends with its write of TWN_CTRL. -/
def Dev.leavePending (d : Dev) (op : Nat) (r : Req) : Dev :=
  match d.session r.session with
  | none => d
  | some x =>
    let d1 := (d.withSession r.session (some { x with ops := x.ops ++ [⟨r.reqId, op, none⟩] })).reply r.session r.reqId op 1 r.payload []
    if op = 0x92 then d1.opDone r.session r.reqId 0 [] else d1

/-- A request runs, and is answered. -/
def Dev.runRequest (d : Dev) (op : Nat) (r : Req) (x : Session) : Dev :=
  match d.operate op r.session r.reqId x r.payload with
  | (.reply status payload, e) =>
    let e1 := e.reply r.session r.reqId op status r.payload payload
    if status = 0 then e1.afterReply op r.session else e1
  | (.pending, e) => e.leavePending op r
  | (.wait, e) => e

/-- A request of session state `x` is refused, answered from the cache, or run. -/
def Dev.answerRequest (d : Dev) (op : Nat) (r : Req) (x : Session) : Dev :=
  if !requestOps.contains op then d.bareReply r.session r.reqId op (if op = 1 || op = 2 then 0x0106 else 0x0100) (if op = 1 || op = 2 then [0, 0] else [])
  else
    match x.cache.find? (fun c => c.reqId == r.reqId) with
    | some c =>
      if r.retry && c.opcode == op && c.payload == r.payload then d.bareReply r.session r.reqId op c.reply.status c.reply.payload
      else d.bareReply r.session r.reqId op 0x0105 []
    | none =>
      if 16 ≤ d.underWay r.session x || (nonIdempotent.contains op && d.cacheFull x) then d.bareReply r.session r.reqId op 0x0104 []
      else if d.refusal op r.reqId x r.payload != 0 then d.reply r.session r.reqId op (d.refusal op r.reqId x r.payload) r.payload []
      else d.runRequest op r x

/-- A session ends at a SEQ of 2^48 in either direction (R366). -/
def Dev.seqLimit (d : Dev) (n : Nat) : Dev :=
  match d.session n with
  | none => d
  | some x => if 281474976710656 ≤ x.rxHigh || 281474976710656 ≤ x.txSeq then d.endSession n 2 else d

/-- The endpoint takes packets: the X-die answers, and boot has not halted (R454). -/
def Dev.endpoint (d : Dev) : Bool := d.reach .x && d.boot.haltAt.isNone

/-- A request of an open session whose last packet has been accepted (R367). -/
def Dev.request (d : Dev) (op : Nat) (r : Req) : Dev :=
  if !d.endpoint then d
  else
    match d.session r.session with
    | none => d
    | some x =>
      let x1 := { x with lastAt := d.now }
      ((d.withSession r.session (some x1)).answerRequest op r x1).seqLimit r.session

/-! Handshakes (R364). -/

/-- A reply in SESSION 0. Its SEQ is a free value. -/
def Dev.handReply (d : Dev) (h : Hand) (op status : Nat) (payload : List Byte) : Dev :=
  let (v, e) := d.draw
  e.post { session := 0, opcode := op, event := false, reqId := h.reqId, status := status, payload := payload, dest := 0,
           seq := v % 18446744073709551616, at_ := d.now, peer := (h.addr, h.port) }

/-- A handshake in progress (1 s from its HELLO). -/
def Dev.handshakes (d : Dev) : List Handshake := d.cmd.handshakes.filter (fun x => d.now < x.at_ + sCycles 1)

/-- A session number that is neither open nor promised to a handshake. -/
def Dev.freeSession (d : Dev) : Option Nat :=
  (sessionNumbers.take (d.fld ETH.CMD_CTRL_MAX_SESS)).find? (fun n => (d.session n).isNone && d.handshakes.all (fun h => h.session != n))

/-- ASCII "ZLZ-D", "ZLZ-H" and "ZLZ session". -/
def labelD : List Byte := [0x5A, 0x4C, 0x5A, 0x2D, 0x44]
def labelH : List Byte := [0x5A, 0x4C, 0x5A, 0x2D, 0x48]
def labelSession : List Byte := [0x5A, 0x4C, 0x5A, 0x20, 0x73, 0x65, 0x73, 0x73, 0x69, 0x6F, 0x6E]

/-- The device's half of a handshake for session `n`: the HELLO reply and the session keys. -/
def Dev.shake (d : Dev) (h : Hand) (n : Nat) : Dev :=
  let i := d.drbg
  let (ws, d1) := d.drbgWords 8
  let nonce := ws.flatMap (beBytes 4)
  let head := beBytes 1 n ++ [0, 0, 0] ++ nonce ++ fit 32 (Config.ephemeral i) ++ fit 1088 (Config.kemCipher i (slice h.payload 0x44 1184))
  let th := shaBytes (h.payload ++ head)
  let payload := head ++ fit 64 (Config.identSign 0 (labelD ++ th)) ++ fit 3309 (Config.identSign 1 (labelD ++ th))
  let secret := Config.sharedX i (slice h.payload 0x24 32) ++ Config.kemSecret i (slice h.payload 0x44 1184)
  let keys := fit 64 (Config.hkdf secret (slice h.payload 4 32 ++ nonce) (labelSession ++ th))
  let (v, d2) := d1.draw
  let m : Msg := { session := 0, opcode := 1, event := false, reqId := h.reqId, status := 0, payload := payload, dest := 0,
                   seq := v % 18446744073709551616, at_ := d.now, peer := (h.addr, h.port) }
  let x : Handshake := ⟨h.addr, h.port, h.reqId, beAt h.payload 0 1, beAt h.payload 1 1, n, h.payload, keys, m, d.now⟩
  { d2 with cmd := { d2.cmd with handshakes := d2.handshakes ++ [x] } }.post m

/-- HELLO: sessions are accepted from BOOT_DONE on (Table 14.5) and while the entropy test passes (R455). A third handshake finds no session. -/
def Dev.hello (d : Dev) (h : Hand) : Dev :=
  match d.handshakes.find? (fun x => x.addr == h.addr && x.port == h.port && x.reqId == h.reqId && h.retry) with
  | some x => d.post { x.reply with at_ := d.now }
  | none =>
    let key := tabGet none d.boot.ctrlKeys (beAt h.payload 0 1)
    if h.version != 1 then d.handReply h 1 0x0013 []
    else if h.payload.length != 1252 then d.handReply h 1 0x0101 []
    else if h.reqId = 0 || 15 < beAt h.payload 0 1 || 2 < beAt h.payload 1 1 || !allZero (slice h.payload 2 2) then d.handReply h 1 0x0102 []
    else if !d.on SEC.STATE_BOOT_DONE || !d.on SEC.STATE_ENTROPY_OK || 2 ≤ d.handshakes.length then d.handReply h 1 0x0010 []
    else
      match d.freeSession, key with
      | none, _ => d.handReply h 1 0x0010 []
      | some _, none => d.handReply h 1 0x0011 []
      | some n, some k => if k.role < beAt h.payload 1 1 then d.handReply h 1 0x0103 [] else d.shake h n

/-- Both host signatures of an AUTH verify. -/
def Dev.authOk (d : Dev) (x : Handshake) (p : List Byte) : Bool :=
  match tabGet none d.boot.ctrlKeys x.keyIndex with
  | none => false
  | some k =>
    let th := shaBytes (x.hello ++ x.reply.payload.take 0x484)
    Config.verify 0 k.ed (labelH ++ th) (slice p 0 64) && Config.verify 1 k.mldsa (labelH ++ th) (slice p 64 3309)

/-- The session opens, and its first packet is the AUTH reply. -/
def Dev.openSession (d : Dev) (x : Handshake) (reqId : Nat) : Dev :=
  let s : Session :=
    { role := x.role, keyIndex := x.keyIndex, addr := x.addr, port := x.port, rxHigh := 0, rxSeen := [], txSeq := 1, lastAt := d.now,
      keys := x.keys, mask := 0, minSev := 0, ops := [], cache := [] }
  (d.withSession x.session (some s)).post
    { session := x.session, opcode := 2, event := false, reqId := reqId, status := 0,
      payload := beBytes 1 x.session ++ beBytes 1 x.role ++ beBytes 1 (d.fld ETH.CMD_CTRL_SESS_IDLE) ++ [0] ++ beBytes 2 (d.fld SEC.IDENT_DEVICE_ID)
        ++ [0, 0],
      dest := 0, seq := 1, at_ := d.now, peer := (x.addr, x.port) }

/-- AUTH: the latest handshake of the peer ends, in an open session where both signatures verify. -/
def Dev.auth (d : Dev) (h : Hand) : Dev :=
  if h.payload.length != 3373 then d.handReply h 2 0x0101 []
  else if h.reqId = 0 then d.handReply h 2 0x0102 []
  else
    match d.handshakes.reverse.find? (fun x => x.addr == h.addr && x.port == h.port) with
    | none => d.handReply h 2 0x0106 [0, 0]
    | some x =>
      let d1 := { d with cmd := { d.cmd with handshakes := d.handshakes.filter (fun y => y.session != x.session) } }
      if d.authOk x h.payload then d1.openSession x h.reqId else d1.handReply h 2 0x0012 []

/-- A request in SESSION 0: only the handshake's two. -/
def Dev.handshake (d : Dev) (op : Nat) (h : Hand) : Dev :=
  if !d.endpoint then d
  else if op = 1 then d.hello h
  else if op = 2 then d.auth h
  else d.handReply h op (if requestOps.contains op then 0x0103 else 0x0100) []

/-! Packets (R359 to R362, R365). -/

def pktFlags (b : List Byte) : Nat := beAt b 3 1
def pktOp (b : List Byte) : Nat := beAt b 4 1
def pktSession (b : List Byte) : Nat := beAt b 5 1
def pktSeq (b : List Byte) : Nat := beAt b 8 8

/-- The checks of R361 up to case 5, but for the VERSION of a HELLO. -/
def Dev.addressed (d : Dev) (k : Datagram) : Bool :=
  let b := k.bytes
  48 ≤ b.length && beAt b 22 2 + 48 == b.length && beAt b 22 2 ≤ 1344 && beAt b 0 2 == 0x5A4C
    && (beAt b 2 1 == 1 || (pktOp b == 1 && pktSession b == 0))
    && beAt b 6 2 % 1024 == d.fld SEC.IDENT_DEVICE_ID
    && !bit (pktFlags b) 0 && !bit (pktFlags b) 1 && pktSession b ≤ 8 && pktFlags b < 16 && beAt b 6 2 < 1024
    && (pktSession b == 0 ||
        (match d.session (pktSession b) with
         | some x => x.addr == k.srcAddr && x.port == k.srcPort
         | none => false))

/-- The plaintext of a packet (R362); none where its tag fails. -/
def Dev.openPacket (d : Dev) (b : List Byte) : Option (List Byte) :=
  let key := match d.session (pktSession b) with
    | some x => if pktSession b = 0 then zeroBytes 32 else x.keys.take 32
    | none => zeroBytes 32
  Config.gcmOpen key ([0] ++ slice b 5 3 ++ slice b 8 8) (b.take 32) (b.drop 32)

/-- SEQ has not been accepted before (R365). -/
def fresh (x : Session) (seq : Nat) : Bool := x.rxHigh < seq || (x.rxHigh < seq + 64 && seq < x.rxHigh && 0 < seq && !x.rxSeen.contains seq)

/-- A SEQ is accepted. -/
def takeSeq (x : Session) (seq : Nat) : Session :=
  let high := max x.rxHigh seq
  { x with rxHigh := high, rxSeen := (seq :: x.rxSeen).filter (fun s => high < s + 64) }

/-- A drop under case 6: the first in a tick raises ETH_CMD_AUTH. -/
def Dev.tagDrop (d : Dev) (inj : Bool) : Dev :=
  let d1 := d.count ETH.CMD_STAT_AUTH_DROP 1
  if d.cmd.authRaised && d.running then d1
  else { d1 with cmd := { d1.cmd with authRaised := true } }.raiseInj .x 425 0 inj

/-- A fragment fits its message and the fragments held of it (R360). -/
def fragmentOk (q : Partial) (off n : Nat) (more : Bool) : Bool :=
  off + n ≤ q.total && q.total ≤ 65536 && more == (off + n != q.total) && (0 < n || q.total == 0)
    && q.got.all (fun g => g.1 + g.2.length ≤ off || off + n ≤ g.1)

/-- Fragments in order of their offsets. -/
def joinFragments (got : List (Nat × List Byte)) : List Byte := (sortBy (fun g => g.1) got).flatMap (·.2)

/-- A fragment of a message arrives: the complete message where it was the last one missing. -/
def Dev.fragment (d : Dev) (k : Datagram) (plain : List Byte) : Option (List Byte) × Dev :=
  let b := k.bytes
  let same (q : Partial) : Bool :=
    q.session == pktSession b && q.opcode == pktOp b && q.reqId == beAt b 16 4 && q.total == beAt b 28 4 && q.addr == k.srcAddr && q.port == k.srcPort
  let alive := d.cmd.partials.filter (fun q => d.now ≤ q.at_ + msCycles 100)
  let q : Partial := (alive.find? same).getD ⟨pktSession b, pktOp b, beAt b 16 4, beAt b 28 4, k.srcAddr, k.srcPort, [], d.now⟩
  let others := alive.filter (fun x => !same x)
  if !fragmentOk q (beAt b 24 4) plain.length (bit (pktFlags b) 3) then (none, { d with cmd := { d.cmd with partials := alive } })
  else
    let got := q.got ++ [(beAt b 24 4, plain)]
    if (joinFragments got).length = q.total then (some (joinFragments got), { d with cmd := { d.cmd with partials := others } })
    else (none, { d with cmd := { d.cmd with partials := others ++ [{ q with got := got }] } })

/-- A packet that has passed every check: its message runs once it is complete. -/
def Dev.accept (d : Dev) (k : Datagram) (plain : List Byte) : Dev :=
  let b := k.bytes
  match d.fragment k plain with
  | (none, e) => e.seqLimit (pktSession b)
  | (some p, e) =>
    let retry := bit (pktFlags b) 2
    if pktSession b = 0 then e.handshake (pktOp b) ⟨k.srcAddr, k.srcPort, beAt b 16 4, retry, beAt b 2 1, p⟩
    else e.request (pktOp b) ⟨pktSession b, beAt b 16 4, retry, p⟩

/-- A command packet arrives (R361). ETH_CMD_INJ mode 1 makes the next session packet fail its tag. -/
def Dev.packet (d : Dev) (k : Datagram) : Dev :=
  if !d.addressed k then d.count ETH.CMD_STAT_ADDR_DROP 1
  else
    let n := pktSession k.bytes
    let inj := n != 0 && d.on ETH.CMD_INJ_ARM && d.fld ETH.CMD_INJ_MODE == 1
    let d1 := if inj then d.flag ETH.CMD_INJ_ARM false else d
    match (if inj then none else d1.openPacket k.bytes) with
    | none => d1.tagDrop inj
    | some plain =>
      match d1.session n with
      | none => d1.accept k plain
      | some x =>
        if n = 0 then d1.accept k plain
        else if !fresh x (pktSeq k.bytes) then d1.count ETH.CMD_STAT_DUP 1
        else (d1.withSession n (some (takeSeq x (pktSeq k.bytes)))).accept k plain

/-! The commands. -/

/-- COMMAND_PACKET (R361). -/
def execCommandPacket (packet : Datagram) (s : State) : Host.Outcome State Fault Refusal := run s fun _ d => if d.endpoint then d.packet packet else d

/-- FRAGMENT_TIMEOUT (R360). -/
def execFragmentTimeout (s : State) : Host.Outcome State Fault Refusal :=
  run s fun _ d => { d with cmd := { d.cmd with partials := d.cmd.partials.filter (fun q => d.now ≤ q.at_ + msCycles 100) } }

/-- HANDSHAKE_TIMEOUT (R364). -/
def execHandshakeTimeout (s : State) : Host.Outcome State Fault Refusal := run s fun _ d => { d with cmd := { d.cmd with handshakes := d.handshakes } }

/-- A session idle for SESS_IDLE seconds ends. -/
def Dev.idleEnd (d : Dev) (n : Nat) : Dev :=
  match d.session n with
  | none => d
  | some x => if x.lastAt + sCycles (d.fld ETH.CMD_CTRL_SESS_IDLE) ≤ d.now then d.endSession n 1 else d

/-- SESSION_IDLE_TIMEOUT (R366). -/
def execSessionIdleTimeout (s : State) : Host.Outcome State Fault Refusal := run s fun _ d => sessionNumbers.foldl Dev.idleEnd d

/-- HELLO (R364). -/
def execHello (hand : Hand) (s : State) : Host.Outcome State Fault Refusal := run s fun _ d => d.handshake 0x01 hand
/-- AUTH (R364). -/
def execAuth (hand : Hand) (s : State) : Host.Outcome State Fault Refusal := run s fun _ d => d.handshake 0x02 hand
/-- PING. -/
def execPing (req : Req) (s : State) : Host.Outcome State Fault Refusal := run s fun _ d => d.request 0x00 req
/-- CLOSE (R366). -/
def execClose (req : Req) (s : State) : Host.Outcome State Fault Refusal := run s fun _ d => d.request 0x03 req
/-- DEVICE_INFO (R372). -/
def execDeviceInfo (req : Req) (s : State) : Host.Outcome State Fault Refusal := run s fun _ d => d.request 0x04 req
/-- STATUS_GET (R375). -/
def execStatusGet (req : Req) (s : State) : Host.Outcome State Fault Refusal := run s fun _ d => d.request 0x05 req
/-- SUBSCRIBE (R377). -/
def execSubscribe (req : Req) (s : State) : Host.Outcome State Fault Refusal := run s fun _ d => d.request 0x06 req
/-- OP_QUERY (R372). -/
def execOpQuery (req : Req) (s : State) : Host.Outcome State Fault Refusal := run s fun _ d => d.request 0x07 req
/-- ATTEST (R471). -/
def execAttest (req : Req) (s : State) : Host.Outcome State Fault Refusal := run s fun _ d => d.request 0x08 req
/-- SESSION_LIST (R372). -/
def execSessionList (req : Req) (s : State) : Host.Outcome State Fault Refusal := run s fun _ d => d.request 0x09 req
/-- REG_READ (R373). -/
def execRegRead (req : Req) (s : State) : Host.Outcome State Fault Refusal := run s fun _ d => d.request 0x10 req
/-- REG_WRITE (R373). -/
def execRegWrite (req : Req) (s : State) : Host.Outcome State Fault Refusal := run s fun _ d => d.request 0x11 req
/-- REG_MODIFY (R373). -/
def execRegModify (req : Req) (s : State) : Host.Outcome State Fault Refusal := run s fun _ d => d.request 0x12 req
/-- REG_READ_BLOCK (R373). -/
def execRegReadBlock (req : Req) (s : State) : Host.Outcome State Fault Refusal := run s fun _ d => d.request 0x13 req
/-- COMMIT (R368). -/
def execCommit (req : Req) (s : State) : Host.Outcome State Fault Refusal := run s fun _ d => d.request 0x14 req
/-- WATCH_DEFINE (R374). -/
def execWatchDefine (req : Req) (s : State) : Host.Outcome State Fault Refusal := run s fun _ d => d.request 0x30 req
/-- WATCH_READ (R372). -/
def execWatchRead (req : Req) (s : State) : Host.Outcome State Fault Refusal := run s fun _ d => d.request 0x31 req
/-- ARM_LIST (R374). -/
def execArmList (req : Req) (s : State) : Host.Outcome State Fault Refusal := run s fun _ d => d.request 0x32 req
/-- LOG_READ (R372). -/
def execLogRead (req : Req) (s : State) : Host.Outcome State Fault Refusal := run s fun _ d => d.request 0x33 req
/-- COVERAGE_GET (R372). -/
def execCoverageGet (req : Req) (s : State) : Host.Outcome State Fault Refusal := run s fun _ d => d.request 0x34 req
/-- MODEL_LOAD (R176). -/
def execModelLoad (req : Req) (s : State) : Host.Outcome State Fault Refusal := run s fun _ d => d.request 0x38 req
/-- MODEL_UNLOAD (R177). -/
def execModelUnload (req : Req) (s : State) : Host.Outcome State Fault Refusal := run s fun _ d => d.request 0x39 req
/-- MODEL_INFO (R372). -/
def execModelInfo (req : Req) (s : State) : Host.Outcome State Fault Refusal := run s fun _ d => d.request 0x3A req
/-- PORT_STATUS (R372). -/
def execPortStatus (req : Req) (s : State) : Host.Outcome State Fault Refusal := run s fun _ d => d.request 0x50 req
/-- GATE_STATUS (R372). -/
def execGateStatus (req : Req) (s : State) : Host.Outcome State Fault Refusal := run s fun _ d => d.request 0x51 req
/-- FALLBACK_STATUS (R372). -/
def execFallbackStatus (req : Req) (s : State) : Host.Outcome State Fault Refusal := run s fun _ d => d.request 0x52 req
/-- FAULT_LIST (R372). -/
def execFaultList (req : Req) (s : State) : Host.Outcome State Fault Refusal := run s fun _ d => d.request 0x60 req
/-- FAULT_CLEAR (R374). -/
def execFaultClear (req : Req) (s : State) : Host.Outcome State Fault Refusal := run s fun _ d => d.request 0x61 req
/-- FAULT_LOG_READ (R372). -/
def execFaultLogRead (req : Req) (s : State) : Host.Outcome State Fault Refusal := run s fun _ d => d.request 0x62 req
/-- WDG_EVIDENCE (R443). -/
def execWdgEvidence (req : Req) (s : State) : Host.Outcome State Fault Refusal := run s fun _ d => d.request 0x63 req
/-- LADDER_CLEAR (R441). -/
def execLadderClear (req : Req) (s : State) : Host.Outcome State Fault Refusal := run s fun _ d => d.request 0x64 req
/-- TIME_GET (R372). -/
def execTimeGet (req : Req) (s : State) : Host.Outcome State Fault Refusal := run s fun _ d => d.request 0x70 req
/-- TIME_STEP (R342). -/
def execTimeStep (req : Req) (s : State) : Host.Outcome State Fault Refusal := run s fun _ d => d.request 0x71 req
/-- CAPTURE_READ (R354). -/
def execCaptureRead (req : Req) (s : State) : Host.Outcome State Fault Refusal := run s fun _ d => d.request 0x72 req
/-- IMG_OPEN (R374). -/
def execImgOpen (req : Req) (s : State) : Host.Outcome State Fault Refusal := run s fun _ d => d.request 0x80 req
/-- IMG_CHUNK (R374). -/
def execImgChunk (req : Req) (s : State) : Host.Outcome State Fault Refusal := run s fun _ d => d.request 0x81 req
/-- IMG_CLOSE (R374). -/
def execImgClose (req : Req) (s : State) : Host.Outcome State Fault Refusal := run s fun _ d => d.request 0x82 req
/-- FW_INSTALL (R459). -/
def execFwInstall (req : Req) (s : State) : Host.Outcome State Fault Refusal := run s fun _ d => d.request 0x83 req
/-- TOPCOAT_INSTALL (R459). -/
def execTopcoatInstall (req : Req) (s : State) : Host.Outcome State Fault Refusal := run s fun _ d => d.request 0x84 req
/-- SLOT_SELECT (R457). -/
def execSlotSelect (req : Req) (s : State) : Host.Outcome State Fault Refusal := run s fun _ d => d.request 0x85 req
/-- RESTART (R372). -/
def execRestart (req : Req) (s : State) : Host.Outcome State Fault Refusal := run s fun _ d => d.request 0x86 req
/-- MAINT_ENTER (R466). -/
def execMaintEnter (req : Req) (s : State) : Host.Outcome State Fault Refusal := run s fun _ d => d.request 0x87 { req with payload := [1] }
/-- MAINT_LEAVE (R466). -/
def execMaintLeave (req : Req) (s : State) : Host.Outcome State Fault Refusal := run s fun _ d => d.request 0x87 { req with payload := [0] }
/-- SEAL_BREAK (R465). -/
def execSealBreak (req : Req) (s : State) : Host.Outcome State Fault Refusal := run s fun _ d => d.request 0x88 req
/-- DEBUG_OPEN (R468). -/
def execDebugOpen (req : Req) (s : State) : Host.Outcome State Fault Refusal := run s fun _ d => d.request 0x89 req
/-- HPPR (R247). -/
def execHppr (req : Req) (s : State) : Host.Outcome State Fault Refusal := run s fun _ d => d.request 0x8A req
/-- TWIN_STATUS (R501). -/
def execTwinStatus (req : Req) (s : State) : Host.Outcome State Fault Refusal := run s fun _ d => d.request 0x90 req
/-- TWIN_HANDOVER (R497). -/
def execTwinHandover (req : Req) (s : State) : Host.Outcome State Fault Refusal := run s fun _ d => d.request 0x91 req
/-- TWIN_PAIR (R504). -/
def execTwinPair (req : Req) (s : State) : Host.Outcome State Fault Refusal := run s fun _ d => d.request 0x92 { req with payload := [1] }
/-- TWIN_UNPAIR (R504). -/
def execTwinUnpair (req : Req) (s : State) : Host.Outcome State Fault Refusal := run s fun _ d => d.request 0x92 { req with payload := [0] }
/-- INJECT (R373). -/
def execInject (req : Req) (s : State) : Host.Outcome State Fault Refusal := run s fun _ d => d.request 0xA0 req
/-- SELFTEST_STATUS (R502). -/
def execSelftestStatus (req : Req) (s : State) : Host.Outcome State Fault Refusal := run s fun _ d => d.request 0xA1 req
/-- STATUS_TEST (R376). -/
def execStatusTest (req : Req) (s : State) : Host.Outcome State Fault Refusal := run s fun _ d => d.request 0xA2 req
/-- MODEL_LOAD_DONE (R176). -/
def execModelLoadDone (model : Nat) (s : State) : Host.Outcome State Fault Refusal := run s fun _ d => d.loadDone model
/-- FW_INSTALL_DONE (R459): `ok` says that the flash copy verifies. -/
def execFwInstallDone (ok : Bool) (s : State) : Host.Outcome State Fault Refusal := run s fun _ d => d.installDone false ok
/-- TOPCOAT_INSTALL_DONE (R459). -/
def execTopcoatInstallDone (ok : Bool) (s : State) : Host.Outcome State Fault Refusal := run s fun _ d => d.installDone true ok
/-- HPPR_DONE (R247). -/
def execHpprDone (s : State) : Host.Outcome State Fault Refusal := run s fun _ d => d.hpprDone

end Sys2Proof.Machine
end

