-- ==== Sys2Proof/Machine/Dispatch.lean ====
section
/-!
DEFINITION. One arm per command.
-/

namespace Sys2Proof.Machine

/-- What a command does to the state. -/
def exec (i : Instr) (s : State) : Host.Outcome State Fault Refusal :=
  match i with
  | .registerWrite mid addr value bytes => Sys2Proof.Machine.execRegisterWrite mid addr value bytes s
  | .tckCommit => Sys2Proof.Machine.execTckCommit s
  | .tickRunStart hz => Sys2Proof.Machine.execTickRunStart hz s
  | .tickRunStop => Sys2Proof.Machine.execTickRunStop s
  | .sampleTick ownIn bad => Sys2Proof.Machine.execSampleTick ownIn bad s
  | .tickBoundary failed => Sys2Proof.Machine.execTickBoundary failed s
  | .releasePoint bad => Sys2Proof.Machine.execReleasePoint bad s
  | .evaluationFinal watch frame => Sys2Proof.Machine.execEvaluationFinal watch frame s
  | .lateResult watch frame code detail => Sys2Proof.Machine.execLateResult watch frame code detail s
  | .armEntryAppend watch => Sys2Proof.Machine.execArmEntryAppend watch s
  | .retireEntryAppend watch => Sys2Proof.Machine.execRetireEntryAppend watch s
  | .armListClear value => Sys2Proof.Machine.execArmListClear value s
  | .descriptorWrite watch word value => Sys2Proof.Machine.execDescriptorWrite watch word value s
  | .wchInj value => Sys2Proof.Machine.execWchInj value s
  | .logRdAdvance log index => Sys2Proof.Machine.execLogRdAdvance log index s
  | .clrLost log => Sys2Proof.Machine.execClrLost log s
  | .skimRecordProcess port vc read => Sys2Proof.Machine.execSkimRecordProcess port vc read s
  | .knownAnswerTest unit pass => Sys2Proof.Machine.execKnownAnswerTest unit pass s
  | .skmEpochOverrun => Sys2Proof.Machine.execSkmEpochOverrun s
  | .skmRekey value => Sys2Proof.Machine.execSkmRekey value s
  | .skmUInj unit value => Sys2Proof.Machine.execSkmUInj unit value s
  | .signalCheckResult watch frame => Sys2Proof.Machine.execSignalCheckResult watch frame s
  | .windowEvaluation block => Sys2Proof.Machine.execWindowEvaluation block s
  | .livenessLimit watch frame => Sys2Proof.Machine.execLivenessLimit watch frame s
  | .wchSigInj value => Sys2Proof.Machine.execWchSigInj value s
  | .arrayOperationIssue fault agree => Sys2Proof.Machine.execArrayOperationIssue fault agree s
  | .tileBoundary pass tile => Sys2Proof.Machine.execTileBoundary pass tile s
  | .arrayOperationComplete seqOk vecOk exc => Sys2Proof.Machine.execArrayOperationComplete seqOk vecOk exc s
  | .mtxInj value => Sys2Proof.Machine.execMtxInj value s
  | .stencilSendPoint watch => Sys2Proof.Machine.execStencilSendPoint watch s
  | .stageWindowOpen window frame => Sys2Proof.Machine.execStageWindowOpen window frame s
  | .stageWindowClose window => Sys2Proof.Machine.execStageWindowClose window s
  | .swdCheckin mid value => Sys2Proof.Machine.execSwdCheckin mid value s
  | .swdInj value => Sys2Proof.Machine.execSwdInj value s
  | .dmaDescriptorPost mid engine ring words => Sys2Proof.Machine.execDmaDescriptorPost mid engine ring words s
  | .dmaDescriptorComplete engine ring errors => Sys2Proof.Machine.execDmaDescriptorComplete engine ring errors s
  | .memPageRetired page => Sys2Proof.Machine.execMemPageRetired page s
  | .memXltInv value => Sys2Proof.Machine.execMemXltInv value s
  | .xltInvalidateDone => Sys2Proof.Machine.execXltInvalidateDone s
  | .memErrClr value => Sys2Proof.Machine.execMemErrClr value s
  | .memInj value => Sys2Proof.Machine.execMemInj value s
  | .fjlPortEnable port => Sys2Proof.Machine.execFjlPortEnable port s
  | .fjlPortDisable port => Sys2Proof.Machine.execFjlPortDisable port s
  | .trainingStateExit port polarity reversed config => Sys2Proof.Machine.execTrainingStateExit port polarity reversed config s
  | .trainingTimeout port => Sys2Proof.Machine.execTrainingTimeout port s
  | .ack port vc nextSeq resync => Sys2Proof.Machine.execAck port vc nextSeq resync s
  | .nack port vc nextSeq cause resync => Sys2Proof.Machine.execNack port vc nextSeq cause resync s
  | .credit port vc limit => Sys2Proof.Machine.execCredit port vc limit s
  | .mark port epoch resync => Sys2Proof.Machine.execMark port epoch resync s
  | .resetBlock port reason => Sys2Proof.Machine.execResetBlock port reason s
  | .recordReceived port record => Sys2Proof.Machine.execRecordReceived port record s
  | .blockLockLoss port => Sys2Proof.Machine.execBlockLockLoss port s
  | .data port vc => Sys2Proof.Machine.execData port vc s
  | .heartbeat port => Sys2Proof.Machine.execHeartbeat port s
  | .checkin port => Sys2Proof.Machine.execCheckin port s
  | .identRsp port => Sys2Proof.Machine.execIdentRsp port s
  | .peerAlert port => Sys2Proof.Machine.execPeerAlert port s
  | .recordTransmit port => Sys2Proof.Machine.execRecordTransmit port s
  | .fjlCmdRetrain port => Sys2Proof.Machine.execFjlCmdRetrain port s
  | .fjlCmdReset port => Sys2Proof.Machine.execFjlCmdReset port s
  | .clrPeer port => Sys2Proof.Machine.execClrPeer port s
  | .fjlPInj port value => Sys2Proof.Machine.execFjlPInj port value s
  | .tdmInputFrame port edge second slots => Sys2Proof.Machine.execTdmInputFrame port edge second slots s
  | .portLock port => Sys2Proof.Machine.execPortLock port s
  | .avtpListenerPacket listener packet => Sys2Proof.Machine.execAvtpListenerPacket listener packet s
  | .avtStreamLost listener => Sys2Proof.Machine.execAvtStreamLost listener s
  | .sgtPortEnable port => Sys2Proof.Machine.execSgtPortEnable port s
  | .sgtPortDisable port => Sys2Proof.Machine.execSgtPortDisable port s
  | .sgtInj value => Sys2Proof.Machine.execSgtInj value s
  | .ethLinkChange port up speed => Sys2Proof.Machine.execEthLinkChange port up speed s
  | .ethFrameReceived port frame => Sys2Proof.Machine.execEthFrameReceived port frame s
  | .cbRecoveryTimeout recovery => Sys2Proof.Machine.execCbRecoveryTimeout recovery s
  | .neighbourSolicitation port ipv6 target => Sys2Proof.Machine.execNeighbourSolicitation port ipv6 target s
  | .echoRequest port ipv6 target body => Sys2Proof.Machine.execEchoRequest port ipv6 target body s
  | .gateControlGo port => Sys2Proof.Machine.execGateControlGo port s
  | .gateListAdopt port => Sys2Proof.Machine.execGateListAdopt port s
  | .preemptionVerify port ok => Sys2Proof.Machine.execPreemptionVerify port ok s
  | .macsecInstall port => Sys2Proof.Machine.execMacsecInstall port s
  | .txAnSelect port an => Sys2Proof.Machine.execTxAnSelect port an s
  | .safetyStatusTimer => Sys2Proof.Machine.execSafetyStatusTimer s
  | .ethStatusLate port => Sys2Proof.Machine.execEthStatusLate port s
  | .timTbStep tb value => Sys2Proof.Machine.execTimTbStep tb value s
  | .tbLatchRead tb => Sys2Proof.Machine.execTbLatchRead tb s
  | .captureEdge input rise pulseNs => Sys2Proof.Machine.execCaptureEdge input rise pulseNs s
  | .capNsRead input => Sys2Proof.Machine.execCapNsRead input s
  | .capSecHiRead input => Sys2Proof.Machine.execCapSecHiRead input s
  | .syncEdge output => Sys2Proof.Machine.execSyncEdge output s
  | .ptpSync inst time rate gap => Sys2Proof.Machine.execPtpSync inst time rate gap s
  | .ptpAnnounce inst grandmaster gap => Sys2Proof.Machine.execPtpAnnounce inst grandmaster gap s
  | .pdelay port times => Sys2Proof.Machine.execPdelay port times s
  | .timSyncLoss inst => Sys2Proof.Machine.execTimSyncLoss inst s
  | .timeBaseRevert tb => Sys2Proof.Machine.execTimeBaseRevert tb s
  | .commandPacket packet => Sys2Proof.Machine.execCommandPacket packet s
  | .fragmentTimeout => Sys2Proof.Machine.execFragmentTimeout s
  | .handshakeTimeout => Sys2Proof.Machine.execHandshakeTimeout s
  | .sessionIdleTimeout => Sys2Proof.Machine.execSessionIdleTimeout s
  | .ping req => Sys2Proof.Machine.execPing req s
  | .hello hand => Sys2Proof.Machine.execHello hand s
  | .auth hand => Sys2Proof.Machine.execAuth hand s
  | .close req => Sys2Proof.Machine.execClose req s
  | .deviceInfo req => Sys2Proof.Machine.execDeviceInfo req s
  | .statusGet req => Sys2Proof.Machine.execStatusGet req s
  | .subscribe req => Sys2Proof.Machine.execSubscribe req s
  | .opQuery req => Sys2Proof.Machine.execOpQuery req s
  | .attest req => Sys2Proof.Machine.execAttest req s
  | .sessionList req => Sys2Proof.Machine.execSessionList req s
  | .regRead req => Sys2Proof.Machine.execRegRead req s
  | .regWrite req => Sys2Proof.Machine.execRegWrite req s
  | .regModify req => Sys2Proof.Machine.execRegModify req s
  | .regReadBlock req => Sys2Proof.Machine.execRegReadBlock req s
  | .commit req => Sys2Proof.Machine.execCommit req s
  | .watchDefine req => Sys2Proof.Machine.execWatchDefine req s
  | .watchRead req => Sys2Proof.Machine.execWatchRead req s
  | .armList req => Sys2Proof.Machine.execArmList req s
  | .logRead req => Sys2Proof.Machine.execLogRead req s
  | .coverageGet req => Sys2Proof.Machine.execCoverageGet req s
  | .modelLoad req => Sys2Proof.Machine.execModelLoad req s
  | .modelLoadDone model => Sys2Proof.Machine.execModelLoadDone model s
  | .modelUnload req => Sys2Proof.Machine.execModelUnload req s
  | .modelInfo req => Sys2Proof.Machine.execModelInfo req s
  | .portStatus req => Sys2Proof.Machine.execPortStatus req s
  | .gateStatus req => Sys2Proof.Machine.execGateStatus req s
  | .fallbackStatus req => Sys2Proof.Machine.execFallbackStatus req s
  | .faultList req => Sys2Proof.Machine.execFaultList req s
  | .faultClear req => Sys2Proof.Machine.execFaultClear req s
  | .faultLogRead req => Sys2Proof.Machine.execFaultLogRead req s
  | .wdgEvidence req => Sys2Proof.Machine.execWdgEvidence req s
  | .ladderClear req => Sys2Proof.Machine.execLadderClear req s
  | .timeGet req => Sys2Proof.Machine.execTimeGet req s
  | .timeStep req => Sys2Proof.Machine.execTimeStep req s
  | .captureRead req => Sys2Proof.Machine.execCaptureRead req s
  | .imgOpen req => Sys2Proof.Machine.execImgOpen req s
  | .imgChunk req => Sys2Proof.Machine.execImgChunk req s
  | .imgClose req => Sys2Proof.Machine.execImgClose req s
  | .fwInstall req => Sys2Proof.Machine.execFwInstall req s
  | .fwInstallDone ok => Sys2Proof.Machine.execFwInstallDone ok s
  | .topcoatInstall req => Sys2Proof.Machine.execTopcoatInstall req s
  | .topcoatInstallDone ok => Sys2Proof.Machine.execTopcoatInstallDone ok s
  | .slotSelect req => Sys2Proof.Machine.execSlotSelect req s
  | .restart req => Sys2Proof.Machine.execRestart req s
  | .maintEnter req => Sys2Proof.Machine.execMaintEnter req s
  | .maintLeave req => Sys2Proof.Machine.execMaintLeave req s
  | .sealBreak req => Sys2Proof.Machine.execSealBreak req s
  | .debugOpen req => Sys2Proof.Machine.execDebugOpen req s
  | .hppr req => Sys2Proof.Machine.execHppr req s
  | .hpprDone => Sys2Proof.Machine.execHpprDone s
  | .twinStatus req => Sys2Proof.Machine.execTwinStatus req s
  | .twinHandover req => Sys2Proof.Machine.execTwinHandover req s
  | .twinPair req => Sys2Proof.Machine.execTwinPair req s
  | .twinUnpair req => Sys2Proof.Machine.execTwinUnpair req s
  | .inject req => Sys2Proof.Machine.execInject req s
  | .selftestStatus req => Sys2Proof.Machine.execSelftestStatus req s
  | .statusTest req => Sys2Proof.Machine.execStatusTest req s
  | .ethCmdInj value => Sys2Proof.Machine.execEthCmdInj value s
  | .lockstepCompare pair main chk window bus job => Sys2Proof.Machine.execLockstepCompare pair main chk window bus job s
  | .selftestSliceDone pair mainOk chkOk => Sys2Proof.Machine.execSelftestSliceDone pair mainOk chkOk s
  | .unfence mid pair mainOk chkOk => Sys2Proof.Machine.execUnfence mid pair mainOk chkOk s
  | .pairReset mid pair => Sys2Proof.Machine.execPairReset mid pair s
  | .lckInj value => Sys2Proof.Machine.execLckInj value s
  | .debugHalt pair => Sys2Proof.Machine.execDebugHalt pair s
  | .debugAction pair action inbound => Sys2Proof.Machine.execDebugAction pair action inbound s
  | .debugResume pair chk job => Sys2Proof.Machine.execDebugResume pair chk job s
  | .mbxTx mid channel value => Sys2Proof.Machine.execMbxTx mid channel value s
  | .mbxRx mid channel => Sys2Proof.Machine.execMbxRx mid channel s
  | .mbxDbRing mid channel => Sys2Proof.Machine.execMbxDbRing mid channel s
  | .mbxDbClear mid channel => Sys2Proof.Machine.execMbxDbClear mid channel s
  | .mbxStall channel => Sys2Proof.Machine.execMbxStall channel s
  | .mbxInj value => Sys2Proof.Machine.execMbxInj value s
  | .crcStart mid channel => Sys2Proof.Machine.execCrcStart mid channel s
  | .crcData mid channel value => Sys2Proof.Machine.execCrcData mid channel value s
  | .crcEnd mid channel bytes => Sys2Proof.Machine.execCrcEnd mid channel bytes s
  | .crcBlockDone channel => Sys2Proof.Machine.execCrcBlockDone channel s
  | .crcRunWrite mid channel high value => Sys2Proof.Machine.execCrcRunWrite mid channel high value s
  | .snagSourceDetect die source detail lasting => Sys2Proof.Machine.execSnagSourceDetect die source detail lasting s
  | .alarmAssert die source detail => Sys2Proof.Machine.execAlarmAssert die source detail s
  | .collectorReport die source => Sys2Proof.Machine.execCollectorReport die source s
  | .dieHeartbeatLoss die reachable => Sys2Proof.Machine.execDieHeartbeatLoss die reachable s
  | .sngFlFault die cycles => Sys2Proof.Machine.execSngFlFault die cycles s
  | .sevMirrorCheck die upset => Sys2Proof.Machine.execSevMirrorCheck die upset s
  | .tb0ShadowReload => Sys2Proof.Machine.execTb0ShadowReload s
  | .resume fuseOk => Sys2Proof.Machine.execResume fuseOk s
  | .sngSetClear mid word bits => Sys2Proof.Machine.execSngSetClear mid word bits s
  | .sngSevWrite word value => Sys2Proof.Machine.execSngSevWrite word value s
  | .sngInj mid value => Sys2Proof.Machine.execSngInj mid value s
  | .restartDelayExpiry env => Sys2Proof.Machine.execRestartDelayExpiry env s
  | .wdgStart watchdog => Sys2Proof.Machine.execWdgStart watchdog s
  | .wdgService mid watchdog key pc mainOk chkOk => Sys2Proof.Machine.execWdgService mid watchdog key pc mainOk chkOk s
  | .watchdogWindowClose watchdog pc mainOk chkOk => Sys2Proof.Machine.execWatchdogWindowClose watchdog pc mainOk chkOk s
  | .watchdogWarn watchdog => Sys2Proof.Machine.execWatchdogWarn watchdog s
  | .ladderClr mid => Sys2Proof.Machine.execLadderClr mid s
  | .triesCalmReset => Sys2Proof.Machine.execTriesCalmReset s
  | .wdgInj value => Sys2Proof.Machine.execWdgInj value s
  | .sCoreLoss => Sys2Proof.Machine.execSCoreLoss s
  | .sCoreRecovery env => Sys2Proof.Machine.execSCoreRecovery env s
  | .powerOnReset env => Sys2Proof.Machine.execPowerOnReset env s
  | .warmRestart env => Sys2Proof.Machine.execWarmRestart env s
  | .wrstPin env => Sys2Proof.Machine.execWrstPin env s
  | .xspiRelease => Sys2Proof.Machine.execXspiRelease s
  | .bootDone mid => Sys2Proof.Machine.execBootDone mid s
  | .trialTimeout => Sys2Proof.Machine.execTrialTimeout s
  | .newChal mid => Sys2Proof.Machine.execNewChal mid s
  | .debugClose mid env => Sys2Proof.Machine.execDebugClose mid env s
  | .debugExpire env => Sys2Proof.Machine.execDebugExpire env s
  | .arbAdvance mid ok => Sys2Proof.Machine.execArbAdvance mid ok s
  | .secBootSelWrite mid value => Sys2Proof.Machine.execSecBootSelWrite mid value s
  | .entropyHealthTest ok => Sys2Proof.Machine.execEntropyHealthTest ok s
  | .secInj value => Sys2Proof.Machine.execSecInj value s
  | .hairlineSample slacks => Sys2Proof.Machine.execHairlineSample slacks s
  | .temperatureSample sensor value => Sys2Proof.Machine.execTemperatureSample sensor value s
  | .voltageSample monitor mv lasting => Sys2Proof.Machine.execVoltageSample monitor mv lasting s
  | .marginLoop => Sys2Proof.Machine.execMarginLoop s
  | .pmbusTransactionDone ack readback => Sys2Proof.Machine.execPmbusTransactionDone ack readback s
  | .selftestSegmentDone ok chkOk addr => Sys2Proof.Machine.execSelftestSegmentDone ok chkOk addr s
  | .hlnInj value => Sys2Proof.Machine.execHlnInj value s
  | .agreeDecision => Sys2Proof.Machine.execAgreeDecision s
  | .agree => Sys2Proof.Machine.execAgree s
  | .sync => Sys2Proof.Machine.execSync s
  | .state => Sys2Proof.Machine.execState s
  | .stateSend => Sys2Proof.Machine.execStateSend s
  | .handover => Sys2Proof.Machine.execHandover s
  | .twnCmdHandover mid => Sys2Proof.Machine.execTwnCmdHandover mid s
  | .twnCtrlPair mid value => Sys2Proof.Machine.execTwnCtrlPair mid value s
  | .peerOkChange level => Sys2Proof.Machine.execPeerOkChange level s
  | .peerHbLoss edge => Sys2Proof.Machine.execPeerHbLoss edge s
  | .peerStateTimeout => Sys2Proof.Machine.execPeerStateTimeout s
  | .giveBack => Sys2Proof.Machine.execGiveBack s
  | .twnInj value => Sys2Proof.Machine.execTwnInj value s
  | .mclkMeasure hz => Sys2Proof.Machine.execMclkMeasure hz s
  | .pwrRefclkSys => Sys2Proof.Machine.execPwrRefclkSys s
  | .pllLockLoss pll => Sys2Proof.Machine.execPllLockLoss pll s
  | .strapChange level => Sys2Proof.Machine.execStrapChange level s
  | .pwrInj value => Sys2Proof.Machine.execPwrInj value s
  | .timInj value => Sys2Proof.Machine.execTimInj value s
  | .dieHeartbeatReturn die => Sys2Proof.Machine.execDieHeartbeatReturn die s
  | .pllRelock pll => Sys2Proof.Machine.execPllRelock pll s
  | .refclkSysReturn => Sys2Proof.Machine.execRefclkSysReturn s
  | .supplyLoss dies => Sys2Proof.Machine.execSupplyLoss dies s
  | .serviceRowTransmit port => Sys2Proof.Machine.execServiceRowTransmit port s
  | .safeHbEdge => Sys2Proof.Machine.execSafeHbEdge s
  | .ethFrameTransmit port => Sys2Proof.Machine.execEthFrameTransmit port s
  | .gateEntryIntervalEnd port => Sys2Proof.Machine.execGateEntryIntervalEnd port s
  | .timeBaseSrcWrite tb value => Sys2Proof.Machine.execTimeBaseSrcWrite tb value s

end Sys2Proof.Machine
end

