-- ==== Sys2Proof/Machine/Step.lean ====
section
/-!
DEFINITION. One step of the block: the command at the front of the queue runs; on an empty queue one S_CORE cycle passes (log entry 20).
-/

namespace Sys2Proof.Machine

/-- A cycle in which no command is taken: the clocks advance (R338, R341, R430), and the safe state follows. -/
def idle (s : State) : Host.Outcome State Fault Refusal := run s (fun _ d => d.coreCycle)

/-- One step. -/
def step (s : State) : Host.Outcome State Fault Refusal :=
  match s.pending with
  | [] => idle s
  | c :: rest => exec c { s with pending := rest }

/-- The state with the command that a word spells in front; unchanged, as the table gives no command a word. -/
def State.withFetchWord (s : State) (nbits w : Nat) : State :=
  match Sys2Proof.decodeTableWord nbits w with
  | some c => { s with pending := c :: s.pending }
  | none => s

end Sys2Proof.Machine
end

