-- ==== Sys2Proof/Safety.lean ====
section
/-!
DEFINITION. What a safe state is, and what it means that a command completes and leaves the rest of the device alone, in the terms that claims use.
-/

namespace Sys2Proof

open Sys2Proof.Machine

/-- A source at severity SAFE or RESTART, a die's ALARM, or the loss of S_CORE holds the safe state (R419). -/
def SafeHeld (d : Dev) : Prop := d.safeCause = true → d.on SNG.STAT_SAFE = true

/-- In the safe state SAFE_OK and SAFE_HB are low, and no port shows VALID (R420). -/
def SafeQuiet (d : Dev) : Prop :=
  d.on SNG.STAT_SAFE = true →
    d.on SNG.STAT_SAFE_OK = false ∧ d.snag.hbLevel = false ∧ ∀ p, p < 6 → d.on (SGT.P_STAT_VALID p) = false

/-- The device's promise towards its outputs. -/
def Safe (s : State) : Prop := SafeHeld s.dev ∧ SafeQuiet s.dev

/-- Between commands the memory is in canonical form and no write waits. -/
def MemoryKept (s : State) : Prop := Memory.wf s.mem = true ∧ s.dev.memsys.writes = []

/-- A command answers with a next state that satisfies `P`. -/
def Yields (o : Host.Outcome State Fault Refusal) (P : State → Prop) : Prop := ∃ t, o = .next t ∧ P t

/-- Keys of the fields that the safe state, the fault lines and a held status message change in the cycle of any command
(R379, R416, R417, R419, R420): SNG_STAT, SNG_FL_STAT but REACHABLE, VALID and MUTED of each TDM port, and ETH_CMD_INJ.ARM. -/
def safeKeys : List Nat :=
  [SNG.STAT_SAFE.key, SNG.STAT_SAFE_OK.key, (lineFaultFld 0).key, (lineFaultFld 1).key, (lineFaultFld 2).key,
    (hbOkFld 0).key, (hbOkFld 1).key, (hbOkFld 2).key, (alarmFld 0).key, (alarmFld 1).key, (alarmFld 2).key,
    ETH.CMD_INJ_ARM.key] ++ (List.range 6).flatMap (fun p => [(SGT.P_STAT_VALID p).key, (SGT.P_STAT_MUTED p).key])

/-- Every register field reads as before, but those with a key of `keys` and those of the safe state. -/
def RegsKept (keys : List Nat) (d e : Dev) : Prop := ∀ f : Fld, f.key ∉ keys → f.key ∉ safeKeys → e.fld f = d.fld f

/-- The device beyond its registers, without what the safe state changes: the contents of output channels, the level of SAFE_HB, and
SAFETY_STATUS messages. -/
def Dev.beyond (d : Dev) : Dev :=
  { d with regs := [],
           snag := { d.snag with hbUntil := [], lastSev := 0, resumePending := false, refused := none, hbLevel := false },
           gate := { d.gate with outs := [] },
           cmd := { d.cmd with outbox := d.cmd.outbox.filter (fun m => m.opcode != 14), statusSeq := 0, statusAt := 0, held := none } }

/-- Memory and the queue of commands are as before. -/
def Outside (s t : State) : Prop := (∀ a, t.mem.byte a = s.mem.byte a) ∧ t.pending = s.pending

/-- Of registers only those with a key of `keys` change, and of the rest only what `erase` removes and what the safe state changes. -/
def Frame (keys : List Nat) (erase : Dev → Dev) (s t : State) : Prop :=
  RegsKept keys s.dev t.dev ∧ erase (Dev.beyond t.dev) = erase (Dev.beyond s.dev) ∧ Outside s t

/-- Of registers only those with a key of `keys` change, and nothing else of the device but how the access ended and what the safe state
changes. -/
def RegsOnly (keys : List Nat) : State → State → Prop := Frame keys (fun d => { d with resp := .idle })

end Sys2Proof
end

