-- ==== Sys2Proof/Certificates/Slice0/Obligations.lean ====
section
/-!
DEFINITION. The statements for the provers. Each follows rules of the specification; where a statement rests on a choice of the model, its
text names the entry of the assumption log.
-/

open Sys2Proof Sys2Proof.Machine

/-- A step runs the command at the front of the queue, with the rest waiting. A step of a state whose queue begins with a command c is exec
of c on that state with the queue's rest. The queue is the model's own form of the commands that come from outside (log entry 20). -/
def Obligations.StepRunsTheFrontCommand : Prop :=
  ∀ (s : State) (c : Instr) (rest : List Instr), step { s with pending := c :: rest } = exec c { s with pending := rest }

/-- On an empty queue one S_CORE cycle passes, and the registers of configuration stay. With supply and with S_CORE running, a step on an
empty queue answers a next state in which the cycle count is one higher, no command has come, and memory is as it was. That an idle step
is one cycle is the model's choice (log entry 20). -/
def Obligations.IdleStepPassesOneCycle : Prop :=
  ∀ s : State, s.dev.dead = false → s.dev.ladder.coreLost = false → MemoryKept s → s.pending = [] →
    Yields (step s) (fun t => t.dev.now = s.dev.now + 1 ∧ Outside s t)

/-- At reset every register field holds its reset value, every watch is IDLE, the safe state holds, and both invariants hold. In the state
after reset every register field reads as its reset value, no field is staged, every watch is IDLE, every model is EMPTY, no source is
set, no session is open, no command waits, and SAFE and HOLD_BOOT read 1 with SAFE_OK 0. Memory lists nothing. The state meets the
invariants of EveryStepKeepsTheDeviceSafe and EveryStepKeepsTheMemoryForm. -/
def Obligations.ResetIsPowerOnState : Prop :=
  (∀ f : Fld, State.reset.dev.fld f = f.reset ∧ State.reset.dev.stagedFld f = f.reset) ∧
  (∀ w, State.reset.dev.watchOf w = Watch.idle) ∧ (∀ n, State.reset.dev.isSet n = false) ∧ (∀ n, State.reset.dev.session n = none) ∧
  (∀ a, State.reset.mem.byte a = 0) ∧ State.reset.pending = [] ∧
  State.reset.dev.on SNG.STAT_SAFE = true ∧ State.reset.dev.on SNG.STAT_HOLD_BOOT = true ∧ State.reset.dev.on SNG.STAT_SAFE_OK = false ∧
  Safe State.reset ∧ MemoryKept State.reset

/-- Every step keeps the device safe: what holds the safe state sets SAFE, and in it SAFE_OK, SAFE_HB and every VALID are low. From every
state that is safe, a step answers a next state that is safe: if a set source has severity SAFE or RESTART, or a die's ALARM is
asserted, or S_CORE is lost, then SAFE is 1; and while SAFE is 1, SAFE_OK, SAFE_HB and VALID of every TDM port are 0. -/
def Obligations.EveryStepKeepsTheDeviceSafe : Prop :=
  ∀ s t : State, Safe s → step s = .next t → Safe t

/-- Every step keeps the memory's canonical form and applies every write that its command queued. From every state whose memory is canonical
and in which no write waits, a step answers a next state with the same two properties. The canonical form and the queue of writes are
the model's own (log entry 7). -/
def Obligations.EveryStepKeepsTheMemoryForm : Prop :=
  ∀ s t : State, MemoryKept s → step s = .next t → MemoryKept t

/-- No command stops the device: exec answers a next state for every command and every state. For every command and every state, exec
answers a next state: neither a fault nor a refusal ends a run. -/
def Obligations.EveryCommandAnswersANextState : Prop :=
  ∀ (c : Instr) (s : State), ∃ t : State, exec c s = .next t

/-- An access to register space that is narrower than 32 bits or not aligned to 4 bytes ends with an error response and has no effect. A
write with another size than 4 bytes, or at an address that is no multiple of 4, by any master, with any value, answers with an error
response and changes no register, nor anything else. A read of that kind answers with an error response. -/
def Obligations.NarrowOrUnalignedAccessesFail : Prop :=
  ∀ (s : State) (mid a v bytes : Nat), s.dev.dead = false → s.dev.memsys.writes = [] → bytes ≠ 4 ∨ a % 4 ≠ 0 →
    Yields (exec (.registerWrite mid a v bytes) s) (fun t => t.dev.resp = .error ∧ RegsOnly [] s t) ∧
    (s.dev.busRead mid a bytes).resp = .error ∧ ∀ f, (s.dev.busRead mid a bytes).fld f = s.dev.fld f

/-- A register write takes effect, is staged, clears bits, is discarded or is rejected as the access type of the register says. One register
of each access type stands for its kind. RW (TWN_HANDOVER), and RW-S while its port is disabled (SGT_P_VMASK), take the value; RW-S
while the port is enabled discards the write and sets source 0. RWS (TCK_RELEASE) puts the value into the staged copy and leaves the
value in force. W1C (CRC_MISMATCH_MAP) clears the bits written as 1, but those that hardware sets in the same cycle. RO (WCH_COV_FRAME),
a staged-copy address and an offset without a register take the write without effect. RWL (SEC_PAIR_TAG_LO) takes the value with the
seal open, and discards the write and sets source 1 with the seal locked. A reserved value (MBX_CTRL with ACK_TIMEOUT 0) is rejected. A
split core's write to a guarded block, a write that its master cannot send to the block's die, and any write outside every region, end
with an error response. -/
def Obligations.RegisterWritesFollowTheirAccessTypes : Prop :=
  ∀ (s : State) (mid v : Nat), s.dev.dead = false → s.dev.memsys.writes = [] → v < 4294967296 → s.dev.splitMaster mid = false → s.dev.access mid .s = true →
    Yields (exec (.registerWrite mid TWN.HANDOVER_FRAME.addr v 4) s) (fun t =>
      t.dev.fld TWN.HANDOVER_FRAME = v ∧ t.dev.resp = .done ∧ RegsOnly [TWN.HANDOVER_FRAME.key] s t) ∧
    (∀ p, p < 6 →
      (s.dev.tdmEn p = false → Yields (exec (.registerWrite mid (SGT.P_VMASK_VMASK p).addr v 4) s) (fun t =>
        t.dev.fld (SGT.P_VMASK_VMASK p) = v % 65536 ∧ t.dev.resp = .done ∧ RegsOnly [(SGT.P_VMASK_VMASK p).key] s t)) ∧
      (s.dev.tdmEn p = true →
        Yields (exec (.registerWrite mid (SGT.P_VMASK_VMASK p).addr v 4) s) (fun t =>
          t.dev.fld (SGT.P_VMASK_VMASK p) = s.dev.fld (SGT.P_VMASK_VMASK p) ∧ t.dev.resp = .discarded ∧ t.dev.isSet 0 = true))) ∧
    Yields (exec (.registerWrite mid TCK.RELEASE_MARGIN.addr v 4) s) (fun t =>
      t.dev.stagedFld TCK.RELEASE_MARGIN = v % 2048 ∧ t.dev.fld TCK.RELEASE_MARGIN = s.dev.fld TCK.RELEASE_MARGIN ∧ t.dev.resp = .done ∧
      Frame [] (fun d => { d with resp := .idle, staged := [] }) s t) ∧
    (∀ i, i < 2 →
      Yields (exec (.registerWrite mid (CRC.MISMATCH_MAP_MISMATCH i).addr v 4) s) (fun t =>
        (∀ j, j < 32 → bit (t.dev.fld (CRC.MISMATCH_MAP_MISMATCH i)) j = (bit (s.dev.fld (CRC.MISMATCH_MAP_MISMATCH i)) j &&
          (!bit v j || s.dev.freshBit (CRC.MISMATCH_MAP_MISMATCH i) j))) ∧ t.dev.resp = .done ∧
        RegsOnly [(CRC.MISMATCH_MAP_MISMATCH i).key] s t)) ∧
    (∀ a, a ∈ [WCH.COV_FRAME_FRAME_NO.addr, TCK.RELEASE_MARGIN.addr + 32768, 0x01000040] →
      Yields (exec (.registerWrite mid a v 4) s) (fun t => t.dev.resp = .done ∧ RegsOnly [] s t)) ∧
    (s.dev.on SEC.STATE_SEALED = false → Yields (exec (.registerWrite mid SEC.PAIR_TAG_LO_TAG.addr v 4) s) (fun t =>
      t.dev.fld SEC.PAIR_TAG_LO_TAG = v ∧ t.dev.resp = .done ∧ RegsOnly [SEC.PAIR_TAG_LO_TAG.key] s t)) ∧
    (s.dev.on SEC.STATE_SEALED = true →
      Yields (exec (.registerWrite mid SEC.PAIR_TAG_LO_TAG.addr v 4) s) (fun t =>
        t.dev.fld SEC.PAIR_TAG_LO_TAG = s.dev.fld SEC.PAIR_TAG_LO_TAG ∧ t.dev.resp = .discarded ∧ t.dev.isSet 1 = true)) ∧
    (s.dev.on SEC.STATE_SEALED = false → v % 65536 = 0 → Yields (exec (.registerWrite mid MBX.CTRL_ACK_TIMEOUT.addr v 4) s) (fun t =>
      t.dev.resp = .rejected ∧ RegsOnly [] s t)) ∧
    (∀ other a, s.dev.splitMaster other = true → a % 4 = 0 → isBlock a = true → guarded (blockNo a) = true →
      Yields (exec (.registerWrite other a v 4) s) (fun t => t.dev.resp = .error ∧ RegsOnly [] s t)) ∧
    (∀ other, s.dev.access other .s = false → Yields (exec (.registerWrite other TWN.HANDOVER_FRAME.addr v 4) s) (fun t =>
      t.dev.resp = .error ∧ RegsOnly [] s t)) ∧
    (∀ a, a % 4 = 0 → isBlock a = false → ¬ (0x02000000 ≤ a ∧ a ≤ 0x020FFFFF) → ¬ (0x03000000 ≤ a ∧ a ≤ 0x03FFFFFF) →
      Yields (exec (.registerWrite mid a v 4) s) (fun t => t.dev.resp = .error ∧ RegsOnly [] s t))

/-- Writes of RUN and of COMMIT start and stop the tick unit, and make a capture or apply it at once. RUN = 1 on a stopped unit with MARGIN
at most LEN sets RUN, clears START_ERR, measures MCLK_AUD (out of range sets source 705 and clears MCLK_OK), has B(0) to come, and with
LOCK_EN schedules it at the first instant of START's grid, else at none. With MARGIN above LEN it only sets START_ERR. On a running unit
it takes back a stop. RUN = 0 has a running unit stop at its next boundary and leaves a stopped one alone. COMMIT on a running unit
captures the staged values and appends the staged arm list. On a stopped one the capture applies at once: no capture is left, PENDING is
0, COMMIT_FRAME is 0, RESULT says accepted or rejected. With nothing staged it is accepted. With only a new MARGIN staged, MARGIN takes
it where group FRAME accepts it, and else keeps its value and source 66 is set. -/
def Obligations.TickUnitStartsCommitsAndStops : Prop :=
  ∀ (s : State) (hz : Nat), s.dev.dead = false → s.dev.memsys.writes = [] →
    (s.dev.running = false → s.dev.fld TCK.RELEASE_MARGIN ≤ s.dev.len → Yields (exec (.tickRunStart hz) s) (fun t =>
      t.dev.running = true ∧ t.dev.on TCK.CTRL_START_ERR = false ∧ t.dev.plan.starting = true ∧ t.dev.plan.stopping = false ∧
      t.dev.fld PWR.MCLK_MEAS_HZ = hz % 2 ^ PWR.MCLK_MEAS_HZ.width ∧ t.dev.resp = .done ∧
      (s.dev.mclkOut hz = true ∨ s.dev.pwrArmed 2 = true → t.dev.isSet 705 = true ∧ t.dev.on PWR.CLK_STAT_MCLK_OK = false) ∧
      (s.dev.mclkOut hz = false → s.dev.pwrArmed 2 = false → t.dev.on PWR.CLK_STAT_MCLK_OK = true) ∧
      t.dev.time.start = (if s.dev.on TIM.TICK_CFG_LOCK_EN then some s.dev.startInstant else none))) ∧
    (s.dev.running = false → s.dev.len < s.dev.fld TCK.RELEASE_MARGIN → Yields (exec (.tickRunStart hz) s) (fun t =>
      t.dev.on TCK.CTRL_START_ERR = true ∧ t.dev.running = false ∧ RegsOnly [TCK.CTRL_START_ERR.key] s t)) ∧
    (s.dev.running = true → Yields (exec (.tickRunStart hz) s) (fun t =>
      t.dev.plan.stopping = false ∧ Frame [] (fun d => { d with resp := .idle, plan := { d.plan with stopping := false } }) s t)) ∧
    (s.dev.running = true → Yields (exec .tickRunStop s) (fun t =>
      t.dev.plan.stopping = true ∧ Frame [] (fun d => { d with resp := .idle, plan := { d.plan with stopping := false } }) s t)) ∧
    (s.dev.running = false → Yields (exec .tickRunStop s) (fun t => RegsOnly [] s t)) ∧
    (s.dev.running = true → Yields (exec .tckCommit s) (fun t =>
      (∃ c, t.dev.capture = some c ∧ c.fields = s.dev.staged ∧ c.cycle = s.dev.now ∧
        c.arms = (match s.dev.capture with | some b => b.arms | none => []) ++ s.dev.watch.staged) ∧
      t.dev.watch.staged = [] ∧ t.dev.on TCK.COMMIT_STATUS_PENDING = true ∧ t.dev.fld WCH.ARM_COUNT_ENTRIES = 0)) ∧
    (s.dev.running = false → Yields (exec .tckCommit s) (fun t =>
      t.dev.capture = none ∧ t.dev.watch.staged = [] ∧ t.dev.on TCK.COMMIT_STATUS_PENDING = false ∧ t.dev.fld TCK.COMMIT_FRAME_FRAME_NO = 0 ∧
      (t.dev.fld TCK.COMMIT_STATUS_RESULT = 1 ∨ t.dev.fld TCK.COMMIT_STATUS_RESULT = 2) ∧ t.dev.resp = .done ∧
      (s.dev.capture = none → s.dev.watch.staged = [] → s.dev.staged = [] →
        t.dev.fld TCK.COMMIT_STATUS_RESULT = 1 ∧ t.dev.fld TCK.COMMIT_STATUS_REJECTED = 0) ∧
      (∀ v, s.dev.capture = none → s.dev.watch.staged = [] → s.dev.staged = [(TCK.RELEASE_MARGIN.key, v)] → v < 2048 →
        v ≠ s.dev.fld TCK.RELEASE_MARGIN →
        ((s.dev.put TCK.RELEASE_MARGIN v).frameOk = true → t.dev.fld TCK.RELEASE_MARGIN = v) ∧
        ((s.dev.put TCK.RELEASE_MARGIN v).frameOk = false → t.dev.fld TCK.RELEASE_MARGIN = s.dev.fld TCK.RELEASE_MARGIN ∧
          t.dev.fld TCK.COMMIT_STATUS_RESULT = 2 ∧ t.dev.isSet 66 = true))))

/-- Each boundary of a running tick unit begins the next frame, a stop ends the run, and each sample tick advances the tick index.
TICK_BOUNDARY on a running unit makes FRAME_NO the next number, 0 for the first boundary of a start, and leaves FRAME_NO where a stop is
due, when RUN becomes 0; on a stopped unit, or without S_CORE, nothing changes. SAMPLE_TICK after B(0) adds 1 to the sample-tick index;
while the unit is stopped, or before B(0), the index stays and the samples taken in are gone; without S_CORE nothing changes. -/
def Obligations.BoundariesCountFramesAndSamplesCountTicks : Prop :=
  ∀ s : State, s.dev.dead = false → s.dev.memsys.writes = [] →
    (∀ failed,
      (s.dev.running = false ∨ s.dev.ladder.coreLost = true → Yields (exec (.tickBoundary failed) s) (fun t => RegsOnly [] s t)) ∧
      (s.dev.running = true → s.dev.ladder.coreLost = false →
        (s.dev.plan.stopping = true → Yields (exec (.tickBoundary failed) s) (fun t =>
          t.dev.running = false ∧ t.dev.frame = s.dev.frame ∧ t.dev.plan.stopping = false)) ∧
        (s.dev.plan.stopping = false → s.dev.plan.starting = true → Yields (exec (.tickBoundary failed) s) (fun t =>
          t.dev.frame = 0 ∧ t.dev.running = true)) ∧
        (s.dev.plan.stopping = false → s.dev.plan.starting = false → Yields (exec (.tickBoundary failed) s) (fun t =>
          t.dev.frame = frameAdd s.dev.frame 1 ∧ t.dev.running = true)))) ∧
    (∀ ownIn bad,
      (s.dev.ladder.coreLost = true → Yields (exec (.sampleTick ownIn bad) s) (fun t => RegsOnly [] s t)) ∧
      (s.dev.ladder.coreLost = false →
        (s.dev.ticking = true → Yields (exec (.sampleTick ownIn bad) s) (fun t => t.dev.gate.tick = s.dev.gate.tick + 1 ∧ t.dev.frame = s.dev.frame)) ∧
        (s.dev.ticking = false → Yields (exec (.sampleTick ownIn bad) s) (fun t =>
          t.dev.gate.tick = s.dev.gate.tick ∧ t.dev.gate.inputs = [] ∧ t.dev.frame = s.dev.frame))))

/-- A release point that is due decides every HOLD channel's next frame: the frame where every condition of Table 01.6 holds, else
substitution. Where the release point of the next frame is due, that frame is the last decided one from then on, and verdicts of earlier
frames are used up. A channel that fails a condition substitutes: all of them in the safe state or with a source at SAFE or RESTART set,
a channel whose buffer reads with an error, and with the twin deciding jointly every channel that a record of the two devices is missing
for or does not carry. Outside the safe state, alone, without an injection and without a buffer error, a HOLD channel emits the frame
exactly where it meets conditions 1 to 4. Where the release point is not due nothing changes. -/
def Obligations.ReleasePointsDecideTheNextFrame : Prop :=
  ∀ (s : State) (bad : List Nat), s.dev.dead = false → s.dev.memsys.writes = [] →
    (s.dev.rpDue = true → Yields (exec (.releasePoint bad) s) (fun t =>
      t.dev.gate.lastRp = some s.dev.nextRp ∧
      (∀ w v, v ∈ (t.dev.watchOf w).verdicts → v.1 = s.dev.nextRp ∨ framePrecedes s.dev.nextRp v.1 = true) ∧
      (∀ c ∈ s.dev.holdChannels,
        (s.dev.on SNG.STAT_SAFE = true ∨ s.dev.safeSource = true ∨ c ∈ bad → (t.dev.out c).content = .subst) ∧
        (s.dev.joint = true → (∀ a ∈ s.dev.twin.own, ∀ p ∈ s.dev.twin.peer, a.frame = s.dev.nextRp → p.frame = s.dev.nextRp →
          bit a.bitmap c = false ∨ bit p.bitmap c = false) → (t.dev.out c).content = .subst) ∧
        (s.dev.setAlarms.safeCause = false → s.dev.on SNG.STAT_SAFE = false → s.dev.joint = false → s.dev.sgtArmed 1 = false →
          (∀ x ∈ s.dev.holdChannels, x ∉ bad ∧ s.dev.bufferBad x s.dev.nextRp = false) →
          (t.dev.out c).content = (if s.dev.meets s.dev.nextRp bad c then .frame s.dev.nextRp else .subst))))) ∧
    (s.dev.rpDue = false → Yields (exec (.releasePoint bad) s) (fun t => RegsOnly [] s t))

/-- The final evaluation of a frame records its verdict and COV, advances the filter once, and trips; a late result is only logged. For a
watch with an open evaluation of frame k, at E(k) or later, that no retirement ends: LAST_FRAME is k, the last verdict is that of the
evaluation (or the injected code), COV its coverage, TOTAL_EVAL counts one more, the history takes one position, the filter counts its
failing positions among n, and a RUNNING watch at its limit is FAILED; an injection for the watch disarms. A late result of a frame
already final leaves the ring and, with room in the verdict log, is logged with LATE = 1; the last verdict stays. -/
def Obligations.EvaluationsAreRecordedOnce : Prop :=
  ∀ (s : State) (w k : Nat) (j : Job), s.dev.dead = false → s.dev.jobOf w k = some j →
    ((s.dev.watchOf w).state.checks = true → j.final = false → s.dev.evalPast w k = true → (s.dev.watchOf w).retireAt = none →
      ∀ code, code = (if s.dev.forced w then s.dev.fld WCH.INJ_CODE else ((s.dev.livenessLimit w k).verdict w k j).1) →
      ∀ hist, hist = (2 * (s.dev.watchOf w).hist + (if code = 0 then 0 else 1)) % 2 ^ s.dev.wdN w →
      Yields (exec (.evaluationFinal w k) s) (fun t =>
        (t.dev.watchOf w).lastFrame = k ∧ (t.dev.watchOf w).lastVerdict = code ∧ (t.dev.watchOf w).lastCov = ((s.dev.livenessLimit w k).verdict w k j).2 ∧
        (t.dev.watchOf w).totalEval = satAdd 4294967295 (s.dev.watchOf w).totalEval 1 ∧
        (t.dev.watchOf w).hist = hist ∧ (t.dev.watchOf w).filtCnt = popcount (s.dev.wdN w) hist ∧
        (t.dev.watchOf w).state = (if s.dev.wdK w ≤ popcount (s.dev.wdN w) hist ∧ (s.dev.watchOf w).state = .running then .failed
          else (s.dev.watchOf w).state) ∧
        (s.dev.forced w = true → t.dev.on WCH.INJ_ARM = false))) ∧
    (∀ code detail, j.final = true → code ≤ 6 → Yields (exec (.lateResult w k code detail) s) (fun t =>
      (t.dev.watchOf w).ring = (s.dev.watchOf w).ring.filter (fun i => i.frame != k) ∧
      (t.dev.watchOf w).lastVerdict = (s.dev.watchOf w).lastVerdict ∧
      (s.dev.on (logFull .verdict) = false → (tabGet [] (t.dev.logOf .verdict) (s.dev.fld (logWr .verdict))).getD 1 0 =
        w + 4096 * s.dev.wdKind w + 65536 * (code + 32) + 16777216 * s.dev.wdGroup w)))

/-- Entries are appended to the staged arm list up to 256, a clear empties it, and a descriptor is written only while its watch is IDLE. An
ARM or a RETIRE entry is appended to the staged list and counted while it holds fewer than 256; a full list discards it and sets
LIST_FULL. A write of 1 to the clear empties the list, a write of 0 leaves it. A host write of one of the first 48 words of the
descriptor of a watch that is IDLE and waits in no capture takes effect; otherwise it is discarded and sets source 0; words from 48 on
are not written. -/
def Obligations.ArmListsAndDescriptorsAreStaged : Prop :=
  ∀ (s : State) (w : Nat), s.dev.dead = false → s.dev.memsys.writes = [] →
    (∀ c ∈ ([(true, .armEntryAppend w), (false, .retireEntryAppend w)] : List (Bool × Instr)),
      (s.dev.watch.staged.length < 256 → Yields (exec c.2 s) (fun t =>
        t.dev.watch.staged = s.dev.watch.staged ++ [⟨c.1, w % 4096⟩] ∧ t.dev.fld WCH.ARM_COUNT_ENTRIES = s.dev.watch.staged.length + 1 ∧
        t.dev.resp = .done ∧
        Frame [WCH.ARM_COUNT_ENTRIES.key] (fun d => { d with resp := .idle, watch := { d.watch with staged := [] } }) s t)) ∧
      (256 ≤ s.dev.watch.staged.length → Yields (exec c.2 s) (fun t =>
        t.dev.on WCH.ARM_STATUS_LIST_FULL = true ∧ t.dev.resp = .discarded ∧ RegsOnly [WCH.ARM_STATUS_LIST_FULL.key] s t))) ∧
    (∀ v, Yields (exec (.armListClear v) s) (fun t =>
      t.dev.watch.staged = (if v % 2 = 1 then [] else s.dev.watch.staged) ∧ t.dev.resp = .done ∧
      Frame [WCH.ARM_COUNT_ENTRIES.key] (fun d => { d with resp := .idle, watch := { d.watch with staged := [] } }) s t)) ∧
    (∀ i v, w < 4096 → v < 4294967296 →
      (i < 48 → s.dev.descOpen w = true → Yields (exec (.descriptorWrite w i v) s) (fun t =>
        t.dev.wd w i = v ∧ (∀ x y, y < 64 → (x, y) ≠ (w, i) → t.dev.wd x y = s.dev.wd x y) ∧ t.dev.resp = .done ∧
        Frame [] (fun d => { d with resp := .idle, watch := { d.watch with desc := [] } }) s t)) ∧
      (i < 48 → s.dev.descOpen w = false → Yields (exec (.descriptorWrite w i v) s) (fun t =>
        t.dev.resp = .discarded ∧ t.dev.isSet 0 = true ∧ t.dev.watch.desc = s.dev.watch.desc)) ∧
      (48 ≤ i → i < 64 → Yields (exec (.descriptorWrite w i v) s) (fun t => t.dev.resp = .done ∧ RegsOnly [] s t)))

namespace Sys2Proof.Claims

/-- Source `n` is in force: it is set in SNG_SET (S-die), or the die's collector holds it and will report it (R415, R416). -/
def Held (d : Dev) (die : Die) (n : Nat) : Prop :=
  match die with
  | .s => d.isSet n = true
  | y => tabGet false d.snag.held (key2 (dieIdx y) n) = true

/-- The detectors of a die reach its collector: its heartbeat runs (R417). -/
def Beats (d : Dev) (die : Die) : Prop :=
  match die with
  | .s => True
  | y => d.on (hbOkFld (dieIdx y)) = true

/-- Everything but the Snag unit, the ladder, sessions and messages is as before. -/
def eraseRaise (d : Dev) : Dev :=
  { d with resp := .idle, snag := .reset, ladder := { d.ladder with eventAt := none, calmFrom := 0 },
           cmd := { d.cmd with sessions := [], outbox := [] } }

/-- The fields of the fault log, of the first source and of the ladder that setting a source may change. -/
def sourceKeys : List Nat :=
  [SNG.FIRST_VALID.key, SNG.FIRST_FIRST_SRC.key, SNG.LOG_WR_WR.key, SNG.LOG_STAT_FULL.key, SNG.LOG_STAT_LOST.key, WDG.LADDER_TRIES.key]

end Sys2Proof.Claims

/-- A detector sets its source on the S-die at once; on another die its collector holds and then reports it. A detection of an existing
source on a die whose heartbeat runs sets the source (S-die) or makes the die's collector hold it and, where neither the collector holds
it nor SNG_SET shows it, queue one report; a lasting cause is present from then on. An ALARM of a die for a source at SAFE or RESTART
does the same. A report that arrives from a die with heartbeat sets the source in SNG_SET. A detected memory error also counts in its
counter. Registers other than those of the fault log, the first source and TRIES are unchanged, and so is every other part of the
device, and memory, but where the source has an effect of its own (SNG_STATUS_PARITY, the table and history errors of Skim and the
signal checks, memory errors). -/
def Obligations.DetectedSourceIsHeld : Prop :=
  ∀ (s : State) (die : Die) (n detail : Nat), s.dev.dead = false → s.dev.memsys.writes = [] → srcExists n = true → Claims.Beats s.dev die →
    (∀ lasting, Yields (exec (.snagSourceDetect die n detail lasting) s) (fun t =>
      Claims.Held t.dev die n ∧ (lasting = true → tabGet false t.dev.snag.cause n = true) ∧
      (∀ m, s.dev.isSet m = true → t.dev.isSet m = true) ∧
      (∀ e ∈ [(80, MEM.SRAM_CNT_CE), (81, MEM.SRAM_CNT_UE), (82, MEM.DRAM_CE_CE), (83, MEM.DRAM_UE_UE)], n = e.1 →
        t.dev.fld e.2 = satAdd (2 ^ e.2.width - 1) (s.dev.fld e.2) 1) ∧
      (n ∉ [3, 73, 75, 80, 81, 82, 83] → Frame Claims.sourceKeys Claims.eraseRaise s t))) ∧
    (die ≠ .s → sevSafe ≤ s.dev.collSev (dieIdx die) n → Yields (exec (.alarmAssert die n detail) s) (fun t =>
      Claims.Held t.dev die n ∧ t.dev.on SNG.STAT_SAFE = true ∧ Frame Claims.sourceKeys Claims.eraseRaise s t)) ∧
    (die ≠ .s → ∀ r rs, takeReport die n s.dev.snag.reports = some (r, rs) → Yields (exec (.collectorReport die n) s) (fun t =>
      t.dev.isSet n = true ∧ Frame Claims.sourceKeys Claims.eraseRaise s t))

/-- A lost die sets its DIE_LOST source with a lasting cause, and its return ends the cause. With no heartbeat edge of a die whose heartbeat
ran, HB_OK reads 0, the source 8, 9 or 10 of the die is set with its cause present, and where the blocks are unreachable REACHABLE reads
0, for the X-die those of both C-dies as well. When the heartbeat of a die with supply runs again, HB_OK reads 1. The X-die's blocks are
reachable again with it, and those of each C-die whose heartbeat runs; a C-die's own return makes its blocks reachable only through a
reachable X-die. Where the die is reachable the cause has ended. -/
def Obligations.DieHeartbeatLossAndReturn : Prop :=
  ∀ (s : State) (die : Die), s.dev.dead = false → die ≠ .s →
    (s.dev.on (hbOkFld (dieIdx die)) = true → tabGet 0 s.dev.snag.hbUntil (dieIdx die) = 0 → ∀ reachable,
      Yields (exec (.dieHeartbeatLoss die reachable) s) (fun t =>
        t.dev.on (hbOkFld (dieIdx die)) = false ∧ t.dev.isSet (8 + dieIdx die) = true ∧ tabGet false t.dev.snag.cause (8 + dieIdx die) = true ∧
        (reachable = false → t.dev.reach die = false ∧ (die = .x → t.dev.reach .c0 = false ∧ t.dev.reach .c1 = false)))) ∧
    (bit s.dev.power.lost (dieIdx die) = false → Yields (exec (.dieHeartbeatReturn die) s) (fun t =>
      t.dev.on (hbOkFld (dieIdx die)) = true ∧
      (die = .x → t.dev.reach .x = true ∧ ∀ j, j < 2 → t.dev.on (reachFld j) = s.dev.on (hbOkFld j)) ∧ (die ≠ .x → t.dev.reach die = s.dev.reach .x) ∧
      (t.dev.reach die = true → tabGet false t.dev.snag.cause (8 + dieIdx die) = false)))

/-- Equal rails are an alarm, a differing severity copy is reported and corrected, and the TB0 shadow follows the X-die. ALARM rails of a
die that stay equal for 12 cycles or more set source 5 and the die's LINE_FAULT, and put the device into the safe state. A collector's
copy that differs from SNG_SEV sets source 4 and is corrected. A reload takes TB0 of a reachable X-die into the shadow, and marks the
shadow free-running otherwise. -/
def Obligations.FaultLinesMirrorAndShadow : Prop :=
  ∀ (s : State) (die : Die), s.dev.dead = false →
    (die ≠ .s → ∀ cycles, 12 ≤ cycles → Yields (exec (.sngFlFault die cycles) s) (fun t =>
      t.dev.isSet 5 = true ∧ t.dev.on (lineFaultFld (dieIdx die)) = true ∧ t.dev.on (alarmFld (dieIdx die)) = true ∧
      t.dev.on SNG.STAT_SAFE = true)) ∧
    (die ≠ .s → s.dev.snag.sevCopy = [] → ∀ n v, n < 1024 → v ≠ s.dev.sev n → Yields (exec (.sevMirrorCheck die [(n, v)]) s) (fun t =>
      t.dev.isSet 4 = true ∧ t.dev.snag.sevCopy = [])) ∧
    Yields (exec .tb0ShadowReload s) (fun t =>
      (s.dev.reach .x = true → t.dev.snag.shadow = ⟨(s.dev.tb 0).val.sec, (s.dev.tb 0).val.ns, false⟩) ∧
      (s.dev.reach .x = false → t.dev.snag.shadow = { s.dev.snag.shadow with free := true }))

/-- RESUME is accepted exactly when its conditions hold: at once while the tick unit is stopped, at the next boundary otherwise. With every
condition of R423, RESUME clears RESUME_REFUSED and HOLD_BOOT and is refused no more; with the tick unit stopped the device leaves the
safe state at once: SAFE is 0, SAFE_OK is 1, and the first edge of SAFE_HB is due 50 us later; with it running the resume waits for the
boundary. Where a condition fails, RESUME_REFUSED is set and SAFE stays. A source at SAFE that becomes set in the cycle of an accepted
RESUME has it refused after all, with HOLD_BOOT as it was before. Outside the safe state SAFE_HB makes an edge when one is due, and the
next is due 50 us after it. A fuse blow that follows a trial and fails sets source 522, and none is due any more. -/
def Obligations.ResumeLeavesTheSafeState : Prop :=
  ∀ (s : State) (fuseOk : Bool), s.dev.dead = false →
    (s.dev.resumeAllowed = true → s.dev.setAlarms.safeCause = false → s.dev.on SNG.STAT_SAFE = true →
      s.dev.boot.arbDue = false ∨ s.dev.on SEC.CTRL_ARB_AUTO = false ∨ fuseOk = true →
      Yields (exec (.resume fuseOk) s) (fun t =>
        t.dev.boot.arbDue = false ∧ t.dev.on SNG.STAT_RESUME_REFUSED = false ∧ t.dev.snag.refused = none ∧ t.dev.on SNG.STAT_HOLD_BOOT = false ∧ t.dev.resp = .done ∧
        (s.dev.running = false → t.dev.on SNG.STAT_SAFE = false ∧ t.dev.on SNG.STAT_SAFE_OK = true ∧
          t.dev.snag.hbDue = s.dev.now + usCycles 50) ∧
        (s.dev.running = true → t.dev.snag.resumePending = true ∧ t.dev.on SNG.STAT_SAFE = true))) ∧
    (s.dev.resumeAllowed = true → s.dev.boot.arbDue = true → s.dev.on SEC.CTRL_ARB_AUTO = true → fuseOk = false →
      s.dev.fusedStep < min (s.dev.fld SEC.ARB_FW_STEP) 64 → Yields (exec (.resume fuseOk) s) (fun t =>
        t.dev.isSet 522 = true ∧ t.dev.boot.arbDue = false)) ∧
    (∀ hold n, s.dev.snag.resumeAt = some (s.dev.now, hold) → srcExists n = true → sevSafe ≤ s.dev.sev n →
      Yields (exec (.snagSourceDetect .s n 0 false) s) (fun t =>
        t.dev.snag.refused = some hold ∧ t.dev.on SNG.STAT_SAFE = true ∧ t.dev.holdBoot = (s.dev.on SNG.STAT_HOLD_BOOT || hold))) ∧
    (s.dev.resumeAllowed = false → Yields (exec (.resume fuseOk) s) (fun t =>
      t.dev.on SNG.STAT_RESUME_REFUSED = true ∧ (s.dev.on SNG.STAT_SAFE = true → t.dev.on SNG.STAT_SAFE = true))) ∧
    (s.dev.setAlarms.safeCause = false → s.dev.on SNG.STAT_SAFE = false → s.dev.snag.hbDue ≤ s.dev.now →
      Yields (exec .safeHbEdge s) (fun t => t.dev.snag.hbLevel = !s.dev.snag.hbLevel ∧ t.dev.snag.hbDue = s.dev.now + usCycles 50))

/-- A write of 1 to a set source clears it unless its cause is present; other masters get an error response. Written by master 0, 1 or 18: a
set source whose cause is absent leaves the set; one whose cause is present, or that hardware sets in the same cycle, stays set. A write
by any other master ends with an error response and changes nothing. -/
def Obligations.SourcesAreClearedByTrustedMasters : Prop :=
  ∀ (s : State) (mid word j : Nat), s.dev.dead = false → s.dev.memsys.writes = [] → word < 32 → j < 32 → s.dev.isSet (32 * word + j) = true →
    (trusted mid = true →
      (s.dev.causeNow (32 * word + j) = false → s.dev.freshSource (32 * word + j) = false → Yields (exec (.sngSetClear mid word (2 ^ j)) s) (fun t =>
        t.dev.isSet (32 * word + j) = false ∧ t.dev.resp = .done)) ∧
      (s.dev.causeNow (32 * word + j) = true ∨ s.dev.freshSource (32 * word + j) = true → Yields (exec (.sngSetClear mid word (2 ^ j)) s) (fun t =>
        t.dev.isSet (32 * word + j) = true ∧ t.dev.resp = .done))) ∧
    (trusted mid = false → ∀ bits, Yields (exec (.sngSetClear mid word bits) s) (fun t => t.dev.resp = .error ∧ RegsOnly [] s t))

/-- A severity write takes effect above the floors, is rejected below one, and is discarded under the seal. With the seal open, a write of
SNG_SEV with legal codes at or above the floors gives every existing source of the word its new severity, and a set source raised to
SAFE puts the device into the safe state; a write with an illegal code or below a floor is rejected and changes nothing. With the seal
locked a write is discarded and sets source 1. -/
def Obligations.SeveritiesAreWrittenWithinTheirFloors : Prop :=
  ∀ (s : State) (word v : Nat), s.dev.dead = false → s.dev.memsys.writes = [] → word < 256 →
    (s.dev.on SEC.STATE_SEALED = false → s.dev.snag.sevCopy = [] → (List.range 4).any (sevBad word v) = false →
      Yields (exec (.sngSevWrite word v) s) (fun t =>
        t.dev.resp = .done ∧ (∀ j, j < 4 → srcExists (4 * word + j) = true → t.dev.sev (4 * word + j) = sevByte v j) ∧
        (∀ j, j < 4 → s.dev.isSet (4 * word + j) = true → srcExists (4 * word + j) = true → sevSafe ≤ sevByte v j →
          t.dev.on SNG.STAT_SAFE = true))) ∧
    (s.dev.on SEC.STATE_SEALED = false → (List.range 4).any (sevBad word v) = true →
      Yields (exec (.sngSevWrite word v) s) (fun t => t.dev.resp = .rejected ∧ RegsOnly [] s t)) ∧
    (s.dev.on SEC.STATE_SEALED = true →
      Yields (exec (.sngSevWrite word v) s) (fun t =>
        t.dev.resp = .discarded ∧ t.dev.isSet 1 = true ∧ ∀ n, t.dev.sev n = s.dev.sev n))

/-- Advancing a log's read index frees records and clears FULL, and CLR_LOST clears LOST. A write of the read index of the verdict, event or
fault log with another place sets it modulo the log's size and clears FULL; a write of the same place changes nothing; CLR_LOST sets
LOST to 0. No other register changes, nor anything beyond the registers. -/
def Obligations.LogReadIndexFreesRecords : Prop :=
  ∀ (s : State) (l : LogId) (v : Nat), s.dev.dead = false → s.dev.memsys.writes = [] → s.dev.fld (logRd l) < logSize l →
    (v % logSize l ≠ s.dev.fld (logRd l) → Yields (exec (.logRdAdvance l v) s) (fun t =>
      t.dev.fld (logRd l) = v % logSize l ∧ t.dev.on (logFull l) = false ∧ t.dev.resp = .done ∧
      RegsOnly [(logRd l).key, (logFull l).key] s t)) ∧
    (v % logSize l = s.dev.fld (logRd l) → Yields (exec (.logRdAdvance l v) s) (fun t => t.dev.resp = .done ∧ RegsOnly [] s t)) ∧
    Yields (exec (.clrLost l) s) (fun t => t.dev.fld (logLost l) = 0 ∧ t.dev.resp = .done ∧ RegsOnly [(logLost l).key] s t)

/-- A watchdog starts with count 0, an accepted service lasts to the window's end, and a serviced window is followed by a new one.
WDG_CFG.EN = 1 with legal limits starts a disabled watchdog at count 0, with other limits it is rejected and changes nothing. A service
by master w with key 0x6B in the open part of the window is accepted and its time is kept. A window that closes after an accepted
service is followed by a window that starts CLOSE after the start of the last one. At WARN the pair's watchdog interrupt is raised, once
per window. None of these changes a register field but EN. -/
def Obligations.WatchdogStartsAndIsServiced : Prop :=
  ∀ (s : State) (w : Nat), s.dev.dead = false → s.dev.memsys.writes = [] → w < 10 →
    (s.dev.on (WDG.CFG_EN w) = false →
      (s.dev.dogLimits w = true → Yields (exec (.wdgStart w) s) (fun t =>
        t.dev.on (WDG.CFG_EN w) = true ∧ (t.dev.dogOf w).start = s.dev.now ∧ (t.dev.dogOf w).serviced = false ∧ t.dev.dogCount w = 0 ∧
        t.dev.resp = .done)) ∧
      (s.dev.dogLimits w = false → Yields (exec (.wdgStart w) s) (fun t => t.dev.resp = .rejected ∧ RegsOnly [] s t))) ∧
    (s.dev.on (WDG.CFG_EN w) = true → s.dev.on WDG.INJ_ARM = false →
      (s.dev.splitMaster w = false → s.dev.access w .s = true → (s.dev.dogOf w).serviced = false → s.dev.dogClosing w = false → s.dev.fld (WDG.OPEN_OPEN w) ≤ s.dev.dogCount w →
        ∀ pc m c, Yields (exec (.wdgService w w 107 pc m c) s) (fun t =>
          (t.dev.dogOf w).serviced = true ∧ (t.dev.dogOf w).lastSvc = s.dev.snag.shadow ∧ (t.dev.dogOf w).start = (s.dev.dogOf w).start ∧
          t.dev.resp = .done ∧ Frame [] (fun d => { d with resp := .idle, ladder := .reset }) s t)) ∧
      (s.dev.dogClosing w = true → s.dev.ladder.coreLost = false → (s.dev.dogOf w).serviced = true →
        ∀ pc m c, Yields (exec (.watchdogWindowClose w pc m c) s) (fun t =>
          (t.dev.dogOf w).start = (s.dev.dogOf w).start + 600 * s.dev.fld (WDG.CLOSE_CLOSE w) ∧ (t.dev.dogOf w).serviced = false ∧
          (t.dev.dogOf w).warned = false ∧ Frame [] (fun d => { d with resp := .idle, ladder := .reset }) s t)) ∧
      (s.dev.fld (WDG.WARN_WARN w) ≠ 0 → s.dev.fld (WDG.WARN_WARN w) ≤ s.dev.dogCount w → (s.dev.dogOf w).warned = false →
        Yields (exec (.watchdogWarn w) s) (fun t =>
          tabGet false t.dev.ladder.irq w = true ∧ (t.dev.dogOf w).warned = true ∧
          Frame [] (fun d => { d with resp := .idle, ladder := .reset }) s t)))

/-- A window that closes without a service and a wrong service set their source, record the evidence and take the first step of the ladder.
On an unlocked ladder with no event in this cycle and no step 1 in the last LADDER_MS, the expiry of watchdog w sets source 16 + w, a
service with a wrong key sets source 26 + w; both record the program counter and the frame, restart the count, set LADDER.STEP1 with the
watchdog's number and reset the pair, whose store queue is then empty. A service by another master, or one that does not reach the
S-die, ends with an error response and changes nothing. -/
def Obligations.WatchdogFaultsTakeTheLadder : Prop :=
  ∀ (s : State) (w pc : Nat) (m c : Bool), s.dev.dead = false → s.dev.memsys.writes = [] → w < 10 →
    (s.dev.on (WDG.CFG_EN w) = true → s.dev.on WDG.INJ_ARM = false → s.dev.on WDG.LADDER_LOCKED = false →
      s.dev.ladder.eventAt ≠ some s.dev.now → s.dev.ladder.step1At = none → s.dev.pairState w ≠ 4 → (s.dev.dogOf w).serviced = false →
      s.dev.sev (16 + w) ≠ sevRestart → s.dev.sev (26 + w) ≠ sevRestart → s.dev.sev 2 ≠ sevRestart →
      (s.dev.dogClosing w = true → s.dev.ladder.coreLost = false → Yields (exec (.watchdogWindowClose w pc m c) s) (fun t =>
        t.dev.isSet (16 + w) = true ∧ t.dev.fld (WDG.EV_PC_LO_PC w) = pc % 2 ^ 32 ∧ t.dev.fld (WDG.EV_FRAME_FRAME_NO w) = s.dev.frame % 2 ^ 32 ∧
        (t.dev.dogOf w).start = s.dev.now + 1 ∧ t.dev.on WDG.LADDER_STEP1 = true ∧ t.dev.fld WDG.LADDER_STEP1_WDG = w ∧
        (t.dev.pairOf w).stores = [] ∧ t.dev.ladder.step1At = some s.dev.now)) ∧
      (s.dev.dogClosing w = false → s.dev.splitMaster w = false → s.dev.access w .s = true → ∀ key, key % 256 ≠ 107 →
        Yields (exec (.wdgService w w key pc m c) s) (fun t =>
          t.dev.isSet (26 + w) = true ∧ t.dev.fld (WDG.EV_PC_LO_PC w) = pc % 2 ^ 32 ∧ (t.dev.dogOf w).start = s.dev.now + 1 ∧
          t.dev.on WDG.LADDER_STEP1 = true ∧ t.dev.fld WDG.LADDER_STEP1_WDG = w ∧ t.dev.resp = .done))) ∧
    (∀ mid key, mid ≠ w ∨ s.dev.access mid .s = false → Yields (exec (.wdgService mid w key pc m c) s) (fun t => t.dev.resp = .error ∧ RegsOnly [] s t))

/-- Master 18 unlocks a locked ladder, and CALM_S seconds without an event return TRIES to 0. LADDER_CLR by master 18 on a locked ladder
clears LOCKED, sets TRIES to 0 and ends the cause of source 36; on an unlocked ladder it changes nothing, and by another master it ends
with an error response and changes nothing. After CALM_S seconds without a ladder event TRIES returns to 0. No other register field
changes. -/
def Obligations.LadderUnlocksAndCalms : Prop :=
  ∀ (s : State) (mid : Nat), s.dev.dead = false → s.dev.memsys.writes = [] →
    (s.dev.on WDG.LADDER_LOCKED = true → Yields (exec (.ladderClr 18) s) (fun t =>
      t.dev.on WDG.LADDER_LOCKED = false ∧ t.dev.fld WDG.LADDER_TRIES = 0 ∧ tabGet false t.dev.snag.cause 36 = false ∧ t.dev.resp = .done ∧
      RegsKept [WDG.LADDER_LOCKED.key, WDG.LADDER_TRIES.key] s.dev t.dev)) ∧
    (s.dev.on WDG.LADDER_LOCKED = false → Yields (exec (.ladderClr 18) s) (fun t => t.dev.resp = .done ∧ RegsOnly [] s t)) ∧
    (mid ≠ 18 → Yields (exec (.ladderClr mid) s) (fun t => t.dev.resp = .error ∧ RegsOnly [] s t)) ∧
    (s.dev.fld WDG.CALM_CALM_S ≠ 0 → s.dev.ladder.calmFrom + sCycles (s.dev.fld WDG.CALM_CALM_S) ≤ s.dev.now →
      Yields (exec .triesCalmReset s) (fun t => t.dev.fld WDG.LADDER_TRIES = 0 ∧ RegsOnly [WDG.LADDER_TRIES.key] s t))

namespace Sys2Proof.Claims

/-- The writes of injection registers that arm and wait: the command; whether it is admitted (its die is reachable, ARM is 0, and it does not
set ARM with a reserved encoding or with a mode that acts at once); the fields it gives values. -/
def injections (d : Dev) (u v : Nat) : List (Instr × Bool × List (Fld × Nat)) :=
  [(.wchInj v, !d.on WCH.INJ_ARM && (!bit v 31 || bitsAt v 19 16 ≤ 6),
      [(WCH.INJ_ARM, b2n (bit v 31)), (WCH.INJ_CODE, bitsAt v 19 16), (WCH.INJ_WATCH_ID, v % 4096)]),
    (.skmUInj u v, u < 4 && d.reach (clusterDie u) && (!bit v 31 || v % 4 == 1 || v % 4 == 2),
      [(SKM.U_INJ_ARM u, b2n (bit v 31)), (SKM.U_INJ_WATCH_ID u, bitsAt v 27 16), (SKM.U_INJ_MODE u, v % 4)]),
    (.wchSigInj v, !bit v 31 || (!d.on WCH.SIG_INJ_ARM && 1 ≤ v % 8 && v % 8 ≤ 4),
      [(WCH.SIG_INJ_ARM, b2n (bit v 31)), (WCH.SIG_INJ_WATCH_ID, bitsAt v 27 16), (WCH.SIG_INJ_MODE, v % 8)]),
    (.mtxInj v, (d.reach .c0 || d.reach .c1) && !d.on MTX.INJ_ARM && (!bit v 31 || v % 4 != 0),
      [(MTX.INJ_ARM, b2n (bit v 31)), (MTX.INJ_MODE, v % 4)]),
    (.swdInj v, !d.on SWD.INJ_ARM && (!bit v 31 || bitsAt v 25 24 == 1 || bitsAt v 25 24 == 2),
      [(SWD.INJ_ARM, b2n (bit v 31)), (SWD.INJ_MODE, bitsAt v 25 24), (SWD.INJ_WINDOW, bitsAt v 23 16), (SWD.INJ_TASK, v % 32)]),
    (.memInj v, d.reach .x && !d.on MEM.INJ_ARM && (!bit v 31 || (1 ≤ v % 8 && v % 8 ≤ 5)),
      [(MEM.INJ_ARM, b2n (bit v 31)), (MEM.INJ_MODE, v % 8), (MEM.INJ_CLUSTER, bitsAt v 9 8)]),
    (.fjlPInj u v, u < 4 && d.reach (clusterDie u) && !d.on (FJL.P_INJ_ARM u) && (!bit v 31 || v % 8 == 1 || v % 8 == 2 || v % 8 == 4 ||
        (v % 8 == 3 && d.linkSt u != 7)),
      [(FJL.P_INJ_ARM u, b2n (bit v 31)), (FJL.P_INJ_MODE u, v % 8)]),
    (.sgtInj v, !d.on SGT.INJ_ARM && (!bit v 31 || (v % 4 != 0 && !(v % 4 == 3 && d.on (SGT.OUT_CLASS (bitsAt v 22 16))))),
      [(SGT.INJ_ARM, b2n (bit v 31)), (SGT.INJ_CHANNEL, bitsAt v 22 16), (SGT.INJ_MODE, v % 4)]),
    (.lckInj v, !d.on LCK.INJ_ARM && (!bit v 31 || bitsAt v 1 0 != 0),
      [(LCK.INJ_ARM, b2n (bit v 31)), (LCK.INJ_MODE, bitsAt v 1 0), (LCK.INJ_PAIR, bitsAt v 11 8)]),
    (.mbxInj v, !d.on MBX.INJ_ARM && (!bit v 31 || bitsAt v 1 0 == 2),
      [(MBX.INJ_MODE, bitsAt v 1 0), (MBX.INJ_CHANNEL, bitsAt v 13 8)] ++ (if bit v 31 then [(MBX.INJ_ARM, 1)] else [])),
    (.wdgInj v, bitsAt v 11 8 ≤ 9 && !d.on WDG.INJ_ARM && (!bit v 31 || bitsAt v 1 0 == 1 || bitsAt v 1 0 == 2),
      [(WDG.INJ_MODE, bitsAt v 1 0), (WDG.INJ_WDG, bitsAt v 11 8)] ++ (if bit v 31 then [(WDG.INJ_ARM, 1)] else [])),
    (.secInj v, !d.on SEC.INJ_ARM && (!bit v 31 || bitsAt v 1 0 == 1 || bitsAt v 1 0 == 2),
      [(SEC.INJ_MODE, bitsAt v 1 0)] ++ (if bit v 31 then [(SEC.INJ_ARM, 1)] else [])),
    (.hlnInj v, !d.on HLN.INJ_ARM && (!bit v 31 || v % 4 != 0),
      [(HLN.INJ_ARM, b2n (bit v 31)), (HLN.INJ_TARGET, bitsAt v 12 8), (HLN.INJ_MODE, v % 4)]),
    (.twnInj v, !d.on TWN.INJ_ARM && (!bit v 31 || v % 4 != 0), [(TWN.INJ_ARM, b2n (bit v 31)), (TWN.INJ_MODE, v)]),
    (.pwrInj v, !d.on PWR.INJ_ARM && (!bit v 31 || (v % 4 == 2 && bitsAt v 11 8 < 10)),
      [(PWR.INJ_MODE, v % 4), (PWR.INJ_PLL, bitsAt v 11 8)] ++ (if bit v 31 then [(PWR.INJ_ARM, 1)] else [])),
    (.timInj v, d.reach .x && !d.on TIM.INJ_ARM && (!bit v 31 || bitsAt v 1 0 == 3),
      [(TIM.INJ_MODE, bitsAt v 1 0), (TIM.INJ_TB, bitsAt v 3 2)] ++ (if bit v 31 then [(TIM.INJ_ARM, 1)] else []))]

/-- The writes that are discarded because ARM is 1. -/
def injectionsBusy (d : Dev) (u v : Nat) : List (Instr × Bool) :=
  [(.wchInj v, d.on WCH.INJ_ARM), (.wchSigInj v, bit v 31 && d.on WCH.SIG_INJ_ARM), (.mtxInj v, (d.reach .c0 || d.reach .c1) && d.on MTX.INJ_ARM),
    (.swdInj v, d.on SWD.INJ_ARM), (.memInj v, d.reach .x && d.on MEM.INJ_ARM), (.fjlPInj u v, u < 4 && d.reach (clusterDie u) && d.on (FJL.P_INJ_ARM u)),
    (.sgtInj v, d.on SGT.INJ_ARM), (.ethCmdInj v, d.reach .x && d.on ETH.CMD_INJ_ARM), (.lckInj v, d.on LCK.INJ_ARM), (.mbxInj v, d.on MBX.INJ_ARM),
    (.wdgInj v, bitsAt v 11 8 ≤ 9 && d.on WDG.INJ_ARM), (.secInj v, d.on SEC.INJ_ARM), (.hlnInj v, d.on HLN.INJ_ARM), (.twnInj v, d.on TWN.INJ_ARM),
    (.pwrInj v, d.on PWR.INJ_ARM), (.timInj v, d.reach .x && d.on TIM.INJ_ARM)]

end Sys2Proof.Claims

/-- An admitted write of an injection register gives ARM, the mode and the target their values, and changes nothing else. For the injection
registers of the watches, the Skim units, the signal checkers, the array, the stage windows, memory, the links, the gates, the lockstep
pairs, the mailboxes, the watchdogs, security, the health monitors, the twin, power and time: a write that is admitted (the die
reachable, ARM 0, no reserved encoding with ARM) gives each field of the register the written value and ends done; no other register
field, and nothing beyond the registers, changes. A write while ARM is 1 is discarded and changes nothing. -/
def Obligations.InjectionRegistersArm : Prop :=
  ∀ (s : State) (u v : Nat), s.dev.dead = false → s.dev.memsys.writes = [] →
    (∀ e ∈ Claims.injections s.dev u v, e.2.1 = true → Yields (exec e.1 s) (fun t =>
      (∀ p ∈ e.2.2, t.dev.fld p.1 = p.2 % 2 ^ p.1.width) ∧ t.dev.resp = .done ∧ RegsOnly (e.2.2.map (fun p => p.1.key)) s t)) ∧
    (∀ e ∈ Claims.injectionsBusy s.dev u v, e.2 = true → Yields (exec e.1 s) (fun t => t.dev.resp = .discarded ∧ RegsOnly [] s t))

/-- Injections of a source, a stall, a loss of S_CORE, a key-store fault, a PLL loss and a time-base mismatch act in the cycle of the write.
With ARM 0 and a legal encoding that sets ARM: SNG_INJ mode 1 sets the named source, mode 2 source 3, mode 3 asserts the die's ALARM and
the safe state follows, mode 5 makes its rails equal; MBX_INJ mode 1 sets the channel's STALL bit and source 488; WDG_INJ mode 3 makes
S_CORE lost with source 6; SEC_INJ mode 3 sets source 523; PWR_INJ mode 1 drops the PLL's LOCKED bit and sets its source; TIM_INJ mode 1
makes the copies of a time base agree again and reports source 434 on the X-die, mode 2 takes the next Sync of instance A as lost;
ETH_CMD_INJ with ARM holds the mode. SNG_INJ by another master than 0, 1 or 18 ends with an error response. -/
def Obligations.InjectionsThatActAtOnce : Prop :=
  ∀ (s : State) (mid v : Nat), s.dev.dead = false → s.dev.memsys.writes = [] → bit v 31 = true →
    (trusted mid = true → s.dev.on SNG.INJ_ARM = false → bitsAt v 17 16 ≤ 2 → srcExists (bitsAt v 9 0) = true →
      (bitsAt v 26 24 = 1 → Yields (exec (.sngInj mid v) s) (fun t => t.dev.isSet (bitsAt v 9 0) = true ∧ t.dev.resp = .done)) ∧
      (bitsAt v 26 24 = 2 → Yields (exec (.sngInj mid v) s) (fun t => t.dev.isSet 3 = true ∧ t.dev.isSet (bitsAt v 9 0) = true)) ∧
      (bitsAt v 26 24 = 3 → Yields (exec (.sngInj mid v) s) (fun t =>
        t.dev.on (alarmFld (bitsAt v 17 16)) = true ∧ t.dev.on SNG.STAT_SAFE = true)) ∧
      (bitsAt v 26 24 = 5 → Yields (exec (.sngInj mid v) s) (fun t =>
        t.dev.isSet 5 = true ∧ t.dev.on (lineFaultFld (bitsAt v 17 16)) = true))) ∧
    (trusted mid = false → Yields (exec (.sngInj mid v) s) (fun t => t.dev.resp = .error ∧ RegsOnly [] s t)) ∧
    (s.dev.on MBX.INJ_ARM = false → bitsAt v 1 0 = 1 → Yields (exec (.mbxInj v) s) (fun t =>
      t.dev.stallBit (bitsAt v 13 8) = true ∧ t.dev.isSet 488 = true)) ∧
    (s.dev.on WDG.INJ_ARM = false → bitsAt v 1 0 = 3 → bitsAt v 11 8 ≤ 9 → Yields (exec (.wdgInj v) s) (fun t =>
      t.dev.ladder.coreLost = true ∧ t.dev.isSet 6 = true ∧ t.dev.on SNG.STAT_SAFE = true)) ∧
    (s.dev.on SEC.INJ_ARM = false → bitsAt v 1 0 = 3 → Yields (exec (.secInj v) s) (fun t => t.dev.isSet 523 = true)) ∧
    (s.dev.on PWR.INJ_ARM = false → v % 4 = 1 → bitsAt v 11 8 < 10 → Yields (exec (.pwrInj v) s) (fun t =>
      t.dev.isSet (706 + bitsAt v 11 8) = true ∧ bit (t.dev.fld PWR.CLK_STAT_LOCKED) (bitsAt v 11 8) = false)) ∧
    (s.dev.reach .x = true → s.dev.on TIM.INJ_ARM = false →
      (bitsAt v 1 0 = 1 → s.dev.on (hbOkFld 2) = true → Yields (exec (.timInj v) s) (fun t =>
        Claims.Held t.dev .x 434 ∧ (t.dev.tbAt (bitsAt v 3 2)).copy = (s.dev.tbAt (bitsAt v 3 2)).val)) ∧
      (bitsAt v 1 0 = 2 → Yields (exec (.timInj v) s) (fun t => t.dev.time.loseSync = true ∧ t.dev.on TIM.INJ_ARM = true))) ∧
    (s.dev.reach .x = true → s.dev.on ETH.CMD_INJ_ARM = false → (bitsAt v 1 0 = 1 ∨ bitsAt v 1 0 = 2) →
      Yields (exec (.ethCmdInj v) s) (fun t => t.dev.fld ETH.CMD_INJ_MODE = bitsAt v 1 0 ∧ t.dev.resp = .done ∧
        (bitsAt v 1 0 = 1 → t.dev.on ETH.CMD_INJ_ARM = true) ∧ RegsOnly [ETH.CMD_INJ_MODE.key, ETH.CMD_INJ_ARM.key] s t))

/-- Records, known-answer tests, signal checks, stencils and stage windows advance their units as their rules say. A Skim unit takes the
oldest record of a channel out of the link buffer unless it must wait, counts its bytes, and a table entry that reads with an error is
held as source 73. A known-answer test of an enabled unit with all next tables built is kept, and a failed one is held as source 70; an
overrun, no earlier than two effective epochs after the swap, is held as source 72; a rekey is remembered. A signal check finishes its
job; a block of windows is evaluated once; silence at the liveness limit fails a SEQ job. A stencil at its send point, with none before
it in the order of decision, is sent, or deferred. A window opens at its time, takes check-ins from its own source until it closes, and
at its close sets source 96 + w where tasks are missing. -/
def Obligations.ChecksStencilsAndWindowsAdvance : Prop :=
  ∀ s : State, s.dev.dead = false → s.dev.memsys.writes = [] →
    (∀ p vc r, p < 4 → s.dev.reach (clusterDie p) = true → (s.dev.link p).deliver.find? (fun r => r.vc == vc) = some r →
      ((s.dev.openJob r.watch r.frame = none ∧ ((s.dev.jobOf r.watch r.frame).isSome = true ∨ framePrecedes r.frame s.dev.frame = true)) ∨
        (∃ j, s.dev.openJob r.watch r.frame = some j ∧ (s.dev.wdKind r.watch ≠ 0 ∨ (s.dev.jobTable r.watch j).status ≠ 2 ∨
          s.dev.linForm r.watch = 2 ∨ (s.dev.jobIn r.watch r.frame).tablesLoaded = true))) →
      ∀ reads, Yields (exec (.skimRecordProcess p vc reads) s) (fun t =>
        (t.dev.link p).deliver = (s.dev.link p).deliver.erase r ∧
        tabGet 0 t.dev.skim.bytes p = tabGet 0 s.dev.skim.bytes p + r.payload.length ∧
        (reads.table = .double → s.dev.wdKind r.watch = 0 → (s.dev.openJob r.watch r.frame).isSome = true → Claims.Beats s.dev (clusterDie p) →
          Claims.Held t.dev (clusterDie p) 73))) ∧
    (∀ u pass, u < 4 → s.dev.skimOn u = true → s.dev.nextBuilt = true → Yields (exec (.knownAnswerTest u pass) s) (fun t =>
      tabGet false t.dev.skim.kat u = pass ∧ t.dev.on (SKM.U_STAT_KAT_FAIL u) = !pass ∧
      (pass = false → Claims.Beats s.dev (clusterDie u) → Claims.Held t.dev (clusterDie u) 70))) ∧
    (s.dev.skim.epochOpen = true → s.dev.on SKM.REBUILD_OVERRUN = false →
      s.dev.skim.swapAt + 2 * msCycles s.dev.tEff ≤ s.dev.now → s.dev.nextBuilt = false ∨ s.dev.katPassed = false →
      Yields (exec .skmEpochOverrun s) (fun t => t.dev.on SKM.REBUILD_OVERRUN = true ∧ (Claims.Beats s.dev .c0 → Claims.Held t.dev .c0 72))) ∧
    (∀ v, s.dev.reach .c0 = true ∨ s.dev.reach .c1 = true → Yields (exec (.skmRekey v) s) (fun t =>
      t.dev.skim.rekey = (decide (v % 2 = 1) || s.dev.skim.rekey) ∧ t.dev.resp = .done ∧
      Frame [] (fun d => { d with resp := .idle, skim := { d.skim with rekey := false } }) s t)) ∧
    (s.dev.checks = true →
      (∀ w k j, s.dev.openJob w k = some j → j.status ≠ 2 → 2 ≤ s.dev.wdKind w → s.dev.wdKind w ≤ 5 →
        s.dev.wdKind w = 5 ∨ (s.dev.frameStart k + s.dev.len) / 16 ≤ s.dev.sig.blocks →
        Yields (exec (.signalCheckResult w k) s) (fun t => ∃ i, t.dev.jobOf w k = some i ∧ i.status = 2 ∧
          i.checked = (s.dev.signalResult w k).2.1 ∧ i.failed = (j.failed || !((s.dev.signalResult w k).1 == [])))) ∧
      (s.dev.running = true → Yields (exec (.windowEvaluation s.dev.sig.blocks) s) (fun t => t.dev.sig.blocks = s.dev.sig.blocks + 1)) ∧
      (∀ w k, (s.dev.openJob w k).isSome = true → s.dev.wdKind w = 8 → s.dev.livePast w k = true → (s.dev.jobIn w k).arrivals = 0 →
        (s.dev.jobIn w k).fail = none → Yields (exec (.livenessLimit w k) s) (fun t => (t.dev.jobIn w k).fail = some (15, 0)))) ∧
    (∀ w i, s.dev.stnInst w = some i → s.dev.sendDue w = true → s.dev.stnWaits s.dev.frame w = false → i.tick = s.dev.frame → i.sent = false →
      ∀ others, others = s.dev.stnDemand s.dev.frame w →
      ((i.forced || s.dev.projectedOver (others ++ [w]) s.dev.plan.waste == []) = true → Yields (exec (.stencilSendPoint w) s) (fun t =>
        t.dev.stnInst w = some { i with sent := true })) ∧
      ((i.forced || s.dev.projectedOver (others ++ [w]) s.dev.plan.waste == []) = false → Yields (exec (.stencilSendPoint w) s) (fun t =>
        t.dev.stnInst w = some ⟨frameAdd s.dev.frame 1, i.count + 1, false, false⟩ ∧
        t.dev.jobOf w (frameAdd s.dev.frame 4294967295) = none))) ∧
    (∀ w, w < 256 →
      (∀ j, s.dev.winDue w j = true → s.dev.openPast w j = true → s.dev.closePast w j = false → s.dev.winInst w = none →
        Yields (exec (.stageWindowOpen w j) s) (fun t => t.dev.winInst w = some ⟨j, 0, 0, false⟩)) ∧
      (∀ mid task, s.dev.splitMaster mid = false → s.dev.access mid .s = true → task < 32 →
        (s.dev.fld (SWD.CFG_SRC w) = 0 → s.dev.fld (SWD.CFG_MID w) = mid → s.dev.on SWD.INJ_ARM = false → ∀ x, s.dev.winInst w = some x →
          (s.dev.closePast w x.frame = true → Yields (exec (.swdCheckin mid (65536 * w + task)) s) (fun t =>
            t.dev.resp = .done ∧ RegsOnly [SWD.STAT_STRAY.key] s t)) ∧
          (s.dev.closePast w x.frame = false → Yields (exec (.swdCheckin mid (65536 * w + task)) s) (fun t =>
            t.dev.winInst w = some { x with
              done := Nat.lor x.done (2 ^ task),
              dup := if bit x.done task || !bit (s.dev.fld (SWD.EXPECT_EXPECT w)) task then Nat.lor x.dup (2 ^ task) else x.dup } ∧
            t.dev.resp = .done))) ∧
        (s.dev.fld (SWD.CFG_SRC w) ≠ 0 ∨ s.dev.fld (SWD.CFG_MID w) ≠ mid → Yields (exec (.swdCheckin mid (65536 * w + task)) s) (fun t =>
          t.dev.resp = .done ∧ RegsOnly [SWD.STAT_BADSRC.key] s t))) ∧
      (∀ x, s.dev.winInst w = some x → s.dev.closePast w x.frame = true → x.injected = false → ∀ missing,
        missing = s.dev.fld (SWD.EXPECT_EXPECT w) - Nat.land (s.dev.fld (SWD.EXPECT_EXPECT w)) x.done →
        Yields (exec (.stageWindowClose w) s) (fun t =>
          t.dev.winInst w = none ∧ (missing = 0 ∧ x.dup = 0 → tabGet false t.dev.snag.cause (96 + w) = false) ∧
          (missing ≠ 0 ∨ x.dup ≠ 0 → t.dev.isSet (96 + w) = true ∧ tabGet false t.dev.snag.cause (96 + w) = true ∧
            t.dev.fld (SWD.LAST_MISS_MISSING w) = missing % 2 ^ 32))))

/-- The array issues, runs and completes operations, transfers move their bytes, and a retired page moves to its spare. On a free array
whose checks run, the highest-ranked PLAN operation issues, but a translation fault keeps it off and is held as source 84. With none, a
BACKGROUND operation issues or goes on within its gap; a suspended one whose records differ is held as 78. A good tile counts, and a
BACKGROUND operation then gives way to a PLAN one. A tile that fails (76 of the engine's die) or reads with an error takes the operation
off. A complete operation leaves the array with its output in its model's tensors, and its exceptions accumulate; one whose signatures
(78) or vector datapaths (77) differ leaves no output. A post to a ring with room appends the descriptor with its owner; any other ends
with an error response. A valid transfer that meets no error, no cache entry and no early read ends with status 0, copies its bytes and
changes no other; a dropped one ends with status 4. A retired page is copied to its spare, which stands for it from then on. MEM_XLT_INV
is busy until its end, which removes the entries it names. MEM_ERR_CLR clears what it names. -/
def Obligations.ArrayOperationsAndTransfersEnd : Prop :=
  ∀ s : State, s.dev.dead = false → MemoryKept s →
    (s.dev.arr.running = none → s.dev.checks = true →
      (∀ o, s.dev.nextPlan = some o → ∀ agree,
        (s.dev.operandFault s.mem o = none → s.mem.marked .double (s.dev.opWeights o) = [] →
          Yields (exec (.arrayOperationIssue none agree) s) (fun t =>
            t.dev.arr.running = some (.plan, { o with clk := s.dev.clocksOf o, since := s.dev.now }) ∧ t.dev.arr.plan = s.dev.arr.plan.erase o ∧
            t.dev.on MTX.STAT_BUSY = true ∧ t.dev.fld MTX.TAG_TAG = o.desc.getD 15 0 % 2 ^ MTX.TAG_TAG.width)) ∧
        (∀ c h off, Yields (exec (.arrayOperationIssue (some (c, h, off)) agree) s) (fun t =>
          t.dev.arr.running = none ∧ t.dev.on MEM.XF_INFO_VALID = true ∧ (Claims.Beats s.dev .x → Claims.Held t.dev .x 84) ∧
          (s.dev.on MEM.XF_INFO_VALID = false → t.dev.fld MEM.XF_INFO_CAUSE = c % 2 ^ MEM.XF_INFO_CAUSE.width ∧
            t.dev.fld MEM.XF_HANDLE_HANDLE = h % 2 ^ 32 ∧ t.dev.fld MEM.XF_OFFSET_OFFSET = off % 2 ^ 32)))) ∧
      (s.dev.nextPlan = none → s.dev.bgAllowed = true → ∀ fault agree,
        (∀ o rest, s.dev.arr.suspended = none → s.dev.arr.background = o :: rest →
          Yields (exec (.arrayOperationIssue fault agree) s) (fun t =>
            t.dev.arr.running = some (.background, { o with clk := s.dev.clocksOf o, since := s.dev.now }) ∧ t.dev.arr.background = rest ∧
            t.dev.on MTX.STAT_BUSY = true)) ∧
        (∀ o, s.dev.arr.suspended = some o → Yields (exec (.arrayOperationIssue fault agree) s) (fun t =>
          t.dev.on MTX.STAT_SUSPENDED = false ∧
          (agree = true → t.dev.arr.running = some (.background, { o with clk := s.dev.clocksOf o, since := s.dev.now })) ∧
          (agree = false → t.dev.arr.running = none ∧ (Claims.Beats s.dev .c0 → Claims.Held t.dev .c0 78)))))) ∧
    (∀ q o, s.dev.arr.running = some (q, o) → s.dev.on MTX.INJ_ARM = false →
      (∀ fault agree, Yields (exec (.arrayOperationIssue fault agree) s) (fun t => RegsOnly [] s t)) ∧
      (o.done < o.tiles → ∀ agree,
        (o.aborted = false → q = .plan ∨ s.dev.nextPlan = none ∨ o.done + 1 = o.tiles →
          Yields (exec (.tileBoundary true ⟨agree, .sound⟩) s) (fun t =>
            t.dev.arr.running = some (q, { o with done := o.done + 1 }) ∧
            Frame [] (fun d => { d with arr := { d.arr with running := none } }) s t)) ∧
        (o.aborted = false → q = .background → (s.dev.nextPlan).isSome = true → o.done + 1 < o.tiles →
          Yields (exec (.tileBoundary true ⟨agree, .sound⟩) s) (fun t => t.dev.arr.running = none ∧
            (agree = true → t.dev.on MTX.STAT_SUSPENDED = true ∧ ∃ x, t.dev.arr.suspended = some x ∧ x.owner = o.owner ∧ x.done = o.done + 1) ∧
            (agree = false → Claims.Beats s.dev .c0 → Claims.Held t.dev .c0 78))) ∧
        (∀ read phys, phys = (match o.owner with | .selfTest seg => seg / 64 | _ => s.dev.tileEngine o.done) →
          Yields (exec (.tileBoundary false ⟨agree, read⟩) s) (fun t => t.dev.arr.running = none ∧ t.dev.on MTX.STAT_BUSY = false ∧
            (Claims.Beats s.dev (clusterDie (phys / 5)) → Claims.Held t.dev (clusterDie (phys / 5)) 76))) ∧
        (∀ a entry, Yields (exec (.tileBoundary true ⟨agree, .uncorrectable a entry⟩) s) (fun t =>
          t.dev.arr.running = none ∧ t.dev.on MTX.STAT_BUSY = false ∧ t.dev.on MEM.UE_INFO_VALID = true))) ∧
      (o.tiles ≤ o.done → o.aborted = false → ∀ exc,
        Yields (exec (.arrayOperationComplete true true exc) s) (fun t =>
          t.dev.arr.running = none ∧ t.dev.on MTX.STAT_BUSY = false ∧ t.dev.arr.tensors = (s.dev.opEffect s.mem o).tensors ∧
          ∀ flags, flags = (exc ||| (s.dev.opEffect s.mem o).exc) →
            t.dev.on MTX.EXC_SAT = (s.dev.on MTX.EXC_SAT || bit flags 3) ∧ t.dev.on MTX.EXC_OVF = (s.dev.on MTX.EXC_OVF || bit flags 2) ∧
            t.dev.on MTX.EXC_INV = (s.dev.on MTX.EXC_INV || bit flags 1) ∧
            t.dev.on MTX.EXC_NONFINITE = (s.dev.on MTX.EXC_NONFINITE || bit flags 0)) ∧
        (∀ vec, Yields (exec (.arrayOperationComplete false vec exc) s) (fun t =>
          t.dev.arr.running = none ∧ (Claims.Beats s.dev .c1 → Claims.Held t.dev .c1 78))) ∧
        (opGemm o.desc = false → opCode o.desc ≠ 32 → opCode o.desc ≠ 48 →
          Yields (exec (.arrayOperationComplete true false exc) s) (fun t =>
            t.dev.arr.running = none ∧ (Claims.Beats s.dev .c0 → Claims.Held t.dev .c0 77))))) ∧
    (∀ mid e q words, e < 4 → s.dev.reach (clusterDie e) = true →
      ((if q = ArrQueue.plan then mid < 10 else mid < 2) → s.dev.access mid (clusterDie e) = true → s.dev.splitMaster mid = false →
        (s.dev.ring e q).length < 256 → Yields (exec (.dmaDescriptorPost mid e q words) s) (fun t =>
          t.dev.ring e q = s.dev.ring e q ++ [dmaOf mid (s.dev.ctxOwner (dmaCtx (words.getD 1 0) (words.getD 3 0)) q) words] ∧
          t.dev.resp = .done ∧ RegsKept [] s.dev t.dev ∧ Outside s t)) ∧
      (256 ≤ (s.dev.ring e q).length ∨ s.dev.splitMaster mid = true ∨ s.dev.access mid (clusterDie e) = false ∨ 10 ≤ mid ∨
        (q = ArrQueue.background ∧ 2 ≤ mid) →
        Yields (exec (.dmaDescriptorPost mid e q words) s) (fun t => t.dev.resp = .error ∧ RegsOnly [] s t))) ∧
    (∀ e q x rest, e < 4 → s.dev.reach (clusterDie e) = true → s.dev.reach .x = true → s.dev.ring e q = x :: rest →
      (x.dropped = true → ∀ errors, Yields (exec (.dmaDescriptorComplete e q errors) s) (fun t =>
        t.dev.ring e q = rest ∧ t.dev.fld (MEM.DMA_STAT_LAST_STATUS e) = 4)) ∧
      (∀ env u pairs, env = (⟨x.poster, s.mem, lineBad s.mem, []⟩ : XltEnv) → u = (if s.dev.dmaHbm env x then 64 else 1) →
        x.dropped = false → s.dev.on MEM.INJ_ARM = false → x.fence = true ∨ tabGet [] s.dev.memsys.undo (ringKey e q) = [] →
        (∀ y ∈ s.dev.memsys.xlt, y.unit ≠ e) → s.dev.dmaInvalid env x = false → s.dev.moveUnits env x u (x.units u) = (pairs, none) →
        (∀ p, p ∈ pairs → lineBad s.mem p.1 = false) → (pairs.map (·.2)).Nodup →
        Yields (exec (.dmaDescriptorComplete e q []) s) (fun t =>
          t.dev.ring e q = rest ∧ t.dev.fld (MEM.DMA_STAT_LAST_STATUS e) = 0 ∧ (∀ p, p ∈ pairs → t.mem.byte p.2 = s.mem.byte p.1) ∧
          ∀ a, a ∉ pairs.map (·.2) → t.mem.byte a = s.mem.byte a))) ∧
    (∀ page r, s.dev.memsys.retires.find? (fun r => r.started && r.page == page) = some r → Yields (exec (.memPageRetired page) s) (fun t =>
      t.dev.memsys.retires = s.dev.memsys.retires.filter (fun x => x.page != page) ∧
      tabGet r.spare t.dev.memsys.standIn r.spare = s.dev.homePage page ∧
      t.dev.fld MEM.SPARE_USED = (s.dev.fld MEM.SPARE_USED + 1) % 2 ^ MEM.SPARE_USED.width ∧
      ∀ a, (∀ p ∈ pteOf s.mem page, a < p.2 ∨ p.2 + 8 ≤ a) →
        (a / 65536 = r.spare → t.mem.byte a = s.mem.byte (page * 65536 + a % 65536)) ∧
        (a / 65536 ≠ r.spare → t.mem.byte a = s.mem.byte a))) ∧
    (s.dev.reach .x = true → ∀ v,
      Yields (exec (.memXltInv v) s) (fun t => t.dev.on MEM.XLT_INV_BUSY = true ∧ t.dev.on MEM.XLT_INV_ALL = bit v 16 ∧
        t.dev.fld MEM.XLT_INV_CTX = v % 8192 ∧ RegsOnly [MEM.XLT_INV_BUSY.key, MEM.XLT_INV_ALL.key, MEM.XLT_INV_CTX.key] s t) ∧
      Yields (exec (.memErrClr v) s) (fun t =>
        t.dev.on MEM.UE_INFO_VALID = (s.dev.on MEM.UE_INFO_VALID && !bit v 0) ∧
        t.dev.on MEM.XF_INFO_VALID = (s.dev.on MEM.XF_INFO_VALID && !bit v 1) ∧
        RegsOnly [MEM.UE_INFO_VALID.key, MEM.XF_INFO_VALID.key] s t)) ∧
    (s.dev.on MEM.XLT_INV_BUSY = true → Yields (exec .xltInvalidateDone s) (fun t => t.dev.on MEM.XLT_INV_BUSY = false ∧
      t.dev.memsys.xlt = s.dev.memsys.xlt.filter (fun y => !s.dev.on MEM.XLT_INV_ALL && y.ctx != s.dev.fld MEM.XLT_INV_CTX) ∧
      Frame [MEM.XLT_INV_BUSY.key] (fun d => { d with resp := .idle, memsys := { d.memsys with xlt := [] } }) s t)) ∧
    (s.dev.on MEM.XLT_INV_BUSY = false → Yields (exec .xltInvalidateDone s) (fun t => RegsOnly [] s t))

/-- A link moves through its training states, counts failed trainings, retrains and resets as R258 to R286 say. Enabling a port starts a
full training at DETECT, with FAILS at 0 where EN was cleared in DOWN; disabling it ends it at once and drops what it holds. The exit of
each training state leads to the next, with a new epoch before CONFIG of a full training. A CONFIG that agrees makes the port ACTIVE
with FAILS 0, takes the peer's credit limits, or after a fast retrain asks for replay, and counts a full training. One that does not
agree, or a timeout, counts a failure, records the state it failed in, and returns to DETECT, or to DOWN at TRAIN_MAX. A loss of block
lock, and the retrain command, retrain an ACTIVE port, which is counted and held as source 356 + p; the command starts DOWN anew. A
reset block and the reset command take an ACTIVE or retraining port to DESKEW with a new epoch, counted; only the command sends a RESET
block, with reason 2. CLR_PEER clears the peer's alert and its cause. BOND is port 4; that it uses reset values for its limits is the
model's choice (log entry 17). -/
def Obligations.LinksTrainRetrainAndReset : Prop :=
  ∀ (s : State) (p : Nat), s.dev.dead = false → s.dev.memsys.writes = [] →
    (p < 4 → s.dev.reach .c0 = true ∨ s.dev.reach .c1 = true →
      (bit (s.dev.fld FJL.CTRL_EN) p = false →
        Yields (exec (.fjlPortEnable p) s) (fun t =>
          (∀ q, q < 4 → bit (t.dev.fld FJL.CTRL_EN) q = (q == p || bit (s.dev.fld FJL.CTRL_EN) q)) ∧ t.dev.linkSt p = 1 ∧
          (t.dev.link p).training = 0 ∧ t.dev.trainFails p = (if (s.dev.link p).wasDown then 0 else s.dev.trainFails p) ∧
          tabGet false t.dev.snag.cause (364 + p) = true ∧ t.dev.resp = .done) ∧
        Yields (exec (.fjlPortDisable p) s) (fun t => t.dev.resp = .done ∧ RegsOnly [] s t)) ∧
      (bit (s.dev.fld FJL.CTRL_EN) p = true →
        Yields (exec (.fjlPortEnable p) s) (fun t => t.dev.resp = .done ∧ RegsOnly [] s t) ∧
        Yields (exec (.fjlPortDisable p) s) (fun t =>
          (∀ q, q < 4 → bit (t.dev.fld FJL.CTRL_EN) q = (q != p && bit (s.dev.fld FJL.CTRL_EN) q)) ∧ t.dev.linkSt p = 0 ∧
          (t.dev.link p).held = [] ∧ (t.dev.link p).txQueue = [] ∧ (t.dev.link p).replay = [] ∧ (t.dev.link p).expSeq = [] ∧
          t.dev.fld (FJL.P_LANES_LOCKED p) = 0 ∧ t.dev.fld (FJL.P_LANES_SIGNAL p) = 0 ∧
          tabGet false t.dev.snag.cause (364 + p) = false ∧ t.dev.resp = .done))) ∧
    (p < 5 → s.dev.reach (linkDie p) = true →
      (∀ pol rev config,
        (1 ≤ s.dev.linkSt p → s.dev.linkSt p ≤ 4 → Yields (exec (.trainingStateExit p pol rev config) s) (fun t =>
          t.dev.linkSt p = s.dev.linkSt p + 1 ∧ (p < 4 → (s.dev.linkSt p = 1 → t.dev.fld (FJL.P_LANES_SIGNAL p) = 255) ∧
            (s.dev.linkSt p = 3 → t.dev.fld (FJL.P_LANES_LOCKED p) = 255 ∧ t.dev.fld (FJL.P_LANES_POLARITY p) = pol % 256)))) ∧
        (s.dev.linkSt p = 5 → Yields (exec (.trainingStateExit p pol rev config) s) (fun t =>
          t.dev.linkSt p = 6 ∧ t.dev.linkEpoch p =
            (if (s.dev.link p).training = 0 then (s.dev.linkEpoch p + 1) % 256 else s.dev.linkEpoch p))) ∧
        (s.dev.linkSt p = 6 ∨ s.dev.linkSt p = 8 →
          (s.dev.configAgrees p config = true → s.dev.fjlArmed p 3 = false → Yields (exec (.trainingStateExit p pol rev config) s) (fun t =>
            t.dev.linkSt p = 7 ∧ t.dev.trainFails p = 0 ∧
            ((s.dev.link p).training = 1 → (t.dev.link p).cause = 4) ∧
            ((s.dev.link p).training ≠ 1 → ∀ e ∈ ([(0, 3), (1, 5), (2, 4), (3, 6)] : List (Nat × Nat)),
              tabGet 0 (t.dev.link p).txLimit e.1 = config.getD e.2 0 % 65536) ∧
            (p < 4 → tabGet false t.dev.snag.cause (364 + p) = false ∧ t.dev.fld (FJL.P_TRAIN_FULL p) =
              (if (s.dev.link p).training = 0 then satAdd (2 ^ (FJL.P_TRAIN_FULL p).width - 1) (s.dev.fld (FJL.P_TRAIN_FULL p)) 1
                else s.dev.fld (FJL.P_TRAIN_FULL p))))) ∧
          (s.dev.configAgrees p config = false → Yields (exec (.trainingStateExit p pol rev config) s) (fun t =>
            t.dev.linkSt p = (if s.dev.trainMax p ≤ s.dev.trainFails p + 1 then 9 else 1) ∧
            t.dev.trainFails p = min 255 (s.dev.trainFails p + 1) ∧ (p < 4 → t.dev.fld (FJL.P_TRAIN_LAST_FAIL p) = 6))))) ∧
      ((2 ≤ s.dev.linkSt p ∧ s.dev.linkSt p ≤ 6) ∨ s.dev.linkSt p = 8 → Yields (exec (.trainingTimeout p) s) (fun t =>
        t.dev.linkSt p = (if s.dev.trainMax p ≤ s.dev.trainFails p + 1 then 9 else 1) ∧
        t.dev.trainFails p = min 255 (s.dev.trainFails p + 1) ∧ (p < 4 → t.dev.fld (FJL.P_TRAIN_LAST_FAIL p) = s.dev.linkSt p ∧
          (s.dev.trainMax p ≤ s.dev.trainFails p + 1 → Claims.Beats s.dev (clusterDie p) → Claims.Held t.dev (clusterDie p) (364 + p)))))) ∧
    (p < 5 →
      (s.dev.linkSt p = 7 → Yields (exec (.blockLockLoss p) s) (fun t => t.dev.linkSt p = (if s.dev.fastRetrain p then 8 else 1) ∧
        (p < 4 → t.dev.fld (FJL.P_LINKERR_RETRAINS p) =
            satAdd (2 ^ (FJL.P_LINKERR_RETRAINS p).width - 1) (s.dev.fld (FJL.P_LINKERR_RETRAINS p)) 1 % 2 ^ (FJL.P_LINKERR_RETRAINS p).width ∧
          (Claims.Beats s.dev (clusterDie p) → Claims.Held t.dev (clusterDie p) (356 + p))))) ∧
      (s.dev.linkSt p = 7 ∨ s.dev.linkSt p = 8 → ∀ reason, 1 ≤ reason → Yields (exec (.resetBlock p reason) s) (fun t =>
        t.dev.linkSt p = 5 ∧ t.dev.linkEpoch p = (s.dev.linkEpoch p + 1) % 256 ∧ (t.dev.link p).held = [] ∧ (t.dev.link p).expSeq = [] ∧
        (t.dev.link p).replay = [] ∧ (t.dev.link p).resetSent = (s.dev.link p).resetSent ∧ (p < 4 → t.dev.fld (FJL.P_LINKERR_RESETS p) =
          satAdd (2 ^ (FJL.P_LINKERR_RESETS p).width - 1) (s.dev.fld (FJL.P_LINKERR_RESETS p)) 1 % 2 ^ (FJL.P_LINKERR_RESETS p).width)))) ∧
    (p < 4 → s.dev.reach (clusterDie p) = true →
      (s.dev.linkSt p = 9 → Yields (exec (.fjlCmdRetrain p) s) (fun t => t.dev.linkSt p = 1 ∧ t.dev.trainFails p = 0 ∧ t.dev.resp = .done)) ∧
      (s.dev.linkSt p = 7 → Yields (exec (.fjlCmdRetrain p) s) (fun t =>
        t.dev.linkSt p = (if s.dev.fastRetrain p then 8 else 1) ∧ t.dev.resp = .done ∧
        (Claims.Beats s.dev (clusterDie p) → Claims.Held t.dev (clusterDie p) (356 + p)))) ∧
      (s.dev.linkSt p = 7 ∨ s.dev.linkSt p = 8 → Yields (exec (.fjlCmdReset p) s) (fun t =>
        t.dev.linkSt p = 5 ∧ t.dev.linkEpoch p = (s.dev.linkEpoch p + 1) % 256 ∧ (t.dev.link p).resetSent = 2 ∧ t.dev.resp = .done)) ∧
      Yields (exec (.clrPeer p) s) (fun t =>
        t.dev.on (FJL.P_PEER_VALID p) = false ∧ t.dev.fld (FJL.P_PEER_CODE p) = 0 ∧ tabGet false t.dev.snag.cause (376 + p) = false ∧
        t.dev.resp = .done ∧ RegsKept [(FJL.P_PEER_VALID p).key, (FJL.P_PEER_CODE p).key] s.dev t.dev))

/-- On an ACTIVE link records are sent and taken in sequence, acknowledged or repeated, checked and handed on. CREDIT sets the limit of its
channel. ACK frees what it covers, NACK waits for the other channels and then has everything repeated; one that covers nothing held, and
a MARK of another epoch, are a protocol error that resets the link. RECORD_TRANSMIT moves the oldest record that may start into the
replay buffer; SERVICE_ROW_TRANSMIT sends the row of the next slot. A received record with the right trailer that passes check 1 is
held, one with another trailer loses framing. A held DATA record goes to its watch where its trailer check found it in its window, and
is dropped and counted outside it or where no watch takes it; HEARTBEAT and CHECKIN records are used up, IDENT_RSP fills the 16 words,
PEER_ALERT is kept with its cause. -/
def Obligations.LinkRecordsAreSequencedCheckedAndRouted : Prop :=
  ∀ (s : State) (p : Nat), s.dev.dead = false → s.dev.memsys.writes = [] → p < 5 → s.dev.linkSt p = 7 →
    (∀ vc, vc < 4 →
      (∀ limit, Yields (exec (.credit p vc limit) s) (fun t =>
        tabGet 0 (t.dev.link p).txLimit vc = limit % 65536 ∧ (∀ c, c ≠ vc → tabGet 0 (t.dev.link p).txLimit c = tabGet 0 (s.dev.link p).txLimit c) ∧
        Frame [] (fun d => { d with links := [] }) s t)) ∧
      (∀ next resync,
        (∀ k, (s.dev.link p).covered vc next = some k →
          Yields (exec (.ack p vc next resync) s) (fun t => (t.dev.link p).replay = dropVc vc k (s.dev.link p).replay ∧
            Frame [] (fun d => { d with links := [] }) s t) ∧
          (∀ cause, cause = 1 ∨ cause = 2 ∨ cause = 4 →
            ((sendChannels p).all (fun c => c == vc || (tabGet none (s.dev.link p).nacks c).isSome) = true →
              Yields (exec (.nack p vc next cause resync) s) (fun t =>
                (t.dev.link p).txQueue = (dropVc vc k (s.dev.link p).replay).map (fun r => r.2.2) ++ (s.dev.link p).txQueue ∧
                (t.dev.link p).replay = [] ∧ (t.dev.link p).resync = true)) ∧
            ((sendChannels p).all (fun c => c == vc || (tabGet none (s.dev.link p).nacks c).isSome) = false →
              Yields (exec (.nack p vc next cause resync) s) (fun t => tabGet none (t.dev.link p).nacks vc = some next)))) ∧
        ((s.dev.link p).covered vc next = none → Yields (exec (.ack p vc next resync) s) (fun t => t.dev.linkSt p = 5) ∧
          ∀ cause, cause = 1 ∨ cause = 2 ∨ cause = 4 → Yields (exec (.nack p vc next cause resync) s) (fun t => t.dev.linkSt p = 5)))) ∧
    (p < 4 → ∀ epoch resync,
      (epoch ≠ s.dev.linkEpoch p → Yields (exec (.mark p epoch resync) s) (fun t => t.dev.linkSt p = 5)) ∧
      (epoch = s.dev.linkEpoch p → Yields (exec (.mark p epoch resync) s) (fun t =>
        (t.dev.link p).framingLost =
          ((s.dev.link p).framingLost && !(resync && [0, 1, 2, 3].all (s.dev.link p).nacked.contains)) ∧ t.dev.linkSt p = 7))) ∧
    (s.dev.reach (linkDie p) = true → (∀ m, s.dev.fjlArmed p m = false) →
      (∀ r, (s.dev.link p).txQueue.find? (fun r => (s.dev.link p).startable.contains r) = some r → (s.dev.link p).resync = false →
        ((s.dev.link p).replay.map (fun x => recordBytes x.2.2)).foldl (· + ·) 0 + recordBytes r ≤ 65536 →
        ∀ seq, seq = tabGet 0 (s.dev.link p).txSeq r.vc → Yields (exec (.recordTransmit p) s) (fun t =>
          (t.dev.link p).txQueue = (s.dev.link p).txQueue.erase r ∧ tabGet 0 (t.dev.link p).txSeq r.vc = (seq + 1) % 4294967296 ∧
          (t.dev.link p).replay = (s.dev.link p).replay ++ [(r.vc, seq, { r with trailer := trailerOf seq (headerBytes r ++ r.payload) })])) ∧
      Yields (exec (.serviceRowTransmit p) s) (fun t =>
        (t.dev.link p).rotation = ((s.dev.link p).rotation + 1) % 8 ∧ (t.dev.link p).resync = false ∧
        (t.dev.link p).lastRow.getD 1 0 = rotationVc (s.dev.link p).rotation ∧
        (t.dev.link p).lastRow.getD 2 0 = tabGet 0 (s.dev.link p).expSeq (rotationVc (s.dev.link p).rotation) ∧
        ((s.dev.link p).framingLost = true → (t.dev.link p).lastRow.getD 0 0 = 0x55) ∧
        ((s.dev.link p).framingLost = false → (s.dev.link p).cause ≠ 4 → (t.dev.link p).lastRow.getD 0 0 = 0x4B)) ∧
      (∀ r, r.vc < 4 → (s.dev.link p).framingLost = false → recCredits r.payload.length ≤ (s.dev.link p).rxFree (p = 4) r.vc →
        ∀ good, good = trailerOf (tabGet 0 (s.dev.link p).expSeq r.vc) (headerBytes r ++ r.payload) →
        (r.trailer = good → r.kind ≠ 0 → r.length ≤ 4096 → r.padZero = true → s.dev.headerOk p r = true →
          Yields (exec (.recordReceived p r) s) (fun t => (t.dev.link p).held = (s.dev.link p).held ++ [r] ∧
            (t.dev.link p).inTime = (s.dev.link p).inTime ++ [s.dev.inWindow p r.frame] ∧
            tabGet 0 (t.dev.link p).expSeq r.vc = (tabGet 0 (s.dev.link p).expSeq r.vc + 1) % 4294967296)) ∧
        (r.trailer ≠ good → (s.dev.link p).losses + 1 < s.dev.retryMax p → Yields (exec (.recordReceived p r) s) (fun t =>
          (t.dev.link p).framingLost = true ∧ (t.dev.link p).cause = 1 ∧ (t.dev.link p).held = (s.dev.link p).held)))) ∧
    (p < 4 →
      (∀ vc r, vc = 0 ∨ vc = 2 → s.dev.heldRec p vc 1 = some r → Yields (exec (.data p vc) s) (fun t =>
        (t.dev.link p).held = (s.dev.link p).held.erase r ∧
        (s.dev.timely p r = false → t.dev.fld (FJL.P_DROP_WINDOW p) =
          satAdd (2 ^ (FJL.P_DROP_WINDOW p).width - 1) (s.dev.fld (FJL.P_DROP_WINDOW p)) 1 % 2 ^ (FJL.P_DROP_WINDOW p).width ∧
          (t.dev.link p).deliver = (s.dev.link p).deliver) ∧
        (s.dev.timely p r = true →
          ((s.dev.namedWatch p r.watch r.frame && s.dev.takesData r.watch vc r.frame) = true →
            (t.dev.link p).deliver = (s.dev.link p).deliver ++ [r]) ∧
          ((s.dev.namedWatch p r.watch r.frame && s.dev.takesData r.watch vc r.frame) = false →
            (t.dev.link p).deliver = (s.dev.link p).deliver ∧ t.dev.fld (FJL.P_DROP_STRAY p) =
              satAdd (2 ^ (FJL.P_DROP_STRAY p).width - 1) (s.dev.fld (FJL.P_DROP_STRAY p)) 1 % 2 ^ (FJL.P_DROP_STRAY p).width)))) ∧
      (∀ r, s.dev.heldRec p 1 0x12 = some r → Yields (exec (.heartbeat p) s) (fun t =>
        (t.dev.link p).held = (s.dev.link p).held.erase r)) ∧
      (∀ r, s.dev.heldRec p 1 0x13 = some r → Yields (exec (.checkin p) s) (fun t => (t.dev.link p).held = (s.dev.link p).held.erase r)) ∧
      (∀ r, s.dev.heldRec p 3 0x21 = some r → Yields (exec (.identRsp p) s) (fun t =>
        (t.dev.link p).held = (s.dev.link p).held.erase r ∧ ∀ j, j < 16 → t.dev.fld (FJL.P_IDENT_IDENT p j) = leAt r.payload (4 * j) 4)) ∧
      (∀ r, s.dev.heldRec p 3 0x22 = some r → s.dev.timely p r = true → Yields (exec (.peerAlert p) s) (fun t =>
        t.dev.on (FJL.P_PEER_VALID p) = true ∧ t.dev.fld (FJL.P_PEER_CODE p) = r.arg % 65536 ∧
        tabGet false t.dev.snag.cause (376 + p) = true)))

namespace Sys2Proof.Claims

/-- A master reaches side `k` of mailbox channel `ch`, and no injected violation waits for the channel (R17, R396, R408). -/
def Reaches (d : Dev) (mid ch k : Nat) : Prop :=
  d.access mid .s = true ∧ ch < 64 ∧ d.mbxView mid ch = some k ∧ (d.on MBX.INJ_ARM && d.fld MBX.INJ_MODE == 2 && d.fld MBX.INJ_CHANNEL == ch) = false

/-- Nothing but the cores' part and the registers with a key of `keys` changes. -/
def CoresOnly (keys : List Nat) : State → State → Prop := Frame keys (fun d => { d with resp := .idle, cores := .reset })

end Sys2Proof.Claims

/-- A post enqueues a word, a full queue counts an overflow, and a read takes the head word of the inbound queue. For the bound masters of a
channel: MBX_TX with room appends the word with the sender's epoch, and sets the peer's doorbell where the automatic doorbell is on;
with eight words waiting it is refused and OVERFLOW counts to 15; MBX_RX takes and returns the head word and counts CONSUMED modulo
2^16, or returns 0 from an empty queue. A read of MBX_RX by a pair with an instruction that no comparison covers waits: it takes
nothing. Registers other than the stall map, memory and every other part of the device are unchanged. That a refused post is accepted
where the same cycle frees room is the model's reading (log entry 36). -/
def Obligations.MailboxPostsAndTakes : Prop :=
  ∀ (s : State) (mid ch k v : Nat), s.dev.dead = false → s.dev.memsys.writes = [] → Claims.Reaches s.dev mid ch k →
    ((s.dev.mbxSide k).out.length < 8 → Yields (exec (.mbxTx mid ch v) s) (fun t =>
      (t.dev.mbxSide k).out = (s.dev.mbxSide k).out ++ [⟨v % 4294967296, (s.dev.mbxSide k).epoch, s.dev.now⟩] ∧ t.dev.resp = .done ∧
      ((if k % 2 = 0 then s.dev.on (MBX.BIND_DB_AUTO_A (k / 2)) else s.dev.on (MBX.BIND_DB_AUTO_B (k / 2))) = true →
        (t.dev.mbxSide (otherSide k)).dbIn = true) ∧ Claims.CoresOnly [] s t)) ∧
    (8 ≤ (s.dev.mbxSide k).out.length → Yields (exec (.mbxTx mid ch v) s) (fun t =>
      (t.dev.mbxSide k).out = (s.dev.mbxSide k).out ∧ (t.dev.mbxSide k).overflow = satAdd 15 (s.dev.mbxSide k).overflow 1 ∧
      t.dev.resp = .error ∧ Claims.CoresOnly [] s t)) ∧
    ((s.dev.compares mid && (s.dev.pairOf mid).uncompared) = true → Yields (exec (.mbxRx mid ch) s) (fun t =>
      t.dev.resp = .idle ∧ t.dev.cores.mbx = s.dev.cores.mbx ∧ (t.dev.pairOf mid).loads = (s.dev.pairOf mid).loads ++ [MBX.RX ch] ∧
      Claims.CoresOnly [] s t)) ∧
    (∀ w rest, (s.dev.compares mid && (s.dev.pairOf mid).uncompared) = false → (s.dev.mbxSide (otherSide k)).out = w :: rest →
      (s.dev.mbxSide (otherSide k)).refused = none → Yields (exec (.mbxRx mid ch) s) (fun t =>
        t.dev.resp = .value w.data ∧ (t.dev.mbxSide (otherSide k)).out = rest ∧
        (t.dev.mbxSide (otherSide k)).consumed = ((s.dev.mbxSide (otherSide k)).consumed + 1) % 65536 ∧ t.dev.stallBit (k / 2) = false)) ∧
    ((s.dev.compares mid && (s.dev.pairOf mid).uncompared) = false → (s.dev.mbxSide (otherSide k)).out = [] →
      Yields (exec (.mbxRx mid ch) s) (fun t =>
        t.dev.resp = .value 0 ∧ t.dev.cores.mbx = s.dev.cores.mbx ∧ Claims.CoresOnly [] s t))

/-- Doorbells ring and clear, a stalled channel is reported, and a foreign master is refused. MBX_DB.RING sets the peer's inbound doorbell,
MBX_DB.IN written 1 clears the own one unless it rings in the same cycle, a channel on which both sides have words and neither has
consumed for ACK_TIMEOUT sets its STALL bit and source 488 with a lasting cause, and an access by a master that the binding does not
name gets an error response and sets source 489 and changes no channel. An access that does not reach the S-die ends with an error
response alone. -/
def Obligations.MailboxDoorbellsStallsAndViolations : Prop :=
  ∀ (s : State) (mid ch k : Nat), s.dev.dead = false → s.dev.memsys.writes = [] →
    (Claims.Reaches s.dev mid ch k →
      Yields (exec (.mbxDbRing mid ch) s) (fun t =>
        (t.dev.mbxSide (otherSide k)).dbIn = true ∧ (t.dev.mbxSide (otherSide k)).out = (s.dev.mbxSide (otherSide k)).out ∧
        t.dev.resp = .done ∧ Claims.CoresOnly [] s t) ∧
      ((s.dev.mbxSide k).ringAt ≠ some s.dev.now → Yields (exec (.mbxDbClear mid ch) s) (fun t =>
        (t.dev.mbxSide k).dbIn = false ∧ t.dev.resp = .done ∧ Claims.CoresOnly [] s t))) ∧
    (ch < 64 → s.dev.mbxStalled ch = true → Yields (exec (.mbxStall ch) s) (fun t =>
      t.dev.stallBit ch = true ∧ t.dev.isSet 488 = true ∧ tabGet false t.dev.snag.cause 488 = true ∧ t.dev.cores = s.dev.cores)) ∧
    (s.dev.access mid .s = false → ∀ v, Yields (exec (.mbxTx mid ch v) s) (fun t => t.dev.resp = .error ∧ RegsOnly [] s t)) ∧
    (s.dev.access mid .s = true → ch < 64 → s.dev.mbxView mid ch = none → s.dev.on MBX.INJ_ARM = false → ∀ v,
      Yields (exec (.mbxTx mid ch v) s) (fun t => t.dev.resp = .error ∧ t.dev.isSet 489 = true ∧ t.dev.cores = s.dev.cores) ∧
      Yields (exec (.mbxRx mid ch) s) (fun t => t.dev.resp = .error ∧ t.dev.isSet 489 = true ∧ t.dev.cores = s.dev.cores) ∧
      Yields (exec (.mbxDbRing mid ch) s) (fun t => t.dev.resp = .error ∧ t.dev.isSet 489 = true ∧ t.dev.cores = s.dev.cores) ∧
      Yields (exec (.mbxDbClear mid ch) s) (fun t => t.dev.resp = .error ∧ t.dev.isSet 489 = true ∧ t.dev.cores = s.dev.cores))

/-- A CRC block starts, takes words, ends and shows its result, for its owner alone. For the owner of a channel: START opens a block, loads
INIT (with the sequence number and the address folded in as configured), sets BUSY and clears WORDS; a data word advances the running
value over its four bytes where nothing is kept back, and counts WORDS; END on an open block forms the result; CRC_BLOCK_DONE shows it
with BUSY 0, and in CHECK mode sets MATCH or MISMATCH; a write of CRC_RUN while idle sets its half, and while BUSY it is discarded and
raises source 0. Another master's access ends with an error response and changes nothing. -/
def Obligations.CrcBlockRunsFromStartToResult : Prop :=
  ∀ (s : State) (mid ch v : Nat), s.dev.dead = false → s.dev.memsys.writes = [] → ch < 64 →
    (s.dev.access mid .s = true → s.dev.on (CRC.OWNER_EN ch) = true → s.dev.fld (CRC.OWNER_MID ch) = mid →
      (s.dev.on (CRC.CFG_FOLD_SEQ ch) = false → s.dev.on (CRC.CFG_FOLD_ADDR ch) = false →
        Yields (exec (.crcStart mid ch) s) (fun t =>
          t.dev.crcRun ch = s.dev.wide (CRC.INIT_LO_INIT ch) (CRC.INIT_HI_INIT ch) (s.dev.crcWidth ch) % 2 ^ 64 ∧
          (t.dev.crcOf ch).open_ = true ∧ t.dev.on (CRC.STAT_BUSY ch) = true ∧ t.dev.fld (CRC.STAT_WORDS ch) = 0 ∧ t.dev.resp = .done ∧
          Claims.CoresOnly [(CRC.RUN_LO_RUN ch).key, (CRC.RUN_HI_RUN ch).key, (CRC.STAT_BUSY ch).key, (CRC.STAT_WORDS ch).key] s t)) ∧
      ((s.dev.crcOf ch).result = none → (s.dev.on (CRC.CFG_MODE ch) && s.dev.on (CRC.CFG_STRIP ch)) = false →
        Yields (exec (.crcData mid ch v) s) (fun t =>
          t.dev.crcRun ch = s.dev.crcBytes ch (s.dev.crcRun ch) (wordBytes 4 v) % 2 ^ 64 ∧ t.dev.on (CRC.STAT_BUSY ch) = true ∧
          t.dev.fld (CRC.STAT_WORDS ch) = (if (s.dev.crcOf ch).open_ then satAdd (2 ^ (CRC.STAT_WORDS ch).width - 1) (s.dev.fld (CRC.STAT_WORDS ch)) 1 else 1) ∧
          Claims.CoresOnly [(CRC.RUN_LO_RUN ch).key, (CRC.RUN_HI_RUN ch).key, (CRC.STAT_BUSY ch).key, (CRC.STAT_WORDS ch).key] s t)) ∧
      (v < 5 → (s.dev.crcOf ch).open_ = true → Yields (exec (.crcEnd mid ch v) s) (fun t =>
        (∃ r, (t.dev.crcOf ch).result = some r) ∧ (t.dev.crcOf ch).open_ = false ∧ t.dev.resp = .done)) ∧
      (s.dev.on (CRC.STAT_BUSY ch) = false → Yields (exec (.crcRunWrite mid ch false v) s) (fun t =>
        t.dev.fld (CRC.RUN_LO_RUN ch) = v % 2 ^ 32 ∧ t.dev.resp = .done ∧ RegsOnly [(CRC.RUN_LO_RUN ch).key] s t)) ∧
      (s.dev.on (CRC.STAT_BUSY ch) = true → ∀ high, Yields (exec (.crcRunWrite mid ch high v) s) (fun t =>
        t.dev.crcRun ch = s.dev.crcRun ch ∧ t.dev.resp = .discarded ∧ t.dev.isSet 0 = true))) ∧
    (∀ r got, (s.dev.crcOf ch).result = some (r, got) → Yields (exec (.crcBlockDone ch) s) (fun t =>
      t.dev.crcOf ch = CrcBlock.idle ∧ t.dev.on (CRC.STAT_BUSY ch) = false ∧ t.dev.fld (CRC.RESULT_LO_RESULT ch) = r % 2 ^ 32 ∧
      t.dev.fld (CRC.RESULT_HI_RESULT ch) = r / 2 ^ 32 % 2 ^ 32 ∧
      (s.dev.on (CRC.CFG_MODE ch) = true → t.dev.on (CRC.STAT_MATCH ch) = decide (r = got) ∧ t.dev.on (CRC.STAT_MISMATCH ch) = decide (r ≠ got)))) ∧
    ((s.dev.access mid .s && s.dev.on (CRC.OWNER_EN ch) && s.dev.fld (CRC.OWNER_MID ch) == mid) = false →
      Yields (exec (.crcStart mid ch) s) (fun t => t.dev.resp = .error ∧ RegsOnly [] s t) ∧
      Yields (exec (.crcData mid ch v) s) (fun t => t.dev.resp = .error ∧ RegsOnly [] s t) ∧
      Yields (exec (.crcEnd mid ch v) s) (fun t => t.dev.resp = .error ∧ RegsOnly [] s t))

/-- A LOCKED pair whose MISRs agree lets its stores go, one whose MISRs differ halts for its self-tests, and their outcome decides what is
left of it. Both copies of a LOCKED pair fold what they retire into their MISRs, from the values captured once for both. Where the MISRs
agree, with no injection, they restart from 0, queue and replay log are empty, a halt that waits takes place, and stores to reachable
memory outside HBM have taken effect. Where they differ, and the pair was not reset in the cycle, the pair is in the state of its self-
tests (1), both MISRs are recorded, source 448 + p is held, and no store of the queue takes effect. When both copies pass their slices,
the pair is LOCKED and TRANSIENTS counts. When the checker alone fails it is fenced: the pair runs single on the main copy (2), or is
fenced (4), by ON_SINGLE. A halted pair logs up to 256 actions of the debugger, and its stores wait; at the resume the checker copy
takes the logged actions and the MISRs are compared. -/
def Obligations.LockstepPairCompares : Prop :=
  ∀ (s : State) (p : Nat), s.dev.dead = false → s.dev.memsys.writes = [] → p < 10 → ∀ x, x = s.dev.pairOf p →
    (s.dev.pairState p ≠ 0 → ∀ main chk window bus job, Yields (exec (.lockstepCompare p main chk window bus job) s) (fun t => RegsOnly [] s t)) ∧
    (s.dev.pairState p = 0 → s.dev.on LCK.INJ_ARM = false → ∀ main chk window inbound m c,
      m = runCore main x.misrMain (x.inbound ++ inbound) (32 - x.stores.length) →
      c = runCore chk x.misrChk (x.inbound ++ inbound) (32 - x.stores.length) →
      (∀ ws : List (Nat × Byte), m.misr = c.misr → x.loads = [] → x.stores ++ m.stores = ws.map (fun w => .mem w.1 w.2) →
        (∀ w ∈ ws, hbmSize ≤ w.1 ∧ w.1 < memEnd ∧ s.dev.access p (memPlace w.1).2.2.2 = true ∧ s.dev.reach (memPlace w.1).2.2.2 = true) →
        Yields (exec (.lockstepCompare p main chk window ⟨inbound, none⟩ none) s) (fun t =>
          (t.dev.pairOf p).stores = [] ∧ (t.dev.pairOf p).replay = [] ∧ (t.dev.pairOf p).inbound = m.inbound ∧
          (t.dev.pairOf p).misrMain = 0 ∧ (t.dev.pairOf p).misrChk = 0 ∧ t.dev.fld (LCK.P_STAT_LOG_FILL p) = 0 ∧
          t.dev.pairState p = (if x.haltReq then 6 else 0) ∧ t.mem = s.mem.putAll (ws.map (fun w => ⟨w.1, w.2, .sound⟩)))) ∧
      (m.misr ≠ c.misr → x.resetAt ≠ some s.dev.now → ∀ load,
        Yields (exec (.lockstepCompare p main chk window ⟨inbound, load⟩ none) s) (fun t =>
          t.dev.pairState p = 1 ∧ (t.dev.pairOf p).stores = [] ∧ (t.dev.pairOf p).sliceEnd = s.dev.now + usCycles 40 ∧
          t.dev.fld (LCK.P_MM_MAIN_LO_MISR p) = m.misr % 2 ^ 32 ∧ t.dev.fld (LCK.P_MM_MAIN_HI_MISR p) = m.misr / 2 ^ 32 % 2 ^ 32 ∧
          t.dev.fld (LCK.P_MM_CHK_LO_MISR p) = c.misr % 2 ^ 32 ∧ t.dev.fld (LCK.P_MM_CHK_HI_MISR p) = c.misr / 2 ^ 32 % 2 ^ 32 ∧
          (Claims.Beats s.dev (pairDie p) → Claims.Held t.dev (pairDie p) (448 + p)) ∧ t.mem = s.mem))) ∧
    (s.dev.pairState p = 1 → x.sliceEnd ≤ s.dev.now → s.dev.on LCK.INJ_ARM = false → x.forceFail = false →
      Yields (exec (.selftestSliceDone p true true) s) (fun t =>
        t.dev.pairState p = 0 ∧ t.dev.fld (LCK.P_STAT_TRANSIENTS p) =
          satAdd (2 ^ (LCK.P_STAT_TRANSIENTS p).width - 1) (s.dev.fld (LCK.P_STAT_TRANSIENTS p)) 1) ∧
      Yields (exec (.selftestSliceDone p true false) s) (fun t =>
        t.dev.pairState p = (if (s.dev.pairCfg p).2.1 = 0 then 2 else 4) ∧ (t.dev.pairOf p).chkFenced = true ∧
        ((s.dev.pairCfg p).2.1 ≠ 0 → (t.dev.pairOf p).mainFenced = true))) ∧
    (s.dev.pairState p = 6 →
      (∀ chk m c, m = runCore (x.replay.flatMap DebugAct.events) 0 (x.logged x.replay) 32 → c = runCore chk 0 (x.logged x.replay) 32 →
        (m.misr = c.misr → x.stores = [] → x.loads = [] → x.haltReq = false → Yields (exec (.debugResume p chk none) s) (fun t =>
          t.dev.pairState p = 0 ∧ (t.dev.pairOf p).replay = [])) ∧
        (m.misr ≠ c.misr → x.resetAt ≠ some s.dev.now → Yields (exec (.debugResume p chk none) s) (fun t =>
          t.dev.pairState p = 1 ∧ (t.dev.pairOf p).stores = [] ∧ t.mem = s.mem))) ∧
      (∀ move inbound log, log = x.replay ++ [logAction inbound move] →
        (x.replay.length < 256 → Yields (exec (.debugAction p move inbound) s) (fun t =>
          (t.dev.pairOf p).replay = log ∧ (t.dev.pairOf p).stores = (runCore (log.flatMap DebugAct.events) 0 (x.logged log) 32).stores ∧
          t.dev.fld (LCK.P_STAT_LOG_FILL p) = logUnits log.length % 2 ^ (LCK.P_STAT_LOG_FILL p).width ∧ t.dev.resp = .done ∧
          Claims.CoresOnly [(LCK.P_STAT_LOG_FILL p).key] s t)) ∧
        (256 ≤ x.replay.length → Yields (exec (.debugAction p move inbound) s) (fun t => t.dev.resp = .error ∧ RegsOnly [] s t)))) ∧
    (s.dev.on SEC.STATE_DEBUG_OPEN = true → bit s.dev.boot.debugScope p = true → s.dev.pairState p = 0 →
      Yields (exec (.debugHalt p) s) (fun t => (t.dev.pairOf p).haltReq = true ∧ t.dev.pairState p = 0 ∧ Claims.CoresOnly [] s t))

/-- A fenced pair whose copies pass their self-tests returns to LOCKED, and a reset empties a pair's queue and log. Written by the pair that
may command it, on a reachable die: UNFENCE with both self-tests passed brings a fenced pair that does not run split into LOCKED with no
copy fenced; RESET empties the store queue and the replay log and records the cycle; by another pair both end with an error response and
change nothing. -/
def Obligations.PairsUnfenceAndReset : Prop :=
  ∀ (s : State) (mid p : Nat), s.dev.dead = false → s.dev.memsys.writes = [] → p < 10 → s.dev.reach (pairDie p) = true →
    (lckWriter mid p = true →
      (s.dev.pairState p = 4 → s.dev.on LCK.INJ_ARM = false → s.dev.pairSplit p = false →
        Yields (exec (.unfence mid p true true) s) (fun t =>
          t.dev.pairState p = 0 ∧ (t.dev.pairOf p).mainFenced = false ∧ (t.dev.pairOf p).chkFenced = false ∧ t.dev.resp = .done)) ∧
      Yields (exec (.pairReset mid p) s) (fun t =>
        (t.dev.pairOf p).stores = [] ∧ (t.dev.pairOf p).replay = [] ∧ (t.dev.pairOf p).resetAt = some s.dev.now ∧
        t.dev.fld (LCK.P_STAT_LOG_FILL p) = 0 ∧ t.dev.resp = .done)) ∧
    (lckWriter mid p = false → ∀ m c,
      Yields (exec (.unfence mid p m c) s) (fun t => t.dev.resp = .error ∧ RegsOnly [] s t) ∧
      Yields (exec (.pairReset mid p) s) (fun t => t.dev.resp = .error ∧ RegsOnly [] s t))

/-- Ports start, measure, lock, take frames and lose their clock, listeners lock and lose their stream, and S_CORE loss silences all
outputs. Enabling a port starts its measurement; a MASTER port is locked from then on, a SLAVE port is not. Disabling ends LOCKED, VALID
and the cause of source 384 + p and mutes. An unlocked SLAVE port counts frames of one phase up to 16, any other frame starts the count
anew; PORT_LOCK after 16 sets LOCKED and ends the cause. A locked SLAVE port whose edge is missing, doubled or displaced counts a clock
fault, loses LOCKED and sets source 384 + p with its cause; otherwise, and on a MASTER port, each enabled input channel takes its slot's
sample. A matching AVTP packet locks its listener, counts a gap in its sequence, and ends the cause of source 392 + l; other packets
change nothing; 1 ms without a packet ends LOCKED with the cause present. The loss of S_CORE sets source 6, the safe state, and silences
every port; of a paired device OWN_OUT falls; while the monitor's own clock S_RC is lost, it is not detected (log entry 121). -/
def Obligations.PortsLockTakeFramesAndLoseTheirClock : Prop :=
  ∀ s : State, s.dev.dead = false → s.dev.memsys.writes = [] →
    (∀ p, p < 6 →
      (s.dev.tdmEn p = false →
        Yields (exec (.sgtPortEnable p) s) (fun t =>
          t.dev.tdmEn p = true ∧ (∀ q, q < 6 → q ≠ p → t.dev.tdmEn q = s.dev.tdmEn q) ∧ (t.dev.tdm p).measured = 0 ∧
          (s.dev.fld (SGT.P_CFG_CLK p) = 0 → t.dev.on (SGT.P_STAT_LOCKED p) = true) ∧
          (s.dev.fld (SGT.P_CFG_CLK p) = 1 → t.dev.on (SGT.P_STAT_LOCKED p) = false) ∧ t.dev.resp = .done) ∧
        (∀ edge second slots, Yields (exec (.tdmInputFrame p edge second slots) s) (fun t => RegsOnly [] s t))) ∧
      (s.dev.tdmEn p = true →
        Yields (exec (.sgtPortDisable p) s) (fun t =>
          t.dev.tdmEn p = false ∧ (∀ q, q < 6 → q ≠ p → t.dev.tdmEn q = s.dev.tdmEn q) ∧ (t.dev.tdm p).measured = 0 ∧
          t.dev.on (SGT.P_STAT_LOCKED p) = false ∧ t.dev.on (SGT.P_STAT_VALID p) = false ∧ t.dev.on (SGT.P_STAT_MUTED p) = true ∧
          tabGet false t.dev.snag.cause (384 + p) = false ∧ t.dev.resp = .done)) ∧
      (s.dev.tdmEn p = true → s.dev.fld (SGT.P_CFG_CLK p) = 1 →
        (s.dev.on (SGT.P_STAT_LOCKED p) = false →
          (∀ slots,
            Yields (exec (.tdmInputFrame p none false slots) s) (fun t => (t.dev.tdm p).measured = 0) ∧
            (∀ a, Yields (exec (.tdmInputFrame p (some a) true slots) s) (fun t => (t.dev.tdm p).measured = 0) ∧
              ((s.dev.tdm p).measured = 0 → Yields (exec (.tdmInputFrame p (some a) false slots) s) (fun t =>
                (t.dev.tdm p).measured = 1 ∧ (t.dev.tdm p).phase = a)) ∧
              ((s.dev.tdm p).measured ≠ 0 → Yields (exec (.tdmInputFrame p (some a) false slots) s) (fun t =>
                (t.dev.tdm p).measured = (if s.dev.samePhase a (s.dev.tdm p).phase then min 16 ((s.dev.tdm p).measured + 1) else 0))))) ∧
          ((s.dev.tdm p).measured = 16 → Yields (exec (.portLock p) s) (fun t =>
            t.dev.on (SGT.P_STAT_LOCKED p) = true ∧ tabGet false t.dev.snag.cause (384 + p) = false ∧
            RegsKept ((List.range 6).map (fun q => (SGT.P_STAT_LOCKED q).key)) s.dev t.dev)) ∧
          ((s.dev.tdm p).measured ≠ 16 → Yields (exec (.portLock p) s) (fun t => RegsOnly [] s t))) ∧
        (s.dev.on (SGT.P_STAT_LOCKED p) = true → ∀ edge second slots,
          edge = none ∨ second = true ∨ (∃ a, edge = some a ∧ s.dev.samePhase a (s.dev.tdm p).phase = false) →
            Yields (exec (.tdmInputFrame p edge second slots) s) (fun t =>
              t.dev.on (SGT.P_STAT_LOCKED p) = false ∧ t.dev.fld (SGT.P_STAT_CLKFAULTS p) = min 65535 (s.dev.fld (SGT.P_STAT_CLKFAULTS p) + 1) ∧
              (t.dev.tdm p).measured = 0 ∧ t.dev.isSet (384 + p) = true ∧ tabGet false t.dev.snag.cause (384 + p) = true))) ∧
      (∀ a slots c, s.dev.tdmEn p = true →
        s.dev.fld (SGT.P_CFG_CLK p) = 0 ∨
          (s.dev.fld (SGT.P_CFG_CLK p) = 1 ∧ s.dev.on (SGT.P_STAT_LOCKED p) = true ∧ s.dev.samePhase a (s.dev.tdm p).phase = true) →
        c < 128 → s.dev.on (SGT.IN_EN c) = true → s.dev.fld (SGT.IN_TYPE c) = 0 → s.dev.fld (SGT.IN_UNIT c) = p →
        s.dev.fld (SGT.IN_SLOT c) ≤ s.dev.fld (SGT.P_CFG_SLOTS_M1 p) → s.dev.fld (SGT.IN_LAG c) ≤ s.dev.gate.tick →
        Yields (exec (.tdmInputFrame p (some a) false slots) s) (fun t =>
          tabGet none t.dev.gate.inputs (inKey c (s.dev.gate.tick - s.dev.fld (SGT.IN_LAG c))) =
            some (signedOf 32 (slots.getD (s.dev.fld (SGT.IN_SLOT c)) 0)) ∧
          t.dev.fld (SGT.P_STAT_CLKFAULTS p) = s.dev.fld (SGT.P_STAT_CLKFAULTS p)))) ∧
    (∀ l, l < 16 →
      (∀ k, s.dev.reach .x = true → s.dev.aafMatches l k = true → Yields (exec (.avtpListenerPacket l k) s) (fun t =>
        t.dev.on (AVT.L_STAT_LOCKED l) = true ∧ tabGet false t.dev.snag.cause (392 + l) = false ∧
        tabGet 0 t.dev.gate.listenSeq l = (k.seq + 1) % 256 ∧ tabGet 0 t.dev.gate.listenAt l = s.dev.now ∧
        t.dev.fld (AVT.L_CNT_SEQ_GAP l) =
          (if s.dev.on (AVT.L_STAT_LOCKED l) = true ∧ tabGet 0 s.dev.gate.listenSeq l ≠ k.seq then min 65535 (s.dev.fld (AVT.L_CNT_SEQ_GAP l) + 1)
            else s.dev.fld (AVT.L_CNT_SEQ_GAP l)))) ∧
      (∀ k, s.dev.aafMatches l k = false → Yields (exec (.avtpListenerPacket l k) s) (fun t => RegsOnly [] s t)) ∧
      (s.dev.reach .x = true → bit (s.dev.fld AVT.CTRL_LIST_EN) l = true → tabGet false s.dev.snag.cause (392 + l) = false →
        (tabGet 0 s.dev.gate.listenAt l + msCycles 1 ≤ s.dev.now → Yields (exec (.avtStreamLost l) s) (fun t =>
          t.dev.on (AVT.L_STAT_LOCKED l) = false ∧ tabGet false t.dev.snag.cause (392 + l) = true ∧
          (Claims.Beats s.dev .x → Claims.Held t.dev .x (392 + l)) ∧ RegsKept [(AVT.L_STAT_LOCKED l).key] s.dev t.dev)) ∧
        (s.dev.now < tabGet 0 s.dev.gate.listenAt l + msCycles 1 → Yields (exec (.avtStreamLost l) s) (fun t => RegsOnly [] s t)))) ∧
    (s.dev.ladder.coreLost = false → tabGet false s.dev.snag.cause 7 = false → Yields (exec .sCoreLoss s) (fun t =>
      t.dev.ladder.coreLost = true ∧ t.dev.isSet 6 = true ∧ t.dev.on SNG.STAT_SAFE = true ∧
      (∀ p, p < 6 → t.dev.on (SGT.P_STAT_VALID p) = false ∧ t.dev.on (SGT.P_STAT_MUTED p) = true ∧ (t.dev.tdm p).forcedLow = true ∧
        (s.dev.on TWN.CTRL_PAIR = true → t.dev.on (SGT.P_STAT_DRIVING p) = false)) ∧
      (s.dev.on TWN.CTRL_PAIR = true → t.dev.on TWN.STAT_OWN_OUT = false))) ∧
    (s.dev.ladder.coreLost = true ∨ tabGet false s.dev.snag.cause 7 = true → Yields (exec .sCoreLoss s) (fun t => RegsOnly [] s t))

/-- Ethernet ports take, filter, protect and drop frames, answer for their address, adopt gate lists, and send the highest class that may
start. A link change shows in LINK and SPEED and sets or ends the cause of source 416 + p. Of received frames, bad ones are counted as
errors; good ones are counted, dropped and counted by MACsec or by the first matching filter, or handed on. A recovery history ends at
its timeout. Solicitations and, with ICMP_EN, echo requests for the own address queue one answer (log entry 120 for its length). GO with
a legal list waits for its cycle start, with an illegal one sets ERR and source 418 + p. A due list is adopted, and the end of an entry
puts the next in force. Preemption becomes active as verified. GO of MACsec installs an SA and clears the key registers; TX_AN selects.
The status timer sends each millisecond while stopped. Late status messages are counted, marked and reported. The first frame of the
highest class that may start leaves; with MACsec it takes a packet number, and an exhausted SA sends nothing and reports. -/
def Obligations.PortsReceiveGateProtectAndTransmit : Prop :=
  ∀ (s : State) (p : Nat), s.dev.dead = false → s.dev.memsys.writes = [] → p < 2 →
    (∀ up speed, speed < 4 → Yields (exec (.ethLinkChange p up speed) s) (fun t =>
      t.dev.on (ETH.P_STAT_LINK p) = up ∧ (up = false → t.dev.on (ETH.P_STAT_PRE_ACTIVE p) = false) ∧
      t.dev.fld (ETH.P_STAT_SPEED p) = (if up = false then 0 else if s.dev.fld (ETH.P_CFG_SPEED p) = 0 then speed else s.dev.fld (ETH.P_CFG_SPEED p) % 4) ∧
      tabGet false t.dev.snag.cause (416 + p) = (s.dev.portEn p && !up) ∧
      (s.dev.portEn p = true → up = false → Claims.Beats s.dev .x → Claims.Held t.dev .x (416 + p)) ∧
      RegsKept [(ETH.P_STAT_LINK p).key, (ETH.P_STAT_SPEED p).key, (ETH.P_STAT_PRE_ACTIVE p).key] s.dev t.dev)) ∧
    (s.dev.portUp p = true → ∀ x : RxFrame,
      (x.fcsOk = false ∨ x.len < 64 ∨ s.dev.fld (ETH.P_CFG_MAXFRM p) < x.len → Yields (exec (.ethFrameReceived p x) s) (fun t =>
        t.dev.fld (ETH.P_RX_ERR_COUNT p) = min 4294967295 (s.dev.fld (ETH.P_RX_ERR_COUNT p) + 1) ∧ RegsOnly [(ETH.P_RX_ERR_COUNT p).key] s t)) ∧
      (x.fcsOk = true → 64 ≤ x.len → x.len ≤ s.dev.fld (ETH.P_CFG_MAXFRM p) →
        (s.dev.on (ETH.P_MS_CTRL_EN p) = false →
          (s.dev.matchFilter (s.dev.classify x) = none → x.kind ≠ .pdelayReq ∨ s.dev.carriesPtp p = false → Yields (exec (.ethFrameReceived p x) s) (fun t =>
            t.dev.net.received = some (s.dev.classify x) ∧ t.dev.fld (ETH.P_RX_FRAMES_COUNT p) = min 4294967295 (s.dev.fld (ETH.P_RX_FRAMES_COUNT p) + 1) ∧
            Frame [(ETH.P_RX_FRAMES_COUNT p).key] (fun d => { d with resp := .idle, net := { d.net with received := none } }) s t)) ∧
          (s.dev.matchFilter (s.dev.classify x) = none → x.kind = .pdelayReq → s.dev.carriesPtp p = true → Yields (exec (.ethFrameReceived p x) s) (fun t =>
            t.dev.net.received = some (s.dev.classify x) ∧
            tabGet [] t.dev.net.queues (key2 p 7) = tabGet [] s.dev.net.queues (key2 p 7) ++ [gptpFrame 72, gptpFrame 72])) ∧
          (∀ f, s.dev.matchFilter (s.dev.classify x) = some f → s.dev.on (ETH.SF_ACT_GATE_OPEN f) = false ∨ s.dev.fld (ETH.SF_ACT_MAXSDU f) < x.sdu →
            Yields (exec (.ethFrameReceived p x) s) (fun t =>
              t.dev.net.received = s.dev.net.received ∧ t.dev.fld (ETH.SF_DROP_COUNT f) = min 4294967295 (s.dev.fld (ETH.SF_DROP_COUNT f) + 1) ∧
              (s.dev.listenerFrame x = true → Claims.Beats s.dev .x → Claims.Held t.dev .x 422)))) ∧
        (s.dev.on (ETH.P_MS_CTRL_EN p) = true → x.etherType ≠ 35063 → x.etherType ≠ 34958 → x.sec = none →
          Yields (exec (.ethFrameReceived p x) s) (fun t =>
            t.dev.net.received = s.dev.net.received ∧ t.dev.fld (ETH.P_MS_CNT_DROP p) = min 65535 (s.dev.fld (ETH.P_MS_CNT_DROP p) + 1))))) ∧
    (∀ r c, tabGet none s.dev.net.hist r = some c → s.dev.on (ETH.CBR_CFG_EN r) = true →
      (c.at_ + msCycles (s.dev.fld (ETH.CBR_CFG_TIMEOUT r)) ≤ s.dev.now → Yields (exec (.cbRecoveryTimeout r) s) (fun t =>
        tabGet none t.dev.net.hist r = none ∧ Frame [] (fun d => { d with resp := .idle, net := { d.net with hist := [] } }) s t)) ∧
      (s.dev.now < c.at_ + msCycles (s.dev.fld (ETH.CBR_CFG_TIMEOUT r)) → Yields (exec (.cbRecoveryTimeout r) s) (fun t => RegsOnly [] s t))) ∧
    (s.dev.portUp p = true → ∀ v6 target body,
      (s.dev.ownAddr v6 target = true →
        Yields (exec (.neighbourSolicitation p v6 target) s) (fun t =>
          tabGet [] t.dev.net.queues (key2 p (s.dev.fld ETH.IP_CFG_PCP)) = tabGet [] s.dev.net.queues (key2 p (s.dev.fld ETH.IP_CFG_PCP)) ++
            [⟨beBytes 6 (s.dev.mac p), s.dev.frameLen p (if v6 then 72 else 28), none, false, false, none, s.dev.cmdTag, none, none⟩] ∧
          Frame [] (fun d => { d with resp := .idle, net := { d.net with queues := [], credit := [], creditAt := [] } }) s t) ∧
        (s.dev.on ETH.IP_CFG_ICMP_EN = true → Yields (exec (.echoRequest p v6 target body) s) (fun t =>
          tabGet [] t.dev.net.queues (key2 p (s.dev.fld ETH.IP_CFG_PCP)) = tabGet [] s.dev.net.queues (key2 p (s.dev.fld ETH.IP_CFG_PCP)) ++
            [⟨body, s.dev.frameLen p (body.length + (if v6 then 48 else 28)), none, false, false, none, s.dev.cmdTag, none, none⟩] ∧
          Frame [] (fun d => { d with resp := .idle, net := { d.net with queues := [], credit := [], creditAt := [] } }) s t)) ∧
        (s.dev.on ETH.IP_CFG_ICMP_EN = false → Yields (exec (.echoRequest p v6 target body) s) (fun t => RegsOnly [] s t))) ∧
      (s.dev.ownAddr v6 target = false → Yields (exec (.neighbourSolicitation p v6 target) s) (fun t => RegsOnly [] s t) ∧
        Yields (exec (.echoRequest p v6 target body) s) (fun t => RegsOnly [] s t))) ∧
    (s.dev.reach .x = true →
      (∀ n cycle, n = s.dev.fld (ETH.P_GATE_CTRL_ADMIN_LEN p) → cycle = s.dev.fld (ETH.P_GATE_CYCLE_CYCLE p) →
        (1 ≤ n ∧ n ≤ 256 ∧ 1000 ≤ cycle ∧ cycle ≤ 1000000000 → Yields (exec (.gateControlGo p) s) (fun t =>
          t.dev.on (ETH.P_GATE_STAT_PENDING p) = true ∧ t.dev.on (ETH.P_GATE_STAT_ERR p) = false ∧
          tabGet none t.dev.net.change p = some (s.dev.gateStart p) ∧ t.dev.resp = .done)) ∧
        (¬ (1 ≤ n ∧ n ≤ 256 ∧ 1000 ≤ cycle ∧ cycle ≤ 1000000000) → Yields (exec (.gateControlGo p) s) (fun t =>
          t.dev.on (ETH.P_GATE_STAT_ERR p) = true ∧ (Claims.Beats s.dev .x → Claims.Held t.dev .x (418 + p)) ∧ t.dev.resp = .done ∧
          t.dev.net.change = s.dev.net.change ∧ RegsKept [(ETH.P_GATE_STAT_ERR p).key] s.dev t.dev))) ∧
      (∀ k, k = tabGet 0 s.dev.net.keySel p → k < 20 → Yields (exec (.macsecInstall p) s) (fun t =>
        t.dev.sa p k = some ⟨(List.range 8).map (s.dev.keyReg p), (List.range 3).map (fun i => s.dev.keyReg p (8 + i)), s.dev.keyReg p 11,
          s.dev.keyReg p 12 + 4294967296 * s.dev.keyReg p 13, 0⟩ ∧
        (∀ i, i < 14 → t.dev.keyReg p i = 0) ∧ bit (t.dev.fld (ETH.P_MS_SA_STAT_VALID p)) k = true ∧ t.dev.resp = .done ∧
        RegsKept [(ETH.P_MS_SA_STAT_VALID p).key] s.dev t.dev)) ∧
      (∀ an, an < 4 → Yields (exec (.txAnSelect p an) s) (fun t =>
        t.dev.fld (ETH.P_MS_CTRL_TX_AN p) = an ∧ t.dev.resp = .done ∧ RegsOnly [(ETH.P_MS_CTRL_TX_AN p).key] s t)) ∧
      (∀ l, l = tabGet .none s.dev.net.oper p → l.entries ≠ [] →
        (gateEnd l ≤ s.dev.gateNow l.tb → ∀ i, i = (if l.index + 1 < l.entries.length then l.index + 1 else 0) →
          Yields (exec (.gateEntryIntervalEnd p) s) (fun t =>
            (tabGet .none t.dev.net.oper p).index = i ∧ tabGet 255 t.dev.net.gates p = (l.entries.getD i (255, 0)).1 ∧ RegsKept [] s.dev t.dev)) ∧
        (s.dev.gateNow l.tb < gateEnd l → Yields (exec (.gateEntryIntervalEnd p) s) (fun t => RegsOnly [] s t))) ∧
      (s.dev.running = false → s.dev.cmd.held = none → s.dev.cmd.statusAt + msCycles 1 ≤ s.dev.now → Yields (exec .safetyStatusTimer s) (fun t =>
        t.dev.cmd.statusAt = s.dev.now ∧
        (s.dev.cmd.outbox = [] → ∀ i, i < 4 → s.dev.on (ETH.SD_CFG_EN i) = true →
          ∃ m ∈ t.dev.cmd.outbox, m.opcode = 14 ∧ m.session = 0 ∧ m.dest = i ∧ m.at_ = s.dev.now)))) ∧
    Yields (exec .safetyStatusTimer s) (fun t => RegsOnly [] s t) ∧
    (∀ at_, tabGet none s.dev.net.change p = some at_ →
      (at_ ≤ s.dev.gateNow (s.dev.fld (ETH.P_GATE_CTRL_TBSEL p)) →
        ∀ es, es = fitList (s.dev.adminList p) (s.dev.fld (ETH.P_GATE_CYCLE_CYCLE p)) → Yields (exec (.gateListAdopt p) s) (fun t =>
          t.dev.on (ETH.P_GATE_STAT_PENDING p) = false ∧ t.dev.fld (ETH.P_GATE_STAT_OPER_LEN p) = es.length % 512 ∧
          tabGet none t.dev.net.change p = none ∧ (tabGet .none t.dev.net.oper p).entries = es ∧
          tabGet 255 t.dev.net.gates p = (es.getD 0 (255, 0)).1)) ∧
      (s.dev.gateNow (s.dev.fld (ETH.P_GATE_CTRL_TBSEL p)) < at_ → Yields (exec (.gateListAdopt p) s) (fun t => RegsOnly [] s t))) ∧
    (s.dev.portUp p = true →
      (s.dev.on (ETH.P_PRE_EN p) = true → ∀ ok, Yields (exec (.preemptionVerify p ok) s) (fun t =>
        t.dev.on (ETH.P_STAT_PRE_ACTIVE p) = (ok || !s.dev.on (ETH.P_PRE_VERIFY p)) ∧ RegsOnly [(ETH.P_STAT_PRE_ACTIVE p).key] s t)) ∧
      (∀ n, n = ((tabGet [] s.dev.drainOutbox.net.queues (key2 p 7)).filter (lateFrame s.dev.now)).length → 0 < n →
        Yields (exec (.ethStatusLate p) s) (fun t =>
          t.dev.fld ETH.STATUS_STAT_LATE = min 65535 (s.dev.fld ETH.STATUS_STAT_LATE + n) ∧ (Claims.Beats s.dev .x → Claims.Held t.dev .x 424) ∧
          (tabGet [] t.dev.net.queues (key2 p 7)).length = (tabGet [] s.dev.drainOutbox.net.queues (key2 p 7)).length ∧
          ∀ f ∈ tabGet [] t.dev.net.queues (key2 p 7), lateFrame s.dev.now f = false)) ∧
      (∀ d, d = (s.dev.drainOutbox.pdelayRequest p).credits p →
        ((∀ c, c < 8 → d.mayStart p c = false) → Yields (exec (.ethFrameTransmit p) s) (fun t =>
          t.dev.net.queues = d.net.queues ∧ RegsKept [] s.dev t.dev)) ∧
        (∀ c f rest, c < 8 → d.mayStart p c = true → (∀ b, c < b → b < 8 → d.mayStart p b = false) →
          tabGet [] d.net.queues (key2 p c) = f :: rest →
          (f.plain = true ∨ s.dev.on (ETH.P_MS_CTRL_EN p) = false → Yields (exec (.ethFrameTransmit p) s) (fun t =>
            tabGet [] t.dev.net.queues (key2 p c) = rest ∧ t.dev.fld (ETH.P_TX_FRAMES_COUNT p) = min 4294967295 (s.dev.fld (ETH.P_TX_FRAMES_COUNT p) + 1) ∧
            RegsKept [(ETH.P_TX_FRAMES_COUNT p).key, ETH.STATUS_STAT_MAXLAT.key] s.dev t.dev)) ∧
          (f.plain = false → s.dev.on (ETH.P_MS_CTRL_EN p) = true →
            ∀ x an, an = s.dev.fld (ETH.P_MS_CTRL_TX_AN p) → s.dev.sa p an = some x →
            (x.pn < 18446744069414584320 → Yields (exec (.ethFrameTransmit p) s) (fun t =>
              tabGet [] t.dev.net.queues (key2 p c) = rest ∧ t.dev.sa p an = some { x with pn := x.pn + 1 } ∧ tabGet false t.dev.net.txStopped p = false)) ∧
            (18446744069414584320 ≤ x.pn → tabGet false s.dev.net.txStopped p = false → Yields (exec (.ethFrameTransmit p) s) (fun t =>
              t.dev.net.queues = d.net.queues ∧ tabGet false t.dev.net.txStopped p = true ∧ (Claims.Beats s.dev .x → Claims.Held t.dev .x (420 + p)))))))
)

/-- A read of TIM_TB_NS[i] latches the whole value of time base i, and the reads of the seconds return what was last latched. For each time
base i, and any master that reaches the X-die: a read of TIM_TB_NS[i], as the command or on the bus, returns the nanoseconds and latches
the seconds of the value that the time base has in that cycle; reads of TIM_TB_SEC_LO[i] and TIM_TB_SEC_HI[i] return bits 31:0 and 47:32
of the latched seconds, without a preceding read those last latched, and change nothing. No register field changes, and the value of the
time base stays. The read of a pair waits, and latches nothing, while an instruction of the pair is not compared yet. A master that does
not reach the X-die gets an error response. -/
def Obligations.TimeBaseReadsLatchTheSeconds : Prop :=
  ∀ (s : State) (i mid : Nat), s.dev.dead = false → s.dev.memsys.writes = [] → s.dev.reach .x = true → i < 4 →
    (s.dev.access mid .x = false → Yields (exec (.tbLatchRead ⟨mid, i⟩) s) (fun t => t.dev.resp = .error ∧ RegsOnly [] s t)) ∧
    (s.dev.access mid .x = true →
      ((s.dev.compares mid && (s.dev.pairOf mid).uncompared) = true → Yields (exec (.tbLatchRead ⟨mid, i⟩) s) (fun t =>
        t.dev.resp = .idle ∧ t.dev.time = s.dev.time ∧ (t.dev.pairOf mid).loads = (s.dev.pairOf mid).loads ++ [TIM.TB_NS i] ∧ RegsKept [] s.dev t.dev)) ∧
      ((s.dev.compares mid && (s.dev.pairOf mid).uncompared) = false →
        Yields (exec (.tbLatchRead ⟨mid, i⟩) s) (fun t =>
          t.dev.resp = .value (s.dev.tb i).val.ns ∧ (t.dev.tbAt i).latched = (s.dev.tb i).val.sec ∧ (t.dev.tb i).val = (s.dev.tb i).val ∧
          Frame [] (fun d => { d with resp := .idle, cores := .reset, time := { d.time with tbs := [] } }) s t) ∧
        (s.dev.busRead mid (TIM.TB_NS i) 4).resp = .value (s.dev.tb i).val.ns ∧
        ((s.dev.busRead mid (TIM.TB_NS i) 4).tbAt i).latched = (s.dev.tb i).val.sec) ∧
      (∀ f, (s.dev.busRead mid (TIM.TB_NS i) 4).fld f = s.dev.fld f) ∧
      s.dev.busRead mid (TIM.TB_SEC_LO i) 4 = s.dev.answer (.value ((s.dev.tbAt i).latched % 4294967296)) ∧
      s.dev.busRead mid (TIM.TB_SEC_HI i) 4 = s.dev.answer (.value ((s.dev.tbAt i).latched / 4294967296 % 65536)))

/-- Time bases step, follow their source, hold or switch at its loss and revert, captures queue, and SYNC edges come at their instants. A
step of a FREE time base adds its nanoseconds to both copies, and is discarded with source 0 set otherwise. A capture appends the value
of its time base, or is counted and reported when 16 wait; reads latch and remove the oldest. A SYNC edge whose instant has come is
placed. A Sync and an Announce of an enabled instance are recorded, with the latencies of the PHYs and a timestamp error of at most 4
ns, a free value (log entry 120), one that meets R345 makes it valid, another grandmaster counts a change and starts the Syncs anew; an
injected loss takes one Sync. A loss of validity sets source 426 + i, and each time base that follows the instance switches to the other
where SRC allows it, it is valid and the difference is known, or goes to HOLDOVER. A due revert returns to the primary source. A write
of TIM_TB_CFG puts a tracked SRC into ACQUIRE, and a reserved SRC is rejected. -/
def Obligations.TimeBasesFollowStepAndCapture : Prop :=
  ∀ s : State, s.dev.dead = false → s.dev.memsys.writes = [] →
    (∀ i v, i < 4 → s.dev.reach .x = true →
      (s.dev.fld (TIM.TB_CFG_SRC i) ≠ 0 ∨ s.dev.stepForbidden i = true → Yields (exec (.timTbStep i v) s) (fun t =>
        t.dev.resp = .discarded ∧ t.dev.isSet 0 = true ∧ t.dev.time = s.dev.time)) ∧
      (s.dev.fld (TIM.TB_CFG_SRC i) = 0 → s.dev.stepForbidden i = false →
        (s.dev.fld TIM.CTRL_MODE = 0 → i ≠ 0 → Yields (exec (.timTbStep i v) s) (fun t => t.dev.resp = .done ∧ RegsOnly [] s t)) ∧
        (s.dev.fld TIM.CTRL_MODE ≠ 0 ∨ i = 0 → Yields (exec (.timTbStep i v) s) (fun t =>
          (t.dev.tb i).val = tmAdd (s.dev.tb i).val (signedOf 32 v * 4294967296) ∧
          (t.dev.tbAt i).copy = tmAdd (s.dev.tbAt i).copy (signedOf 32 v * 4294967296) ∧
          (s.dev.fld TIM.CTRL_MODE = 0 → ∀ j, j < 4 → (t.dev.tbAt j).val = (t.dev.tbAt i).val) ∧
          (s.dev.fld TIM.CTRL_MODE ≠ 0 → ∀ j, j ≠ i → t.dev.tbAt j = s.dev.tbAt j) ∧ t.dev.resp = .done ∧
          Frame [] (fun d => { d with resp := .idle, time := { d.time with tbs := [], syncs := [] } }) s t))) ∧
      (v % 8 < 5 → Yields (exec (.timeBaseSrcWrite i v) s) (fun t =>
        t.dev.fld (TIM.TB_CFG_SRC i) = v % 8 ∧ t.dev.fld (TIM.TB_CFG_REVERT_S i) = v / 256 % 65536 ∧ t.dev.on (TIM.TB_STAT_ON_ALT i) = false ∧
        t.dev.fld (TIM.TB_STAT_STATE i) = (if v % 8 = 0 then 0 else 1) ∧ (t.dev.tbAt i).held = 0 ∧ (t.dev.tbAt i).mayStep = (v % 8 != 0) ∧
        (t.dev.tbAt i).val = (s.dev.tbAt i).val ∧ t.dev.resp = .done)) ∧
      (5 ≤ v % 8 → Yields (exec (.timeBaseSrcWrite i v) s) (fun t => t.dev.resp = .rejected ∧ RegsOnly [] s t))) ∧
    (∀ i, i < 4 →
      (s.dev.revertDue i = true → Yields (exec (.timeBaseRevert i) s) (fun t =>
        t.dev.on (TIM.TB_STAT_ON_ALT i) = false ∧ (t.dev.tbAt i).held = 0 ∧ (t.dev.tbAt i).val = (s.dev.tbAt i).val ∧
        Frame [(TIM.TB_STAT_ON_ALT i).key] (fun d => { d with resp := .idle, time := { d.time with tbs := [] } }) s t)) ∧
      (s.dev.revertDue i = false → Yields (exec (.timeBaseRevert i) s) (fun t => RegsOnly [] s t))) ∧
    (∀ c, c < 4 →
      (bit s.dev.power.lost 2 = false → ∀ rise ns, s.dev.on (TIM.CAP_CFG_EN c) = true →
        bit (s.dev.fld (TIM.CAP_CFG_EDGE c)) (if rise then 0 else 1) = true → 16 ≤ ns →
        ((s.dev.caps c).length < 16 → ∀ v, v = (s.dev.tb (s.dev.fld (TIM.CAP_CFG_TBSEL c))).val →
          Yields (exec (.captureEdge c rise ns) s) (fun t =>
            t.dev.caps c = s.dev.caps c ++ [⟨rise, v.sec, v.ns⟩] ∧ t.dev.fld (TIM.CAP_STAT_COUNT c) = (s.dev.caps c).length + 1 ∧
            Frame [(TIM.CAP_STAT_COUNT c).key] (fun d => { d with resp := .idle, time := { d.time with caps := [] } }) s t)) ∧
        (16 ≤ (s.dev.caps c).length → Yields (exec (.captureEdge c rise ns) s) (fun t =>
          t.dev.caps c = s.dev.caps c ∧ t.dev.fld (TIM.CAP_STAT_OVF c) = min 65535 (s.dev.fld (TIM.CAP_STAT_OVF c) + 1) ∧
          (Claims.Beats s.dev .x → Claims.Held t.dev .x 435)))) ∧
      (∀ rise ns, s.dev.on (TIM.CAP_CFG_EN c) = false ∨ ns < 16 → Yields (exec (.captureEdge c rise ns) s) (fun t => RegsOnly [] s t)) ∧
      (s.dev.reach .x = true → ∀ mid, s.dev.access mid .x = true → (s.dev.compares mid && (s.dev.pairOf mid).uncompared) = false →
        (∀ e es, s.dev.caps c = e :: es → es.length < 16 →
          Yields (exec (.capNsRead ⟨mid, c⟩) s) (fun t =>
            t.dev.resp = .value (2147483648 + 1073741824 * (if e.rise then 1 else 0) + e.ns) ∧
            tabGet ⟨false, 0, 0⟩ t.dev.time.capLatch c = e ∧ t.dev.caps c = s.dev.caps c ∧ RegsKept [] s.dev t.dev) ∧
          Yields (exec (.capSecHiRead ⟨mid, c⟩) s) (fun t =>
            t.dev.resp = .value ((tabGet ⟨false, 0, 0⟩ s.dev.time.capLatch c).sec / 4294967296 % 65536) ∧ t.dev.caps c = es ∧
            t.dev.fld (TIM.CAP_STAT_COUNT c) = es.length)) ∧
        (s.dev.caps c = [] → Yields (exec (.capNsRead ⟨mid, c⟩) s) (fun t =>
          t.dev.resp = .value 0 ∧ Frame [] (fun d => { d with resp := .idle, cores := .reset }) s t)))) ∧
    (∀ o, o < 4 → bit s.dev.power.lost 2 = false → ∀ x, x = tabGet ⟨0, false⟩ s.dev.time.syncs o →
      (∀ at_, s.dev.syncInstant o x.next = some at_ →
        (at_ ≤ tmNs (s.dev.tb (s.dev.fld (TIM.SYNC_CFG_TBSEL o))).val → Yields (exec (.syncEdge o) s) (fun t =>
          tabGet ⟨0, false⟩ t.dev.time.syncs o = ⟨x.next + 1, x.next % 2 == 0⟩ ∧
          Frame [] (fun d => { d with resp := .idle, time := { d.time with syncs := [] } }) s t)) ∧
        (tmNs (s.dev.tb (s.dev.fld (TIM.SYNC_CFG_TBSEL o))).val < at_ → Yields (exec (.syncEdge o) s) (fun t => RegsOnly [] s t))) ∧
      (s.dev.syncInstant o x.next = none → Yields (exec (.syncEdge o) s) (fun t => RegsOnly [] s t))) ∧
    (∀ i, i < 2 → bit s.dev.power.lost 2 = false →
      (s.dev.on (TIM.PTP_CFG_EN i) = false → ∀ n r gap gm,
        Yields (exec (.ptpSync i n r gap) s) (fun t => Frame [] (fun d => { d with resp := .idle, free := 0 }) s t) ∧ Yields (exec (.ptpAnnounce i gm gap) s) (fun t => RegsOnly [] s t)) ∧
      (s.dev.on (TIM.PTP_CFG_EN i) = true → ∀ n r gap, syncGapOk gap = true →
        (i = 1 ∨ s.dev.time.loseSync = false → ∀ at_, at_ = s.dev.syncTime i n s.dev.stampError.1 →
          ∀ x : PtpInst, x = { s.dev.ptp i with
            syncs := min 16 ((s.dev.ptp i).syncs + 1), syncAt := s.dev.now, syncGap := gap, time := at_, rate := r } →
          Yields (exec (.ptpSync i n r gap) s) (fun t =>
            (t.dev.ptp i).syncs = x.syncs ∧ (t.dev.ptp i).syncAt = s.dev.now ∧ (t.dev.ptp i).syncGap = gap ∧ (t.dev.ptp i).time = at_ ∧
            (t.dev.ptp i).rate = r ∧
            ((s.dev.putPtp i x).ptpGood i = true → t.dev.on (TIM.PTP_STAT_VALID i) = true))) ∧
        (i = 0 → s.dev.time.loseSync = true → Yields (exec (.ptpSync i n r gap) s) (fun t =>
          t.dev.time.loseSync = false ∧ t.dev.on TIM.INJ_ARM = false ∧ t.dev.time.ptp = s.dev.time.ptp))) ∧
      (s.dev.on (TIM.PTP_CFG_EN i) = true → ∀ gm gap old,
        old = s.dev.fld (TIM.PTP_GM_LO_GM i) + 4294967296 * s.dev.fld (TIM.PTP_GM_HI_GM i) → Yields (exec (.ptpAnnounce i gm gap) s) (fun t =>
          (t.dev.ptp i).known = true ∧ (t.dev.ptp i).annAt = s.dev.now ∧ (t.dev.ptp i).annGap = gap ∧
          (t.dev.ptp i).syncs = (if (s.dev.ptp i).known = true ∧ old = gm then (s.dev.ptp i).syncs else 0) ∧
          t.dev.fld (TIM.PTP_GM_LO_GM i) = gm % 4294967296 ∧ t.dev.fld (TIM.PTP_GM_HI_GM i) = gm / 4294967296 % 4294967296 ∧
          t.dev.fld (TIM.PTP_STAT_GM_CHANGES i) =
            (if (s.dev.ptp i).known = true ∧ old ≠ gm then min 65535 (s.dev.fld (TIM.PTP_STAT_GM_CHANGES i) + 1)
              else s.dev.fld (TIM.PTP_STAT_GM_CHANGES i)))) ∧
      (∀ x : PdelayTimes, Yields (exec (.pdelay i x) s) (fun t =>
        tabGet none t.dev.time.linkDelay i = some (s.dev.linkDelayOf i x s.dev.stampError.1)))) ∧
    (∀ i, i < 2 →
      (s.dev.on (TIM.PTP_STAT_VALID i) = true → s.dev.ptpGood i = false → Yields (exec (.timSyncLoss i) s) (fun t =>
        t.dev.on (TIM.PTP_STAT_VALID i) = false ∧ tabGet false t.dev.snag.cause (426 + i) = true ∧
        (Claims.Beats s.dev .x → Claims.Held t.dev .x (426 + i)) ∧
        (∀ b ∈ s.dev.ownTbs, s.dev.follows b = some i →
          ((s.dev.fallbackInst b = none ∨ s.dev.deltaHeld = none ∨ s.dev.on (TIM.PTP_STAT_VALID (1 - i)) = false) →
            t.dev.fld (TIM.TB_STAT_STATE b) = 3 ∧ tabGet false t.dev.snag.cause (429 + b) = true) ∧
          (∀ delta, s.dev.fallbackInst b = some (1 - i) → s.dev.deltaHeld = some delta → s.dev.on (TIM.PTP_STAT_VALID (1 - i)) = true →
            t.dev.fld (TIM.TB_STAT_STATE b) = 1 ∧ t.dev.follows b = some (1 - i) ∧ (t.dev.tbAt b).held = (if i = 0 then -delta else delta) ∧
            (Claims.Beats s.dev .x → Claims.Held t.dev .x 428))))) ∧
      (s.dev.on (TIM.PTP_STAT_VALID i) = false ∨ s.dev.ptpGood i = true → Yields (exec (.timSyncLoss i) s) (fun t => RegsOnly [] s t)))

namespace Sys2Proof.Claims

/-- No Topcoat stands in the flashes, and the environment puts none there: boot applies no overlay (R461). -/
def NoTopcoat (d : Dev) (env : BootEnv) : Prop := (∀ k, tabGet [] d.boot.flashTc k = []) ∧ env.flashTc = none

/-- The state in which a reset with a cause leaves a device whose boot applies no overlay: the safe state holds with SAFE_OK low, boot is not
done, the seal is open, maintenance and debug are closed, no session is open, every watch is IDLE, and memory is empty. -/
def Rebooted (cause : Nat) (s t : State) : Prop :=
  t.dev.fld WDG.RESET_CAUSE_CAUSE = cause % 2 ^ WDG.RESET_CAUSE_CAUSE.width ∧ t.dev.on SNG.STAT_SAFE = true ∧ t.dev.on SNG.STAT_SAFE_OK = false ∧
  t.dev.on SEC.STATE_BOOT_DONE = false ∧ t.dev.on SEC.STATE_SEALED = false ∧ t.dev.on SEC.STATE_MAINT = false ∧
  t.dev.on SEC.STATE_DEBUG_OPEN = false ∧ (∀ n, t.dev.session n = none) ∧ (∀ w, t.dev.watchOf w = Watch.idle) ∧ (∀ a, t.mem.byte a = 0) ∧
  t.pending = s.pending ∧ t.dev.now = s.dev.now

end Sys2Proof.Claims

/-- Every reset boots the device into the safe state with its own cause, and a warm restart counts. On a device without Topcoat: a power-on
reset (with or without supply before it) has cause 0 and every die has supply; a due restart by command has the command's cause, the
ladder's restart its recorded cause, WRST_n with WRST_EN 1 cause 5, the recovery of S_CORE cause 4, the closing or the expiry of debug
cause 3. Each leaves the safe state in force, boot not done, no session, every watch IDLE and memory empty, and every warm restart adds
one to the restart count. Where the condition does not hold (no restart due, WRST_EN 0, S_CORE not lost, debug not expired) nothing
changes. That memory is empty after boot is the model's choice (log entry 7). -/
def Obligations.ResetsBootTheDevice : Prop :=
  ∀ (s : State) (env : BootEnv), Claims.NoTopcoat s.dev env →
    Yields (exec (.powerOnReset env) s) (fun t => Claims.Rebooted 0 s t ∧ t.dev.power.lost = 0) ∧
    (s.dev.dead = false →
      (s.dev.snag.restart = none →
        (∀ due cause, s.dev.cmd.restartAt = some (due, cause) → due ≤ s.dev.now → Yields (exec (.warmRestart env) s) (fun t =>
          Claims.Rebooted cause s t ∧
          t.dev.fld PWR.RST_CNT_COUNT = satAdd (2 ^ PWR.RST_CNT_COUNT.width - 1) (s.dev.fld PWR.RST_CNT_COUNT % 2 ^ PWR.RST_CNT_COUNT.width) 1)) ∧
        (s.dev.on PWR.RST_WRST_EN = true → Yields (exec (.wrstPin env) s) (fun t => Claims.Rebooted 5 s t)) ∧
        (s.dev.ladder.coreLost = true → Yields (exec (.sCoreRecovery env) s) (fun t => Claims.Rebooted 4 s t)) ∧
        (∀ mid, trusted mid = true → s.dev.on SEC.STATE_DEBUG_OPEN = true →
          Yields (exec (.debugClose mid env) s) (fun t => Claims.Rebooted 3 s t)) ∧
        (∀ u, s.dev.boot.debugUntil = some u → u ≤ s.dev.now → Yields (exec (.debugExpire env) s) (fun t => Claims.Rebooted 3 s t))) ∧
      (∀ r, s.dev.snag.restart = some r → r.due ≤ s.dev.now →
        Yields (exec (.restartDelayExpiry env) s) (fun t => Claims.Rebooted r.cause s t)) ∧
      (s.dev.cmd.restartAt = none → exec (.warmRestart env) s = .next s) ∧ (s.dev.snag.restart = none → exec (.restartDelayExpiry env) s = .next s) ∧
      (s.dev.on PWR.RST_WRST_EN = false → exec (.wrstPin env) s = .next s) ∧ (s.dev.ladder.coreLost = false → exec (.sCoreRecovery env) s = .next s) ∧
      (s.dev.boot.debugUntil = none → exec (.debugExpire env) s = .next s))

/-- A device of which no owner slot is programmed halts its boot with code 3 and releases the xSPI pins 10 ms later. A power-on reset of a
device with blank fuses, in an environment that names none as blown, halts at the end of step 1 with HALT 3; 10 ms after a halt the xSPI
pins are released, and not before. That the missing owner slot halts boot at the end of step 1 is the model's reading (log entry 46). -/
def Obligations.BootWithoutOwnerHalts : Prop :=
  (∀ (s : State) (env : BootEnv), s.dev.boot.fuses = .blank → env.fuses = .blank →
    Yields (exec (.powerOnReset env) s) (fun t =>
      t.dev.fld SEC.BOOT_STAT_HALT = 3 ∧ t.dev.boot.haltAt = some s.dev.now ∧ t.dev.on SEC.STATE_BOOT_DONE = false)) ∧
  (∀ (s : State) (h : Nat), s.dev.dead = false → s.dev.memsys.writes = [] → s.dev.boot.haltAt = some h → Yields (exec .xspiRelease s) (fun t =>
    t.dev.boot.xspiReleased = (decide (h + msCycles 10 ≤ s.dev.now) || s.dev.boot.xspiReleased) ∧
    Frame [] (fun d => { d with boot := { d.boot with xspiReleased := false } }) s t))

/-- BOOT_DONE by firmware is done once per boot: it locks the seal and completes the measurement. By master 0 or 1, with boot running and
not done, BOOT_DONE sets BOOT_DONE and SEALED, and M takes the hash of M with one byte 1; a trial that is open and in time passes: TRIAL
is 0 and the advance of the fused step waits for the next RESUME. A second BOOT_DONE is discarded and sets source 0. A master that is
not trusted gets an error response and changes nothing. -/
def Obligations.BootDoneLocksTheSeal : Prop :=
  ∀ (s : State) (mid : Nat), s.dev.dead = false → s.dev.memsys.writes = [] →
    (mid ≤ 1 → s.dev.boot.haltAt = none →
      (s.dev.on SEC.STATE_BOOT_DONE = false → Yields (exec (.bootDone mid) s) (fun t =>
        t.dev.on SEC.STATE_BOOT_DONE = true ∧ t.dev.on SEC.STATE_SEALED = true ∧ t.dev.resp = .done ∧
        (∀ i, i < 16 → t.dev.fld (SEC.MEASURE_M i) = leAt (shaBytes (s.dev.measure ++ [1])) (4 * i) 4 % 2 ^ 32) ∧
        (s.dev.trialOpen = true → s.dev.trialLate = false → t.dev.on SEC.BOOT_SEL_TRIAL = false ∧ t.dev.boot.arbDue = true))) ∧
      (s.dev.on SEC.STATE_BOOT_DONE = true → Yields (exec (.bootDone mid) s) (fun t =>
        t.dev.resp = .discarded ∧ t.dev.isSet 0 = true ∧ t.dev.on SEC.STATE_SEALED = s.dev.on SEC.STATE_SEALED))) ∧
    (trusted mid = false → Yields (exec (.bootDone mid) s) (fun t => t.dev.resp = .error ∧ RegsOnly [] s t))

/-- Slot selection, a failed trial, the token challenge, the fused step and the entropy test. SEC_BOOT_SEL by a trusted master gives NEXT
and TRIAL their bits; a trial that is late without BOOT_DONE returns NEXT to the previous slot, clears TRIAL, and the revert is reported
at the next boot; NEW_CHAL draws eight words of the DRBG; ARB_ADVANCE in maintenance blows every fuse bit below the running step in both
copies, or sets source 522 where a blow does not read back, and outside maintenance it is discarded; an entropy test that passes sets
ENTROPY_OK and ends the cause of source 518, and one that fails clears it, sets the source and stops every build of tables. Other
masters get an error response. Each leaves every other register field alone, but those of the fault log and, for the entropy test, those
of the rebuilds. -/
def Obligations.SlotsTokensFusesAndEntropy : Prop :=
  ∀ (s : State) (mid v : Nat), s.dev.dead = false → s.dev.memsys.writes = [] →
    (trusted mid = true → Yields (exec (.secBootSelWrite mid v) s) (fun t =>
      t.dev.fld SEC.BOOT_SEL_NEXT = v % 2 ∧ t.dev.on SEC.BOOT_SEL_TRIAL = bit v 8 ∧ t.dev.resp = .done ∧
      RegsKept [SEC.BOOT_SEL_NEXT.key, SEC.BOOT_SEL_TRIAL.key] s.dev t.dev)) ∧
    (s.dev.trialOpen = true → s.dev.boot.haltAt = none → s.dev.trialLate = true → Yields (exec .trialTimeout s) (fun t =>
      t.dev.fld SEC.BOOT_SEL_NEXT = s.dev.boot.previous % 2 ∧ t.dev.on SEC.BOOT_SEL_TRIAL = false ∧ t.dev.boot.revertDue = true ∧
      RegsKept [SEC.BOOT_SEL_NEXT.key, SEC.BOOT_SEL_TRIAL.key] s.dev t.dev)) ∧
    (trusted mid = true → Yields (exec (.newChal mid) s) (fun t =>
      (∀ i, i < 8 → t.dev.fld (SEC.TOKEN_CHAL_CHAL i) = Config.drbg (s.dev.drbg + i) % 2 ^ 32) ∧ t.dev.drbg = s.dev.drbg + 8 ∧
      t.dev.resp = .done ∧ RegsKept ((List.range 8).map (fun i => (SEC.TOKEN_CHAL_CHAL i).key)) s.dev t.dev)) ∧
    (trusted mid = true → s.dev.on SEC.STATE_MAINT = true → s.dev.fusedStep < min (s.dev.fld SEC.ARB_FW_STEP) 64 →
      Yields (exec (.arbAdvance mid true) s) (fun t =>
        (∀ i, i < min (s.dev.fld SEC.ARB_FW_STEP) 64 → bit t.dev.boot.fuses.arb.1 i = true ∧ bit t.dev.boot.fuses.arb.2 i = true) ∧
        t.dev.resp = .done) ∧
      Yields (exec (.arbAdvance mid false) s) (fun t => t.dev.isSet 522 = true ∧ t.dev.boot.fuses = s.dev.boot.fuses)) ∧
    (trusted mid = true → s.dev.on SEC.STATE_MAINT = false → ∀ ok, Yields (exec (.arbAdvance mid ok) s) (fun t =>
      t.dev.resp = .discarded ∧ t.dev.isSet 0 = true ∧ t.dev.boot.fuses = s.dev.boot.fuses)) ∧
    ((s.dev.on SEC.INJ_ARM && s.dev.fld SEC.INJ_MODE == 2) = false →
      Yields (exec (.entropyHealthTest true) s) (fun t =>
        t.dev.on SEC.STATE_ENTROPY_OK = true ∧ tabGet false t.dev.snag.cause 518 = false ∧ RegsKept [SEC.STATE_ENTROPY_OK.key, SKM.REBUILD_NEXT_READY.key, SKM.REBUILD_INVALID.key, SKM.REBUILD_PROGRESS.key] s.dev t.dev) ∧
      Yields (exec (.entropyHealthTest false) s) (fun t =>
        t.dev.on SEC.STATE_ENTROPY_OK = false ∧ t.dev.isSet 518 = true ∧ tabGet false t.dev.snag.cause 518 = true ∧
        (∀ w ∈ s.dev.linWatches, (t.dev.curSet w).status ≠ 1 ∧ (t.dev.nextSet w).status ≠ 1) ∧
        RegsKept (SEC.STATE_ENTROPY_OK.key :: MTX.STAT_SUSPENDED.key :: Claims.sourceKeys) s.dev t.dev)) ∧
    (trusted mid = false → ∀ ok,
      Yields (exec (.secBootSelWrite mid v) s) (fun t => t.dev.resp = .error ∧ RegsOnly [] s t) ∧
      Yields (exec (.newChal mid) s) (fun t => t.dev.resp = .error ∧ RegsOnly [] s t) ∧
      Yields (exec (.arbAdvance mid ok) s) (fun t => t.dev.resp = .error ∧ RegsOnly [] s t))

/-- Slack, temperature and voltage readings are kept, and a reading outside its limit raises its source. While the health block is active
and the die of a sensor is reachable: a hairline report keeps each monitor's slack, limited to 255, and the lowest seen (no injected
reading being armed); a temperature above the grade limit is held as source 581 by its die; a voltage reading sets WARN outside 3 % and
FAIL outside 6 %, and one that lasts outside 6 % is held as source 584. An inactive block takes no reading. -/
def Obligations.SensorsReportAndRaise : Prop :=
  ∀ (s : State) (i v : Nat) (slacks : List Nat), s.dev.dead = false →
    (s.dev.hlnOn = true → s.dev.on HLN.INJ_ARM = false → Yields (exec (.hairlineSample slacks) s) (fun t =>
      ∀ m, m < 64 → s.dev.reach (slackDie m) = true →
        t.dev.fld (HLN.SLACK_NOW m) = min 255 (slacks.getD m 255) ∧
        t.dev.fld (HLN.SLACK_MIN m) = min (min 255 (slacks.getD m 255)) (s.dev.fld (HLN.SLACK_MIN m)))) ∧
    (s.dev.hlnOn = true → i < 16 → s.dev.reach (tempDie i) = true → Yields (exec (.temperatureSample i v) s) (fun t =>
      t.dev.fld (HLN.TEMP_TEMP i) = v % 2 ^ 16 ∧
      (Claims.Beats s.dev (tempDie i) → s.dev.tempLimit < signedOf 16 v → Claims.Held t.dev (tempDie i) 581))) ∧
    (s.dev.hlnOn = true → i < 12 → s.dev.reach (voltDie i) = true → ∀ lasting, Yields (exec (.voltageSample i v lasting) s) (fun t =>
      t.dev.fld (HLN.VMON_MV i) = v % 2 ^ (HLN.VMON_MV i).width ∧
      t.dev.on (HLN.VMON_WARN i) = outsidePct v (s.dev.railNominal i) 3 ∧ t.dev.on (HLN.VMON_FAIL i) = outsidePct v (s.dev.railNominal i) 6 ∧
      (lasting = true → outsidePct v (s.dev.railNominal i) 6 = true → Claims.Beats s.dev (voltDie i) → Claims.Held t.dev (voltDie i) 584))) ∧
    (s.dev.hlnOn = false → s.dev.memsys.writes = [] → ∀ lasting,
      Yields (exec (.hairlineSample slacks) s) (fun t => RegsOnly [] s t) ∧ Yields (exec (.temperatureSample i v) s) (fun t => RegsOnly [] s t) ∧
      Yields (exec (.voltageSample i v lasting) s) (fun t => RegsOnly [] s t))

/-- The margin loop takes the first row of its table that applies, PMBus transactions end it, and the self-test rotation advances by one
slot. With MARGIN_EN: a critical slack above the lowest frequency, with the tick unit running and no step waiting, decides a step 25 MHz
down at the next boundary; at the lowest frequency it sets source 578; a slack that is low but not critical, with both rails below VMAX,
commands the rail of the worst monitor one step up. A PMBus transaction that is acknowledged and reads back within two steps gives the
rail its voltage and ends the cause of source 579; one that is not acknowledged sets the source. A slot of the rotation whose segment
passed advances the rotation by one, modulo 2 294. -/
def Obligations.MarginLoopAndRotationStep : Prop :=
  ∀ s : State, s.dev.dead = false →
    (s.dev.on HLN.CTRL_MARGIN_EN = true →
      (s.dev.worst.1 < s.dev.fld HLN.MARGIN_SLACK_CRIT →
        (s.dev.fld HLN.FREQ_MIN_MHZ < s.dev.fld HLN.FREQ_CUR_MHZ → s.dev.running = true → s.dev.health.step = none →
          Yields (exec .marginLoop s) (fun t => t.dev.health.step = some (s.dev.fld HLN.FREQ_CUR_MHZ - 25, 1))) ∧
        (s.dev.fld HLN.FREQ_CUR_MHZ ≤ s.dev.fld HLN.FREQ_MIN_MHZ → Yields (exec .marginLoop s) (fun t => t.dev.isSet 578 = true))) ∧
      (s.dev.fld HLN.MARGIN_SLACK_CRIT ≤ s.dev.worst.1 → s.dev.worst.1 < s.dev.fld HLN.MARGIN_SLACK_LOW →
        s.dev.rail 0 < s.dev.fld HLN.VOLT_VMAX → s.dev.rail 1 < s.dev.fld HLN.VOLT_VMAX → s.dev.railsHeld = false →
        s.dev.health.command = none → 0 < s.dev.fld HLN.CTRL_VSTEP →
        s.dev.regulated (if s.dev.worst.2 < 24 then 0 else 1) = true → Yields (exec .marginLoop s) (fun t =>
          t.dev.health.command = some ((if s.dev.worst.2 < 24 then 0 else 1),
            min (s.dev.fld HLN.VOLT_VMAX) (s.dev.rail (if s.dev.worst.2 < 24 then 0 else 1) + s.dev.fld HLN.CTRL_VSTEP))))) ∧
    (∀ r mv rb, s.dev.health.command = some (r, mv) → s.dev.on HLN.INJ_ARM = false → rb - mv + (mv - rb) ≤ 2 * s.dev.fld HLN.CTRL_VSTEP →
      Yields (exec (.pmbusTransactionDone true rb) s) (fun t =>
        t.dev.rail r = mv ∧ t.dev.health.command = none ∧ tabGet false t.dev.snag.cause 579 = false)) ∧
    (∀ rb, Yields (exec (.pmbusTransactionDone false rb) s) (fun t =>
      t.dev.isSet 579 = true ∧ tabGet false t.dev.snag.cause 579 = true ∧ t.dev.health.command = none)) ∧
    (s.dev.slotRan = true → s.dev.fld HLN.ST_STAT_POS < 2294 → s.dev.on HLN.INJ_ARM = false → ∀ addr,
      Yields (exec (.selftestSegmentDone true true addr) s) (fun t =>
        t.dev.fld HLN.ST_STAT_POS = (s.dev.fld HLN.ST_STAT_POS + 1) % 2294 ∧ t.dev.health.slotDue = false))

/-- Clock measurements, PLL lock, the strap and a loss of supply set and end their sources. A measurement of MCLK_AUD is kept, MCLK_OK
follows it, and out of range while the tick unit runs it sets source 705; REFCLK_SYS out of range sets source 704 and its return ends
the cause; PLL i that loses lock clears its LOCKED bit and sets source 706 + i, and its relock ends the cause; TWIN_EN at a level other
than the latched one sets source 716; a supply loss marks its dies as lost, sets the DIE_LOST source of a C-die or X-die whose heartbeat
ran, and without the S-die nothing runs, with SAFE set and the outputs not owned. -/
def Obligations.ClocksPllsStrapAndSupplies : Prop :=
  ∀ s : State, s.dev.dead = false →
    (s.dev.pwrArmed 2 = false → ∀ hz, Yields (exec (.mclkMeasure hz) s) (fun t =>
      t.dev.fld PWR.MCLK_MEAS_HZ = hz % 2 ^ PWR.MCLK_MEAS_HZ.width ∧ t.dev.on PWR.CLK_STAT_MCLK_OK = !s.dev.mclkOut hz ∧
      tabGet false t.dev.snag.cause 705 = (s.dev.mclkOut hz && s.dev.running) ∧
      ((s.dev.mclkOut hz && s.dev.running) = true → t.dev.isSet 705 = true))) ∧
    Yields (exec .pwrRefclkSys s) (fun t =>
      t.dev.on PWR.CLK_STAT_REFCLK_SYS_OK = false ∧ t.dev.isSet 704 = true ∧ tabGet false t.dev.snag.cause 704 = true) ∧
    (s.dev.memsys.writes = [] → Yields (exec .refclkSysReturn s) (fun t =>
      t.dev.on PWR.CLK_STAT_REFCLK_SYS_OK = true ∧ tabGet false t.dev.snag.cause 704 = false ∧
      Frame [PWR.CLK_STAT_REFCLK_SYS_OK.key] (fun d => { d with snag := { d.snag with cause := [] } }) s t)) ∧
    (∀ i, i < 10 →
      Yields (exec (.pllLockLoss i) s) (fun t =>
        bit (t.dev.fld PWR.CLK_STAT_LOCKED) i = false ∧ t.dev.isSet (706 + i) = true ∧ tabGet false t.dev.snag.cause (706 + i) = true) ∧
      (s.dev.memsys.writes = [] → Yields (exec (.pllRelock i) s) (fun t =>
        bit (t.dev.fld PWR.CLK_STAT_LOCKED) i = true ∧ tabGet false t.dev.snag.cause (706 + i) = false ∧
        Frame [PWR.CLK_STAT_LOCKED.key] (fun d => { d with snag := { d.snag with cause := [] } }) s t))) ∧
    (∀ level, Yields (exec (.strapChange level) s) (fun t =>
      t.dev.on PWR.STRAP_TWIN_EN_NOW = level ∧ tabGet false t.dev.snag.cause 716 = (level != s.dev.on PWR.STRAP_TWIN_EN) ∧
      (level ≠ s.dev.on PWR.STRAP_TWIN_EN → t.dev.isSet 716 = true))) ∧
    (s.dev.power.lost < 8 → ∀ dies, Yields (exec (.supplyLoss dies) s) (fun t =>
      (∀ i, i < 4 → bit t.dev.power.lost i = (bit dies i || bit s.dev.power.lost i)) ∧
      (∀ i, i < 3 → bit dies i = true → bit s.dev.power.lost i = false → s.dev.on (hbOkFld i) = true → t.dev.isSet (8 + i) = true) ∧
      (bit dies 3 = true → t.dev.dead = true ∧ t.dev.on SNG.STAT_SAFE = true ∧ t.dev.twin.owns = false)))

/-- STATE, SYNC, AGREE and HANDOVER records of the peer are taken from BOND into the twin registers and memories. With pairing on: a STATE
record held on BOND gives TWN_PEER its fields and the instant of the last STATE record; a SYNC record is kept with its frame and time;
an AGREE record before the frame's release point is kept with its bitmap and digest, and one from its cycle on is not; a HANDOVER
proposal to a READY device with no handover under way is confirmed at once, by a record with code 2. After 1 ms without a STATE record
the device is SEEKING. -/
def Obligations.TwinRecordsAreTaken : Prop :=
  ∀ (s : State) (r : LinkRecord), s.dev.dead = false → s.dev.on TWN.CTRL_PAIR = true →
    (s.dev.heldRec 4 2 0x42 = some r → Yields (exec .state s) (fun t =>
      t.dev.fld TWN.PEER_STATE = leAt r.payload 0 1 % 16 ∧ t.dev.fld TWN.PEER_SAFE_OK = leAt r.payload 1 1 % 2 ∧
      t.dev.fld TWN.PEER_DEVICE_ID = leAt r.payload 22 2 % 2 ^ TWN.PEER_DEVICE_ID.width ∧
      t.dev.fld TWN.PEER_DIGEST_LO_DIGEST = leAt r.payload 4 4 % 2 ^ 32 ∧ t.dev.fld TWN.PEER_UID_LO_UID = leAt r.payload 12 4 % 2 ^ 32 ∧
      t.dev.twin.stateAt = s.dev.now ∧ t.dev.twin.stateFresh = true)) ∧
    (s.dev.heldRec 4 1 0x41 = some r → Yields (exec .sync s) (fun t =>
      t.dev.twin.peerSync = some (r.frame, ((leAt r.payload 0 6 * 1000000000 + leAt r.payload 6 4 : Nat) : Int)))) ∧
    (s.dev.heldRec 4 0 0x40 = some r →
      (s.dev.rpPast r.frame = false → (∀ f, s.dev.gate.lastRp = some f → f ≠ r.frame ∧ framePrecedes r.frame f = false) →
        Yields (exec .agree s) (fun t =>
          t.dev.twin.peer = ⟨r.frame, leAt r.payload 0 16, slice r.payload 16 8⟩ :: s.dev.twin.peer.take 3)) ∧
      (s.dev.rpPast r.frame = true → Yields (exec .agree s) (fun t => t.dev.twin.peer = s.dev.twin.peer))) ∧
    (s.dev.heldRec 4 2 0x43 = some r → leAt r.payload 4 1 = 1 → s.dev.fld TWN.STAT_STATE = 4 → s.dev.twin.handover = none → s.dev.linkSt 4 = 7 →
      Yields (exec .handover s) (fun t =>
        t.dev.twin.handover = some ⟨leAt r.payload 0 4, false, true, none⟩ ∧
        ∃ q, (t.dev.link 4).txQueue = (s.dev.link 4).txQueue ++ [q] ∧ q.kind = 0x43 ∧
          q.payload = leBytes 4 (leAt r.payload 0 4) ++ leBytes 1 2 ++ [0, 0, 0])) ∧
    (s.dev.twin.stateFresh = true → s.dev.twin.stateAt + msCycles 1 ≤ s.dev.now → Yields (exec .peerStateTimeout s) (fun t =>
      t.dev.twin.stateFresh = false ∧ t.dev.fld TWN.STAT_STATE = 1))

/-- The device sends its STATE record, decides a joint frame, and proposes a handover by command or by giving back. With pairing on and BOND
active: a STATE record is sent 250 us after the last; the decision for the next frame of a joint pair is kept, and an AGREE record with
its bitmap is sent (no injection being armed); a lead whose peer is READY, with no handover under way, proposes one by TWN_CMD of a
trusted master, and by itself to the fourth frame ahead once the preferred peer has been READY for GB_S seconds. A TWN_CMD of another
master ends with an error response and changes nothing. -/
def Obligations.TwinSendsDecidesAndHandsOver : Prop :=
  ∀ s : State, s.dev.dead = false → s.dev.on TWN.CTRL_PAIR = true → s.dev.linkSt 4 = 7 →
    (s.dev.twin.sentAt + usCycles 250 ≤ s.dev.now → Yields (exec .stateSend s) (fun t =>
      t.dev.twin.sentAt = s.dev.now ∧
      ∃ q, (t.dev.link 4).txQueue = (s.dev.link 4).txQueue ++ [q] ∧ q.kind = 0x42 ∧ q.payload = s.dev.statePayload)) ∧
    (∀ k, k = (match s.dev.gate.lastRp with | none => 0 | some r => frameAdd r 1) → s.dev.running = true → s.dev.joint = true →
      framePrecedes k s.dev.frame = true → s.dev.twin.own.any (fun a => a.frame == k) = false → s.dev.on TWN.INJ_ARM = false →
      Yields (exec .agreeDecision s) (fun t => ∃ a q, t.dev.twin.own = a :: s.dev.twin.own.take 3 ∧ a.frame = k ∧
        (t.dev.link 4).txQueue = (s.dev.link 4).txQueue ++ [q] ∧ q.kind = 0x40 ∧ q.frame = k ∧
        q.payload = leBytes 16 a.bitmap ++ a.digest ++ leBytes 4 (s.dev.fld SNG.STAT_SAFE_OK))) ∧
    (s.dev.fld TWN.STAT_STATE = 2 → s.dev.fld TWN.PEER_STATE = 4 → s.dev.twin.handover = none → s.dev.frame < 4294967296 →
      (∀ mid, trusted mid = true → s.dev.fld TWN.HANDOVER_FRAME = 0 → Yields (exec (.twnCmdHandover mid) s) (fun t =>
        t.dev.twin.handover = some ⟨frameAdd s.dev.frame 4, true, false, none⟩ ∧ t.dev.resp = .done ∧
        ∃ q, (t.dev.link 4).txQueue = (s.dev.link 4).txQueue ++ [q] ∧ q.kind = 0x43 ∧
          q.payload = leBytes 4 (frameAdd s.dev.frame 4) ++ leBytes 1 1 ++ [0, 0, 0])) ∧
      (∀ u, s.dev.twin.peerReadyFrom = some u → s.dev.on TWN.CFG_GIVE_BACK = true → s.dev.on TWN.CFG_PREFER_LEAD = false →
        s.dev.twin.peerPrefer = true → u + sCycles (s.dev.fld TWN.GB_GB_S) ≤ s.dev.now → Yields (exec .giveBack s) (fun t =>
          t.dev.twin.handover = some ⟨frameAdd s.dev.frame 4, true, false, none⟩))) ∧
    (∀ mid, trusted mid = false → s.dev.memsys.writes = [] → Yields (exec (.twnCmdHandover mid) s) (fun t => t.dev.resp = .error ∧ RegsOnly [] s t))

/-- Pairing is switched by a trusted master where the strap allows it, and the peer's pins set and end source 673. TWN_CTRL.PAIR written 1
by a trusted master, with TWIN_EN latched 1, turns pairing on: BOND starts training, the device drives nothing it has not acquired; with
TWIN_EN latched 0 the write is rejected and changes nothing; written 0 it turns pairing off: the device drives its outputs and STATE is
0. A level of TWN_PEER_OK or a loss of TWN_PEER_HB that leaves one of them bad sets source 673 with a lasting cause unless the cause is
present already, and the return of both ends the cause. -/
def Obligations.PairingAndPeerPins : Prop :=
  ∀ (s : State) (mid : Nat), s.dev.dead = false →
    (trusted mid = true →
      (s.dev.on PWR.STRAP_TWIN_EN = true → s.dev.on TWN.CTRL_PAIR = false → Yields (exec (.twnCtrlPair mid 1) s) (fun t =>
        t.dev.on TWN.CTRL_PAIR = true ∧ t.dev.on TWN.STAT_OWN_OUT = false ∧ t.dev.twin.owns = false ∧ t.dev.fld TWN.STAT_STATE = 1 ∧
        t.dev.resp = .done)) ∧
      (s.dev.on PWR.STRAP_TWIN_EN = false → s.dev.memsys.writes = [] → Yields (exec (.twnCtrlPair mid 1) s) (fun t =>
        t.dev.resp = .rejected ∧ RegsOnly [] s t)) ∧
      (s.dev.on TWN.CTRL_PAIR = true → Yields (exec (.twnCtrlPair mid 0) s) (fun t =>
        t.dev.on TWN.CTRL_PAIR = false ∧ t.dev.on TWN.STAT_OWN_OUT = true ∧ t.dev.fld TWN.STAT_STATE = 0 ∧ t.dev.resp = .done))) ∧
    (s.dev.on TWN.STAT_PEER_HB_OK = true → s.dev.memsys.writes = [] → Yields (exec (.peerOkChange true) s) (fun t =>
      t.dev.on TWN.STAT_PEER_OK = true ∧ tabGet false t.dev.snag.cause 673 = false ∧
      Frame [TWN.STAT_PEER_OK.key] (fun d => { d with snag := { d.snag with cause := [] } }) s t)) ∧
    (s.dev.on TWN.STAT_PEER_OK = true → Yields (exec (.peerHbLoss true) s) (fun t =>
      t.dev.on TWN.STAT_PEER_HB_OK = true ∧ tabGet false t.dev.snag.cause 673 = false)) ∧
    (tabGet false s.dev.snag.cause 673 = false →
      Yields (exec (.peerOkChange false) s) (fun t =>
        t.dev.on TWN.STAT_PEER_OK = false ∧ t.dev.isSet 673 = true ∧ tabGet false t.dev.snag.cause 673 = true) ∧
      Yields (exec (.peerHbLoss false) s) (fun t =>
        t.dev.on TWN.STAT_PEER_HB_OK = false ∧ t.dev.isSet 673 = true ∧ tabGet false t.dev.snag.cause 673 = true))

namespace Sys2Proof.Claims

/-- The requests of a session: opcode, the payload that the command's name fixes, and the command. -/
def requests : List (Nat × Option (List Byte) × (Req → Instr)) :=
  [(0x00, none, .ping), (0x03, none, .close), (0x04, none, .deviceInfo), (0x05, none, .statusGet), (0x06, none, .subscribe),
   (0x07, none, .opQuery), (0x08, none, .attest), (0x09, none, .sessionList), (0x10, none, .regRead), (0x11, none, .regWrite),
   (0x12, none, .regModify), (0x13, none, .regReadBlock), (0x14, none, .commit), (0x30, none, .watchDefine), (0x31, none, .watchRead),
   (0x32, none, .armList), (0x33, none, .logRead), (0x34, none, .coverageGet), (0x38, none, .modelLoad), (0x39, none, .modelUnload),
   (0x3A, none, .modelInfo), (0x50, none, .portStatus), (0x51, none, .gateStatus), (0x52, none, .fallbackStatus), (0x60, none, .faultList),
   (0x61, none, .faultClear), (0x62, none, .faultLogRead), (0x63, none, .wdgEvidence), (0x64, none, .ladderClear), (0x70, none, .timeGet)] ++
  [(0x71, none, .timeStep), (0x72, none, .captureRead), (0x80, none, .imgOpen), (0x81, none, .imgChunk), (0x82, none, .imgClose),
   (0x83, none, .fwInstall), (0x84, none, .topcoatInstall), (0x85, none, .slotSelect), (0x86, none, .restart), (0x87, some [1], .maintEnter),
   (0x87, some [0], .maintLeave), (0x88, none, .sealBreak), (0x89, none, .debugOpen), (0x8A, none, .hppr), (0x90, none, .twinStatus),
   (0x91, none, .twinHandover), (0x92, some [1], .twinPair), (0x92, some [0], .twinUnpair), (0xA0, none, .inject),
   (0xA1, none, .selftestStatus), (0xA2, none, .statusTest)]

/-- The request with the payload that the command's name fixes. -/
def fixed (fix : Option (List Byte)) (r : Req) : Req :=
  match fix with
  | some p => { r with payload := p }
  | none => r

/-- The request belongs to an open session, whose state is `x`, of a device whose endpoint answers. -/
def Opened (s : State) (r : Req) (x : Session) : Prop :=
  s.dev.dead = false ∧ s.dev.memsys.writes = [] ∧ s.dev.endpoint = true ∧ r.session ≠ 0 ∧ s.dev.session r.session = some x

/-- No reply to the request's REQ_ID is kept, and the session may have one request more under way (R369, R370). -/
def Room (s : State) (op : Nat) (r : Req) (x : Session) : Prop :=
  x.cache.find? (fun c => c.reqId == r.reqId) = none ∧ s.dev.underWay r.session x < 16 ∧
  (nonIdempotent.contains op = true → s.dev.cacheFull x = false)

/-- The request runs: none of the refusals of R371 applies. -/
def Admitted (s : State) (op : Nat) (r : Req) (x : Session) : Prop :=
  Opened s r x ∧ Room s op r x ∧ s.dev.refusal op r.reqId x r.payload = 0

/-- The device as the operation of a request finds it: the session's idle time starts anew. -/
def entered (s : State) (r : Req) (x : Session) : Dev := s.dev.withSession r.session (some { x with lastAt := s.dev.now })

/-- A reply to the request is queued for the network. -/
def Answers (t : State) (r : Req) (op status : Nat) (payload : List Byte) (seq : Nat) : Prop :=
  ∃ m, m ∈ t.dev.cmd.outbox ∧ m.session = r.session ∧ m.opcode = op ∧ m.event = false ∧ m.reqId = r.reqId ∧ m.status = status ∧
    m.payload = payload ∧ m.seq = seq

/-- The reply is the session's next packet; registers and memory are as before. -/
def Replies (s : State) (r : Req) (x : Session) (op status : Nat) (payload : List Byte) (t : State) : Prop :=
  Answers t r op status payload (x.txSeq + 1) ∧ RegsKept [] s.dev t.dev ∧ Outside s t

/-- The reply is the next packet of the session as the operation leaves it in `e`; registers are as in `e`. -/
def Reports (e : Dev) (r : Req) (op status : Nat) (payload : List Byte) (t : State) : Prop :=
  (∀ y, e.session r.session = some y → Answers t r op status payload (y.txSeq + 1)) ∧ RegsKept [] e t.dev

end Sys2Proof.Claims

/-- Each admitted request runs its operation and is answered once, with the operation's status, with PENDING, or when its capture applies.
For every request of Table 11.4 that no refusal of R371 stops: where its operation ends with a status and a payload, that reply is the
next packet of the session as the operation leaves it; where it stays pending, the reply has status 1, and the operation waits in the
session; where it waits for a capture, the capture is the one that the operation made. -/
def Obligations.AdmittedRequestsRunAndAreAnswered : Prop :=
  ∀ (s : State) (r : Req) (x : Session), ∀ c ∈ Claims.requests, Claims.Admitted s c.1 (Claims.fixed c.2.1 r) x →
    Yields (exec (c.2.2 r) s) (fun t =>
      match (Claims.entered s r x).operate c.1 r.session r.reqId { x with lastAt := s.dev.now } (Claims.fixed c.2.1 r).payload with
      | (.reply status payload, e) => ∀ y, e.session r.session = some y → Claims.Answers t r c.1 status payload (y.txSeq + 1)
      | (.pending, e) => ∀ y, e.session r.session = some y → Claims.Answers t r c.1 1 [] (y.txSeq + 1) ∧
          (c.1 ≠ 0x92 → y.rxHigh < 281474976710656 → y.txSeq + 1 < 281474976710656 →
            ∃ z, t.dev.session r.session = some z ∧ (⟨r.reqId, c.1, none⟩ : PendingOp) ∈ z.ops)
      | (.wait, e) => t.dev.capture = e.capture)

/-- A request that is a duplicate, one too many or refused is answered with its code and changes no register and no memory. For every
request of Table 11.4 of an open session: a retry of a request whose reply is kept, with its opcode and payload, is answered with the
kept status and payload, any other use of its REQ_ID with DUPLICATE_ID; with 16 requests under way, or 64 young replies kept and an
opcode that is not idempotent, the status is BUSY; otherwise a length that does not fit gives BAD_LENGTH, REQ_ID 0 or a field out of
range BAD_PARAM, and a role too low ROLE, in this order. Without an open session nothing at all changes. -/
def Obligations.RefusedRequestsChangeNothing : Prop :=
  ∀ (s : State) (q : Req) (x : Session), ∀ c ∈ Claims.requests, ∀ r, r = Claims.fixed c.2.1 q →
    (Claims.Opened s r x →
      (∀ k, x.cache.find? (fun c => c.reqId == r.reqId) = some k →
        ((r.retry && k.opcode == c.1 && k.payload == r.payload) = true →
          Yields (exec (c.2.2 q) s) (Claims.Replies s r x c.1 k.reply.status k.reply.payload)) ∧
        ((r.retry && k.opcode == c.1 && k.payload == r.payload) = false → Yields (exec (c.2.2 q) s) (Claims.Replies s r x c.1 0x0105 []))) ∧
      (x.cache.find? (fun c => c.reqId == r.reqId) = none →
        16 ≤ s.dev.underWay r.session x ∨ (nonIdempotent.contains c.1 = true ∧ s.dev.cacheFull x = true) →
        Yields (exec (c.2.2 q) s) (Claims.Replies s r x c.1 0x0104 [])) ∧
      (Claims.Room s c.1 r x →
        (lenOk c.1 r.payload.length = false → Yields (exec (c.2.2 q) s) (Claims.Replies s r x c.1 0x0101 [])) ∧
        (lenOk c.1 r.payload.length = true →
          (r.reqId = 0 ∨ s.dev.paramOk c.1 r.payload = false → Yields (exec (c.2.2 q) s) (Claims.Replies s r x c.1 0x0102 [])) ∧
          (r.reqId ≠ 0 → s.dev.paramOk c.1 r.payload = true → x.role < s.dev.roleFor c.1 r.payload →
            Yields (exec (c.2.2 q) s) (Claims.Replies s r x c.1 0x0103 []))))) ∧
    (s.dev.dead = false → s.dev.memsys.writes = [] → s.dev.session r.session = none → Yields (exec (c.2.2 q) s) (fun t => RegsOnly [] s t))

/-- Requests that read are answered with what Table 11.4 lists, and change no register and no memory. PING is answered with no payload;
DEVICE_INFO, STATUS_GET, ATTEST, SESSION_LIST, WATCH_READ, COVERAGE_GET, MODEL_INFO, PORT_STATUS, GATE_STATUS, FALLBACK_STATUS,
FAULT_LIST, WDG_EVIDENCE, TIME_GET, TWIN_STATUS and SELFTEST_STATUS with the payloads of their rows; OP_QUERY with the status of the
operation, or NO_OP. No register and no byte of memory changes. (A message that carries a time or a count reports the state before the
request.) -/
def Obligations.ReadRequestsReportAndChangeNothing : Prop :=
  ∀ (s : State) (r : Req) (x : Session),
    (Claims.Admitted s 0x00 r x → Yields (exec (.ping r) s) (Claims.Replies s r x 0x00 0 [])) ∧
    (Claims.Admitted s 0x04 r x → ∃ p, (s.dev.opDeviceInfo x.role).1 = .ok p ∧ Yields (exec (.deviceInfo r) s) (Claims.Replies s r x 0x04 0 p)) ∧
    (Claims.Admitted s 0x05 r x → Yields (exec (.statusGet r) s) (Claims.Replies s r x 0x05 0 (s.dev.statusPayload 5))) ∧
    (Claims.Admitted s 0x07 r x →
      (∀ o, x.ops.find? (fun o => o.reqId == beAt r.payload 0 4) = some o →
        Yields (exec (.opQuery r) s) (Claims.Replies s r x 0x07 0 (beBytes 2 (o.status.getD 1) ++ [0, 0]))) ∧
      (x.ops.find? (fun o => o.reqId == beAt r.payload 0 4) = none → Yields (exec (.opQuery r) s) (Claims.Replies s r x 0x07 0x010E []))) ∧
    (Claims.Admitted s 0x08 r x → Yields (exec (.attest r) s) (Claims.Replies s r x 0x08 0
      (s.dev.attestBody (slice r.payload 0 32) ++ fit 64 (Config.identSign 0 (attestLabel ++ s.dev.attestBody (slice r.payload 0 32)))
        ++ fit 3309 (Config.identSign 1 (attestLabel ++ s.dev.attestBody (slice r.payload 0 32)))))) ∧
    (Claims.Admitted s 0x09 r x → ∃ p, s.dev.opSessionList.1 = .ok p ∧ Yields (exec (.sessionList r) s) (Claims.Replies s r x 0x09 0 p)) ∧
    (Claims.Admitted s 0x31 r x → Yields (exec (.watchRead r) s) (Claims.Replies s r x 0x31 0
      ((List.range 64).flatMap (fun i => beBytes 4 (s.dev.descWord (beAt r.payload 0 2) i))))) ∧
    (Claims.Admitted s 0x34 r x → ∃ p, ((Claims.entered s r x).opCoverageGet r.payload).1 = .ok p ∧
      Yields (exec (.coverageGet r) s) (Claims.Replies s r x 0x34 0 p)) ∧
    (Claims.Admitted s 0x3A r x → Yields (exec (.modelInfo r) s) (Claims.Replies s r x 0x3A 0 (s.dev.modelBytes beBytes (beAt r.payload 0 2)))) ∧
    (∀ c ∈ ([(0x50, .portStatus, Dev.opPortStatus), (0x51, .gateStatus, Dev.opGateStatus), (0x52, .fallbackStatus, Dev.opFallbackStatus),
        (0x63, .wdgEvidence, Dev.opWdgEvidence), (0x90, .twinStatus, Dev.opTwinStatus), (0xA1, .selftestStatus, Dev.opSelftestStatus)] :
        List (Nat × (Req → Instr) × (Dev → Ans × Dev))),
      Claims.Admitted s c.1 r x → ∃ p, (c.2.2 (Claims.entered s r x)).1 = .ok p ∧ Yields (exec (c.2.1 r) s) (Claims.Replies s r x c.1 0 p)) ∧
    (Claims.Admitted s 0x60 r x → ∃ p, (s.dev.opFaultList r.payload).1 = .ok p ∧ Yields (exec (.faultList r) s) (Claims.Replies s r x 0x60 0 p)) ∧
    (Claims.Admitted s 0x70 r x → ∃ p, s.dev.opTimeGet.1 = .ok p ∧ Yields (exec (.timeGet r) s) (Claims.Replies s r x 0x70 0 p))

/-- A request for one register does what an access by master 18 does, and its status tells how the access ended. REG_READ and REG_READ_BLOCK
of one register are answered with the value, or with REG_ERROR and entry 0 after an error response. REG_WRITE, REG_MODIFY and INJECT of
one register leave the device as the write by master 18 leaves it: status 0, DISCARDED or REG_ERROR follow the answer of the access.
REG_MODIFY writes the bits of its mask and keeps the others as read. -/
def Obligations.RegisterRequestsAccessAsMaster18 : Prop :=
  ∀ (s : State) (r : Req) (x : Session),
    (∀ e, e = (Claims.entered s r x).busRead 18 (beAt r.payload 0 4) 4 →
      (Claims.Admitted s 0x10 r x → r.payload.length = 4 → Yields (exec (.regRead r) s) (fun t =>
        (∀ v, e.resp = .value v → Claims.Reports e r 0x10 0 (beBytes 4 v) t) ∧
        ((∀ v, e.resp ≠ .value v) → Claims.Reports e r 0x10 0x0107 (beBytes 2 0) t))) ∧
      (Claims.Admitted s 0x13 r x → beAt r.payload 4 2 = 1 → Yields (exec (.regReadBlock r) s) (fun t =>
        (∀ v, e.resp = .value v → Claims.Reports e r 0x13 0 (beBytes 4 v) t) ∧
        ((∀ v, e.resp ≠ .value v) → Claims.Reports e r 0x13 0x0107 (beBytes 2 0) t))) ∧
      (Claims.Admitted s 0x12 r x → r.payload.length = 12 → ∀ v, e.resp = .value v →
        ∀ e', e' = e.busWrite 18 (beAt r.payload 0 4)
            (Nat.lor (Nat.land v (4294967295 - beAt r.payload 4 4)) (Nat.land (beAt r.payload 8 4) (beAt r.payload 4 4))) 4 →
        Yields (exec (.regModify r) s) (fun t =>
          (e'.resp = .error → Claims.Reports e' r 0x12 0x0107 (beBytes 2 0) t) ∧
          (e'.resp = .discarded → Claims.Reports e' r 0x12 0x0108 (beBytes 2 1 ++ beBytes 2 0) t) ∧
          (e'.resp ≠ .error → e'.resp ≠ .discarded → Claims.Reports e' r 0x12 0 (beBytes 2 1 ++ beBytes 2 65535) t)))) ∧
    (∀ e, e = (Claims.entered s r x).busWrite 18 (beAt r.payload 0 4) (beAt r.payload 4 4) 4 →
      (Claims.Admitted s 0x11 r x → r.payload.length = 8 → Yields (exec (.regWrite r) s) (fun t =>
        (e.resp = .error → Claims.Reports e r 0x11 0x0107 (beBytes 2 0) t) ∧
        (e.resp = .discarded → Claims.Reports e r 0x11 0x0108 (beBytes 2 1 ++ beBytes 2 0) t) ∧
        (e.resp ≠ .error → e.resp ≠ .discarded → Claims.Reports e r 0x11 0 (beBytes 2 1 ++ beBytes 2 65535) t))) ∧
      (Claims.Admitted s 0xA0 r x → Yields (exec (.inject r) s) (fun t =>
        (e.resp = .error → Claims.Reports e r 0xA0 0x0107 (beBytes 2 0) t) ∧
        (e.resp = .discarded → Claims.Reports e r 0xA0 0x0108 [] t) ∧
        (e.resp ≠ .error → e.resp ≠ .discarded → Claims.Reports e r 0xA0 0 [] t))))

/-- WATCH_DEFINE, ARM_LIST, COMMIT, LOG_READ, FAULT_LOG_READ and FAULT_CLEAR do what their rows of Table 11.4 say. WATCH_DEFINE of one watch
writes its 48 host words where the watch is IDLE and waits in no capture, and is refused with STATE and entry 0 otherwise. ARM_LIST
without flags appends an entry with operation 1 or 2 to the staged list where there is room and reports the list's length. COMMIT on a
running device makes the capture of the staged values and list, empties the list and sets PENDING. LOG_READ and FAULT_LOG_READ report
the oldest records, and with ADVANCE move the read index past them. FAULT_CLEAR of one source that is not set answers 2 and changes
nothing; of a set one whose cause is absent, and that hardware did not set in the same cycle, it clears it. -/
def Obligations.WatchAndLogRequestsAct : Prop :=
  ∀ (s : State) (r : Req) (x : Session),
    (Claims.Admitted s 0x30 r x → r.payload.length = 196 →
      (s.dev.descOpen (beAt r.payload 0 2) = true → Yields (exec (.watchDefine r) s) (fun t =>
        (∀ k, k < 48 → t.dev.wd (beAt r.payload 0 2) k = beAt r.payload (4 + 4 * k) 4) ∧
        (∀ w k, w ≠ beAt r.payload 0 2 → k < 48 → t.dev.wd w k = s.dev.wd w k) ∧ Claims.Replies s r x 0x30 0 (beBytes 2 1) t)) ∧
      (s.dev.descOpen (beAt r.payload 0 2) = false → Yields (exec (.watchDefine r) s) (fun t =>
        Claims.Replies s r x 0x30 0x0106 (beBytes 2 0) t ∧ t.dev.watch = s.dev.watch))) ∧
    (Claims.Admitted s 0x32 r x → r.payload.length = 8 → beAt r.payload 0 1 = 0 → s.dev.watch.staged.length < 256 →
      (beAt r.payload 4 4 / 1073741824 = 1 ∨ beAt r.payload 4 4 / 1073741824 = 2) → Yields (exec (.armList r) s) (fun t =>
        t.dev.watch.staged = s.dev.watch.staged ++ [⟨decide (beAt r.payload 4 4 / 1073741824 = 1), beAt r.payload 4 4 % 4096⟩] ∧
        Claims.Answers t r 0x32 0 (beBytes 2 (s.dev.watch.staged.length + 1)) (x.txSeq + 1))) ∧
    (Claims.Admitted s 0x14 r x → s.dev.running = true → s.dev.capture = none → Yields (exec (.commit r) s) (fun t =>
      t.dev.capture = some ⟨s.dev.staged, s.dev.watch.staged, s.dev.now, none⟩ ∧ t.dev.watch.staged = [] ∧
      t.dev.on TCK.COMMIT_STATUS_PENDING = true)) ∧
    (∀ c ∈ ([(0x33, .logRead, .verdict), (0x62, .faultLogRead, .fault)] : List (Nat × (Req → Instr) × LogId)),
      Claims.Admitted s c.1 r x → s.dev.fld (logRd c.2.2) < logSize c.2.2 → ∀ n, n = min (beAt r.payload 0 2) (s.dev.logFill c.2.2) →
      Yields (exec (c.2.1 r) s) (fun t =>
        Claims.Answers t r c.1 0 ((List.range n).flatMap (fun i => (List.range 4).flatMap (fun j =>
          beBytes 4 ((tabGet [] (s.dev.logOf c.2.2) ((s.dev.fld (logRd c.2.2) + i) % logSize c.2.2)).getD j 0)))) (x.txSeq + 1) ∧
        t.dev.fld (logRd c.2.2) = (if bit (beAt r.payload 2 1) 0 then (s.dev.fld (logRd c.2.2) + n) % logSize c.2.2
          else s.dev.fld (logRd c.2.2)))) ∧
    (Claims.Admitted s 0x61 r x → r.payload.length = 2 → ∀ n, n = beAt r.payload 0 2 →
      (s.dev.isSet n = false → Yields (exec (.faultClear r) s) (Claims.Replies s r x 0x61 0 (beBytes 1 2))) ∧
      (s.dev.isSet n = true → s.dev.causeNow n = false → s.dev.freshSource n = false → Yields (exec (.faultClear r) s) (fun t => t.dev.isSet n = false)))

/-- LADDER_CLEAR, TIME_STEP and CAPTURE_READ act as the write or the reads they stand for. LADDER_CLEAR unlocks a locked ladder, sets TRIES
to 0 and ends the cause of source 36, and is refused with STATE otherwise. TIME_STEP on a free-running time base that may step moves it
as TIM_TB_STEP does, and is refused with STATE otherwise. CAPTURE_READ takes up to the requested number of entries out of the queue of
its input, oldest first, and lowers COUNT. -/
def Obligations.LadderTimeAndCaptureRequestsAct : Prop :=
  ∀ (s : State) (r : Req) (x : Session),
    (Claims.Admitted s 0x64 r x →
      (s.dev.on WDG.LADDER_LOCKED = true → Yields (exec (.ladderClear r) s) (fun t =>
        t.dev.on WDG.LADDER_LOCKED = false ∧ t.dev.fld WDG.LADDER_TRIES = 0 ∧ tabGet false t.dev.snag.cause 36 = false ∧
        Claims.Answers t r 0x64 0 [] (x.txSeq + 1))) ∧
      (s.dev.on WDG.LADDER_LOCKED = false → Yields (exec (.ladderClear r) s) (Claims.Replies s r x 0x64 0x0106 (beBytes 2 0)))) ∧
    (Claims.Admitted s 0x71 r x → ∀ i, i = beAt r.payload 0 1 →
      (s.dev.fld (TIM.TB_CFG_SRC i) = 0 → s.dev.stepForbidden i = false → (s.dev.fld TIM.CTRL_MODE = 0 → i = 0) →
        Yields (exec (.timeStep r) s) (fun t =>
          (∀ j, (t.dev.tb j).val = (((Claims.entered s r x).tbStep i (signedOf 32 (beAt r.payload 4 4))).tb j).val) ∧
          Claims.Answers t r 0x71 0 [] (x.txSeq + 1))) ∧
      (s.dev.fld (TIM.TB_CFG_SRC i) ≠ 0 ∨ s.dev.stepForbidden i = true → Yields (exec (.timeStep r) s) (fun t =>
        t.dev.isSet 0 = true ∧ (∀ j, t.dev.tb j = s.dev.tb j)))) ∧
    (Claims.Admitted s 0x72 r x → ∀ c n, c = beAt r.payload 0 1 → n = beAt r.payload 1 1 → Yields (exec (.captureRead r) s) (fun t =>
      Claims.Answers t r 0x72 0 (((s.dev.caps c).take n).flatMap (fun e => beBytes 6 e.sec ++ beBytes 4 e.ns ++ beBytes 1 (b2n e.rise) ++ [0]))
        (x.txSeq + 1) ∧
      t.dev.caps c = (s.dev.caps c).drop n ∧ (∀ j, j ≠ c → t.dev.caps j = s.dev.caps j) ∧
      (0 < n → s.dev.caps c ≠ [] → (s.dev.caps c).length ≤ 16 →
        t.dev.fld (TIM.CAP_STAT_COUNT c) = (s.dev.caps c).length - min n (s.dev.caps c).length)))

namespace Sys2Proof.Claims

/-- An install of image `c`, of kind `kind`, into a slot begins where the image fits its flash and verifies; otherwise it is refused. -/
def InstallBegins (s : State) (r : Req) (x : Session) (op kind slot : Nat) (c : List Byte) (t : State) : Prop :=
  ∀ v, v = ((entered s r x).verifyStaged kind c).1 →
    ((if kind = 2 then 1048576 else 8388608) < c.length → Answers t r op 0x010B [] (x.txSeq + 1) ∧ t.dev.boot.installs = s.dev.boot.installs) ∧
    (c.length ≤ (if kind = 2 then 1048576 else 8388608) →
      (v ≠ 0 → t.dev.isSet 520 = true ∧ t.dev.boot.installs = s.dev.boot.installs ∧
        ∃ q, Answers t r op (if v = 7 then 0x010D else 0x010C) [] q) ∧
      (v = 0 → t.dev.boot.installs = s.dev.boot.installs ++ [⟨r.session, r.reqId, slot, kind == 2, c⟩] ∧ Answers t r op 1 [] (x.txSeq + 1)))

/-- The end of an operation that a session waits for is reported to it where it is open (R377). -/
def Ended (s t : State) (sess reqId status : Nat) (result : List Byte) : Prop :=
  ∀ y, s.dev.session sess = some y → ∃ m ∈ t.dev.cmd.outbox, m.session = sess ∧ m.opcode = 13 ∧ m.event = true ∧
    m.payload = beBytes 4 reqId ++ beBytes 2 status ++ [0, 0] ++ result

end Sys2Proof.Claims

/-- Image stages open, fill and close; loads, installs and repairs stay pending until their end, which takes effect and is reported.
IMG_OPEN gives the lowest free stage to a session that holds none, where the image has room; IMG_CHUNK puts its bytes into the stage,
IMG_CLOSE frees it. MODEL_LOAD, FW_INSTALL and TOPCOAT_INSTALL free the stage of their image. MODEL_LOAD stays pending with the status
of R176; an image that passes has its entry LOADING. An install of an image that is too long, or fails its verification with source 520
set, is refused; otherwise it stays pending. An install over the Topcoat in force is refused with STATE. MODEL_UNLOAD of a loaded model
that nobody uses empties its entry and closes its context, and is refused otherwise. HPPR of a logged page in maintenance stays pending,
else it is refused. The end of a load leaves its model LOADED with its context open, or EMPTY where it is over budget, and a failed one
changes no model; a finished install leaves the container in the flash; a repair leaves its page to read as an uncorrectable error. Each
end is reported to its session by OP_DONE. -/
def Obligations.ImagesAreStagedLoadedAndInstalled : Prop :=
  ∀ (s : State) (r : Req) (x : Session),
    (Claims.Admitted s 0x80 r x → ∀ i, i < 4 → tabGet none s.dev.cmd.stages i = none → (∀ k, k < i → tabGet none s.dev.cmd.stages k ≠ none) →
      (∀ k, k < 4 → ∀ g, tabGet none s.dev.cmd.stages k = some g → g.session ≠ r.session) →
      (if beAt r.payload 0 1 = 3 then beAt r.payload 8 8 ≤ 8192 else cdiv (beAt r.payload 8 8) 65536 ≤ s.dev.freePages) →
      Yields (exec (.imgOpen r) s) (fun t =>
        Claims.Answers t r 0x80 0 (beBytes 1 i ++ [0] ++ beBytes 2 1280) (x.txSeq + 1) ∧
        (x.rxHigh < 281474976710656 → x.txSeq + 64 < 281474976710656 →
          tabGet none t.dev.cmd.stages i = some ⟨r.session, beAt r.payload 0 1, beAt r.payload 8 8, []⟩))) ∧
    (∀ i g, i = beAt r.payload 0 1 → tabGet none s.dev.cmd.stages i = some g → g.session = r.session →
      x.rxHigh < 281474976710656 → x.txSeq + 64 < 281474976710656 →
      (Claims.Admitted s 0x81 r x → r.payload.length = 1292 → beAt r.payload 4 8 + 1280 ≤ g.size → Yields (exec (.imgChunk r) s) (fun t =>
        Claims.Answers t r 0x81 0 [] (x.txSeq + 1) ∧ ∃ g', tabGet none t.dev.cmd.stages i = some g' ∧ g'.size = g.size ∧
          ∀ k, k < 20 → tabGet [] g'.chunks (beAt r.payload 4 8 / 64 + k) = slice r.payload (12 + 64 * k) 64)) ∧
      (Claims.Admitted s 0x82 r x → Yields (exec (.imgClose r) s) (fun t =>
        tabGet none t.dev.cmd.stages i = none ∧ Claims.Replies s r x 0x82 0 [] t)) ∧
      (Claims.Admitted s 0x38 r x → g.kind = 0 → ∀ v p, v = (Claims.entered s r x).verifyStaged 0 g.image → p = imgPayload g.image →
        ∀ status, status = (if v.1 = 0 then v.2.loadStatus p else 1) → Yields (exec (.modelLoad r) s) (fun t =>
          tabGet none t.dev.cmd.stages i = none ∧ (∃ q, Claims.Answers t r 0x38 1 [] q) ∧ (v.1 ≠ 0 → t.dev.isSet 520 = true) ∧
          t.dev.arr.loads = s.dev.arr.loads ++ [⟨r.session, r.reqId, mId p, status, if status = 0 then mBytes p 5 else []⟩] ∧
          (status = 0 → (t.dev.model (mId p)).state = 1))) ∧
      (Claims.Admitted s 0x83 r x → g.kind = 1 → Yields (exec (.fwInstall r) s) (fun t =>
        tabGet none t.dev.cmd.stages i = none ∧ Claims.InstallBegins s r x 0x83 1 (1 - s.dev.fld SEC.BOOT_STAT_SLOT) g.image t)) ∧
      (Claims.Admitted s 0x84 r x → g.kind = 2 → s.dev.tcInForce (beAt r.payload 1 1) = false →
        Yields (exec (.topcoatInstall r) s) (fun t =>
          tabGet none t.dev.cmd.stages i = none ∧ Claims.InstallBegins s r x 0x84 2 (beAt r.payload 1 1) g.image t))) ∧
    (Claims.Admitted s 0x84 r x → s.dev.tcInForce (beAt r.payload 1 1) = true →
      Yields (exec (.topcoatInstall r) s) (Claims.Replies s r x 0x84 0x0106 (beBytes 2 0))) ∧
    (Claims.Admitted s 0x39 r x → ∀ id, id = beAt r.payload 0 2 →
      ((s.dev.model id).state ≠ 2 → Yields (exec (.modelUnload r) s) (Claims.Replies s r x 0x39 0x0106 (beBytes 2 0))) ∧
      ((s.dev.model id).state = 2 → s.dev.modelUsers id ≠ 0 → Yields (exec (.modelUnload r) s) (Claims.Replies s r x 0x39 0x020A [])) ∧
      ((s.dev.model id).state = 2 → s.dev.modelUsers id = 0 → Yields (exec (.modelUnload r) s) (fun t =>
        t.dev.model id = .empty ∧ t.mem.byte (ctxRecord (modelCtx id) + 6) = 0 ∧ ∃ q, Claims.Answers t r 0x39 0 [] q))) ∧
    (Claims.Admitted s 0x8A r x → x.rxHigh < 281474976710656 → x.txSeq + 64 < 281474976710656 →
      ∀ ready, ready = (s.dev.on SEC.STATE_MAINT && s.dev.boot.hppr.isNone && s.dev.on (MEM.RETIRE_PAGE_VALID (beAt r.payload 0 1))) →
      (ready = true → Yields (exec (.hppr r) s) (fun t =>
        t.dev.boot.hppr = some (r.session, r.reqId, [beAt r.payload 0 1]) ∧ Claims.Answers t r 0x8A 1 [] (x.txSeq + 1))) ∧
      (ready = false → Yields (exec (.hppr r) s) (Claims.Replies s r x 0x8A 0x0106 (beBytes 2 0)))) ∧
    (s.dev.dead = false →
      (∀ id j rest d, takeLoad id s.dev.arr.loads = some (j, rest) → d = { s.dev with arr := { s.dev.arr with loads := rest } } →
        Yields (exec (.modelLoadDone id) s) (fun t => t.dev.arr.loads = rest ∧
          (j.status ≠ 0 → t.dev.model id = s.dev.model id ∧ Claims.Ended s t j.session j.reqId (0x0200 + j.status) (beBytes 2 id)) ∧
          (j.status = 0 → d.loadOver id (d.model id) = true →
            t.dev.model id = .empty ∧ Claims.Ended s t j.session j.reqId 0x0209 (beBytes 2 id)) ∧
          (j.status = 0 → d.loadOver id (d.model id) = false → (t.dev.model id).state = 2 ∧
            t.mem.byte (ctxRecord (modelCtx id) + 6) = 1 ∧ Claims.Ended s t j.session j.reqId 0x0200 (beBytes 2 id)))) ∧
      (∀ ok i rest, takeInstall false s.dev.boot.installs = some (i, rest) →
        Yields (exec (.fwInstallDone ok) s) (fun t => t.dev.boot.installs = rest ∧
          tabGet [] t.dev.boot.flashFw i.slot = (if ok then i.image else []) ∧
          Claims.Ended s t i.session i.reqId (if ok then 0 else 0x010C) [])) ∧
      (∀ ok i rest, takeInstall true s.dev.boot.installs = some (i, rest) →
        Yields (exec (.topcoatInstallDone ok) s) (fun t => t.dev.boot.installs = rest ∧
          tabGet [] t.dev.boot.flashTc i.slot = (if ok then i.image else []) ∧ bit (t.dev.fld SEC.BOOT_STAT_TC_FAIL) i.slot = false ∧
          Claims.Ended s t i.session i.reqId (if ok then 0 else 0x010C) [])) ∧
      (∀ h, s.dev.boot.hppr = some h → Yields (exec .hpprDone s) (fun t => t.dev.boot.hppr = none ∧ Claims.Ended s t h.1 h.2.1 0 [] ∧
        ∀ i ∈ h.2.2, ∀ k, k < 65536 → t.mem.bad (65536 * s.dev.fld (MEM.RETIRE_PAGE_PPN i) + k) = true)))

/-- CLOSE ends its session, SUBSCRIBE sets what it wants to hear, and an idle session ends. CLOSE is answered and ends the session.
SUBSCRIBE sets the mask and the lowest severity of its session, changes no other session, no register and no memory.
SESSION_IDLE_TIMEOUT ends each session whose last accepted packet is SESS_IDLE seconds old, and leaves the others. -/
def Obligations.SessionsCloseAndSubscribe : Prop :=
  (∀ (s : State) (r : Req) (x : Session),
    (Claims.Admitted s 0x03 r x → Yields (exec (.close r) s) (fun t =>
      Claims.Replies s r x 0x03 0 [] t ∧ t.dev.session r.session = none)) ∧
    (Claims.Admitted s 0x06 r x → x.rxHigh < 281474976710656 → x.txSeq + 1 < 281474976710656 → Yields (exec (.subscribe r) s) (fun t =>
      Claims.Replies s r x 0x06 0 [] t ∧
      (∃ y, t.dev.session r.session = some y ∧ y.mask = beAt r.payload 0 1 ∧ y.minSev = beAt r.payload 1 1 ∧ y.role = x.role) ∧
      ∀ n, n ≠ r.session → t.dev.session n = s.dev.session n))) ∧
  (∀ s : State, s.dev.dead = false → Yields (exec .sessionIdleTimeout s) (fun t =>
    RegsKept [] s.dev t.dev ∧
    ∀ n x, 1 ≤ n → n ≤ 8 → s.dev.session n = some x → t.dev.session n =
      (if x.lastAt + sCycles (s.dev.fld ETH.CMD_CTRL_SESS_IDLE) ≤ s.dev.now then none else some x)))

/-- SLOT_SELECT, RESTART, MAINT, SEAL_BREAK and DEBUG_OPEN change the slot, restart, maintenance, the seal and debug. SLOT_SELECT puts its
slot into NEXT with TRIAL 1. RESTART has a warm restart fall due 1 ms later with cause 3, the end of maintenance at once. Entering
maintenance sets MAINT and source 516 and ends every session; it is refused in maintenance and on the lead of a pair with a ready
standby, leaving is refused outside maintenance. With a staged token, SEAL_BREAK in maintenance opens the seal exactly where the token
engine accepts it, and DEBUG_OPEN without the fuse opens debug for the pairs of its scope, sets source 517 and ends every session; a
refused token sets source 519. The stage is freed either way. SEAL_BREAK outside maintenance, and DEBUG_OPEN with the fuse, are refused
with STATE. STATUS_TEST is answered and changes no register. -/
def Obligations.MaintenanceSealAndDebugRequests : Prop :=
  ∀ (s : State) (r : Req) (x : Session),
    (Claims.Admitted s 0x85 r x → Yields (exec (.slotSelect r) s) (fun t =>
      t.dev.fld SEC.BOOT_SEL_NEXT = beAt r.payload 0 1 ∧ t.dev.on SEC.BOOT_SEL_TRIAL = true ∧ Claims.Answers t r 0x85 0 [] (x.txSeq + 1))) ∧
    (Claims.Admitted s 0x86 r x → Yields (exec (.restart r) s) (fun t =>
      Claims.Replies s r x 0x86 0 [] t ∧ (s.dev.cmd.restartAt = none → t.dev.cmd.restartAt = some (s.dev.now + msCycles 1, 3)))) ∧
    (Claims.Admitted s 0x87 { r with payload := [1] } x →
      (s.dev.on SEC.STATE_MAINT = false → (s.dev.fld TWN.STAT_STATE = 2 → s.dev.fld TWN.PEER_STATE ≠ 4) →
        Yields (exec (.maintEnter r) s) (fun t =>
          t.dev.on SEC.STATE_MAINT = true ∧ t.dev.isSet 516 = true ∧ ∀ n, 1 ≤ n → n ≤ 8 → t.dev.session n = none)) ∧
      (s.dev.on SEC.STATE_MAINT = true ∨ (s.dev.fld TWN.STAT_STATE = 2 ∧ s.dev.fld TWN.PEER_STATE = 4) →
        Yields (exec (.maintEnter r) s) (Claims.Replies s r x 0x87 0x0106 (beBytes 2 0)))) ∧
    (Claims.Admitted s 0x87 { r with payload := [0] } x →
      (s.dev.on SEC.STATE_MAINT = true → s.dev.cmd.restartAt = none → Yields (exec (.maintLeave r) s) (fun t =>
        t.dev.cmd.restartAt = some (s.dev.now, 3) ∧ Claims.Replies s r x 0x87 0 [] t ∧ ∀ n, 1 ≤ n → n ≤ 8 → t.dev.session n = none)) ∧
      (s.dev.on SEC.STATE_MAINT = false → Yields (exec (.maintLeave r) s) (Claims.Replies s r x 0x87 0x0106 (beBytes 2 0)))) ∧
    (Claims.Admitted s 0x88 r x →
      (s.dev.on SEC.STATE_MAINT = false → Yields (exec (.sealBreak r) s) (Claims.Replies s r x 0x88 0x0106 (beBytes 2 0))) ∧
      (s.dev.on SEC.STATE_MAINT = true → ∀ g, tabGet none s.dev.cmd.stages (beAt r.payload 0 1) = some g → g.session = r.session → g.kind = 3 →
        Yields (exec (.sealBreak r) s) (fun t =>
          tabGet none t.dev.cmd.stages (beAt r.payload 0 1) = none ∧
          (((Claims.entered s r x).takeToken 2 g.image).1 = true → t.dev.on SEC.STATE_SEALED = false) ∧
          (((Claims.entered s r x).takeToken 2 g.image).1 = false →
            t.dev.isSet 519 = true ∧ t.dev.on SEC.STATE_SEALED = s.dev.on SEC.STATE_SEALED)))) ∧
    (Claims.Admitted s 0x89 r x →
      (fuseOr s.dev.boot.fuses.debugDisable ≠ 0 → Yields (exec (.debugOpen r) s) (Claims.Replies s r x 0x89 0x0106 (beBytes 2 0))) ∧
      (fuseOr s.dev.boot.fuses.debugDisable = 0 → ∀ g, tabGet none s.dev.cmd.stages (beAt r.payload 0 1) = some g → g.session = r.session →
        g.kind = 3 → Yields (exec (.debugOpen r) s) (fun t =>
          tabGet none t.dev.cmd.stages (beAt r.payload 0 1) = none ∧
          (((Claims.entered s r x).takeToken 1 g.image).1 = true →
            t.dev.on SEC.STATE_DEBUG_OPEN = true ∧ t.dev.fld SEC.DEBUG_PAIRS = leAt (imgPayload g.image) 4 4 % 1024 ∧ t.dev.isSet 517 = true ∧
            ∀ n, 1 ≤ n → n ≤ 8 → t.dev.session n = none) ∧
          (((Claims.entered s r x).takeToken 1 g.image).1 = false →
            t.dev.isSet 519 = true ∧ t.dev.on SEC.STATE_DEBUG_OPEN = s.dev.on SEC.STATE_DEBUG_OPEN)))) ∧
    (Claims.Admitted s 0xA2 r x → Yields (exec (.statusTest r) s) (Claims.Replies s r x 0xA2 0 []))

/-- TWIN_HANDOVER proposes a handover on the lead with a ready standby, and TWIN_PAIR and TWIN_UNPAIR write PAIR. On the lead of a pair
whose standby is ready, without a planned handover, TWIN_HANDOVER to a frame 4 or more ahead (0: the fourth) stays pending with the
handover planned; otherwise it is refused with STATE. TWIN_PAIR sets PAIR where the strap allows it and is refused with STATE otherwise;
TWIN_UNPAIR clears PAIR. That their operation ends at once is the model's choice (log entry 47). -/
def Obligations.TwinRequestsProposeAndPair : Prop :=
  ∀ (s : State) (r : Req) (x : Session), x.rxHigh < 281474976710656 → x.txSeq + 64 < 281474976710656 →
    (Claims.Admitted s 0x91 r x → ∀ f, f = (if beAt r.payload 0 4 = 0 then frameAdd s.dev.frame 4 else beAt r.payload 0 4) →
      (s.dev.fld TWN.STAT_STATE = 2 → s.dev.fld TWN.PEER_STATE = 4 → s.dev.twin.handover = none →
        4 ≤ (f + 4294967296 - s.dev.frame) % 4294967296 → (f + 4294967296 - s.dev.frame) % 4294967296 ≤ 2147483647 →
        Yields (exec (.twinHandover r) s) (fun t => t.dev.twin.handover = some ⟨f, true, false, some (r.session, r.reqId)⟩)) ∧
      (s.dev.fld TWN.STAT_STATE ≠ 2 ∨ s.dev.fld TWN.PEER_STATE ≠ 4 ∨ s.dev.twin.handover ≠ none ∨
          (f + 4294967296 - s.dev.frame) % 4294967296 < 4 ∨ 2147483647 < (f + 4294967296 - s.dev.frame) % 4294967296 →
        Yields (exec (.twinHandover r) s) (fun t =>
          Claims.Replies s r x 0x91 0x0106 (beBytes 2 0) t ∧ t.dev.twin = s.dev.twin))) ∧
    (Claims.Admitted s 0x92 { r with payload := [1] } x →
      (s.dev.on PWR.STRAP_TWIN_EN = true → Yields (exec (.twinPair r) s) (fun t => t.dev.on TWN.CTRL_PAIR = true)) ∧
      (s.dev.on PWR.STRAP_TWIN_EN = false → Yields (exec (.twinPair r) s) (Claims.Replies s r x 0x92 0x0106 (beBytes 2 0)))) ∧
    (Claims.Admitted s 0x92 { r with payload := [0] } x → Yields (exec (.twinUnpair r) s) (fun t => t.dev.on TWN.CTRL_PAIR = false))

/-- A command packet is dropped and counted under the first case that applies, or runs as its command. A packet that is not addressed to an
open session of the device adds 1 to ADDR_DROP, one whose tag fails adds 1 to AUTH_DROP, one whose SEQ was accepted before adds 1 to
DUP; of the first and the last nothing else changes. A whole message in SESSION 0 with opcode 1 or 2 is the command HELLO or AUTH; one
in an open session under a fresh SEQ is the request's command, with the SEQ accepted. Fragments older than 100 ms are forgotten at
FRAGMENT_TIMEOUT. -/
def Obligations.PacketsAreCheckedCountedAndRun : Prop :=
  (∀ (s : State) (k : Datagram) (plain : List Byte), s.dev.dead = false → s.dev.memsys.writes = [] → s.dev.endpoint = true →
    s.dev.on ETH.CMD_INJ_ARM = false →
    (s.dev.addressed k = false → Yields (exec (.commandPacket k) s) (fun t =>
      t.dev.fld ETH.CMD_STAT_ADDR_DROP = satAdd (2 ^ ETH.CMD_STAT_ADDR_DROP.width - 1) (s.dev.fld ETH.CMD_STAT_ADDR_DROP) 1
        % 2 ^ ETH.CMD_STAT_ADDR_DROP.width ∧ RegsOnly [ETH.CMD_STAT_ADDR_DROP.key] s t)) ∧
    (s.dev.addressed k = true → s.dev.openPacket k.bytes = none → Yields (exec (.commandPacket k) s) (fun t =>
      t.dev.fld ETH.CMD_STAT_AUTH_DROP = satAdd (2 ^ ETH.CMD_STAT_AUTH_DROP.width - 1) (s.dev.fld ETH.CMD_STAT_AUTH_DROP) 1
        % 2 ^ ETH.CMD_STAT_AUTH_DROP.width)) ∧
    (s.dev.addressed k = true → s.dev.openPacket k.bytes = some plain →
      (∀ x, pktSession k.bytes ≠ 0 → s.dev.session (pktSession k.bytes) = some x → fresh x (pktSeq k.bytes) = false →
        Yields (exec (.commandPacket k) s) (fun t =>
          t.dev.fld ETH.CMD_STAT_DUP = satAdd (2 ^ ETH.CMD_STAT_DUP.width - 1) (s.dev.fld ETH.CMD_STAT_DUP) 1 % 2 ^ ETH.CMD_STAT_DUP.width ∧
          RegsOnly [ETH.CMD_STAT_DUP.key] s t)) ∧
      (s.dev.cmd.partials = [] → beAt k.bytes 24 4 = 0 → beAt k.bytes 28 4 = plain.length → plain.length ≤ 65536 → bit (pktFlags k.bytes) 3 = false →
        (pktSession k.bytes = 0 → ∀ h, h = (⟨k.srcAddr, k.srcPort, beAt k.bytes 16 4, bit (pktFlags k.bytes) 2, beAt k.bytes 2 1, plain⟩ : Hand) →
          (pktOp k.bytes = 1 → exec (.commandPacket k) s = exec (.hello h) s) ∧ (pktOp k.bytes = 2 → exec (.commandPacket k) s = exec (.auth h) s)) ∧
        (∀ x, pktSession k.bytes ≠ 0 → s.dev.session (pktSession k.bytes) = some x → fresh x (pktSeq k.bytes) = true →
          ∀ r, r = (⟨pktSession k.bytes, beAt k.bytes 16 4, bit (pktFlags k.bytes) 2, plain⟩ : Req) →
          ∀ c ∈ Claims.requests, c.1 = pktOp k.bytes → Claims.fixed c.2.1 r = r →
            exec (.commandPacket k) s =
              exec (c.2.2 r) { s with dev := s.dev.withSession (pktSession k.bytes) (some (takeSeq x (pktSeq k.bytes))) })))) ∧
  (∀ s : State, s.dev.dead = false → s.dev.memsys.writes = [] → Yields (exec .fragmentTimeout s) (fun t =>
    t.dev.cmd.partials = s.dev.cmd.partials.filter (fun q => decide (s.dev.now ≤ q.at_ + msCycles 100)) ∧
    Frame [] (fun d => { d with cmd := { d.cmd with partials := [] } }) s t))

/-- HELLO starts a handshake and AUTH ends it in an open session exactly where both signatures verify. A HELLO that is not a retry of a
handshake in progress, on a device that accepts sessions: a wrong version, length, field, role or key, and the lack of a session, leave
the handshakes as they are, with the status of Table 11.3 in the reply; otherwise a handshake for the lowest free session joins those in
progress, with the peer's address, role and key. AUTH by its peer ends the handshake; where both host signatures verify, the session
opens with the handshake's role and SEQ 1, and otherwise no session changes and the reply says SIG_BAD. A handshake older than 1 s is
forgotten at HANDSHAKE_TIMEOUT. The SEQ of replies in SESSION 0 is a free value (log entry 6). -/
def Obligations.HandshakesOpenSessions : Prop :=
  (∀ (s : State) (h : Hand), s.dev.dead = false → s.dev.endpoint = true →
    (s.dev.handshakes.find? (fun x => x.addr == h.addr && x.port == h.port && x.reqId == h.reqId && h.retry) = none →
      (∀ code, (h.version ≠ 1 ∧ code = 0x0013) ∨ (h.version = 1 ∧ h.payload.length ≠ 1252 ∧ code = 0x0101) ∨
          (h.version = 1 ∧ h.payload.length = 1252 ∧ h.reqId = 0 ∧ code = 0x0102) ∨
          (h.version = 1 ∧ h.payload.length = 1252 ∧ h.reqId ≠ 0 ∧ beAt h.payload 0 1 ≤ 15 ∧ beAt h.payload 1 1 ≤ 2 ∧
            slice h.payload 2 2 = [0, 0] ∧ s.dev.on SEC.STATE_BOOT_DONE = false ∧ code = 0x0010) →
        Yields (exec (.hello h) s) (fun t =>
          (∃ m, m ∈ t.dev.cmd.outbox ∧ m.session = 0 ∧ m.opcode = 1 ∧ m.reqId = h.reqId ∧ m.status = code ∧ m.payload = [] ∧
            m.peer = (h.addr, h.port)) ∧
          t.dev.cmd.handshakes = s.dev.cmd.handshakes ∧ t.dev.cmd.sessions = s.dev.cmd.sessions)) ∧
      (∀ n k, h.version = 1 → h.payload.length = 1252 → h.reqId ≠ 0 → beAt h.payload 0 1 ≤ 15 → beAt h.payload 1 1 ≤ 2 →
        slice h.payload 2 2 = [0, 0] → s.dev.on SEC.STATE_BOOT_DONE = true → s.dev.on SEC.STATE_ENTROPY_OK = true → s.dev.handshakes.length < 2 →
        s.dev.freeSession = some n → tabGet none s.dev.boot.ctrlKeys (beAt h.payload 0 1) = some k → beAt h.payload 1 1 ≤ k.role →
        Yields (exec (.hello h) s) (fun t => t.dev.cmd.sessions = s.dev.cmd.sessions ∧ ∃ y, t.dev.cmd.handshakes = s.dev.handshakes ++ [y] ∧
          y.session = n ∧ y.addr = h.addr ∧ y.port = h.port ∧ y.reqId = h.reqId ∧ y.role = beAt h.payload 1 1 ∧ y.keyIndex = beAt h.payload 0 1 ∧
          y.hello = h.payload ∧ y.at_ = s.dev.now ∧ y.reply.status = 0 ∧ y.reply.payload.length = 4 + 32 + 32 + 1088 + 64 + 3309 ∧
          y.reply ∈ t.dev.cmd.outbox))) ∧
    (∀ y, h.payload.length = 3373 → h.reqId ≠ 0 →
      s.dev.handshakes.reverse.find? (fun x => x.addr == h.addr && x.port == h.port) = some y →
      Yields (exec (.auth h) s) (fun t =>
        t.dev.cmd.handshakes = s.dev.handshakes.filter (fun z => z.session != y.session) ∧
        (s.dev.authOk y h.payload = true → ∃ z, t.dev.session y.session = some z ∧ z.role = y.role ∧ z.keyIndex = y.keyIndex ∧ z.addr = y.addr ∧
          z.port = y.port ∧ z.txSeq = 1 ∧ z.rxHigh = 0 ∧ z.keys = y.keys ∧ z.ops = [] ∧ z.cache = []) ∧
        (s.dev.authOk y h.payload = false → t.dev.cmd.sessions = s.dev.cmd.sessions ∧
          ∃ m, m ∈ t.dev.cmd.outbox ∧ m.session = 0 ∧ m.opcode = 2 ∧ m.reqId = h.reqId ∧ m.status = 0x0012)))) ∧
  (∀ s : State, s.dev.dead = false → s.dev.memsys.writes = [] → Yields (exec .handshakeTimeout s) (fun t =>
    t.dev.cmd.handshakes = s.dev.cmd.handshakes.filter (fun y => decide (s.dev.now < y.at_ + sCycles 1)) ∧
    Frame [] (fun d => { d with cmd := { d.cmd with handshakes := [] } }) s t))
end

