-- ==== Sys2Proof/Laws/Tab.lean ====
section
/-!
SUPPORT. The laws of sparse tables: a read after a write, other keys, and the canonical form.
-/

namespace Sys2Proof.Machine

theorem tabGet_erase_same {α : Type} (z : α) (t : Tab α) (i : Nat) : tabGet z (tabErase t i) i = z := by
  induction t with
  | nil => rfl
  | cons e t ih =>
    by_cases h : e.1 = i
    · simpa [tabErase, h] using ih
    · have hb : (e.1 != i) = true := by simpa using h
      simpa [tabErase, List.filter_cons, hb, tabGet, h] using ih

theorem tabGet_erase_other {α : Type} (z : α) (t : Tab α) {i j : Nat} (h : j ≠ i) :
    tabGet z (tabErase t i) j = tabGet z t j := by
  induction t with
  | nil => rfl
  | cons e t ih =>
    by_cases he : e.1 = i
    · have hj : ¬ e.1 = j := fun hh => h (hh.symm.trans he)
      have hb : (e.1 != i) = false := by simpa using he
      simpa [tabErase, List.filter_cons, hb, tabGet, hj] using ih
    · have hb : (e.1 != i) = true := by simpa using he
      by_cases hj : e.1 = j
      · subst hj
        simp [tabErase, h, tabGet]
      · simpa [tabErase, List.filter_cons, hb, tabGet, hj] using ih

theorem tabGet_insert_same {α : Type} (z : α) (t : Tab α) (i : Nat) (v : α) (h : ∀ e ∈ t, e.1 ≠ i) :
    tabGet z (tabInsert i v t) i = v := by
  induction t with
  | nil => simp [tabInsert, tabGet]
  | cons e t ih =>
    have he : ¬ e.1 = i := h e (by simp)
    by_cases hl : i < e.1
    · simp [tabInsert, hl, tabGet]
    · simpa [tabInsert, hl, tabGet, he] using ih (fun x hx => h x (by simp [hx]))

theorem tabGet_insert_other {α : Type} (z : α) (t : Tab α) {i j : Nat} (v : α) (h : j ≠ i) :
    tabGet z (tabInsert i v t) j = tabGet z t j := by
  have hij : ¬ i = j := fun hh => h hh.symm
  induction t with
  | nil => simp [tabInsert, tabGet, hij]
  | cons e t ih =>
    by_cases hl : i < e.1
    · simp [tabInsert, hl, tabGet, hij]
    · simp only [tabInsert, hl, if_false, tabGet, ih]

theorem tabErase_ne {α : Type} (t : Tab α) (i : Nat) : ∀ e ∈ tabErase t i, e.1 ≠ i := by
  intro e he
  have := (List.mem_filter.mp he).2
  simpa using this

/-- A read of the key just written gives the value written. -/
@[simp] theorem tabGet_set_same {α : Type} [DecidableEq α] (z : α) (t : Tab α) (i : Nat) (v : α) :
    tabGet z (tabSet z t i v) i = v := by
  unfold tabSet
  split
  · rename_i h; rw [tabGet_erase_same, h]
  · exact tabGet_insert_same z _ i v (tabErase_ne t i)

/-- A write leaves every other key alone. -/
theorem tabGet_set_other {α : Type} [DecidableEq α] (z : α) (t : Tab α) {i j : Nat} (v : α) (h : j ≠ i) :
    tabGet z (tabSet z t i v) j = tabGet z t j := by
  unfold tabSet
  split
  · exact tabGet_erase_other z t h
  · rw [tabGet_insert_other z _ v h, tabGet_erase_other z t h]

/-- A write leaves every other key alone, whatever an unlisted key reads as. -/
theorem tabGet_set_elsewhere {α : Type} [DecidableEq α] (y z : α) (t : Tab α) {i j : Nat} (v : α) (h : j ≠ i) :
    tabGet y (tabSet z t i v) j = tabGet y t j := by
  unfold tabSet
  split
  · exact tabGet_erase_other y t h
  · rw [tabGet_insert_other y _ v h, tabGet_erase_other y t h]

/-- A read of any key after a write. -/
theorem tabGet_set {α : Type} [DecidableEq α] (z : α) (t : Tab α) (i j : Nat) (v : α) :
    tabGet z (tabSet z t i v) j = if j = i then v else tabGet z t j := by
  by_cases h : j = i
  · subst h; simp
  · simp [h, tabGet_set_other z t v h]

@[simp] theorem tabGet_nil {α : Type} (z : α) (i : Nat) : tabGet z ([] : Tab α) i = z := rfl

theorem tabSorted_tail {α : Type} {e : Nat × α} {t : Tab α} (h : tabSorted (e :: t) = true) :
    tabSorted t = true := by
  cases t with
  | nil => rfl
  | cons b t => simp [tabSorted] at h; exact h.2

theorem tabSorted_lt {α : Type} {e : Nat × α} {t : Tab α} (h : tabSorted (e :: t) = true) :
    ∀ x ∈ t, e.1 < x.1 := by
  induction t generalizing e with
  | nil => simp
  | cons b t ih =>
    simp [tabSorted] at h
    intro x hx
    rcases List.mem_cons.mp hx with rfl | hx
    · exact h.1
    · exact lt_trans h.1 (ih h.2 x hx)

theorem tabSorted_cons {α : Type} {e : Nat × α} {t : Tab α} (ht : tabSorted t = true)
    (h : ∀ x ∈ t, e.1 < x.1) : tabSorted (e :: t) = true := by
  cases t with
  | nil => rfl
  | cons b t => simp [tabSorted, ht, h b (by simp)]

theorem tabErase_sorted {α : Type} {t : Tab α} (i : Nat) (h : tabSorted t = true) :
    tabSorted (tabErase t i) = true := by
  induction t with
  | nil => rfl
  | cons e t ih =>
    have ht := ih (tabSorted_tail h)
    by_cases he : e.1 = i
    · simpa [tabErase, List.filter_cons, he] using ht
    · have hb : (e.1 != i) = true := by simpa using he
      have : tabErase (e :: t) i = e :: tabErase t i := by simp [tabErase, hb]
      rw [this]
      exact tabSorted_cons ht (fun x hx => tabSorted_lt h x (List.mem_filter.mp hx).1)

theorem mem_tabInsert {α : Type} {i : Nat} {v : α} {t : Tab α} {x : Nat × α} (h : x ∈ tabInsert i v t) :
    x = (i, v) ∨ x ∈ t := by
  induction t with
  | nil => simpa [tabInsert] using h
  | cons e t ih =>
    by_cases hl : i < e.1
    · simpa [tabInsert, hl] using h
    · simp only [tabInsert, hl, if_false, List.mem_cons] at h
      rcases h with h | h
      · simp [h]
      · rcases ih h with h | h
        · exact .inl h
        · simp [h]

theorem tabInsert_sorted {α : Type} {t : Tab α} {i : Nat} (v : α) (h : tabSorted t = true)
    (hi : ∀ e ∈ t, e.1 ≠ i) : tabSorted (tabInsert i v t) = true := by
  induction t with
  | nil => rfl
  | cons e t ih =>
    by_cases hl : i < e.1
    · simp only [tabInsert, hl, if_true]
      exact tabSorted_cons h (fun x hx => by
        rcases List.mem_cons.mp hx with rfl | hx
        · exact hl
        · exact lt_trans hl (tabSorted_lt h x hx))
    · simp only [tabInsert, hl, if_false]
      have hne : e.1 ≠ i := hi e (by simp)
      refine tabSorted_cons (ih (tabSorted_tail h) (fun x hx => hi x (by simp [hx]))) (fun x hx => ?_)
      rcases mem_tabInsert hx with rfl | hx
      · exact lt_of_le_of_ne (Nat.le_of_not_lt hl) hne
      · exact tabSorted_lt h x hx

/-- A write keeps the canonical form. -/
theorem tabSet_wf {α : Type} [DecidableEq α] {z : α} {t : Tab α} (i : Nat) (v : α) (h : tabWf z t = true) :
    tabWf z (tabSet z t i v) = true := by
  simp only [tabWf, Bool.and_eq_true, List.all_eq_true] at h ⊢
  obtain ⟨hs, ha⟩ := h
  have hea : ∀ x ∈ tabErase t i, (x.2 != z) = true := fun x hx => ha x (List.mem_filter.mp hx).1
  unfold tabSet
  split
  · exact ⟨tabErase_sorted i hs, hea⟩
  · rename_i hv
    refine ⟨tabInsert_sorted v (tabErase_sorted i hs) (tabErase_ne t i), fun x hx => ?_⟩
    rcases mem_tabInsert hx with rfl | hx
    · simpa using hv
    · exact hea x hx

theorem tabWf_nil {α : Type} [DecidableEq α] (z : α) : tabWf z ([] : Tab α) = true := rfl

end Sys2Proof.Machine
end

