-- ==== Sys2Proof/Laws/State.lean ====
section
/-!
SUPPORT. What each shared update of the device changes, one lemma for each field of the state and each update, and the laws of register fields.
-/

namespace Sys2Proof.Machine

/-! `Dev.put` changes `regs` only. -/

@[simp] theorem Dev.put_now (d : Dev) (f : Fld) (v : Nat) : (d.put f v).now = d.now := rfl
@[simp] theorem Dev.put_staged (d : Dev) (f : Fld) (v : Nat) : (d.put f v).staged = d.staged := rfl
@[simp] theorem Dev.put_capture (d : Dev) (f : Fld) (v : Nat) : (d.put f v).capture = d.capture := rfl
@[simp] theorem Dev.put_resp (d : Dev) (f : Fld) (v : Nat) : (d.put f v).resp = d.resp := rfl
@[simp] theorem Dev.put_hwSet (d : Dev) (f : Fld) (v : Nat) : (d.put f v).hwSet = d.hwSet := rfl
@[simp] theorem Dev.put_free (d : Dev) (f : Fld) (v : Nat) : (d.put f v).free = d.free := rfl
@[simp] theorem Dev.put_drbg (d : Dev) (f : Fld) (v : Nat) : (d.put f v).drbg = d.drbg := rfl
@[simp] theorem Dev.put_snag (d : Dev) (f : Fld) (v : Nat) : (d.put f v).snag = d.snag := rfl
@[simp] theorem Dev.put_ladder (d : Dev) (f : Fld) (v : Nat) : (d.put f v).ladder = d.ladder := rfl
@[simp] theorem Dev.put_watch (d : Dev) (f : Fld) (v : Nat) : (d.put f v).watch = d.watch := rfl
@[simp] theorem Dev.put_skim (d : Dev) (f : Fld) (v : Nat) : (d.put f v).skim = d.skim := rfl
@[simp] theorem Dev.put_sig (d : Dev) (f : Fld) (v : Nat) : (d.put f v).sig = d.sig := rfl
@[simp] theorem Dev.put_arr (d : Dev) (f : Fld) (v : Nat) : (d.put f v).arr = d.arr := rfl
@[simp] theorem Dev.put_plan (d : Dev) (f : Fld) (v : Nat) : (d.put f v).plan = d.plan := rfl
@[simp] theorem Dev.put_memsys (d : Dev) (f : Fld) (v : Nat) : (d.put f v).memsys = d.memsys := rfl
@[simp] theorem Dev.put_links (d : Dev) (f : Fld) (v : Nat) : (d.put f v).links = d.links := rfl
@[simp] theorem Dev.put_gate (d : Dev) (f : Fld) (v : Nat) : (d.put f v).gate = d.gate := rfl
@[simp] theorem Dev.put_time (d : Dev) (f : Fld) (v : Nat) : (d.put f v).time = d.time := rfl
@[simp] theorem Dev.put_net (d : Dev) (f : Fld) (v : Nat) : (d.put f v).net = d.net := rfl
@[simp] theorem Dev.put_cmd (d : Dev) (f : Fld) (v : Nat) : (d.put f v).cmd = d.cmd := rfl
@[simp] theorem Dev.put_cores (d : Dev) (f : Fld) (v : Nat) : (d.put f v).cores = d.cores := rfl
@[simp] theorem Dev.put_boot (d : Dev) (f : Fld) (v : Nat) : (d.put f v).boot = d.boot := rfl
@[simp] theorem Dev.put_health (d : Dev) (f : Fld) (v : Nat) : (d.put f v).health = d.health := rfl
@[simp] theorem Dev.put_twin (d : Dev) (f : Fld) (v : Nat) : (d.put f v).twin = d.twin := rfl
@[simp] theorem Dev.put_power (d : Dev) (f : Fld) (v : Nat) : (d.put f v).power = d.power := rfl

/-! `Dev.flag` changes `regs` only. -/

@[simp] theorem Dev.flag_now (d : Dev) (f : Fld) (b : Bool) : (d.flag f b).now = d.now := rfl
@[simp] theorem Dev.flag_staged (d : Dev) (f : Fld) (b : Bool) : (d.flag f b).staged = d.staged := rfl
@[simp] theorem Dev.flag_capture (d : Dev) (f : Fld) (b : Bool) : (d.flag f b).capture = d.capture := rfl
@[simp] theorem Dev.flag_resp (d : Dev) (f : Fld) (b : Bool) : (d.flag f b).resp = d.resp := rfl
@[simp] theorem Dev.flag_hwSet (d : Dev) (f : Fld) (b : Bool) : (d.flag f b).hwSet = d.hwSet := rfl
@[simp] theorem Dev.flag_free (d : Dev) (f : Fld) (b : Bool) : (d.flag f b).free = d.free := rfl
@[simp] theorem Dev.flag_drbg (d : Dev) (f : Fld) (b : Bool) : (d.flag f b).drbg = d.drbg := rfl
@[simp] theorem Dev.flag_snag (d : Dev) (f : Fld) (b : Bool) : (d.flag f b).snag = d.snag := rfl
@[simp] theorem Dev.flag_ladder (d : Dev) (f : Fld) (b : Bool) : (d.flag f b).ladder = d.ladder := rfl
@[simp] theorem Dev.flag_watch (d : Dev) (f : Fld) (b : Bool) : (d.flag f b).watch = d.watch := rfl
@[simp] theorem Dev.flag_skim (d : Dev) (f : Fld) (b : Bool) : (d.flag f b).skim = d.skim := rfl
@[simp] theorem Dev.flag_sig (d : Dev) (f : Fld) (b : Bool) : (d.flag f b).sig = d.sig := rfl
@[simp] theorem Dev.flag_arr (d : Dev) (f : Fld) (b : Bool) : (d.flag f b).arr = d.arr := rfl
@[simp] theorem Dev.flag_plan (d : Dev) (f : Fld) (b : Bool) : (d.flag f b).plan = d.plan := rfl
@[simp] theorem Dev.flag_memsys (d : Dev) (f : Fld) (b : Bool) : (d.flag f b).memsys = d.memsys := rfl
@[simp] theorem Dev.flag_links (d : Dev) (f : Fld) (b : Bool) : (d.flag f b).links = d.links := rfl
@[simp] theorem Dev.flag_gate (d : Dev) (f : Fld) (b : Bool) : (d.flag f b).gate = d.gate := rfl
@[simp] theorem Dev.flag_time (d : Dev) (f : Fld) (b : Bool) : (d.flag f b).time = d.time := rfl
@[simp] theorem Dev.flag_net (d : Dev) (f : Fld) (b : Bool) : (d.flag f b).net = d.net := rfl
@[simp] theorem Dev.flag_cmd (d : Dev) (f : Fld) (b : Bool) : (d.flag f b).cmd = d.cmd := rfl
@[simp] theorem Dev.flag_cores (d : Dev) (f : Fld) (b : Bool) : (d.flag f b).cores = d.cores := rfl
@[simp] theorem Dev.flag_boot (d : Dev) (f : Fld) (b : Bool) : (d.flag f b).boot = d.boot := rfl
@[simp] theorem Dev.flag_health (d : Dev) (f : Fld) (b : Bool) : (d.flag f b).health = d.health := rfl
@[simp] theorem Dev.flag_twin (d : Dev) (f : Fld) (b : Bool) : (d.flag f b).twin = d.twin := rfl
@[simp] theorem Dev.flag_power (d : Dev) (f : Fld) (b : Bool) : (d.flag f b).power = d.power := rfl

/-! `Dev.count` changes `regs` only. -/

@[simp] theorem Dev.count_now (d : Dev) (f : Fld) (n : Nat) : (d.count f n).now = d.now := rfl
@[simp] theorem Dev.count_staged (d : Dev) (f : Fld) (n : Nat) : (d.count f n).staged = d.staged := rfl
@[simp] theorem Dev.count_capture (d : Dev) (f : Fld) (n : Nat) : (d.count f n).capture = d.capture := rfl
@[simp] theorem Dev.count_resp (d : Dev) (f : Fld) (n : Nat) : (d.count f n).resp = d.resp := rfl
@[simp] theorem Dev.count_hwSet (d : Dev) (f : Fld) (n : Nat) : (d.count f n).hwSet = d.hwSet := rfl
@[simp] theorem Dev.count_free (d : Dev) (f : Fld) (n : Nat) : (d.count f n).free = d.free := rfl
@[simp] theorem Dev.count_drbg (d : Dev) (f : Fld) (n : Nat) : (d.count f n).drbg = d.drbg := rfl
@[simp] theorem Dev.count_snag (d : Dev) (f : Fld) (n : Nat) : (d.count f n).snag = d.snag := rfl
@[simp] theorem Dev.count_ladder (d : Dev) (f : Fld) (n : Nat) : (d.count f n).ladder = d.ladder := rfl
@[simp] theorem Dev.count_watch (d : Dev) (f : Fld) (n : Nat) : (d.count f n).watch = d.watch := rfl
@[simp] theorem Dev.count_skim (d : Dev) (f : Fld) (n : Nat) : (d.count f n).skim = d.skim := rfl
@[simp] theorem Dev.count_sig (d : Dev) (f : Fld) (n : Nat) : (d.count f n).sig = d.sig := rfl
@[simp] theorem Dev.count_arr (d : Dev) (f : Fld) (n : Nat) : (d.count f n).arr = d.arr := rfl
@[simp] theorem Dev.count_plan (d : Dev) (f : Fld) (n : Nat) : (d.count f n).plan = d.plan := rfl
@[simp] theorem Dev.count_memsys (d : Dev) (f : Fld) (n : Nat) : (d.count f n).memsys = d.memsys := rfl
@[simp] theorem Dev.count_links (d : Dev) (f : Fld) (n : Nat) : (d.count f n).links = d.links := rfl
@[simp] theorem Dev.count_gate (d : Dev) (f : Fld) (n : Nat) : (d.count f n).gate = d.gate := rfl
@[simp] theorem Dev.count_time (d : Dev) (f : Fld) (n : Nat) : (d.count f n).time = d.time := rfl
@[simp] theorem Dev.count_net (d : Dev) (f : Fld) (n : Nat) : (d.count f n).net = d.net := rfl
@[simp] theorem Dev.count_cmd (d : Dev) (f : Fld) (n : Nat) : (d.count f n).cmd = d.cmd := rfl
@[simp] theorem Dev.count_cores (d : Dev) (f : Fld) (n : Nat) : (d.count f n).cores = d.cores := rfl
@[simp] theorem Dev.count_boot (d : Dev) (f : Fld) (n : Nat) : (d.count f n).boot = d.boot := rfl
@[simp] theorem Dev.count_health (d : Dev) (f : Fld) (n : Nat) : (d.count f n).health = d.health := rfl
@[simp] theorem Dev.count_twin (d : Dev) (f : Fld) (n : Nat) : (d.count f n).twin = d.twin := rfl
@[simp] theorem Dev.count_power (d : Dev) (f : Fld) (n : Nat) : (d.count f n).power = d.power := rfl

/-! `Dev.putStaged` changes `staged` only. -/

@[simp] theorem Dev.putStaged_now (d : Dev) (f : Fld) (v : Nat) : (d.putStaged f v).now = d.now := rfl
@[simp] theorem Dev.putStaged_regs (d : Dev) (f : Fld) (v : Nat) : (d.putStaged f v).regs = d.regs := rfl
@[simp] theorem Dev.putStaged_capture (d : Dev) (f : Fld) (v : Nat) : (d.putStaged f v).capture = d.capture := rfl
@[simp] theorem Dev.putStaged_resp (d : Dev) (f : Fld) (v : Nat) : (d.putStaged f v).resp = d.resp := rfl
@[simp] theorem Dev.putStaged_hwSet (d : Dev) (f : Fld) (v : Nat) : (d.putStaged f v).hwSet = d.hwSet := rfl
@[simp] theorem Dev.putStaged_free (d : Dev) (f : Fld) (v : Nat) : (d.putStaged f v).free = d.free := rfl
@[simp] theorem Dev.putStaged_drbg (d : Dev) (f : Fld) (v : Nat) : (d.putStaged f v).drbg = d.drbg := rfl
@[simp] theorem Dev.putStaged_snag (d : Dev) (f : Fld) (v : Nat) : (d.putStaged f v).snag = d.snag := rfl
@[simp] theorem Dev.putStaged_ladder (d : Dev) (f : Fld) (v : Nat) : (d.putStaged f v).ladder = d.ladder := rfl
@[simp] theorem Dev.putStaged_watch (d : Dev) (f : Fld) (v : Nat) : (d.putStaged f v).watch = d.watch := rfl
@[simp] theorem Dev.putStaged_skim (d : Dev) (f : Fld) (v : Nat) : (d.putStaged f v).skim = d.skim := rfl
@[simp] theorem Dev.putStaged_sig (d : Dev) (f : Fld) (v : Nat) : (d.putStaged f v).sig = d.sig := rfl
@[simp] theorem Dev.putStaged_arr (d : Dev) (f : Fld) (v : Nat) : (d.putStaged f v).arr = d.arr := rfl
@[simp] theorem Dev.putStaged_plan (d : Dev) (f : Fld) (v : Nat) : (d.putStaged f v).plan = d.plan := rfl
@[simp] theorem Dev.putStaged_memsys (d : Dev) (f : Fld) (v : Nat) : (d.putStaged f v).memsys = d.memsys := rfl
@[simp] theorem Dev.putStaged_links (d : Dev) (f : Fld) (v : Nat) : (d.putStaged f v).links = d.links := rfl
@[simp] theorem Dev.putStaged_gate (d : Dev) (f : Fld) (v : Nat) : (d.putStaged f v).gate = d.gate := rfl
@[simp] theorem Dev.putStaged_time (d : Dev) (f : Fld) (v : Nat) : (d.putStaged f v).time = d.time := rfl
@[simp] theorem Dev.putStaged_net (d : Dev) (f : Fld) (v : Nat) : (d.putStaged f v).net = d.net := rfl
@[simp] theorem Dev.putStaged_cmd (d : Dev) (f : Fld) (v : Nat) : (d.putStaged f v).cmd = d.cmd := rfl
@[simp] theorem Dev.putStaged_cores (d : Dev) (f : Fld) (v : Nat) : (d.putStaged f v).cores = d.cores := rfl
@[simp] theorem Dev.putStaged_boot (d : Dev) (f : Fld) (v : Nat) : (d.putStaged f v).boot = d.boot := rfl
@[simp] theorem Dev.putStaged_health (d : Dev) (f : Fld) (v : Nat) : (d.putStaged f v).health = d.health := rfl
@[simp] theorem Dev.putStaged_twin (d : Dev) (f : Fld) (v : Nat) : (d.putStaged f v).twin = d.twin := rfl
@[simp] theorem Dev.putStaged_power (d : Dev) (f : Fld) (v : Nat) : (d.putStaged f v).power = d.power := rfl

/-! `Dev.answer` changes `resp` only. -/

@[simp] theorem Dev.answer_now (d : Dev) (r : Resp) : (d.answer r).now = d.now := rfl
@[simp] theorem Dev.answer_regs (d : Dev) (r : Resp) : (d.answer r).regs = d.regs := rfl
@[simp] theorem Dev.answer_staged (d : Dev) (r : Resp) : (d.answer r).staged = d.staged := rfl
@[simp] theorem Dev.answer_capture (d : Dev) (r : Resp) : (d.answer r).capture = d.capture := rfl
@[simp] theorem Dev.answer_hwSet (d : Dev) (r : Resp) : (d.answer r).hwSet = d.hwSet := rfl
@[simp] theorem Dev.answer_free (d : Dev) (r : Resp) : (d.answer r).free = d.free := rfl
@[simp] theorem Dev.answer_drbg (d : Dev) (r : Resp) : (d.answer r).drbg = d.drbg := rfl
@[simp] theorem Dev.answer_snag (d : Dev) (r : Resp) : (d.answer r).snag = d.snag := rfl
@[simp] theorem Dev.answer_ladder (d : Dev) (r : Resp) : (d.answer r).ladder = d.ladder := rfl
@[simp] theorem Dev.answer_watch (d : Dev) (r : Resp) : (d.answer r).watch = d.watch := rfl
@[simp] theorem Dev.answer_skim (d : Dev) (r : Resp) : (d.answer r).skim = d.skim := rfl
@[simp] theorem Dev.answer_sig (d : Dev) (r : Resp) : (d.answer r).sig = d.sig := rfl
@[simp] theorem Dev.answer_arr (d : Dev) (r : Resp) : (d.answer r).arr = d.arr := rfl
@[simp] theorem Dev.answer_plan (d : Dev) (r : Resp) : (d.answer r).plan = d.plan := rfl
@[simp] theorem Dev.answer_memsys (d : Dev) (r : Resp) : (d.answer r).memsys = d.memsys := rfl
@[simp] theorem Dev.answer_links (d : Dev) (r : Resp) : (d.answer r).links = d.links := rfl
@[simp] theorem Dev.answer_gate (d : Dev) (r : Resp) : (d.answer r).gate = d.gate := rfl
@[simp] theorem Dev.answer_time (d : Dev) (r : Resp) : (d.answer r).time = d.time := rfl
@[simp] theorem Dev.answer_net (d : Dev) (r : Resp) : (d.answer r).net = d.net := rfl
@[simp] theorem Dev.answer_cmd (d : Dev) (r : Resp) : (d.answer r).cmd = d.cmd := rfl
@[simp] theorem Dev.answer_cores (d : Dev) (r : Resp) : (d.answer r).cores = d.cores := rfl
@[simp] theorem Dev.answer_boot (d : Dev) (r : Resp) : (d.answer r).boot = d.boot := rfl
@[simp] theorem Dev.answer_health (d : Dev) (r : Resp) : (d.answer r).health = d.health := rfl
@[simp] theorem Dev.answer_twin (d : Dev) (r : Resp) : (d.answer r).twin = d.twin := rfl
@[simp] theorem Dev.answer_power (d : Dev) (r : Resp) : (d.answer r).power = d.power := rfl

/-! `Dev.store` changes `memsys` only. -/

@[simp] theorem Dev.store_now (d : Dev) (w : List MemWrite) : (d.store w).now = d.now := rfl
@[simp] theorem Dev.store_regs (d : Dev) (w : List MemWrite) : (d.store w).regs = d.regs := rfl
@[simp] theorem Dev.store_staged (d : Dev) (w : List MemWrite) : (d.store w).staged = d.staged := rfl
@[simp] theorem Dev.store_capture (d : Dev) (w : List MemWrite) : (d.store w).capture = d.capture := rfl
@[simp] theorem Dev.store_resp (d : Dev) (w : List MemWrite) : (d.store w).resp = d.resp := rfl
@[simp] theorem Dev.store_hwSet (d : Dev) (w : List MemWrite) : (d.store w).hwSet = d.hwSet := rfl
@[simp] theorem Dev.store_free (d : Dev) (w : List MemWrite) : (d.store w).free = d.free := rfl
@[simp] theorem Dev.store_drbg (d : Dev) (w : List MemWrite) : (d.store w).drbg = d.drbg := rfl
@[simp] theorem Dev.store_snag (d : Dev) (w : List MemWrite) : (d.store w).snag = d.snag := rfl
@[simp] theorem Dev.store_ladder (d : Dev) (w : List MemWrite) : (d.store w).ladder = d.ladder := rfl
@[simp] theorem Dev.store_watch (d : Dev) (w : List MemWrite) : (d.store w).watch = d.watch := rfl
@[simp] theorem Dev.store_skim (d : Dev) (w : List MemWrite) : (d.store w).skim = d.skim := rfl
@[simp] theorem Dev.store_sig (d : Dev) (w : List MemWrite) : (d.store w).sig = d.sig := rfl
@[simp] theorem Dev.store_arr (d : Dev) (w : List MemWrite) : (d.store w).arr = d.arr := rfl
@[simp] theorem Dev.store_plan (d : Dev) (w : List MemWrite) : (d.store w).plan = d.plan := rfl
@[simp] theorem Dev.store_links (d : Dev) (w : List MemWrite) : (d.store w).links = d.links := rfl
@[simp] theorem Dev.store_gate (d : Dev) (w : List MemWrite) : (d.store w).gate = d.gate := rfl
@[simp] theorem Dev.store_time (d : Dev) (w : List MemWrite) : (d.store w).time = d.time := rfl
@[simp] theorem Dev.store_net (d : Dev) (w : List MemWrite) : (d.store w).net = d.net := rfl
@[simp] theorem Dev.store_cmd (d : Dev) (w : List MemWrite) : (d.store w).cmd = d.cmd := rfl
@[simp] theorem Dev.store_cores (d : Dev) (w : List MemWrite) : (d.store w).cores = d.cores := rfl
@[simp] theorem Dev.store_boot (d : Dev) (w : List MemWrite) : (d.store w).boot = d.boot := rfl
@[simp] theorem Dev.store_health (d : Dev) (w : List MemWrite) : (d.store w).health = d.health := rfl
@[simp] theorem Dev.store_twin (d : Dev) (w : List MemWrite) : (d.store w).twin = d.twin := rfl
@[simp] theorem Dev.store_power (d : Dev) (w : List MemWrite) : (d.store w).power = d.power := rfl

/-! `Dev.cause` changes `snag` only. -/

@[simp] theorem Dev.cause_now (d : Dev) (n : Nat) (b : Bool) : (d.cause n b).now = d.now := rfl
@[simp] theorem Dev.cause_regs (d : Dev) (n : Nat) (b : Bool) : (d.cause n b).regs = d.regs := rfl
@[simp] theorem Dev.cause_staged (d : Dev) (n : Nat) (b : Bool) : (d.cause n b).staged = d.staged := rfl
@[simp] theorem Dev.cause_capture (d : Dev) (n : Nat) (b : Bool) : (d.cause n b).capture = d.capture := rfl
@[simp] theorem Dev.cause_resp (d : Dev) (n : Nat) (b : Bool) : (d.cause n b).resp = d.resp := rfl
@[simp] theorem Dev.cause_hwSet (d : Dev) (n : Nat) (b : Bool) : (d.cause n b).hwSet = d.hwSet := rfl
@[simp] theorem Dev.cause_free (d : Dev) (n : Nat) (b : Bool) : (d.cause n b).free = d.free := rfl
@[simp] theorem Dev.cause_drbg (d : Dev) (n : Nat) (b : Bool) : (d.cause n b).drbg = d.drbg := rfl
@[simp] theorem Dev.cause_ladder (d : Dev) (n : Nat) (b : Bool) : (d.cause n b).ladder = d.ladder := rfl
@[simp] theorem Dev.cause_watch (d : Dev) (n : Nat) (b : Bool) : (d.cause n b).watch = d.watch := rfl
@[simp] theorem Dev.cause_skim (d : Dev) (n : Nat) (b : Bool) : (d.cause n b).skim = d.skim := rfl
@[simp] theorem Dev.cause_sig (d : Dev) (n : Nat) (b : Bool) : (d.cause n b).sig = d.sig := rfl
@[simp] theorem Dev.cause_arr (d : Dev) (n : Nat) (b : Bool) : (d.cause n b).arr = d.arr := rfl
@[simp] theorem Dev.cause_plan (d : Dev) (n : Nat) (b : Bool) : (d.cause n b).plan = d.plan := rfl
@[simp] theorem Dev.cause_memsys (d : Dev) (n : Nat) (b : Bool) : (d.cause n b).memsys = d.memsys := rfl
@[simp] theorem Dev.cause_links (d : Dev) (n : Nat) (b : Bool) : (d.cause n b).links = d.links := rfl
@[simp] theorem Dev.cause_gate (d : Dev) (n : Nat) (b : Bool) : (d.cause n b).gate = d.gate := rfl
@[simp] theorem Dev.cause_time (d : Dev) (n : Nat) (b : Bool) : (d.cause n b).time = d.time := rfl
@[simp] theorem Dev.cause_net (d : Dev) (n : Nat) (b : Bool) : (d.cause n b).net = d.net := rfl
@[simp] theorem Dev.cause_cmd (d : Dev) (n : Nat) (b : Bool) : (d.cause n b).cmd = d.cmd := rfl
@[simp] theorem Dev.cause_cores (d : Dev) (n : Nat) (b : Bool) : (d.cause n b).cores = d.cores := rfl
@[simp] theorem Dev.cause_boot (d : Dev) (n : Nat) (b : Bool) : (d.cause n b).boot = d.boot := rfl
@[simp] theorem Dev.cause_health (d : Dev) (n : Nat) (b : Bool) : (d.cause n b).health = d.health := rfl
@[simp] theorem Dev.cause_twin (d : Dev) (n : Nat) (b : Bool) : (d.cause n b).twin = d.twin := rfl
@[simp] theorem Dev.cause_power (d : Dev) (n : Nat) (b : Bool) : (d.cause n b).power = d.power := rfl

/-! `Dev.post` changes `cmd` only. -/

@[simp] theorem Dev.post_now (d : Dev) (m : Msg) : (d.post m).now = d.now := rfl
@[simp] theorem Dev.post_regs (d : Dev) (m : Msg) : (d.post m).regs = d.regs := rfl
@[simp] theorem Dev.post_staged (d : Dev) (m : Msg) : (d.post m).staged = d.staged := rfl
@[simp] theorem Dev.post_capture (d : Dev) (m : Msg) : (d.post m).capture = d.capture := rfl
@[simp] theorem Dev.post_resp (d : Dev) (m : Msg) : (d.post m).resp = d.resp := rfl
@[simp] theorem Dev.post_hwSet (d : Dev) (m : Msg) : (d.post m).hwSet = d.hwSet := rfl
@[simp] theorem Dev.post_free (d : Dev) (m : Msg) : (d.post m).free = d.free := rfl
@[simp] theorem Dev.post_drbg (d : Dev) (m : Msg) : (d.post m).drbg = d.drbg := rfl
@[simp] theorem Dev.post_snag (d : Dev) (m : Msg) : (d.post m).snag = d.snag := rfl
@[simp] theorem Dev.post_ladder (d : Dev) (m : Msg) : (d.post m).ladder = d.ladder := rfl
@[simp] theorem Dev.post_watch (d : Dev) (m : Msg) : (d.post m).watch = d.watch := rfl
@[simp] theorem Dev.post_skim (d : Dev) (m : Msg) : (d.post m).skim = d.skim := rfl
@[simp] theorem Dev.post_sig (d : Dev) (m : Msg) : (d.post m).sig = d.sig := rfl
@[simp] theorem Dev.post_arr (d : Dev) (m : Msg) : (d.post m).arr = d.arr := rfl
@[simp] theorem Dev.post_plan (d : Dev) (m : Msg) : (d.post m).plan = d.plan := rfl
@[simp] theorem Dev.post_memsys (d : Dev) (m : Msg) : (d.post m).memsys = d.memsys := rfl
@[simp] theorem Dev.post_links (d : Dev) (m : Msg) : (d.post m).links = d.links := rfl
@[simp] theorem Dev.post_gate (d : Dev) (m : Msg) : (d.post m).gate = d.gate := rfl
@[simp] theorem Dev.post_time (d : Dev) (m : Msg) : (d.post m).time = d.time := rfl
@[simp] theorem Dev.post_net (d : Dev) (m : Msg) : (d.post m).net = d.net := rfl
@[simp] theorem Dev.post_cores (d : Dev) (m : Msg) : (d.post m).cores = d.cores := rfl
@[simp] theorem Dev.post_boot (d : Dev) (m : Msg) : (d.post m).boot = d.boot := rfl
@[simp] theorem Dev.post_health (d : Dev) (m : Msg) : (d.post m).health = d.health := rfl
@[simp] theorem Dev.post_twin (d : Dev) (m : Msg) : (d.post m).twin = d.twin := rfl
@[simp] theorem Dev.post_power (d : Dev) (m : Msg) : (d.post m).power = d.power := rfl

/-! `Dev.withSession` changes `cmd` only. -/

@[simp] theorem Dev.withSession_now (d : Dev) (n : Nat) (x : Option Session) : (d.withSession n x).now = d.now := rfl
@[simp] theorem Dev.withSession_regs (d : Dev) (n : Nat) (x : Option Session) : (d.withSession n x).regs = d.regs := rfl
@[simp] theorem Dev.withSession_staged (d : Dev) (n : Nat) (x : Option Session) : (d.withSession n x).staged = d.staged := rfl
@[simp] theorem Dev.withSession_capture (d : Dev) (n : Nat) (x : Option Session) : (d.withSession n x).capture = d.capture := rfl
@[simp] theorem Dev.withSession_resp (d : Dev) (n : Nat) (x : Option Session) : (d.withSession n x).resp = d.resp := rfl
@[simp] theorem Dev.withSession_hwSet (d : Dev) (n : Nat) (x : Option Session) : (d.withSession n x).hwSet = d.hwSet := rfl
@[simp] theorem Dev.withSession_free (d : Dev) (n : Nat) (x : Option Session) : (d.withSession n x).free = d.free := rfl
@[simp] theorem Dev.withSession_drbg (d : Dev) (n : Nat) (x : Option Session) : (d.withSession n x).drbg = d.drbg := rfl
@[simp] theorem Dev.withSession_snag (d : Dev) (n : Nat) (x : Option Session) : (d.withSession n x).snag = d.snag := rfl
@[simp] theorem Dev.withSession_ladder (d : Dev) (n : Nat) (x : Option Session) : (d.withSession n x).ladder = d.ladder := rfl
@[simp] theorem Dev.withSession_watch (d : Dev) (n : Nat) (x : Option Session) : (d.withSession n x).watch = d.watch := rfl
@[simp] theorem Dev.withSession_skim (d : Dev) (n : Nat) (x : Option Session) : (d.withSession n x).skim = d.skim := rfl
@[simp] theorem Dev.withSession_sig (d : Dev) (n : Nat) (x : Option Session) : (d.withSession n x).sig = d.sig := rfl
@[simp] theorem Dev.withSession_arr (d : Dev) (n : Nat) (x : Option Session) : (d.withSession n x).arr = d.arr := rfl
@[simp] theorem Dev.withSession_plan (d : Dev) (n : Nat) (x : Option Session) : (d.withSession n x).plan = d.plan := rfl
@[simp] theorem Dev.withSession_memsys (d : Dev) (n : Nat) (x : Option Session) : (d.withSession n x).memsys = d.memsys := rfl
@[simp] theorem Dev.withSession_links (d : Dev) (n : Nat) (x : Option Session) : (d.withSession n x).links = d.links := rfl
@[simp] theorem Dev.withSession_gate (d : Dev) (n : Nat) (x : Option Session) : (d.withSession n x).gate = d.gate := rfl
@[simp] theorem Dev.withSession_time (d : Dev) (n : Nat) (x : Option Session) : (d.withSession n x).time = d.time := rfl
@[simp] theorem Dev.withSession_net (d : Dev) (n : Nat) (x : Option Session) : (d.withSession n x).net = d.net := rfl
@[simp] theorem Dev.withSession_cores (d : Dev) (n : Nat) (x : Option Session) : (d.withSession n x).cores = d.cores := rfl
@[simp] theorem Dev.withSession_boot (d : Dev) (n : Nat) (x : Option Session) : (d.withSession n x).boot = d.boot := rfl
@[simp] theorem Dev.withSession_health (d : Dev) (n : Nat) (x : Option Session) : (d.withSession n x).health = d.health := rfl
@[simp] theorem Dev.withSession_twin (d : Dev) (n : Nat) (x : Option Session) : (d.withSession n x).twin = d.twin := rfl
@[simp] theorem Dev.withSession_power (d : Dev) (n : Nat) (x : Option Session) : (d.withSession n x).power = d.power := rfl

/-! Register fields. -/

/-- A read after a write of the same field: the value, as far as the field is wide. -/
@[simp] theorem Dev.fld_put_same (d : Dev) (f : Fld) (v : Nat) : (d.put f v).fld f = v % 2 ^ f.width := by
  simp [Dev.put, Dev.fld]

/-- A write of one field leaves a field at another place alone. -/
theorem Dev.fld_put_other (d : Dev) {f g : Fld} (v : Nat) (h : g.key ≠ f.key) : (d.put f v).fld g = d.fld g :=
  tabGet_set_elsewhere g.reset f.reset d.regs (v % 2 ^ f.width) h

/-- A field's value depends on the register table alone. -/
theorem Dev.fld_regs {d e : Dev} (h : e.regs = d.regs) (f : Fld) : e.fld f = d.fld f := by simp only [Dev.fld, h]

theorem Dev.on_fld {d e : Dev} {f : Fld} (h : e.fld f = d.fld f) : e.on f = d.on f := by simp only [Dev.on, h]

theorem Dev.on_put_other (d : Dev) {f g : Fld} (v : Nat) (h : g.key ≠ f.key) : (d.put f v).on g = d.on g :=
  Dev.on_fld (d.fld_put_other v h)

theorem Dev.fld_flag_other (d : Dev) {f g : Fld} (b : Bool) (h : g.key ≠ f.key) : (d.flag f b).fld g = d.fld g :=
  d.fld_put_other _ h

theorem Dev.on_flag_other (d : Dev) {f g : Fld} (b : Bool) (h : g.key ≠ f.key) : (d.flag f b).on g = d.on g :=
  Dev.on_fld (d.fld_flag_other b h)

/-- Every field is at least one bit wide. -/
theorem Fld.two_pow_width (f : Fld) : 2 ≤ 2 ^ f.width :=
  le_trans (by norm_num) (Nat.pow_le_pow_right (by norm_num) (show 1 ≤ f.width from Nat.le_add_left 1 _))

@[simp] theorem Dev.fld_flag_same (d : Dev) (f : Fld) (b : Bool) : (d.flag f b).fld f = b2n b := by
  have := f.two_pow_width
  simp only [Dev.flag, Dev.fld_put_same]
  exact Nat.mod_eq_of_lt (lt_of_le_of_lt (by cases b <;> decide : b2n b ≤ 1) (by omega))

@[simp] theorem Dev.on_flag_same (d : Dev) (f : Fld) (b : Bool) : (d.flag f b).on f = b := by
  cases b <;> simp [Dev.on, b2n]

theorem Dev.fld_count_other (d : Dev) {f g : Fld} (n : Nat) (h : g.key ≠ f.key) : (d.count f n).fld g = d.fld g :=
  d.fld_put_other _ h

/-- A saturating counter. -/
theorem Dev.fld_count_same (d : Dev) (f : Fld) (n : Nat) : (d.count f n).fld f = min (d.fld f + n) (2 ^ f.width - 1) := by
  have := f.two_pow_width
  simp only [Dev.count, Dev.fld_put_same, satAdd]
  split <;> rw [Nat.mod_eq_of_lt (by omega)] <;> omega

@[simp] theorem Dev.fld_answer (d : Dev) (r : Resp) (f : Fld) : (d.answer r).fld f = d.fld f := rfl
@[simp] theorem Dev.on_answer (d : Dev) (r : Resp) (f : Fld) : (d.answer r).on f = d.on f := rfl
@[simp] theorem Dev.fld_store (d : Dev) (w : List MemWrite) (f : Fld) : (d.store w).fld f = d.fld f := rfl
@[simp] theorem Dev.fld_cause (d : Dev) (n : Nat) (b : Bool) (f : Fld) : (d.cause n b).fld f = d.fld f := rfl
@[simp] theorem Dev.on_cause (d : Dev) (n : Nat) (b : Bool) (f : Fld) : (d.cause n b).on f = d.on f := rfl
@[simp] theorem Dev.fld_post (d : Dev) (m : Msg) (f : Fld) : (d.post m).fld f = d.fld f := rfl
@[simp] theorem Dev.on_post (d : Dev) (m : Msg) (f : Fld) : (d.post m).on f = d.on f := rfl
@[simp] theorem Dev.answer_resp (d : Dev) (r : Resp) : (d.answer r).resp = r := rfl
@[simp] theorem Dev.post_outbox (d : Dev) (m : Msg) : (d.post m).cmd.outbox = d.cmd.outbox ++ [m] := rfl
@[simp] theorem Dev.store_writes (d : Dev) (w : List MemWrite) : (d.store w).memsys.writes = d.memsys.writes ++ w := rfl

/-- A staged copy reads back, as far as the field is wide; the value in force stays (R11). -/
@[simp] theorem Dev.stagedFld_putStaged_same (d : Dev) (f : Fld) (v : Nat) : (d.putStaged f v).stagedFld f = v % 2 ^ f.width :=
  tabGet_set_same _ _ _ _

@[simp] theorem Dev.fld_putStaged (d : Dev) (f g : Fld) (v : Nat) : (d.putStaged f v).fld g = d.fld g := rfl

/-- A session just entered is read back. -/
@[simp] theorem Dev.session_withSession_same (d : Dev) (n : Nat) (x : Option Session) : (d.withSession n x).session n = x :=
  tabGet_set_same _ _ _ _

theorem Dev.session_withSession_other (d : Dev) {n m : Nat} (x : Option Session) (h : m ≠ n) :
    (d.withSession n x).session m = d.session m := tabGet_set_other _ _ _ h

end Sys2Proof.Machine
end

