-- ==== Sys2Proof/Laws/Settle.lean ====
section
/-!
SUPPORT. What follows every command: `Dev.settle` changes the fields of `safeKeys` and what `Dev.beyond` leaves out, and nothing else; it
leaves a safe state. The frame around a command keeps the memory's form.
-/

namespace Sys2Proof.Laws

open Sys2Proof.Machine

variable {K : List Nat}

/-- An update that the safe state may make, with the keys of the fields that it may change. -/
structure Settles (K : List Nat) (d e : Dev) : Prop where
  regs : ∀ f : Fld, f.key ∉ K → e.fld f = d.fld f
  beyond : Dev.beyond e = Dev.beyond d

theorem Settles.refl (d : Dev) : Settles K d d := ⟨fun _ _ => rfl, rfl⟩

theorem Settles.trans {a b c : Dev} (h : Settles K a b) (k : Settles K b c) : Settles K a c :=
  ⟨fun f hf => (k.regs f hf).trans (h.regs f hf), k.beyond.trans h.beyond⟩

theorem Settles.ite {d e₁ e₂ : Dev} {c : Prop} [Decidable c] (h₁ : c → Settles K d e₁) (h₂ : ¬ c → Settles K d e₂) :
    Settles K d (if c then e₁ else e₂) := by
  split
  · exact h₁ ‹_›
  · exact h₂ ‹_›

theorem Settles.put {d e : Dev} (h : Settles K d e) (f : Fld) (v : Nat) (hf : f.key ∈ K) : Settles K d (e.put f v) :=
  h.trans ⟨fun _ hg => e.fld_put_other v (fun hk => hg (hk ▸ hf)), rfl⟩

theorem Settles.flag {d e : Dev} (h : Settles K d e) (f : Fld) (b : Bool) (hf : f.key ∈ K) : Settles K d (e.flag f b) :=
  h.put f _ hf

/-- The parts of the Snag unit that the safe state moves. -/
theorem Settles.snag {d e : Dev} (h : Settles K d e) (u : Tab Nat) (l : Nat) (r b : Bool) (x : Option Bool) :
    Settles K d { e with snag := { e.snag with hbUntil := u, lastSev := l, resumePending := r, hbLevel := b, refused := x } } :=
  h.trans ⟨fun _ _ => rfl, rfl⟩

/-- The parts of the command engine that a status message moves. -/
theorem Settles.status {d e : Dev} (h : Settles K d e) (n a : Nat) (x : Option (Nat × Nat)) :
    Settles K d { e with cmd := { e.cmd with statusSeq := n, statusAt := a, held := x } } :=
  h.trans ⟨fun _ _ => rfl, rfl⟩

/-- A SAFETY_STATUS message is left out of `Dev.beyond`. -/
theorem Settles.post {d e : Dev} (h : Settles K d e) (m : Msg) (hm : m.opcode = 14) : Settles K d (e.post m) :=
  h.trans ⟨fun _ _ => rfl, by simp [Dev.beyond, Dev.post, hm]⟩

theorem Settles.foldl {α : Type} (g : Dev → α → Dev) (hg : ∀ d a, Settles K d (g d a)) (l : List α) :
    ∀ d, Settles K d (l.foldl g d) := by
  induction l with
  | nil => exact Settles.refl
  | cons a l ih => exact fun d => (hg d a).trans (ih _)

theorem statusTo_settles (trigger : Nat) (d : Dev) (i : Nat) : Settles K d (Dev.statusTo trigger d i) :=
  .ite (fun _ => ((Settles.refl d).status (d.cmd.statusSeq + 1) d.cmd.statusAt d.cmd.held).post _ rfl) (fun _ => .refl d)

theorem filter_map_status (box : List Msg) (p : Msg → Bool) (g : Msg → Msg) (hp : ∀ m, p m = true → m.opcode = 14)
    (hg : ∀ m, (g m).opcode = m.opcode) :
    (box.map (fun m => if p m = true then g m else m)).filter (fun m => m.opcode != 14) = box.filter (fun m => m.opcode != 14) := by
  induction box with
  | nil => rfl
  | cons m box ih =>
    by_cases h : p m = true
    · simp [h, hp m h, hg, ih]
    · simp only [List.map_cons, h]
      by_cases h0 : m.opcode = 14 <;> simp [h0, ih]

theorem statusRecent_opcode {d : Dev} {q : Nat → Bool} {m : Msg} (h : d.statusRecent q m = true) : m.opcode = 14 := by
  simp only [Dev.statusRecent, Bool.and_eq_true, beq_iff_eq] at h
  exact h.1.1.1

theorem sendStatus_settles (d : Dev) (trigger : Nat) : Settles K d (d.sendStatus trigger) := by
  refine .ite (fun _ => .refl d) (fun _ => .ite (fun _ => ⟨fun _ _ => rfl, rfl⟩) (fun _ => .ite (fun _ => ⟨fun _ _ => rfl, ?_⟩) (fun _ => ?_)))
  · have hb := filter_map_status d.cmd.outbox (d.statusRecent (fun t => t == 0))
      (fun m => { m with payload := d.statusPayload trigger }) (fun m h => statusRecent_opcode h) (fun _ => rfl)
    simp only [Dev.beyond, hb]
  · exact ((Settles.refl d).status d.cmd.statusSeq d.now d.cmd.held).trans
      (.foldl (Dev.statusTo trigger) (statusTo_settles trigger) _ _)

theorem triggerStatus_settles (hK : ETH.CMD_INJ_ARM.key ∈ K) (d : Dev) (trigger : Nat) : Settles K d (d.triggerStatus trigger) :=
  .ite (fun _ => ((Settles.refl d).flag ETH.CMD_INJ_ARM false hK).status d.cmd.statusSeq d.cmd.statusAt _)
    (fun _ => sendStatus_settles d trigger)

theorem substNow_settles (d : Dev) (c : Nat) : Settles K d (d.substNow c) := ⟨fun _ _ => rfl, rfl⟩

/-- What entry into the safe state changes of the registers. -/
abbrev enterKeys : List Nat := [SNG.STAT_SAFE.key, SNG.STAT_SAFE_OK.key, ETH.CMD_INJ_ARM.key]

/-- What the pins of the safe state change of the registers. -/
abbrev pinKeys : List Nat :=
  SNG.STAT_SAFE_OK.key :: (List.range 6).flatMap (fun p => [(SGT.P_STAT_VALID p).key, (SGT.P_STAT_MUTED p).key])

theorem Settles.mono {L : List Nat} {d e : Dev} (h : Settles K d e) (hl : K ⊆ L) : Settles L d e :=
  ⟨fun f hf => h.regs f (fun hk => hf (hl hk)), h.beyond⟩

theorem enterSafe_settles (d : Dev) : Settles enterKeys d d.enterSafe := by
  have h1 : Settles enterKeys d (d.enabledOuts.foldl Dev.substNow (d.flag SNG.STAT_SAFE true)) :=
    ((Settles.refl d).flag SNG.STAT_SAFE true (by decide)).trans (.foldl _ substNow_settles _ _)
  unfold Dev.enterSafe
  generalize d.enabledOuts.foldl Dev.substNow (d.flag SNG.STAT_SAFE true) = e at h1
  have h2 := h1.snag e.snag.hbUntil e.snag.lastSev false e.snag.hbLevel e.snag.refused
  exact .ite (fun _ => (h2.flag SNG.STAT_SAFE_OK false (by decide)).trans (triggerStatus_settles (by decide) _ 1)) (fun _ => h2)

theorem safePort_settles {p : Nat} (hp : p < 6) (d : Dev) : Settles pinKeys d (d.safePort p) := by
  have hk : (SGT.P_STAT_VALID p).key ∈ pinKeys ∧ (SGT.P_STAT_MUTED p).key ∈ pinKeys := by
    have : p = 0 ∨ p = 1 ∨ p = 2 ∨ p = 3 ∨ p = 4 ∨ p = 5 := by omega
    rcases this with rfl | rfl | rfl | rfl | rfl | rfl <;> decide
  refine ((Settles.refl d).flag _ false hk.1).trans (.ite (fun _ => (Settles.refl _).flag _ true hk.2) (fun _ => .refl _))

theorem safePins_settles (d : Dev) : Settles pinKeys d d.safePins := by
  have h1 := (Settles.refl (K := pinKeys) d).flag SNG.STAT_SAFE_OK false (by decide)
  unfold Dev.safePins
  generalize d.flag SNG.STAT_SAFE_OK false = e at h1
  have h0 := h1.snag e.snag.hbUntil e.snag.lastSev e.snag.resumePending false e.snag.refused
  exact (((((h0.trans (safePort_settles (by norm_num) _)).trans (safePort_settles (by norm_num) _)).trans
    (safePort_settles (by norm_num) _)).trans (safePort_settles (by norm_num) _)).trans (safePort_settles (by norm_num) _)).trans
    (safePort_settles (by norm_num) _)

theorem die_keys {i : Nat} : (lineFaultFld i).key ∈ safeKeys ∧ (hbOkFld i).key ∈ safeKeys ∧ (alarmFld i).key ∈ safeKeys := by
  unfold lineFaultFld hbOkFld alarmFld
  split
  · decide
  · split <;> decide

theorem lineExpire_settles (d : Dev) (i : Nat) : Settles safeKeys d (d.lineExpire i) := by
  have h1 : Settles safeKeys d (if d.on (lineFaultFld i) && tabGet 0 d.snag.lineUntil i ≤ d.now then d.flag (lineFaultFld i) false else d) :=
    .ite (fun _ => (Settles.refl d).flag _ false die_keys.1) (fun _ => .refl d)
  unfold Dev.lineExpire
  generalize (if d.on (lineFaultFld i) && tabGet 0 d.snag.lineUntil i ≤ d.now then d.flag (lineFaultFld i) false else d) = e at h1 ⊢
  have h2 := h1.flag (hbOkFld i) true die_keys.2.1
  exact .ite (fun _ => h2.snag _ e.snag.lastSev e.snag.resumePending e.snag.hbLevel e.snag.refused) (fun _ => h1)

theorem setAlarms_settles (d : Dev) : Settles safeKeys d d.setAlarms :=
  ((((((lineExpire_settles d 0).trans (lineExpire_settles _ 1)).trans (lineExpire_settles _ 2)).flag (alarmFld 0) _ (by decide)).flag
    (alarmFld 1) _ (by decide)).flag (alarmFld 2) _ (by decide))

theorem sevChange_settles (d : Dev) : Settles safeKeys d d.sevChange :=
  .ite (fun _ => .refl d) (fun _ => ((Settles.refl d).snag d.snag.hbUntil d.maxSev d.snag.resumePending d.snag.hbLevel d.snag.refused).trans
    (triggerStatus_settles (by decide) _ 3))

/-- What settling may change, said once. -/
theorem settle_settles (d : Dev) : Settles safeKeys d d.settle := by
  have h1 := (setAlarms_settles d).trans (sevChange_settles _)
  unfold Dev.settle
  dsimp only
  generalize d.setAlarms.sevChange = e at h1
  have h2 : Settles safeKeys d (if e.safeCause && !e.on SNG.STAT_SAFE then e.enterSafe else e) :=
    .ite (fun _ => h1.trans ((enterSafe_settles _).mono (by decide))) (fun _ => h1)
  generalize (if e.safeCause && !e.on SNG.STAT_SAFE then e.enterSafe else e) = x at h2
  have h3 : Settles safeKeys d (if x.on SNG.STAT_SAFE then x.safePins else x) :=
    .ite (fun _ => h2.trans ((safePins_settles _).mono (by decide))) (fun _ => h2)
  generalize (if x.on SNG.STAT_SAFE then x.safePins else x) = y at h3
  exact h3.snag y.snag.hbUntil y.snag.lastSev (y.snag.resumePending && !y.safeCause) y.snag.hbLevel y.refusedNow










/-! What a settled device keeps: every part but those that `Dev.beyond` leaves out. -/

theorem settle_beyond (d : Dev) : Dev.beyond d.settle = Dev.beyond d := (settle_settles d).beyond

/-- A field that is not of the safe state keeps its value. -/
theorem settle_fld (d : Dev) {f : Fld} (h : f.key ∉ safeKeys) : d.settle.fld f = d.fld f := (settle_settles d).regs f h

theorem settle_on (d : Dev) {f : Fld} (h : f.key ∉ safeKeys) : d.settle.on f = d.on f := Dev.on_fld (settle_fld d h)

theorem Settles.now {d e : Dev} (h : Settles K d e) : e.now = d.now := by
  have := congrArg (fun x : Dev => x.now) h.beyond; exact this
@[simp] theorem settle_now (d : Dev) : d.settle.now = d.now := (settle_settles d).now
theorem Settles.staged {d e : Dev} (h : Settles K d e) : e.staged = d.staged := by
  have := congrArg (fun x : Dev => x.staged) h.beyond; exact this
@[simp] theorem settle_staged (d : Dev) : d.settle.staged = d.staged := (settle_settles d).staged
theorem Settles.capture {d e : Dev} (h : Settles K d e) : e.capture = d.capture := by
  have := congrArg (fun x : Dev => x.capture) h.beyond; exact this
@[simp] theorem settle_capture (d : Dev) : d.settle.capture = d.capture := (settle_settles d).capture
theorem Settles.resp {d e : Dev} (h : Settles K d e) : e.resp = d.resp := by
  have := congrArg (fun x : Dev => x.resp) h.beyond; exact this
@[simp] theorem settle_resp (d : Dev) : d.settle.resp = d.resp := (settle_settles d).resp
theorem Settles.hwSet {d e : Dev} (h : Settles K d e) : e.hwSet = d.hwSet := by
  have := congrArg (fun x : Dev => x.hwSet) h.beyond; exact this
@[simp] theorem settle_hwSet (d : Dev) : d.settle.hwSet = d.hwSet := (settle_settles d).hwSet
theorem Settles.free {d e : Dev} (h : Settles K d e) : e.free = d.free := by
  have := congrArg (fun x : Dev => x.free) h.beyond; exact this
@[simp] theorem settle_free (d : Dev) : d.settle.free = d.free := (settle_settles d).free
theorem Settles.drbg {d e : Dev} (h : Settles K d e) : e.drbg = d.drbg := by
  have := congrArg (fun x : Dev => x.drbg) h.beyond; exact this
@[simp] theorem settle_drbg (d : Dev) : d.settle.drbg = d.drbg := (settle_settles d).drbg
theorem Settles.ladder {d e : Dev} (h : Settles K d e) : e.ladder = d.ladder := by
  have := congrArg (fun x : Dev => x.ladder) h.beyond; exact this
@[simp] theorem settle_ladder (d : Dev) : d.settle.ladder = d.ladder := (settle_settles d).ladder
theorem Settles.watch {d e : Dev} (h : Settles K d e) : e.watch = d.watch := by
  have := congrArg (fun x : Dev => x.watch) h.beyond; exact this
@[simp] theorem settle_watch (d : Dev) : d.settle.watch = d.watch := (settle_settles d).watch
theorem Settles.skim {d e : Dev} (h : Settles K d e) : e.skim = d.skim := by
  have := congrArg (fun x : Dev => x.skim) h.beyond; exact this
@[simp] theorem settle_skim (d : Dev) : d.settle.skim = d.skim := (settle_settles d).skim
theorem Settles.sig {d e : Dev} (h : Settles K d e) : e.sig = d.sig := by
  have := congrArg (fun x : Dev => x.sig) h.beyond; exact this
@[simp] theorem settle_sig (d : Dev) : d.settle.sig = d.sig := (settle_settles d).sig
theorem Settles.arr {d e : Dev} (h : Settles K d e) : e.arr = d.arr := by
  have := congrArg (fun x : Dev => x.arr) h.beyond; exact this
@[simp] theorem settle_arr (d : Dev) : d.settle.arr = d.arr := (settle_settles d).arr
theorem Settles.plan {d e : Dev} (h : Settles K d e) : e.plan = d.plan := by
  have := congrArg (fun x : Dev => x.plan) h.beyond; exact this
@[simp] theorem settle_plan (d : Dev) : d.settle.plan = d.plan := (settle_settles d).plan
theorem Settles.memsys {d e : Dev} (h : Settles K d e) : e.memsys = d.memsys := by
  have := congrArg (fun x : Dev => x.memsys) h.beyond; exact this
@[simp] theorem settle_memsys (d : Dev) : d.settle.memsys = d.memsys := (settle_settles d).memsys
theorem Settles.links {d e : Dev} (h : Settles K d e) : e.links = d.links := by
  have := congrArg (fun x : Dev => x.links) h.beyond; exact this
@[simp] theorem settle_links (d : Dev) : d.settle.links = d.links := (settle_settles d).links
theorem Settles.time {d e : Dev} (h : Settles K d e) : e.time = d.time := by
  have := congrArg (fun x : Dev => x.time) h.beyond; exact this
@[simp] theorem settle_time (d : Dev) : d.settle.time = d.time := (settle_settles d).time
theorem Settles.net {d e : Dev} (h : Settles K d e) : e.net = d.net := by
  have := congrArg (fun x : Dev => x.net) h.beyond; exact this
@[simp] theorem settle_net (d : Dev) : d.settle.net = d.net := (settle_settles d).net
theorem Settles.cores {d e : Dev} (h : Settles K d e) : e.cores = d.cores := by
  have := congrArg (fun x : Dev => x.cores) h.beyond; exact this
@[simp] theorem settle_cores (d : Dev) : d.settle.cores = d.cores := (settle_settles d).cores
theorem Settles.boot {d e : Dev} (h : Settles K d e) : e.boot = d.boot := by
  have := congrArg (fun x : Dev => x.boot) h.beyond; exact this
@[simp] theorem settle_boot (d : Dev) : d.settle.boot = d.boot := (settle_settles d).boot
theorem Settles.health {d e : Dev} (h : Settles K d e) : e.health = d.health := by
  have := congrArg (fun x : Dev => x.health) h.beyond; exact this
@[simp] theorem settle_health (d : Dev) : d.settle.health = d.health := (settle_settles d).health
theorem Settles.twin {d e : Dev} (h : Settles K d e) : e.twin = d.twin := by
  have := congrArg (fun x : Dev => x.twin) h.beyond; exact this
@[simp] theorem settle_twin (d : Dev) : d.settle.twin = d.twin := (settle_settles d).twin
theorem Settles.power {d e : Dev} (h : Settles K d e) : e.power = d.power := by
  have := congrArg (fun x : Dev => x.power) h.beyond; exact this
@[simp] theorem settle_power (d : Dev) : d.settle.power = d.power := (settle_settles d).power
theorem Settles.snag_set {d e : Dev} (h : Settles K d e) : e.snag.set = d.snag.set := by
  have := congrArg (fun x : Dev => x.snag.set) h.beyond; exact this
@[simp] theorem settle_snag_set (d : Dev) : d.settle.snag.set = d.snag.set := (settle_settles d).snag_set
theorem Settles.snag_injected {d e : Dev} (h : Settles K d e) : e.snag.injected = d.snag.injected := by
  have := congrArg (fun x : Dev => x.snag.injected) h.beyond; exact this
@[simp] theorem settle_snag_injected (d : Dev) : d.settle.snag.injected = d.snag.injected := (settle_settles d).snag_injected
theorem Settles.snag_setAt {d e : Dev} (h : Settles K d e) : e.snag.setAt = d.snag.setAt := by
  have := congrArg (fun x : Dev => x.snag.setAt) h.beyond; exact this
@[simp] theorem settle_snag_setAt (d : Dev) : d.settle.snag.setAt = d.snag.setAt := (settle_settles d).snag_setAt
theorem Settles.snag_resumeAt {d e : Dev} (h : Settles K d e) : e.snag.resumeAt = d.snag.resumeAt := by
  have := congrArg (fun x : Dev => x.snag.resumeAt) h.beyond; exact this
@[simp] theorem settle_snag_resumeAt (d : Dev) : d.settle.snag.resumeAt = d.snag.resumeAt := (settle_settles d).snag_resumeAt
theorem Settles.snag_cause {d e : Dev} (h : Settles K d e) : e.snag.cause = d.snag.cause := by
  have := congrArg (fun x : Dev => x.snag.cause) h.beyond; exact this
@[simp] theorem settle_snag_cause (d : Dev) : d.settle.snag.cause = d.snag.cause := (settle_settles d).snag_cause
theorem Settles.snag_held {d e : Dev} (h : Settles K d e) : e.snag.held = d.snag.held := by
  have := congrArg (fun x : Dev => x.snag.held) h.beyond; exact this
@[simp] theorem settle_snag_held (d : Dev) : d.settle.snag.held = d.snag.held := (settle_settles d).snag_held
theorem Settles.snag_reports {d e : Dev} (h : Settles K d e) : e.snag.reports = d.snag.reports := by
  have := congrArg (fun x : Dev => x.snag.reports) h.beyond; exact this
@[simp] theorem settle_snag_reports (d : Dev) : d.settle.snag.reports = d.snag.reports := (settle_settles d).snag_reports
theorem Settles.snag_sevCopy {d e : Dev} (h : Settles K d e) : e.snag.sevCopy = d.snag.sevCopy := by
  have := congrArg (fun x : Dev => x.snag.sevCopy) h.beyond; exact this
@[simp] theorem settle_snag_sevCopy (d : Dev) : d.settle.snag.sevCopy = d.snag.sevCopy := (settle_settles d).snag_sevCopy
theorem Settles.snag_alarmUntil {d e : Dev} (h : Settles K d e) : e.snag.alarmUntil = d.snag.alarmUntil := by
  have := congrArg (fun x : Dev => x.snag.alarmUntil) h.beyond; exact this
@[simp] theorem settle_snag_alarmUntil (d : Dev) : d.settle.snag.alarmUntil = d.snag.alarmUntil := (settle_settles d).snag_alarmUntil
theorem Settles.snag_lineUntil {d e : Dev} (h : Settles K d e) : e.snag.lineUntil = d.snag.lineUntil := by
  have := congrArg (fun x : Dev => x.snag.lineUntil) h.beyond; exact this
@[simp] theorem settle_snag_lineUntil (d : Dev) : d.settle.snag.lineUntil = d.snag.lineUntil := (settle_settles d).snag_lineUntil
theorem Settles.snag_restart {d e : Dev} (h : Settles K d e) : e.snag.restart = d.snag.restart := by
  have := congrArg (fun x : Dev => x.snag.restart) h.beyond; exact this
@[simp] theorem settle_snag_restart (d : Dev) : d.settle.snag.restart = d.snag.restart := (settle_settles d).snag_restart
theorem Settles.snag_hbDue {d e : Dev} (h : Settles K d e) : e.snag.hbDue = d.snag.hbDue := by
  have := congrArg (fun x : Dev => x.snag.hbDue) h.beyond; exact this
@[simp] theorem settle_snag_hbDue (d : Dev) : d.settle.snag.hbDue = d.snag.hbDue := (settle_settles d).snag_hbDue
theorem Settles.snag_shadow {d e : Dev} (h : Settles K d e) : e.snag.shadow = d.snag.shadow := by
  have := congrArg (fun x : Dev => x.snag.shadow) h.beyond; exact this
@[simp] theorem settle_snag_shadow (d : Dev) : d.settle.snag.shadow = d.snag.shadow := (settle_settles d).snag_shadow
theorem Settles.snag_log {d e : Dev} (h : Settles K d e) : e.snag.log = d.snag.log := by
  have := congrArg (fun x : Dev => x.snag.log) h.beyond; exact this
@[simp] theorem settle_snag_log (d : Dev) : d.settle.snag.log = d.snag.log := (settle_settles d).snag_log
theorem Settles.snag_newRecs {d e : Dev} (h : Settles K d e) : e.snag.newRecs = d.snag.newRecs := by
  have := congrArg (fun x : Dev => x.snag.newRecs) h.beyond; exact this
@[simp] theorem settle_snag_newRecs (d : Dev) : d.settle.snag.newRecs = d.snag.newRecs := (settle_settles d).snag_newRecs
theorem Settles.snag_newAt {d e : Dev} (h : Settles K d e) : e.snag.newAt = d.snag.newAt := by
  have := congrArg (fun x : Dev => x.snag.newAt) h.beyond; exact this
@[simp] theorem settle_snag_newAt (d : Dev) : d.settle.snag.newAt = d.snag.newAt := (settle_settles d).snag_newAt
theorem Settles.snag_newFirst {d e : Dev} (h : Settles K d e) : e.snag.newFirst = d.snag.newFirst := by
  have := congrArg (fun x : Dev => x.snag.newFirst) h.beyond; exact this
@[simp] theorem settle_snag_newFirst (d : Dev) : d.settle.snag.newFirst = d.snag.newFirst := (settle_settles d).snag_newFirst
theorem Settles.snag_irq {d e : Dev} (h : Settles K d e) : e.snag.irq = d.snag.irq := by
  have := congrArg (fun x : Dev => x.snag.irq) h.beyond; exact this
@[simp] theorem settle_snag_irq (d : Dev) : d.settle.snag.irq = d.snag.irq := (settle_settles d).snag_irq
theorem Settles.gate_inputs {d e : Dev} (h : Settles K d e) : e.gate.inputs = d.gate.inputs := by
  have := congrArg (fun x : Dev => x.gate.inputs) h.beyond; exact this
@[simp] theorem settle_gate_inputs (d : Dev) : d.settle.gate.inputs = d.gate.inputs := (settle_settles d).gate_inputs
theorem Settles.gate_tick {d e : Dev} (h : Settles K d e) : e.gate.tick = d.gate.tick := by
  have := congrArg (fun x : Dev => x.gate.tick) h.beyond; exact this
@[simp] theorem settle_gate_tick (d : Dev) : d.settle.gate.tick = d.gate.tick := (settle_settles d).gate_tick
theorem Settles.gate_wraps {d e : Dev} (h : Settles K d e) : e.gate.wraps = d.gate.wraps := by
  have := congrArg (fun x : Dev => x.gate.wraps) h.beyond; exact this
@[simp] theorem settle_gate_wraps (d : Dev) : d.settle.gate.wraps = d.gate.wraps := (settle_settles d).gate_wraps
theorem Settles.gate_ports {d e : Dev} (h : Settles K d e) : e.gate.ports = d.gate.ports := by
  have := congrArg (fun x : Dev => x.gate.ports) h.beyond; exact this
@[simp] theorem settle_gate_ports (d : Dev) : d.settle.gate.ports = d.gate.ports := (settle_settles d).gate_ports
theorem Settles.gate_lastRp {d e : Dev} (h : Settles K d e) : e.gate.lastRp = d.gate.lastRp := by
  have := congrArg (fun x : Dev => x.gate.lastRp) h.beyond; exact this
@[simp] theorem settle_gate_lastRp (d : Dev) : d.settle.gate.lastRp = d.gate.lastRp := (settle_settles d).gate_lastRp
theorem Settles.gate_chime {d e : Dev} (h : Settles K d e) : e.gate.chime = d.gate.chime := by
  have := congrArg (fun x : Dev => x.gate.chime) h.beyond; exact this
@[simp] theorem settle_gate_chime (d : Dev) : d.settle.gate.chime = d.gate.chime := (settle_settles d).gate_chime
theorem Settles.gate_fallback {d e : Dev} (h : Settles K d e) : e.gate.fallback = d.gate.fallback := by
  have := congrArg (fun x : Dev => x.gate.fallback) h.beyond; exact this
@[simp] theorem settle_gate_fallback (d : Dev) : d.settle.gate.fallback = d.gate.fallback := (settle_settles d).gate_fallback
theorem Settles.gate_badEcc {d e : Dev} (h : Settles K d e) : e.gate.badEcc = d.gate.badEcc := by
  have := congrArg (fun x : Dev => x.gate.badEcc) h.beyond; exact this
@[simp] theorem settle_gate_badEcc (d : Dev) : d.settle.gate.badEcc = d.gate.badEcc := (settle_settles d).gate_badEcc
theorem Settles.gate_listenAt {d e : Dev} (h : Settles K d e) : e.gate.listenAt = d.gate.listenAt := by
  have := congrArg (fun x : Dev => x.gate.listenAt) h.beyond; exact this
@[simp] theorem settle_gate_listenAt (d : Dev) : d.settle.gate.listenAt = d.gate.listenAt := (settle_settles d).gate_listenAt
theorem Settles.gate_listenSeq {d e : Dev} (h : Settles K d e) : e.gate.listenSeq = d.gate.listenSeq := by
  have := congrArg (fun x : Dev => x.gate.listenSeq) h.beyond; exact this
@[simp] theorem settle_gate_listenSeq (d : Dev) : d.settle.gate.listenSeq = d.gate.listenSeq := (settle_settles d).gate_listenSeq
theorem Settles.gate_talk {d e : Dev} (h : Settles K d e) : e.gate.talk = d.gate.talk := by
  have := congrArg (fun x : Dev => x.gate.talk) h.beyond; exact this
@[simp] theorem settle_gate_talk (d : Dev) : d.settle.gate.talk = d.gate.talk := (settle_settles d).gate_talk
theorem Settles.gate_talkCount {d e : Dev} (h : Settles K d e) : e.gate.talkCount = d.gate.talkCount := by
  have := congrArg (fun x : Dev => x.gate.talkCount) h.beyond; exact this
@[simp] theorem settle_gate_talkCount (d : Dev) : d.settle.gate.talkCount = d.gate.talkCount := (settle_settles d).gate_talkCount
theorem Settles.gate_margins {d e : Dev} (h : Settles K d e) : e.gate.margins = d.gate.margins := by
  have := congrArg (fun x : Dev => x.gate.margins) h.beyond; exact this
@[simp] theorem settle_gate_margins (d : Dev) : d.settle.gate.margins = d.gate.margins := (settle_settles d).gate_margins
theorem Settles.cmd_sessions {d e : Dev} (h : Settles K d e) : e.cmd.sessions = d.cmd.sessions := by
  have := congrArg (fun x : Dev => x.cmd.sessions) h.beyond; exact this
@[simp] theorem settle_cmd_sessions (d : Dev) : d.settle.cmd.sessions = d.cmd.sessions := (settle_settles d).cmd_sessions
theorem Settles.cmd_handshakes {d e : Dev} (h : Settles K d e) : e.cmd.handshakes = d.cmd.handshakes := by
  have := congrArg (fun x : Dev => x.cmd.handshakes) h.beyond; exact this
@[simp] theorem settle_cmd_handshakes (d : Dev) : d.settle.cmd.handshakes = d.cmd.handshakes := (settle_settles d).cmd_handshakes
theorem Settles.cmd_partials {d e : Dev} (h : Settles K d e) : e.cmd.partials = d.cmd.partials := by
  have := congrArg (fun x : Dev => x.cmd.partials) h.beyond; exact this
@[simp] theorem settle_cmd_partials (d : Dev) : d.settle.cmd.partials = d.cmd.partials := (settle_settles d).cmd_partials
theorem Settles.cmd_stages {d e : Dev} (h : Settles K d e) : e.cmd.stages = d.cmd.stages := by
  have := congrArg (fun x : Dev => x.cmd.stages) h.beyond; exact this
@[simp] theorem settle_cmd_stages (d : Dev) : d.settle.cmd.stages = d.cmd.stages := (settle_settles d).cmd_stages
theorem Settles.cmd_bootSalt {d e : Dev} (h : Settles K d e) : e.cmd.bootSalt = d.cmd.bootSalt := by
  have := congrArg (fun x : Dev => x.cmd.bootSalt) h.beyond; exact this
@[simp] theorem settle_cmd_bootSalt (d : Dev) : d.settle.cmd.bootSalt = d.cmd.bootSalt := (settle_settles d).cmd_bootSalt
theorem Settles.cmd_authRaised {d e : Dev} (h : Settles K d e) : e.cmd.authRaised = d.cmd.authRaised := by
  have := congrArg (fun x : Dev => x.cmd.authRaised) h.beyond; exact this
@[simp] theorem settle_cmd_authRaised (d : Dev) : d.settle.cmd.authRaised = d.cmd.authRaised := (settle_settles d).cmd_authRaised
theorem Settles.cmd_commitWait {d e : Dev} (h : Settles K d e) : e.cmd.commitWait = d.cmd.commitWait := by
  have := congrArg (fun x : Dev => x.cmd.commitWait) h.beyond; exact this
@[simp] theorem settle_cmd_commitWait (d : Dev) : d.settle.cmd.commitWait = d.cmd.commitWait := (settle_settles d).cmd_commitWait
theorem Settles.cmd_restartAt {d e : Dev} (h : Settles K d e) : e.cmd.restartAt = d.cmd.restartAt := by
  have := congrArg (fun x : Dev => x.cmd.restartAt) h.beyond; exact this
@[simp] theorem settle_cmd_restartAt (d : Dev) : d.settle.cmd.restartAt = d.cmd.restartAt := (settle_settles d).cmd_restartAt

theorem Settles.outbox {d e : Dev} (h : Settles K d e) :
    e.cmd.outbox.filter (fun m => m.opcode != 14) = d.cmd.outbox.filter (fun m => m.opcode != 14) := by
  have := congrArg (fun x : Dev => x.cmd.outbox) h.beyond; exact this

/-- Messages of sessions are neither lost, changed nor added. -/
theorem settle_outbox (d : Dev) :
    d.settle.cmd.outbox.filter (fun m => m.opcode != 14) = d.cmd.outbox.filter (fun m => m.opcode != 14) :=
  (settle_settles d).outbox

theorem settle_message (d : Dev) {m : Msg} (h : m ∈ d.cmd.outbox) (hs : m.opcode ≠ 14) : m ∈ d.settle.cmd.outbox := by
  have h1 : m ∈ d.cmd.outbox.filter (fun m => m.opcode != 14) := List.mem_filter.mpr ⟨h, by simpa using hs⟩
  rw [← settle_outbox] at h1
  exact (List.mem_filter.mp h1).1

/-! The settled device is safe. -/

theorem Settles.on {d e : Dev} (h : Settles K d e) {f : Fld} (hf : f.key ∉ K) : e.on f = d.on f := Dev.on_fld (h.regs f hf)

theorem srcExists_lt {n : Nat} (h : srcExists n = true) : n < 1024 := by
  simp only [srcExists, srcInfo, Option.isSome_iff_exists] at h
  obtain ⟨r, h⟩ := h
  split at h
  · omega
  · have hm := List.mem_of_find?_eq_some h
    have hn := List.find?_some h
    have hr : ∀ r ∈ srcRanges2, r.last < 1024 := by decide
    have := hr r hm
    simp only [Bool.and_eq_true, decide_eq_true_eq] at hn
    omega

theorem sevFld_key (n : Nat) : ∃ k, (sevFld n).key = 32 * SNG.SEV (n / 4) + k := by
  unfold sevFld
  split
  · exact ⟨0, rfl⟩
  · exact ⟨8, rfl⟩
  · exact ⟨16, rfl⟩
  · exact ⟨24, rfl⟩

/-- A severity of an existing source has its key in SNG_SEV. -/
theorem sevFld_range {n : Nat} (h : srcExists n = true) :
    (sevFld n).key ∈ (List.range 256).flatMap (fun i => (List.range 4).map (fun j => 32 * SNG.SEV i + 8 * j)) := by
  have hn := srcExists_lt h
  refine List.mem_flatMap.mpr ⟨n / 4, List.mem_range.mpr (by omega), List.mem_map.mpr ⟨n % 4, List.mem_range.mpr (by omega), ?_⟩⟩
  have h4 : n % 4 = 0 ∨ n % 4 = 1 ∨ n % 4 = 2 ∨ n % 4 = 3 := by omega
  rcases h4 with h4 | h4 | h4 | h4 <;> simp only [sevFld, h4] <;> rfl

/-- What holds the safe state stays, where neither a severity nor an ALARM bit may change. -/
theorem Settles.safeCause {d e : Dev} (h : Settles K d e) (hs : ∀ n, srcExists n = true → (sevFld n).key ∉ K)
    (ha : (alarmFld 0).key ∉ K ∧ (alarmFld 1).key ∉ K ∧ (alarmFld 2).key ∉ K) : e.safeCause = d.safeCause := by
  have hv : ∀ n, e.sev n = d.sev n := fun n => by
    unfold Dev.sev
    split
    · exact h.regs _ (hs n ‹_›)
    · rfl
  simp only [Dev.safeCause, Dev.safeSource, h.snag_set, h.ladder, h.on ha.1, h.on ha.2.1, h.on ha.2.2, hv]

theorem sevFld_bounds {n : Nat} (h : srcExists n = true) : 32 * SNG.SEV 0 ≤ (sevFld n).key ∧ (sevFld n).key < 32 * SNG.SEV 256 := by
  have := srcExists_lt h
  unfold sevFld
  split <;> simp only [Fld.key, SNG.SEV_SEV0, SNG.SEV_SEV1, SNG.SEV_SEV2, SNG.SEV_SEV3, SNG.SEV] <;> omega

theorem sevFld_other {n : Nat} (h : srcExists n = true) (K : List Nat)
    (hK : ∀ k ∈ K, k < 32 * SNG.SEV 0 ∨ 32 * SNG.SEV 256 ≤ k) : (sevFld n).key ∉ K := by
  intro hk
  have := sevFld_bounds h
  have := hK _ hk
  omega

theorem enterSafe_cause (d : Dev) : d.enterSafe.safeCause = d.safeCause :=
  (enterSafe_settles d).safeCause (fun _ h => sevFld_other h _ (by decide)) (by decide)

theorem safePins_cause (d : Dev) : d.safePins.safeCause = d.safeCause :=
  (safePins_settles d).safeCause (fun _ h => sevFld_other h _ (by decide)) (by decide)

theorem enterSafe_on (d : Dev) : d.enterSafe.on SNG.STAT_SAFE = true := by
  have h1 : (d.enabledOuts.foldl Dev.substNow (d.flag SNG.STAT_SAFE true)).on SNG.STAT_SAFE = true := by
    rw [(Settles.foldl (K := []) Dev.substNow substNow_settles d.enabledOuts _).on (by simp)]
    simp
  unfold Dev.enterSafe
  generalize d.enabledOuts.foldl Dev.substNow (d.flag SNG.STAT_SAFE true) = e at h1
  dsimp only
  split
  · rw [(triggerStatus_settles (K := [ETH.CMD_INJ_ARM.key]) (by decide) _ 1).on (by decide), Dev.on_flag_other _ _ (by decide)]
    exact h1
  · exact h1

theorem safePort_other (d : Dev) (p : Nat) {f : Fld} (h1 : f.key ≠ (SGT.P_STAT_VALID p).key) (h2 : f.key ≠ (SGT.P_STAT_MUTED p).key) :
    (d.safePort p).on f = d.on f := by
  unfold Dev.safePort
  dsimp only
  split
  · rw [Dev.on_flag_other _ _ h2, Dev.on_flag_other _ _ h1]
  · rw [Dev.on_flag_other _ _ h1]

theorem safePort_valid (d : Dev) (p : Nat) : (d.safePort p).on (SGT.P_STAT_VALID p) = false := by
  unfold Dev.safePort
  dsimp only
  split
  · rw [Dev.on_flag_other _ _ (by simp only [Fld.key, SGT.P_STAT_VALID, SGT.P_STAT_MUTED]; omega)]
    simp
  · simp

theorem safePort_snag (d : Dev) (p : Nat) : (d.safePort p).snag = d.snag := by
  unfold Dev.safePort
  dsimp only
  split <;> rfl

/-- The pins of the safe state (R420). -/
theorem safePins_quiet (d : Dev) : d.safePins.on SNG.STAT_SAFE_OK = false ∧ d.safePins.snag.hbLevel = false ∧
    ∀ p, p < 6 → d.safePins.on (SGT.P_STAT_VALID p) = false := by
  refine ⟨?_, ?_, fun p hp => ?_⟩
  · simp only [Dev.safePins]
    repeat rw [safePort_other _ _ (by decide) (by decide)]
    exact (d.on_flag_same SNG.STAT_SAFE_OK false)
  · simp only [Dev.safePins, safePort_snag]
  · have : p = 0 ∨ p = 1 ∨ p = 2 ∨ p = 3 ∨ p = 4 ∨ p = 5 := by omega
    simp only [Dev.safePins]
    rcases this with rfl | rfl | rfl | rfl | rfl | rfl <;>
      · repeat rw [safePort_other _ _ (by decide) (by decide)]
        exact safePort_valid _ _

/-- What settling does once the ALARM lines and the severities are taken in. -/
def settleTail (e : Dev) : Dev :=
  let d2 := if e.safeCause && !e.on SNG.STAT_SAFE then e.enterSafe else e
  let d3 := if d2.on SNG.STAT_SAFE then d2.safePins else d2
  { d3 with snag := { d3.snag with resumePending := d3.snag.resumePending && !d3.safeCause, refused := d3.refusedNow } }

theorem settle_tail (d : Dev) : d.settle = settleTail d.setAlarms.sevChange := rfl

/-- A pending resume holds nothing. -/
theorem resumePending_frame (x : Dev) (b : Bool) (f : Option Bool) (h : SafeHeld x) (k : SafeQuiet x) :
    SafeHeld { x with snag := { x.snag with resumePending := b, refused := f } } ∧
      SafeQuiet { x with snag := { x.snag with resumePending := b, refused := f } } :=
  ⟨h, k⟩

theorem settleTail_safe (e : Dev) : SafeHeld (settleTail e) ∧ SafeQuiet (settleTail e) := by
  unfold settleTail
  dsimp only
  have h2 : (if e.safeCause && !e.on SNG.STAT_SAFE then e.enterSafe else e).safeCause = true →
      (if e.safeCause && !e.on SNG.STAT_SAFE then e.enterSafe else e).on SNG.STAT_SAFE = true := by
    split
    · exact fun _ => enterSafe_on e
    · rename_i h
      intro hc
      simpa [hc] using h
  generalize (if e.safeCause && !e.on SNG.STAT_SAFE then e.enterSafe else e) = x at h2
  apply resumePending_frame
  all_goals by_cases hx : x.on SNG.STAT_SAFE = true
  · have ho : x.safePins.on SNG.STAT_SAFE = true := by rw [(safePins_settles x).on (by decide)]; exact hx
    rw [if_pos hx]
    exact fun _ => ho
  · rw [if_neg hx]
    exact fun hc => absurd (h2 hc) hx
  · rw [if_pos hx]
    exact fun _ => safePins_quiet x
  · rw [if_neg hx]
    exact fun ho => absurd ho hx

/-- After a command the device is safe (R419, R420). -/
theorem settle_safe (d : Dev) : SafeHeld d.settle ∧ SafeQuiet d.settle := settle_tail d ▸ settleTail_safe _

seal Dev.settle

/-! The frame around a command. -/

/-- A command on a device with supply answers with its body's state. -/
theorem run_alive {s : State} (h : s.dev.dead = false) (f : Mem → Dev → Dev) : run s f = .next (runOn s f) := by
  simp [run, h]

/-- To show what a command yields, show it of the state its body leaves. -/
theorem run_yields {s : State} {f : Mem → Dev → Dev} {P : State → Prop} (h : s.dev.dead = false) (hp : P (runOn s f)) :
    Yields (run s f) P := ⟨_, run_alive h f, hp⟩

/-- The same, with what the body computes given. -/
theorem run_body {s : State} {f : Mem → Dev → Dev} {e : Dev} {P : State → Prop} (h : s.dev.dead = false) (he : f s.mem s.dev = e)
    (hp : P (runOn s (fun _ _ => e))) : Yields (run s f) P := by
  subst he
  exact ⟨_, run_alive h f, hp⟩

@[simp] theorem runOn_pending (s : State) (f : Mem → Dev → Dev) : (runOn s f).pending = s.pending := rfl

theorem runOn_mem (s : State) (f : Mem → Dev → Dev) : (runOn s f).mem = s.mem.putAll (f s.mem s.dev).memsys.writes := by
  simp only [runOn, settle_memsys]

theorem runOn_fld (s : State) (f : Mem → Dev → Dev) {g : Fld} (h : g.key ∉ safeKeys) : (runOn s f).dev.fld g = (f s.mem s.dev).fld g :=
  settle_fld _ h

theorem runOn_on (s : State) (f : Mem → Dev → Dev) {g : Fld} (h : g.key ∉ safeKeys) : (runOn s f).dev.on g = (f s.mem s.dev).on g :=
  Dev.on_fld (runOn_fld s f h)

theorem runOn_safe (s : State) (f : Mem → Dev → Dev) : Safe (runOn s f) := settle_safe (f s.mem s.dev)

theorem runOn_message (s : State) (f : Mem → Dev → Dev) {m : Msg} (h : m ∈ (f s.mem s.dev).cmd.outbox) (hs : m.opcode ≠ 14) :
    m ∈ (runOn s f).dev.cmd.outbox := settle_message _ h hs

theorem runOn_memsys (s : State) (f : Mem → Dev → Dev) :
    (runOn s f).dev.memsys = { (f s.mem s.dev).memsys with writes := [] } := by
  simp only [runOn, settle_memsys]

@[simp] theorem runOn_now (s : State) (f : Mem → Dev → Dev) : (runOn s f).dev.now = (f s.mem s.dev).now := settle_now _
@[simp] theorem runOn_staged (s : State) (f : Mem → Dev → Dev) : (runOn s f).dev.staged = (f s.mem s.dev).staged := settle_staged _
@[simp] theorem runOn_capture (s : State) (f : Mem → Dev → Dev) : (runOn s f).dev.capture = (f s.mem s.dev).capture := settle_capture _
@[simp] theorem runOn_resp (s : State) (f : Mem → Dev → Dev) : (runOn s f).dev.resp = (f s.mem s.dev).resp := settle_resp _
@[simp] theorem runOn_hwSet (s : State) (f : Mem → Dev → Dev) : (runOn s f).dev.hwSet = (f s.mem s.dev).hwSet := settle_hwSet _
@[simp] theorem runOn_free (s : State) (f : Mem → Dev → Dev) : (runOn s f).dev.free = (f s.mem s.dev).free := settle_free _
@[simp] theorem runOn_drbg (s : State) (f : Mem → Dev → Dev) : (runOn s f).dev.drbg = (f s.mem s.dev).drbg := settle_drbg _
@[simp] theorem runOn_ladder (s : State) (f : Mem → Dev → Dev) : (runOn s f).dev.ladder = (f s.mem s.dev).ladder := settle_ladder _
@[simp] theorem runOn_watch (s : State) (f : Mem → Dev → Dev) : (runOn s f).dev.watch = (f s.mem s.dev).watch := settle_watch _
@[simp] theorem runOn_skim (s : State) (f : Mem → Dev → Dev) : (runOn s f).dev.skim = (f s.mem s.dev).skim := settle_skim _
@[simp] theorem runOn_sig (s : State) (f : Mem → Dev → Dev) : (runOn s f).dev.sig = (f s.mem s.dev).sig := settle_sig _
@[simp] theorem runOn_arr (s : State) (f : Mem → Dev → Dev) : (runOn s f).dev.arr = (f s.mem s.dev).arr := settle_arr _
@[simp] theorem runOn_plan (s : State) (f : Mem → Dev → Dev) : (runOn s f).dev.plan = (f s.mem s.dev).plan := settle_plan _
@[simp] theorem runOn_links (s : State) (f : Mem → Dev → Dev) : (runOn s f).dev.links = (f s.mem s.dev).links := settle_links _
@[simp] theorem runOn_time (s : State) (f : Mem → Dev → Dev) : (runOn s f).dev.time = (f s.mem s.dev).time := settle_time _
@[simp] theorem runOn_net (s : State) (f : Mem → Dev → Dev) : (runOn s f).dev.net = (f s.mem s.dev).net := settle_net _
@[simp] theorem runOn_cores (s : State) (f : Mem → Dev → Dev) : (runOn s f).dev.cores = (f s.mem s.dev).cores := settle_cores _
@[simp] theorem runOn_boot (s : State) (f : Mem → Dev → Dev) : (runOn s f).dev.boot = (f s.mem s.dev).boot := settle_boot _
@[simp] theorem runOn_health (s : State) (f : Mem → Dev → Dev) : (runOn s f).dev.health = (f s.mem s.dev).health := settle_health _
@[simp] theorem runOn_twin (s : State) (f : Mem → Dev → Dev) : (runOn s f).dev.twin = (f s.mem s.dev).twin := settle_twin _
@[simp] theorem runOn_power (s : State) (f : Mem → Dev → Dev) : (runOn s f).dev.power = (f s.mem s.dev).power := settle_power _
@[simp] theorem runOn_snag_set (s : State) (f : Mem → Dev → Dev) : (runOn s f).dev.snag.set = (f s.mem s.dev).snag.set := settle_snag_set _
@[simp] theorem runOn_snag_injected (s : State) (f : Mem → Dev → Dev) : (runOn s f).dev.snag.injected = (f s.mem s.dev).snag.injected := settle_snag_injected _
@[simp] theorem runOn_snag_setAt (s : State) (f : Mem → Dev → Dev) : (runOn s f).dev.snag.setAt = (f s.mem s.dev).snag.setAt := settle_snag_setAt _
@[simp] theorem runOn_snag_resumeAt (s : State) (f : Mem → Dev → Dev) : (runOn s f).dev.snag.resumeAt = (f s.mem s.dev).snag.resumeAt := settle_snag_resumeAt _
@[simp] theorem runOn_snag_cause (s : State) (f : Mem → Dev → Dev) : (runOn s f).dev.snag.cause = (f s.mem s.dev).snag.cause := settle_snag_cause _
@[simp] theorem runOn_snag_held (s : State) (f : Mem → Dev → Dev) : (runOn s f).dev.snag.held = (f s.mem s.dev).snag.held := settle_snag_held _
@[simp] theorem runOn_snag_reports (s : State) (f : Mem → Dev → Dev) : (runOn s f).dev.snag.reports = (f s.mem s.dev).snag.reports := settle_snag_reports _
@[simp] theorem runOn_snag_sevCopy (s : State) (f : Mem → Dev → Dev) : (runOn s f).dev.snag.sevCopy = (f s.mem s.dev).snag.sevCopy := settle_snag_sevCopy _
@[simp] theorem runOn_snag_alarmUntil (s : State) (f : Mem → Dev → Dev) : (runOn s f).dev.snag.alarmUntil = (f s.mem s.dev).snag.alarmUntil := settle_snag_alarmUntil _
@[simp] theorem runOn_snag_lineUntil (s : State) (f : Mem → Dev → Dev) : (runOn s f).dev.snag.lineUntil = (f s.mem s.dev).snag.lineUntil := settle_snag_lineUntil _
@[simp] theorem runOn_snag_restart (s : State) (f : Mem → Dev → Dev) : (runOn s f).dev.snag.restart = (f s.mem s.dev).snag.restart := settle_snag_restart _
@[simp] theorem runOn_snag_hbDue (s : State) (f : Mem → Dev → Dev) : (runOn s f).dev.snag.hbDue = (f s.mem s.dev).snag.hbDue := settle_snag_hbDue _
@[simp] theorem runOn_snag_shadow (s : State) (f : Mem → Dev → Dev) : (runOn s f).dev.snag.shadow = (f s.mem s.dev).snag.shadow := settle_snag_shadow _
@[simp] theorem runOn_snag_log (s : State) (f : Mem → Dev → Dev) : (runOn s f).dev.snag.log = (f s.mem s.dev).snag.log := settle_snag_log _
@[simp] theorem runOn_snag_newRecs (s : State) (f : Mem → Dev → Dev) : (runOn s f).dev.snag.newRecs = (f s.mem s.dev).snag.newRecs := settle_snag_newRecs _
@[simp] theorem runOn_snag_newAt (s : State) (f : Mem → Dev → Dev) : (runOn s f).dev.snag.newAt = (f s.mem s.dev).snag.newAt := settle_snag_newAt _
@[simp] theorem runOn_snag_newFirst (s : State) (f : Mem → Dev → Dev) : (runOn s f).dev.snag.newFirst = (f s.mem s.dev).snag.newFirst := settle_snag_newFirst _
@[simp] theorem runOn_snag_irq (s : State) (f : Mem → Dev → Dev) : (runOn s f).dev.snag.irq = (f s.mem s.dev).snag.irq := settle_snag_irq _
@[simp] theorem runOn_gate_inputs (s : State) (f : Mem → Dev → Dev) : (runOn s f).dev.gate.inputs = (f s.mem s.dev).gate.inputs := settle_gate_inputs _
@[simp] theorem runOn_gate_tick (s : State) (f : Mem → Dev → Dev) : (runOn s f).dev.gate.tick = (f s.mem s.dev).gate.tick := settle_gate_tick _
@[simp] theorem runOn_gate_wraps (s : State) (f : Mem → Dev → Dev) : (runOn s f).dev.gate.wraps = (f s.mem s.dev).gate.wraps := settle_gate_wraps _
@[simp] theorem runOn_gate_ports (s : State) (f : Mem → Dev → Dev) : (runOn s f).dev.gate.ports = (f s.mem s.dev).gate.ports := settle_gate_ports _
@[simp] theorem runOn_gate_lastRp (s : State) (f : Mem → Dev → Dev) : (runOn s f).dev.gate.lastRp = (f s.mem s.dev).gate.lastRp := settle_gate_lastRp _
@[simp] theorem runOn_gate_chime (s : State) (f : Mem → Dev → Dev) : (runOn s f).dev.gate.chime = (f s.mem s.dev).gate.chime := settle_gate_chime _
@[simp] theorem runOn_gate_fallback (s : State) (f : Mem → Dev → Dev) : (runOn s f).dev.gate.fallback = (f s.mem s.dev).gate.fallback := settle_gate_fallback _
@[simp] theorem runOn_gate_badEcc (s : State) (f : Mem → Dev → Dev) : (runOn s f).dev.gate.badEcc = (f s.mem s.dev).gate.badEcc := settle_gate_badEcc _
@[simp] theorem runOn_gate_listenAt (s : State) (f : Mem → Dev → Dev) : (runOn s f).dev.gate.listenAt = (f s.mem s.dev).gate.listenAt := settle_gate_listenAt _
@[simp] theorem runOn_gate_listenSeq (s : State) (f : Mem → Dev → Dev) : (runOn s f).dev.gate.listenSeq = (f s.mem s.dev).gate.listenSeq := settle_gate_listenSeq _
@[simp] theorem runOn_gate_talk (s : State) (f : Mem → Dev → Dev) : (runOn s f).dev.gate.talk = (f s.mem s.dev).gate.talk := settle_gate_talk _
@[simp] theorem runOn_gate_talkCount (s : State) (f : Mem → Dev → Dev) : (runOn s f).dev.gate.talkCount = (f s.mem s.dev).gate.talkCount := settle_gate_talkCount _
@[simp] theorem runOn_gate_margins (s : State) (f : Mem → Dev → Dev) : (runOn s f).dev.gate.margins = (f s.mem s.dev).gate.margins := settle_gate_margins _
@[simp] theorem runOn_cmd_sessions (s : State) (f : Mem → Dev → Dev) : (runOn s f).dev.cmd.sessions = (f s.mem s.dev).cmd.sessions := settle_cmd_sessions _
@[simp] theorem runOn_cmd_handshakes (s : State) (f : Mem → Dev → Dev) : (runOn s f).dev.cmd.handshakes = (f s.mem s.dev).cmd.handshakes := settle_cmd_handshakes _
@[simp] theorem runOn_cmd_partials (s : State) (f : Mem → Dev → Dev) : (runOn s f).dev.cmd.partials = (f s.mem s.dev).cmd.partials := settle_cmd_partials _
@[simp] theorem runOn_cmd_stages (s : State) (f : Mem → Dev → Dev) : (runOn s f).dev.cmd.stages = (f s.mem s.dev).cmd.stages := settle_cmd_stages _
@[simp] theorem runOn_cmd_bootSalt (s : State) (f : Mem → Dev → Dev) : (runOn s f).dev.cmd.bootSalt = (f s.mem s.dev).cmd.bootSalt := settle_cmd_bootSalt _
@[simp] theorem runOn_cmd_authRaised (s : State) (f : Mem → Dev → Dev) : (runOn s f).dev.cmd.authRaised = (f s.mem s.dev).cmd.authRaised := settle_cmd_authRaised _
@[simp] theorem runOn_cmd_commitWait (s : State) (f : Mem → Dev → Dev) : (runOn s f).dev.cmd.commitWait = (f s.mem s.dev).cmd.commitWait := settle_cmd_commitWait _
@[simp] theorem runOn_cmd_restartAt (s : State) (f : Mem → Dev → Dev) : (runOn s f).dev.cmd.restartAt = (f s.mem s.dev).cmd.restartAt := settle_cmd_restartAt _

/-! Memory. -/

@[simp] theorem Mem.byte_put_same (m : Mem) (w : MemWrite) : (m.put w).byte w.addr = w.byte := tabGet_set_same _ _ _ _

theorem Mem.byte_put_other (m : Mem) (w : MemWrite) {a : Nat} (h : a ≠ w.addr) : (m.put w).byte a = m.byte a :=
  tabGet_set_other _ _ _ h

/-- A byte at which no write aims stays. -/
theorem Mem.byte_putAll_other (ws : List MemWrite) : ∀ (m : Mem) {a : Nat}, (∀ w ∈ ws, w.addr ≠ a) → (m.putAll ws).byte a = m.byte a := by
  induction ws with
  | nil => exact fun _ _ _ => rfl
  | cons w ws ih =>
    intro m a h
    have h1 := ih (m.put w) (fun x hx => h x (List.mem_cons_of_mem _ hx))
    exact h1.trans (Mem.byte_put_other m w (fun hh => h w List.mem_cons_self hh.symm))

theorem Mem.put_wf {m : Mem} (w : MemWrite) (h : Memory.wf m = true) : Memory.wf (m.put w) = true := by
  simp only [Memory.wf, Bool.and_eq_true] at h ⊢
  exact ⟨tabSet_wf _ _ h.1, tabSet_wf _ _ h.2⟩

/-- Every write to memory keeps its form. -/
theorem Mem.putAll_wf (ws : List MemWrite) : ∀ {m : Mem}, Memory.wf m = true → Memory.wf (m.putAll ws) = true := by
  induction ws with
  | nil => exact fun h => h
  | cons w ws ih => exact fun h => ih (Mem.put_wf w h)

/-- A command keeps the memory's form and leaves no write behind. -/
theorem runOn_memoryKept {s : State} (h : MemoryKept s) (f : Mem → Dev → Dev) : MemoryKept (runOn s f) := by
  refine ⟨?_, by rw [runOn_memsys]⟩
  rw [runOn_mem]
  exact Mem.putAll_wf _ h.1

/-- A command that queues no write leaves memory as it is. -/
theorem runOn_outside {s : State} {f : Mem → Dev → Dev} (h : (f s.mem s.dev).memsys.writes = []) : Outside s (runOn s f) := by
  refine ⟨fun a => ?_, rfl⟩
  rw [runOn_mem, h]
  rfl

theorem beyond_memsys (d : Dev) (m : MemSys) : Dev.beyond { d with memsys := m } = { Dev.beyond d with memsys := m } := rfl

/-- The frame of a command from that of its body, which queues no write to memory. -/
theorem runOn_frame {s : State} {f : Mem → Dev → Dev} {keys : List Nat} {erase : Dev → Dev}
    (he : ∀ (d : Dev) (m : MemSys), erase { d with memsys := m } = { erase d with memsys := m }) (hm : s.dev.memsys.writes = [])
    (hk : ∀ g : Fld, g.key ∉ keys → (f s.mem s.dev).fld g = s.dev.fld g) (hw : (f s.mem s.dev).memsys = s.dev.memsys)
    (hb : erase (Dev.beyond (f s.mem s.dev)) = erase (Dev.beyond s.dev)) : Frame keys erase s (runOn s f) := by
  refine ⟨fun g hg hs => (runOn_fld s f hs).trans (hk g hg), ?_, runOn_outside (by rw [hw, hm])⟩
  have h1 : Dev.beyond (runOn s f).dev = { Dev.beyond (f s.mem s.dev) with memsys := { (f s.mem s.dev).memsys with writes := [] } } := by
    have := beyond_memsys (f s.mem s.dev).settle { (f s.mem s.dev).settle.memsys with writes := [] }
    rw [settle_beyond, settle_memsys] at this
    rw [← this, ← settle_memsys]
    rfl
  have h2 : ({ (f s.mem s.dev).memsys with writes := [] } : MemSys) = (Dev.beyond s.dev).memsys := by
    rw [hw, ← hm]
    rfl
  rw [h1, he, hb, h2, ← he]

/-- The frame of a body that changes register fields alone. -/
theorem runOn_regsOnly {s : State} {f : Mem → Dev → Dev} {keys : List Nat} (hm : s.dev.memsys.writes = [])
    (hk : ∀ g : Fld, g.key ∉ keys → (f s.mem s.dev).fld g = s.dev.fld g)
    (hb : { f s.mem s.dev with regs := s.dev.regs, resp := s.dev.resp } = s.dev) : RegsOnly keys s (runOn s f) := by
  refine runOn_frame (fun _ _ => rfl) hm hk (by have := congrArg Dev.memsys hb; exact this) ?_
  have h3 := congrArg (fun x => { Dev.beyond x with resp := Resp.idle }) hb
  exact h3


end Sys2Proof.Laws
end

