-- ==== Sys2Proof/Laws/Raise.lean ====
section
/-!
SUPPORT. What setting a source can do: it changes the Snag unit, the registers of the fault log and of the first source, LADDER.TRIES, the
ladder's event, and the messages and sequence numbers of sessions, and nothing else; no source is cleared by it.
-/

namespace Sys2Proof.Laws

open Sys2Proof.Machine

/-- Keys of the fields that setting a source may change. -/
def raiseKeys : List Nat :=
  [SNG.FIRST_VALID.key, SNG.FIRST_FIRST_SRC.key, SNG.LOG_WR_WR.key, SNG.LOG_STAT_FULL.key, SNG.LOG_STAT_LOST.key, WDG.LADDER_TRIES.key]

/-- The device without what setting a source may change. -/
def bare (d : Dev) : Dev :=
  { d with regs := [],
           snag := { d.snag with set := [], injected := [], setAt := [], held := [], reports := [], restart := none, log := [], newRecs := [], newAt := 0,
                                 newFirst := false, irq := false },
           ladder := { d.ladder with eventAt := none, calmFrom := 0 },
           cmd := { d.cmd with sessions := [], outbox := [] } }

/-- An update that setting a source may make. -/
structure Raises (d e : Dev) : Prop where
  regs : ∀ f : Fld, f.key ∉ raiseKeys → e.fld f = d.fld f
  bare : bare e = bare d
  set : ∀ n, d.isSet n = true → e.isSet n = true
  held : ∀ k, tabGet false d.snag.held k = true → tabGet false e.snag.held k = true

theorem Raises.refl (d : Dev) : Raises d d := ⟨fun _ _ => rfl, rfl, fun _ h => h, fun _ h => h⟩

theorem Raises.trans {a b c : Dev} (h : Raises a b) (k : Raises b c) : Raises a c :=
  ⟨fun f hf => (k.regs f hf).trans (h.regs f hf), k.bare.trans h.bare, fun n hn => k.set n (h.set n hn), fun n hn => k.held n (h.held n hn)⟩

theorem Raises.ite {d e₁ e₂ : Dev} {c : Prop} [Decidable c] (h₁ : c → Raises d e₁) (h₂ : ¬ c → Raises d e₂) :
    Raises d (if c then e₁ else e₂) := by
  split
  · exact h₁ ‹_›
  · exact h₂ ‹_›

theorem Raises.put {d e : Dev} (h : Raises d e) (f : Fld) (v : Nat) (hf : f.key ∈ raiseKeys) : Raises d (e.put f v) :=
  h.trans ⟨fun _ hg => e.fld_put_other v (fun hk => hg (hk ▸ hf)), rfl, fun _ h => h, fun _ h => h⟩

theorem Raises.flag {d e : Dev} (h : Raises d e) (f : Fld) (b : Bool) (hf : f.key ∈ raiseKeys) : Raises d (e.flag f b) := h.put f _ hf

theorem Raises.count {d e : Dev} (h : Raises d e) (f : Fld) (n : Nat) (hf : f.key ∈ raiseKeys) : Raises d (e.count f n) := h.put f _ hf

/-- Parts of the Snag unit beside the set and the collectors. -/
theorem Raises.snag {d e : Dev} (h : Raises d e) (r : Option RestartDue) (l : Tab (List Nat)) (n : List Nat) (a : Nat) (b i : Bool) :
    Raises d { e with snag := { e.snag with restart := r, log := l, newRecs := n, newAt := a, newFirst := b, irq := i } } :=
  h.trans ⟨fun _ _ => rfl, rfl, fun _ h => h, fun _ h => h⟩

theorem Raises.post {d e : Dev} (h : Raises d e) (m : Msg) : Raises d (e.post m) :=
  h.trans ⟨fun _ _ => rfl, rfl, fun _ h => h, fun _ h => h⟩

theorem Raises.session {d e : Dev} (h : Raises d e) (n : Nat) (x : Option Session) : Raises d (e.withSession n x) :=
  h.trans ⟨fun _ _ => rfl, rfl, fun _ h => h, fun _ h => h⟩

theorem Raises.outbox {d e : Dev} (h : Raises d e) (b : List Msg) : Raises d { e with cmd := { e.cmd with outbox := b } } :=
  h.trans ⟨fun _ _ => rfl, rfl, fun _ h => h, fun _ h => h⟩

theorem Raises.foldl {α : Type} (g : Dev → α → Dev) (hg : ∀ d a, Raises d (g d a)) (l : List α) : ∀ d, Raises d (l.foldl g d) := by
  induction l with
  | nil => exact Raises.refl
  | cons a l ih => exact fun d => (hg d a).trans (ih _)

theorem event_raises (d : Dev) (n op : Nat) (p : List Byte) : Raises d (d.event n op p) := by
  unfold Dev.event
  split
  · exact .refl d
  · exact ((Raises.refl d).session _ _).post _

theorem faultEventTo_raises (n sev : Nat) (d : Dev) (sess : Nat) : Raises d (Dev.faultEventTo n sev d sess) := by
  unfold Dev.faultEventTo
  split
  · exact .refl d
  · split
    · dsimp only
      split
      · exact (Raises.refl d).outbox _
      · exact event_raises d _ _ _
    · exact .refl d

theorem logPut_raises (d : Dev) (r : List Nat) : Raises d (d.logPut .fault r).1 := by
  unfold Dev.logPut
  split
  · exact (Raises.refl d).count SNG.LOG_STAT_LOST 1 (by decide)
  · exact ((((Raises.refl d).snag d.snag.restart _ d.snag.newRecs d.snag.newAt d.snag.newFirst d.snag.irq).put SNG.LOG_WR_WR _ (by decide)).flag
      SNG.LOG_STAT_FULL _ (by decide))

theorem faultRecord_raises (d : Dev) (n flags detail : Nat) : Raises d (d.faultRecord n flags detail).1 := logPut_raises d _

theorem Raises.mark {d e : Dev} (h : Raises d e) (n : Nat) (i : Tab Bool) (r : List Nat) (a : Nat) (b : Bool) :
    Raises d { e with snag := { e.snag with set := tabSet false e.snag.set n true, injected := i, newRecs := r, newAt := a, newFirst := b } } :=
  h.trans ⟨fun _ _ => rfl, rfl, fun m hm => by
    have hv := tabGet_set false e.snag.set n m true
    by_cases hn : m = n
    · rw [if_pos hn] at hv; exact hv
    · rw [if_neg hn] at hv; exact hv.trans hm, fun _ h => h⟩

/-- A source marked is set. -/
theorem markSet_spec (d : Dev) (n : Nat) (inj : Bool) : Raises d (d.markSet n inj) ∧ (d.markSet n inj).isSet n = true := by
  have key : ∀ g : Snag, (∃ r a b, g = { d.snag with newRecs := r, newAt := a, newFirst := b }) → ∀ (c : Prop) [Decidable c] (b : Bool),
      let d1 := { d with snag := { g with set := tabSet false g.set n true, injected := tabSet false g.injected n inj, newFirst := b } }
      Raises d (if c then (d1.flag SNG.FIRST_VALID true).put SNG.FIRST_FIRST_SRC n else d1) ∧
        (if c then (d1.flag SNG.FIRST_VALID true).put SNG.FIRST_FIRST_SRC n else d1).isSet n = true := by
    rintro g ⟨r, a, b0, rfl⟩ c _ b d1
    have h1 : Raises d d1 := (Raises.refl d).mark n (tabSet false d.snag.injected n inj) r a b
    have hs : d1.isSet n = true := by
      have := tabGet_set_same false d.snag.set n true
      exact this
    refine ⟨.ite (fun _ => (h1.flag _ _ (by decide)).put _ _ (by decide)) (fun _ => h1), ?_⟩
    split <;> exact hs
  unfold Dev.markSet
  dsimp only
  apply key
  split
  · exact ⟨d.snag.newRecs, d.snag.newAt, d.snag.newFirst, rfl⟩
  · exact ⟨[], d.now, false, rfl⟩

theorem noteSet_raises (d : Dev) (n detail : Nat) (inj : Bool) : Raises d (d.noteSet n detail inj).1 := by
  have h1 := faultRecord_raises d n (b2n inj) detail
  unfold Dev.noteSet
  generalize d.faultRecord n (b2n inj) detail = p at h1
  obtain ⟨d1, dropped⟩ := p
  dsimp only at h1 ⊢
  have h2 := Raises.ite (c := dropped = true) (fun _ => h1)
    (fun _ => h1.snag d1.snag.restart (sortRecords d1.snag.log (d1.snag.newRecs ++ [d.fld SNG.LOG_WR_WR]))
      (d1.snag.newRecs ++ [d.fld SNG.LOG_WR_WR]) d1.snag.newAt d1.snag.newFirst d1.snag.irq)
  generalize (if dropped = true then d1 else _) = d2 at h2 ⊢
  exact (h2.snag d2.snag.restart d2.snag.log d2.snag.newRecs d2.snag.newAt d2.snag.newFirst true).trans
    (.foldl _ (faultEventTo_raises n (d.sev n)) _ _)

/-- The restart that is due and the ladder's event. -/
theorem Raises.ladder {d e : Dev} (h : Raises d e) (r : Option RestartDue) (a : Option Nat) (c : Nat) :
    Raises d { e with ladder := { e.ladder with eventAt := a, calmFrom := c }, snag := { e.snag with restart := r } } :=
  h.trans ⟨fun _ _ => rfl, rfl, fun _ h => h, fun _ h => h⟩

theorem ladderStep2_raises (d : Dev) (cause unit : Nat) : Raises d (d.ladderStep2 cause unit) := by
  unfold Dev.ladderStep2
  split
  · split
    · exact (Raises.refl d).ladder _ d.ladder.eventAt d.ladder.calmFrom
    · exact .refl d
  · dsimp only
    split
    · have h := ((Raises.refl d).ladder d.snag.restart (some d.now) d.now).count WDG.LADDER_TRIES 1 (by decide)
      exact h.trans ⟨fun _ _ => rfl, rfl, fun _ h => h, fun _ h => h⟩
    · split
      · exact (Raises.refl d).ladder _ (some d.now) d.now
      · exact (Raises.refl d).ladder d.snag.restart (some d.now) d.now

/-- Setting one source: nothing but what setting a source may change, and the source is set where it exists. -/
theorem setOne_spec (d : Dev) (n detail : Nat) (inj : Bool) :
    Raises d (d.setOne n detail inj).1 ∧ (srcExists n = true → (d.setOne n detail inj).1.isSet n = true) := by
  have hs : Raises d (d.stampSource n) := ⟨fun _ _ => rfl, rfl, fun _ h => h, fun _ h => h⟩
  unfold Dev.setOne
  split
  · rename_i h
    exact ⟨.refl d, fun hn => by simp [hn] at h⟩
  split
  · exact ⟨hs, fun _ => hs.set n ‹_›⟩
  · have hm := markSet_spec (d.stampSource n) n inj
    dsimp only
    generalize (d.stampSource n).markSet n inj = d1 at hm
    have h2 : Raises d1 (if sevNote ≤ d.sev n then d1.noteSet n detail inj else (d1, false)).1 := by
      split
      · exact noteSet_raises _ _ _ _
      · exact .refl _
    generalize (if sevNote ≤ d.sev n then d1.noteSet n detail inj else (d1, false)) = p at h2
    obtain ⟨d2, dropped⟩ := p
    dsimp only at h2 ⊢
    have h3 : Raises d2 (if d.sev n = sevRestart then d2.ladderStep2 2 n else d2) :=
      .ite (fun _ => ladderStep2_raises _ _ _) (fun _ => .refl _)
    exact ⟨((hs.trans hm.1).trans h2).trans h3, fun _ => h3.set n (h2.set n hm.2)⟩

/-- A source of the S-die is set at once (R412, R415). -/
theorem setSource_spec (d : Dev) (n detail : Nat) (inj : Bool) :
    Raises d (d.setSource n detail inj) ∧ (srcExists n = true → (d.setSource n detail inj).isSet n = true) := by
  have h1 := setOne_spec d n detail inj
  unfold Dev.setSource
  generalize d.setOne n detail inj = p at h1
  obtain ⟨d1, dropped⟩ := p
  dsimp only at h1 ⊢
  have h2 : Raises d1 (if dropped = true then (d1.setOne 2 0 false).1 else d1) :=
    .ite (fun _ => (setOne_spec _ _ _ _).1) (fun _ => .refl _)
  exact ⟨h1.1.trans h2, fun hn => h2.set n (h1.2 hn)⟩

/-- A detector fires on any die. -/
theorem raiseInj_raises (d : Dev) (die : Die) (n detail : Nat) (inj : Bool) : Raises d (d.raiseInj die n detail inj) := by
  have coll : ∀ y : Die, Raises d (if (!d.on (hbOkFld (dieIdx y)) || !srcExists n) = true then d
      else { d with snag := { d.snag with
          held := tabSet false d.snag.held (key2 (dieIdx y) n) true,
          reports := if (d.isSet n || tabGet false d.snag.held (key2 (dieIdx y) n)) = true then d.snag.reports
            else d.snag.reports ++ [⟨y, n, detail, inj⟩] } }) := by
    intro y
    refine .ite (fun _ => .refl d) (fun _ => ⟨fun _ _ => rfl, rfl, fun _ h => h, fun k hk => ?_⟩)
    dsimp only
    rw [tabGet_set]
    split
    · rfl
    · exact hk
  unfold Dev.raiseInj
  split
  · exact (setSource_spec d n detail inj).1
  · exact coll _

/-- On the S-die the source is set (R415). -/
theorem raiseInj_s_set (d : Dev) {n : Nat} (detail : Nat) (inj : Bool) (h : srcExists n = true) :
    (d.raiseInj .s n detail inj).isSet n = true := (setSource_spec d n detail inj).2 h

/-- On another die its collector holds the source while the die's heartbeat runs (R415, R417). -/
theorem raiseInj_held (d : Dev) {y : Die} (hy : y ≠ .s) {n : Nat} (detail : Nat) (inj : Bool) (h : srcExists n = true)
    (hb : d.on (hbOkFld (dieIdx y)) = true) : tabGet false (d.raiseInj y n detail inj).snag.held (key2 (dieIdx y) n) = true := by
  unfold Dev.raiseInj
  split
  · exact absurd rfl hy
  · simp [hb, h]

theorem raise_raises (d : Dev) (die : Die) (n : Nat) : Raises d (d.raise die n) := raiseInj_raises d die n 0 false

theorem raiseInjected_raises (d : Dev) (die : Die) (n : Nat) : Raises d (d.raiseInjected die n) := raiseInj_raises d die n 0 true

theorem raise_s_set (d : Dev) {n : Nat} (h : srcExists n = true) : (d.raise .s n).isSet n = true := raiseInj_s_set d 0 false h

@[simp] theorem isSet_cause (d : Dev) (n : Nat) (b : Bool) (m : Nat) : (d.cause n b).isSet m = d.isSet m := rfl

/-- The cause lasts (R427). -/
@[simp] theorem cause_same (d : Dev) (n : Nat) (b : Bool) : tabGet false (d.cause n b).snag.cause n = b := tabGet_set_same _ _ _ _

/-! What setting a source leaves alone. -/

theorem Raises.on {d e : Dev} (h : Raises d e) {f : Fld} (hf : f.key ∉ raiseKeys) : e.on f = d.on f := Dev.on_fld (h.regs f hf)

theorem Raises.now {d e : Dev} (h : Raises d e) : e.now = d.now := by
  have := congrArg (fun x : Dev => x.now) h.bare; exact this
@[simp] theorem raiseInj_now (d : Dev) (die : Die) (n detail : Nat) (inj : Bool) : (d.raiseInj die n detail inj).now = d.now := (raiseInj_raises d die n detail inj).now
theorem Raises.staged {d e : Dev} (h : Raises d e) : e.staged = d.staged := by
  have := congrArg (fun x : Dev => x.staged) h.bare; exact this
@[simp] theorem raiseInj_staged (d : Dev) (die : Die) (n detail : Nat) (inj : Bool) : (d.raiseInj die n detail inj).staged = d.staged := (raiseInj_raises d die n detail inj).staged
theorem Raises.capture {d e : Dev} (h : Raises d e) : e.capture = d.capture := by
  have := congrArg (fun x : Dev => x.capture) h.bare; exact this
@[simp] theorem raiseInj_capture (d : Dev) (die : Die) (n detail : Nat) (inj : Bool) : (d.raiseInj die n detail inj).capture = d.capture := (raiseInj_raises d die n detail inj).capture
theorem Raises.resp {d e : Dev} (h : Raises d e) : e.resp = d.resp := by
  have := congrArg (fun x : Dev => x.resp) h.bare; exact this
@[simp] theorem raiseInj_resp (d : Dev) (die : Die) (n detail : Nat) (inj : Bool) : (d.raiseInj die n detail inj).resp = d.resp := (raiseInj_raises d die n detail inj).resp
theorem Raises.hwSet {d e : Dev} (h : Raises d e) : e.hwSet = d.hwSet := by
  have := congrArg (fun x : Dev => x.hwSet) h.bare; exact this
@[simp] theorem raiseInj_hwSet (d : Dev) (die : Die) (n detail : Nat) (inj : Bool) : (d.raiseInj die n detail inj).hwSet = d.hwSet := (raiseInj_raises d die n detail inj).hwSet
theorem Raises.free {d e : Dev} (h : Raises d e) : e.free = d.free := by
  have := congrArg (fun x : Dev => x.free) h.bare; exact this
@[simp] theorem raiseInj_free (d : Dev) (die : Die) (n detail : Nat) (inj : Bool) : (d.raiseInj die n detail inj).free = d.free := (raiseInj_raises d die n detail inj).free
theorem Raises.drbg {d e : Dev} (h : Raises d e) : e.drbg = d.drbg := by
  have := congrArg (fun x : Dev => x.drbg) h.bare; exact this
@[simp] theorem raiseInj_drbg (d : Dev) (die : Die) (n detail : Nat) (inj : Bool) : (d.raiseInj die n detail inj).drbg = d.drbg := (raiseInj_raises d die n detail inj).drbg
theorem Raises.watch {d e : Dev} (h : Raises d e) : e.watch = d.watch := by
  have := congrArg (fun x : Dev => x.watch) h.bare; exact this
@[simp] theorem raiseInj_watch (d : Dev) (die : Die) (n detail : Nat) (inj : Bool) : (d.raiseInj die n detail inj).watch = d.watch := (raiseInj_raises d die n detail inj).watch
theorem Raises.skim {d e : Dev} (h : Raises d e) : e.skim = d.skim := by
  have := congrArg (fun x : Dev => x.skim) h.bare; exact this
@[simp] theorem raiseInj_skim (d : Dev) (die : Die) (n detail : Nat) (inj : Bool) : (d.raiseInj die n detail inj).skim = d.skim := (raiseInj_raises d die n detail inj).skim
theorem Raises.sig {d e : Dev} (h : Raises d e) : e.sig = d.sig := by
  have := congrArg (fun x : Dev => x.sig) h.bare; exact this
@[simp] theorem raiseInj_sig (d : Dev) (die : Die) (n detail : Nat) (inj : Bool) : (d.raiseInj die n detail inj).sig = d.sig := (raiseInj_raises d die n detail inj).sig
theorem Raises.arr {d e : Dev} (h : Raises d e) : e.arr = d.arr := by
  have := congrArg (fun x : Dev => x.arr) h.bare; exact this
@[simp] theorem raiseInj_arr (d : Dev) (die : Die) (n detail : Nat) (inj : Bool) : (d.raiseInj die n detail inj).arr = d.arr := (raiseInj_raises d die n detail inj).arr
theorem Raises.plan {d e : Dev} (h : Raises d e) : e.plan = d.plan := by
  have := congrArg (fun x : Dev => x.plan) h.bare; exact this
@[simp] theorem raiseInj_plan (d : Dev) (die : Die) (n detail : Nat) (inj : Bool) : (d.raiseInj die n detail inj).plan = d.plan := (raiseInj_raises d die n detail inj).plan
theorem Raises.memsys {d e : Dev} (h : Raises d e) : e.memsys = d.memsys := by
  have := congrArg (fun x : Dev => x.memsys) h.bare; exact this
@[simp] theorem raiseInj_memsys (d : Dev) (die : Die) (n detail : Nat) (inj : Bool) : (d.raiseInj die n detail inj).memsys = d.memsys := (raiseInj_raises d die n detail inj).memsys
theorem Raises.links {d e : Dev} (h : Raises d e) : e.links = d.links := by
  have := congrArg (fun x : Dev => x.links) h.bare; exact this
@[simp] theorem raiseInj_links (d : Dev) (die : Die) (n detail : Nat) (inj : Bool) : (d.raiseInj die n detail inj).links = d.links := (raiseInj_raises d die n detail inj).links
theorem Raises.gate {d e : Dev} (h : Raises d e) : e.gate = d.gate := by
  have := congrArg (fun x : Dev => x.gate) h.bare; exact this
@[simp] theorem raiseInj_gate (d : Dev) (die : Die) (n detail : Nat) (inj : Bool) : (d.raiseInj die n detail inj).gate = d.gate := (raiseInj_raises d die n detail inj).gate
theorem Raises.time {d e : Dev} (h : Raises d e) : e.time = d.time := by
  have := congrArg (fun x : Dev => x.time) h.bare; exact this
@[simp] theorem raiseInj_time (d : Dev) (die : Die) (n detail : Nat) (inj : Bool) : (d.raiseInj die n detail inj).time = d.time := (raiseInj_raises d die n detail inj).time
theorem Raises.net {d e : Dev} (h : Raises d e) : e.net = d.net := by
  have := congrArg (fun x : Dev => x.net) h.bare; exact this
@[simp] theorem raiseInj_net (d : Dev) (die : Die) (n detail : Nat) (inj : Bool) : (d.raiseInj die n detail inj).net = d.net := (raiseInj_raises d die n detail inj).net
theorem Raises.cores {d e : Dev} (h : Raises d e) : e.cores = d.cores := by
  have := congrArg (fun x : Dev => x.cores) h.bare; exact this
@[simp] theorem raiseInj_cores (d : Dev) (die : Die) (n detail : Nat) (inj : Bool) : (d.raiseInj die n detail inj).cores = d.cores := (raiseInj_raises d die n detail inj).cores
theorem Raises.boot {d e : Dev} (h : Raises d e) : e.boot = d.boot := by
  have := congrArg (fun x : Dev => x.boot) h.bare; exact this
@[simp] theorem raiseInj_boot (d : Dev) (die : Die) (n detail : Nat) (inj : Bool) : (d.raiseInj die n detail inj).boot = d.boot := (raiseInj_raises d die n detail inj).boot
theorem Raises.health {d e : Dev} (h : Raises d e) : e.health = d.health := by
  have := congrArg (fun x : Dev => x.health) h.bare; exact this
@[simp] theorem raiseInj_health (d : Dev) (die : Die) (n detail : Nat) (inj : Bool) : (d.raiseInj die n detail inj).health = d.health := (raiseInj_raises d die n detail inj).health
theorem Raises.twin {d e : Dev} (h : Raises d e) : e.twin = d.twin := by
  have := congrArg (fun x : Dev => x.twin) h.bare; exact this
@[simp] theorem raiseInj_twin (d : Dev) (die : Die) (n detail : Nat) (inj : Bool) : (d.raiseInj die n detail inj).twin = d.twin := (raiseInj_raises d die n detail inj).twin
theorem Raises.power {d e : Dev} (h : Raises d e) : e.power = d.power := by
  have := congrArg (fun x : Dev => x.power) h.bare; exact this
@[simp] theorem raiseInj_power (d : Dev) (die : Die) (n detail : Nat) (inj : Bool) : (d.raiseInj die n detail inj).power = d.power := (raiseInj_raises d die n detail inj).power
theorem Raises.snag_cause {d e : Dev} (h : Raises d e) : e.snag.cause = d.snag.cause := by
  have := congrArg (fun x : Dev => x.snag.cause) h.bare; exact this
@[simp] theorem raiseInj_snag_cause (d : Dev) (die : Die) (n detail : Nat) (inj : Bool) : (d.raiseInj die n detail inj).snag.cause = d.snag.cause := (raiseInj_raises d die n detail inj).snag_cause
theorem Raises.snag_sevCopy {d e : Dev} (h : Raises d e) : e.snag.sevCopy = d.snag.sevCopy := by
  have := congrArg (fun x : Dev => x.snag.sevCopy) h.bare; exact this
@[simp] theorem raiseInj_snag_sevCopy (d : Dev) (die : Die) (n detail : Nat) (inj : Bool) : (d.raiseInj die n detail inj).snag.sevCopy = d.snag.sevCopy := (raiseInj_raises d die n detail inj).snag_sevCopy
theorem Raises.snag_alarmUntil {d e : Dev} (h : Raises d e) : e.snag.alarmUntil = d.snag.alarmUntil := by
  have := congrArg (fun x : Dev => x.snag.alarmUntil) h.bare; exact this
@[simp] theorem raiseInj_snag_alarmUntil (d : Dev) (die : Die) (n detail : Nat) (inj : Bool) : (d.raiseInj die n detail inj).snag.alarmUntil = d.snag.alarmUntil := (raiseInj_raises d die n detail inj).snag_alarmUntil
theorem Raises.snag_lineUntil {d e : Dev} (h : Raises d e) : e.snag.lineUntil = d.snag.lineUntil := by
  have := congrArg (fun x : Dev => x.snag.lineUntil) h.bare; exact this
@[simp] theorem raiseInj_snag_lineUntil (d : Dev) (die : Die) (n detail : Nat) (inj : Bool) : (d.raiseInj die n detail inj).snag.lineUntil = d.snag.lineUntil := (raiseInj_raises d die n detail inj).snag_lineUntil
theorem Raises.snag_hbUntil {d e : Dev} (h : Raises d e) : e.snag.hbUntil = d.snag.hbUntil := by
  have := congrArg (fun x : Dev => x.snag.hbUntil) h.bare; exact this
@[simp] theorem raiseInj_snag_hbUntil (d : Dev) (die : Die) (n detail : Nat) (inj : Bool) : (d.raiseInj die n detail inj).snag.hbUntil = d.snag.hbUntil := (raiseInj_raises d die n detail inj).snag_hbUntil
theorem Raises.snag_lastSev {d e : Dev} (h : Raises d e) : e.snag.lastSev = d.snag.lastSev := by
  have := congrArg (fun x : Dev => x.snag.lastSev) h.bare; exact this
@[simp] theorem raiseInj_snag_lastSev (d : Dev) (die : Die) (n detail : Nat) (inj : Bool) : (d.raiseInj die n detail inj).snag.lastSev = d.snag.lastSev := (raiseInj_raises d die n detail inj).snag_lastSev
theorem Raises.snag_resumePending {d e : Dev} (h : Raises d e) : e.snag.resumePending = d.snag.resumePending := by
  have := congrArg (fun x : Dev => x.snag.resumePending) h.bare; exact this
@[simp] theorem raiseInj_snag_resumePending (d : Dev) (die : Die) (n detail : Nat) (inj : Bool) : (d.raiseInj die n detail inj).snag.resumePending = d.snag.resumePending := (raiseInj_raises d die n detail inj).snag_resumePending
theorem Raises.snag_resumeAt {d e : Dev} (h : Raises d e) : e.snag.resumeAt = d.snag.resumeAt := by
  have := congrArg (fun x : Dev => x.snag.resumeAt) h.bare; exact this
@[simp] theorem raiseInj_snag_resumeAt (d : Dev) (die : Die) (n detail : Nat) (inj : Bool) : (d.raiseInj die n detail inj).snag.resumeAt = d.snag.resumeAt := (raiseInj_raises d die n detail inj).snag_resumeAt
theorem Raises.snag_refused {d e : Dev} (h : Raises d e) : e.snag.refused = d.snag.refused := by
  have := congrArg (fun x : Dev => x.snag.refused) h.bare; exact this
@[simp] theorem raiseInj_snag_refused (d : Dev) (die : Die) (n detail : Nat) (inj : Bool) : (d.raiseInj die n detail inj).snag.refused = d.snag.refused := (raiseInj_raises d die n detail inj).snag_refused
theorem Raises.snag_hbLevel {d e : Dev} (h : Raises d e) : e.snag.hbLevel = d.snag.hbLevel := by
  have := congrArg (fun x : Dev => x.snag.hbLevel) h.bare; exact this
@[simp] theorem raiseInj_snag_hbLevel (d : Dev) (die : Die) (n detail : Nat) (inj : Bool) : (d.raiseInj die n detail inj).snag.hbLevel = d.snag.hbLevel := (raiseInj_raises d die n detail inj).snag_hbLevel
theorem Raises.snag_hbDue {d e : Dev} (h : Raises d e) : e.snag.hbDue = d.snag.hbDue := by
  have := congrArg (fun x : Dev => x.snag.hbDue) h.bare; exact this
@[simp] theorem raiseInj_snag_hbDue (d : Dev) (die : Die) (n detail : Nat) (inj : Bool) : (d.raiseInj die n detail inj).snag.hbDue = d.snag.hbDue := (raiseInj_raises d die n detail inj).snag_hbDue
theorem Raises.snag_shadow {d e : Dev} (h : Raises d e) : e.snag.shadow = d.snag.shadow := by
  have := congrArg (fun x : Dev => x.snag.shadow) h.bare; exact this
@[simp] theorem raiseInj_snag_shadow (d : Dev) (die : Die) (n detail : Nat) (inj : Bool) : (d.raiseInj die n detail inj).snag.shadow = d.snag.shadow := (raiseInj_raises d die n detail inj).snag_shadow
theorem Raises.ladder_dogs {d e : Dev} (h : Raises d e) : e.ladder.dogs = d.ladder.dogs := by
  have := congrArg (fun x : Dev => x.ladder.dogs) h.bare; exact this
@[simp] theorem raiseInj_ladder_dogs (d : Dev) (die : Die) (n detail : Nat) (inj : Bool) : (d.raiseInj die n detail inj).ladder.dogs = d.ladder.dogs := (raiseInj_raises d die n detail inj).ladder_dogs
theorem Raises.ladder_step1At {d e : Dev} (h : Raises d e) : e.ladder.step1At = d.ladder.step1At := by
  have := congrArg (fun x : Dev => x.ladder.step1At) h.bare; exact this
@[simp] theorem raiseInj_ladder_step1At (d : Dev) (die : Die) (n detail : Nat) (inj : Bool) : (d.raiseInj die n detail inj).ladder.step1At = d.ladder.step1At := (raiseInj_raises d die n detail inj).ladder_step1At
theorem Raises.ladder_irq {d e : Dev} (h : Raises d e) : e.ladder.irq = d.ladder.irq := by
  have := congrArg (fun x : Dev => x.ladder.irq) h.bare; exact this
@[simp] theorem raiseInj_ladder_irq (d : Dev) (die : Die) (n detail : Nat) (inj : Bool) : (d.raiseInj die n detail inj).ladder.irq = d.ladder.irq := (raiseInj_raises d die n detail inj).ladder_irq
theorem Raises.ladder_coreLost {d e : Dev} (h : Raises d e) : e.ladder.coreLost = d.ladder.coreLost := by
  have := congrArg (fun x : Dev => x.ladder.coreLost) h.bare; exact this
@[simp] theorem raiseInj_ladder_coreLost (d : Dev) (die : Die) (n detail : Nat) (inj : Bool) : (d.raiseInj die n detail inj).ladder.coreLost = d.ladder.coreLost := (raiseInj_raises d die n detail inj).ladder_coreLost
theorem Raises.cmd_handshakes {d e : Dev} (h : Raises d e) : e.cmd.handshakes = d.cmd.handshakes := by
  have := congrArg (fun x : Dev => x.cmd.handshakes) h.bare; exact this
@[simp] theorem raiseInj_cmd_handshakes (d : Dev) (die : Die) (n detail : Nat) (inj : Bool) : (d.raiseInj die n detail inj).cmd.handshakes = d.cmd.handshakes := (raiseInj_raises d die n detail inj).cmd_handshakes
theorem Raises.cmd_partials {d e : Dev} (h : Raises d e) : e.cmd.partials = d.cmd.partials := by
  have := congrArg (fun x : Dev => x.cmd.partials) h.bare; exact this
@[simp] theorem raiseInj_cmd_partials (d : Dev) (die : Die) (n detail : Nat) (inj : Bool) : (d.raiseInj die n detail inj).cmd.partials = d.cmd.partials := (raiseInj_raises d die n detail inj).cmd_partials
theorem Raises.cmd_stages {d e : Dev} (h : Raises d e) : e.cmd.stages = d.cmd.stages := by
  have := congrArg (fun x : Dev => x.cmd.stages) h.bare; exact this
@[simp] theorem raiseInj_cmd_stages (d : Dev) (die : Die) (n detail : Nat) (inj : Bool) : (d.raiseInj die n detail inj).cmd.stages = d.cmd.stages := (raiseInj_raises d die n detail inj).cmd_stages
theorem Raises.cmd_statusSeq {d e : Dev} (h : Raises d e) : e.cmd.statusSeq = d.cmd.statusSeq := by
  have := congrArg (fun x : Dev => x.cmd.statusSeq) h.bare; exact this
@[simp] theorem raiseInj_cmd_statusSeq (d : Dev) (die : Die) (n detail : Nat) (inj : Bool) : (d.raiseInj die n detail inj).cmd.statusSeq = d.cmd.statusSeq := (raiseInj_raises d die n detail inj).cmd_statusSeq
theorem Raises.cmd_bootSalt {d e : Dev} (h : Raises d e) : e.cmd.bootSalt = d.cmd.bootSalt := by
  have := congrArg (fun x : Dev => x.cmd.bootSalt) h.bare; exact this
@[simp] theorem raiseInj_cmd_bootSalt (d : Dev) (die : Die) (n detail : Nat) (inj : Bool) : (d.raiseInj die n detail inj).cmd.bootSalt = d.cmd.bootSalt := (raiseInj_raises d die n detail inj).cmd_bootSalt
theorem Raises.cmd_statusAt {d e : Dev} (h : Raises d e) : e.cmd.statusAt = d.cmd.statusAt := by
  have := congrArg (fun x : Dev => x.cmd.statusAt) h.bare; exact this
@[simp] theorem raiseInj_cmd_statusAt (d : Dev) (die : Die) (n detail : Nat) (inj : Bool) : (d.raiseInj die n detail inj).cmd.statusAt = d.cmd.statusAt := (raiseInj_raises d die n detail inj).cmd_statusAt
theorem Raises.cmd_held {d e : Dev} (h : Raises d e) : e.cmd.held = d.cmd.held := by
  have := congrArg (fun x : Dev => x.cmd.held) h.bare; exact this
@[simp] theorem raiseInj_cmd_held (d : Dev) (die : Die) (n detail : Nat) (inj : Bool) : (d.raiseInj die n detail inj).cmd.held = d.cmd.held := (raiseInj_raises d die n detail inj).cmd_held
theorem Raises.cmd_authRaised {d e : Dev} (h : Raises d e) : e.cmd.authRaised = d.cmd.authRaised := by
  have := congrArg (fun x : Dev => x.cmd.authRaised) h.bare; exact this
@[simp] theorem raiseInj_cmd_authRaised (d : Dev) (die : Die) (n detail : Nat) (inj : Bool) : (d.raiseInj die n detail inj).cmd.authRaised = d.cmd.authRaised := (raiseInj_raises d die n detail inj).cmd_authRaised
theorem Raises.cmd_commitWait {d e : Dev} (h : Raises d e) : e.cmd.commitWait = d.cmd.commitWait := by
  have := congrArg (fun x : Dev => x.cmd.commitWait) h.bare; exact this
@[simp] theorem raiseInj_cmd_commitWait (d : Dev) (die : Die) (n detail : Nat) (inj : Bool) : (d.raiseInj die n detail inj).cmd.commitWait = d.cmd.commitWait := (raiseInj_raises d die n detail inj).cmd_commitWait
theorem Raises.cmd_restartAt {d e : Dev} (h : Raises d e) : e.cmd.restartAt = d.cmd.restartAt := by
  have := congrArg (fun x : Dev => x.cmd.restartAt) h.bare; exact this
@[simp] theorem raiseInj_cmd_restartAt (d : Dev) (die : Die) (n detail : Nat) (inj : Bool) : (d.raiseInj die n detail inj).cmd.restartAt = d.cmd.restartAt := (raiseInj_raises d die n detail inj).cmd_restartAt

theorem raiseInj_fld (d : Dev) (die : Die) (n detail : Nat) (inj : Bool) {f : Fld} (h : f.key ∉ raiseKeys) :
    (d.raiseInj die n detail inj).fld f = d.fld f := (raiseInj_raises d die n detail inj).regs f h

theorem raiseInj_on (d : Dev) (die : Die) (n detail : Nat) (inj : Bool) {f : Fld} (h : f.key ∉ raiseKeys) :
    (d.raiseInj die n detail inj).on f = d.on f := Dev.on_fld (raiseInj_fld d die n detail inj h)

end Sys2Proof.Laws
end

