-- ==== Sys2Proof/Laws/Parts.lean ====
section
/-!
SUPPORT. The indexed parts of the device: what was put at an index is read back, other indices stay, and nothing else changes; a part reads
the same after any update of another part.
-/

namespace Sys2Proof.Laws

open Sys2Proof.Machine

/-! `Dev.mbxSide` -/

@[simp] theorem mbxSide_putMbx_same (d : Dev) (i : Nat) (x : MbxSide) : (d.putMbx i x).mbxSide i = x := tabGet_set_same _ _ _ _
theorem mbxSide_putMbx_other (d : Dev) {i j : Nat} (x : MbxSide) (h : j ≠ i) : (d.putMbx i x).mbxSide j = d.mbxSide j := tabGet_set_other _ _ _ h
@[simp] theorem putMbx_now (d : Dev) (i : Nat) (x : MbxSide) : (d.putMbx i x).now = d.now := rfl
@[simp] theorem putMbx_regs (d : Dev) (i : Nat) (x : MbxSide) : (d.putMbx i x).regs = d.regs := rfl
@[simp] theorem putMbx_staged (d : Dev) (i : Nat) (x : MbxSide) : (d.putMbx i x).staged = d.staged := rfl
@[simp] theorem putMbx_capture (d : Dev) (i : Nat) (x : MbxSide) : (d.putMbx i x).capture = d.capture := rfl
@[simp] theorem putMbx_resp (d : Dev) (i : Nat) (x : MbxSide) : (d.putMbx i x).resp = d.resp := rfl
@[simp] theorem putMbx_hwSet (d : Dev) (i : Nat) (x : MbxSide) : (d.putMbx i x).hwSet = d.hwSet := rfl
@[simp] theorem putMbx_free (d : Dev) (i : Nat) (x : MbxSide) : (d.putMbx i x).free = d.free := rfl
@[simp] theorem putMbx_drbg (d : Dev) (i : Nat) (x : MbxSide) : (d.putMbx i x).drbg = d.drbg := rfl
@[simp] theorem putMbx_snag (d : Dev) (i : Nat) (x : MbxSide) : (d.putMbx i x).snag = d.snag := rfl
@[simp] theorem putMbx_ladder (d : Dev) (i : Nat) (x : MbxSide) : (d.putMbx i x).ladder = d.ladder := rfl
@[simp] theorem putMbx_watch (d : Dev) (i : Nat) (x : MbxSide) : (d.putMbx i x).watch = d.watch := rfl
@[simp] theorem putMbx_skim (d : Dev) (i : Nat) (x : MbxSide) : (d.putMbx i x).skim = d.skim := rfl
@[simp] theorem putMbx_sig (d : Dev) (i : Nat) (x : MbxSide) : (d.putMbx i x).sig = d.sig := rfl
@[simp] theorem putMbx_arr (d : Dev) (i : Nat) (x : MbxSide) : (d.putMbx i x).arr = d.arr := rfl
@[simp] theorem putMbx_plan (d : Dev) (i : Nat) (x : MbxSide) : (d.putMbx i x).plan = d.plan := rfl
@[simp] theorem putMbx_memsys (d : Dev) (i : Nat) (x : MbxSide) : (d.putMbx i x).memsys = d.memsys := rfl
@[simp] theorem putMbx_links (d : Dev) (i : Nat) (x : MbxSide) : (d.putMbx i x).links = d.links := rfl
@[simp] theorem putMbx_gate (d : Dev) (i : Nat) (x : MbxSide) : (d.putMbx i x).gate = d.gate := rfl
@[simp] theorem putMbx_time (d : Dev) (i : Nat) (x : MbxSide) : (d.putMbx i x).time = d.time := rfl
@[simp] theorem putMbx_net (d : Dev) (i : Nat) (x : MbxSide) : (d.putMbx i x).net = d.net := rfl
@[simp] theorem putMbx_cmd (d : Dev) (i : Nat) (x : MbxSide) : (d.putMbx i x).cmd = d.cmd := rfl
@[simp] theorem putMbx_boot (d : Dev) (i : Nat) (x : MbxSide) : (d.putMbx i x).boot = d.boot := rfl
@[simp] theorem putMbx_health (d : Dev) (i : Nat) (x : MbxSide) : (d.putMbx i x).health = d.health := rfl
@[simp] theorem putMbx_twin (d : Dev) (i : Nat) (x : MbxSide) : (d.putMbx i x).twin = d.twin := rfl
@[simp] theorem putMbx_power (d : Dev) (i : Nat) (x : MbxSide) : (d.putMbx i x).power = d.power := rfl
@[simp] theorem fld_putMbx (d : Dev) (i : Nat) (x : MbxSide) (f : Fld) : (d.putMbx i x).fld f = d.fld f := rfl
@[simp] theorem on_putMbx (d : Dev) (i : Nat) (x : MbxSide) (f : Fld) : (d.putMbx i x).on f = d.on f := rfl
theorem mbxSide_congr {d e : Dev} (h : e.cores = d.cores) (i : Nat) : e.mbxSide i = d.mbxSide i := by simp only [Dev.mbxSide, h]
@[simp] theorem mbxSide_put (d : Dev) (f : Fld) (v : Nat) (i : Nat) : (d.put f v).mbxSide i = d.mbxSide i := rfl
@[simp] theorem mbxSide_flag (d : Dev) (f : Fld) (b : Bool) (i : Nat) : (d.flag f b).mbxSide i = d.mbxSide i := rfl
@[simp] theorem mbxSide_count (d : Dev) (f : Fld) (n : Nat) (i : Nat) : (d.count f n).mbxSide i = d.mbxSide i := rfl
@[simp] theorem mbxSide_answer (d : Dev) (r : Resp) (i : Nat) : (d.answer r).mbxSide i = d.mbxSide i := rfl
@[simp] theorem mbxSide_cause (d : Dev) (n : Nat) (b : Bool) (i : Nat) : (d.cause n b).mbxSide i = d.mbxSide i := rfl
@[simp] theorem mbxSide_post (d : Dev) (m : Msg) (i : Nat) : (d.post m).mbxSide i = d.mbxSide i := rfl
@[simp] theorem mbxSide_raiseInj (d : Dev) (die : Die) (n det : Nat) (b : Bool) (i : Nat) : (d.raiseInj die n det b).mbxSide i = d.mbxSide i :=
  mbxSide_congr (raiseInj_cores d die n det b) i
@[simp] theorem mbxSide_settle (d : Dev) (i : Nat) : d.settle.mbxSide i = d.mbxSide i := mbxSide_congr (settle_cores d) i
@[simp] theorem mbxSide_runOn (s : State) (f : Mem → Dev → Dev) (i : Nat) : (runOn s f).dev.mbxSide i = (f s.mem s.dev).mbxSide i := mbxSide_congr (runOn_cores s f) i

/-! `Dev.pairOf` -/

@[simp] theorem pairOf_putPair_same (d : Dev) (i : Nat) (x : Pair) : (d.putPair i x).pairOf i = x := tabGet_set_same _ _ _ _
theorem pairOf_putPair_other (d : Dev) {i j : Nat} (x : Pair) (h : j ≠ i) : (d.putPair i x).pairOf j = d.pairOf j := tabGet_set_other _ _ _ h
@[simp] theorem putPair_now (d : Dev) (i : Nat) (x : Pair) : (d.putPair i x).now = d.now := rfl
@[simp] theorem putPair_regs (d : Dev) (i : Nat) (x : Pair) : (d.putPair i x).regs = d.regs := rfl
@[simp] theorem putPair_staged (d : Dev) (i : Nat) (x : Pair) : (d.putPair i x).staged = d.staged := rfl
@[simp] theorem putPair_capture (d : Dev) (i : Nat) (x : Pair) : (d.putPair i x).capture = d.capture := rfl
@[simp] theorem putPair_resp (d : Dev) (i : Nat) (x : Pair) : (d.putPair i x).resp = d.resp := rfl
@[simp] theorem putPair_hwSet (d : Dev) (i : Nat) (x : Pair) : (d.putPair i x).hwSet = d.hwSet := rfl
@[simp] theorem putPair_free (d : Dev) (i : Nat) (x : Pair) : (d.putPair i x).free = d.free := rfl
@[simp] theorem putPair_drbg (d : Dev) (i : Nat) (x : Pair) : (d.putPair i x).drbg = d.drbg := rfl
@[simp] theorem putPair_snag (d : Dev) (i : Nat) (x : Pair) : (d.putPair i x).snag = d.snag := rfl
@[simp] theorem putPair_ladder (d : Dev) (i : Nat) (x : Pair) : (d.putPair i x).ladder = d.ladder := rfl
@[simp] theorem putPair_watch (d : Dev) (i : Nat) (x : Pair) : (d.putPair i x).watch = d.watch := rfl
@[simp] theorem putPair_skim (d : Dev) (i : Nat) (x : Pair) : (d.putPair i x).skim = d.skim := rfl
@[simp] theorem putPair_sig (d : Dev) (i : Nat) (x : Pair) : (d.putPair i x).sig = d.sig := rfl
@[simp] theorem putPair_arr (d : Dev) (i : Nat) (x : Pair) : (d.putPair i x).arr = d.arr := rfl
@[simp] theorem putPair_plan (d : Dev) (i : Nat) (x : Pair) : (d.putPair i x).plan = d.plan := rfl
@[simp] theorem putPair_memsys (d : Dev) (i : Nat) (x : Pair) : (d.putPair i x).memsys = d.memsys := rfl
@[simp] theorem putPair_links (d : Dev) (i : Nat) (x : Pair) : (d.putPair i x).links = d.links := rfl
@[simp] theorem putPair_gate (d : Dev) (i : Nat) (x : Pair) : (d.putPair i x).gate = d.gate := rfl
@[simp] theorem putPair_time (d : Dev) (i : Nat) (x : Pair) : (d.putPair i x).time = d.time := rfl
@[simp] theorem putPair_net (d : Dev) (i : Nat) (x : Pair) : (d.putPair i x).net = d.net := rfl
@[simp] theorem putPair_cmd (d : Dev) (i : Nat) (x : Pair) : (d.putPair i x).cmd = d.cmd := rfl
@[simp] theorem putPair_boot (d : Dev) (i : Nat) (x : Pair) : (d.putPair i x).boot = d.boot := rfl
@[simp] theorem putPair_health (d : Dev) (i : Nat) (x : Pair) : (d.putPair i x).health = d.health := rfl
@[simp] theorem putPair_twin (d : Dev) (i : Nat) (x : Pair) : (d.putPair i x).twin = d.twin := rfl
@[simp] theorem putPair_power (d : Dev) (i : Nat) (x : Pair) : (d.putPair i x).power = d.power := rfl
@[simp] theorem fld_putPair (d : Dev) (i : Nat) (x : Pair) (f : Fld) : (d.putPair i x).fld f = d.fld f := rfl
@[simp] theorem on_putPair (d : Dev) (i : Nat) (x : Pair) (f : Fld) : (d.putPair i x).on f = d.on f := rfl
theorem pairOf_congr {d e : Dev} (h : e.cores = d.cores) (i : Nat) : e.pairOf i = d.pairOf i := by simp only [Dev.pairOf, h]
@[simp] theorem pairOf_put (d : Dev) (f : Fld) (v : Nat) (i : Nat) : (d.put f v).pairOf i = d.pairOf i := rfl
@[simp] theorem pairOf_flag (d : Dev) (f : Fld) (b : Bool) (i : Nat) : (d.flag f b).pairOf i = d.pairOf i := rfl
@[simp] theorem pairOf_count (d : Dev) (f : Fld) (n : Nat) (i : Nat) : (d.count f n).pairOf i = d.pairOf i := rfl
@[simp] theorem pairOf_answer (d : Dev) (r : Resp) (i : Nat) : (d.answer r).pairOf i = d.pairOf i := rfl
@[simp] theorem pairOf_cause (d : Dev) (n : Nat) (b : Bool) (i : Nat) : (d.cause n b).pairOf i = d.pairOf i := rfl
@[simp] theorem pairOf_post (d : Dev) (m : Msg) (i : Nat) : (d.post m).pairOf i = d.pairOf i := rfl
@[simp] theorem pairOf_raiseInj (d : Dev) (die : Die) (n det : Nat) (b : Bool) (i : Nat) : (d.raiseInj die n det b).pairOf i = d.pairOf i :=
  pairOf_congr (raiseInj_cores d die n det b) i
@[simp] theorem pairOf_settle (d : Dev) (i : Nat) : d.settle.pairOf i = d.pairOf i := pairOf_congr (settle_cores d) i
@[simp] theorem pairOf_runOn (s : State) (f : Mem → Dev → Dev) (i : Nat) : (runOn s f).dev.pairOf i = (f s.mem s.dev).pairOf i := pairOf_congr (runOn_cores s f) i

/-! `Dev.crcOf` -/

@[simp] theorem crcOf_putCrc_same (d : Dev) (i : Nat) (x : CrcBlock) : (d.putCrc i x).crcOf i = x := tabGet_set_same _ _ _ _
theorem crcOf_putCrc_other (d : Dev) {i j : Nat} (x : CrcBlock) (h : j ≠ i) : (d.putCrc i x).crcOf j = d.crcOf j := tabGet_set_other _ _ _ h
@[simp] theorem putCrc_now (d : Dev) (i : Nat) (x : CrcBlock) : (d.putCrc i x).now = d.now := rfl
@[simp] theorem putCrc_regs (d : Dev) (i : Nat) (x : CrcBlock) : (d.putCrc i x).regs = d.regs := rfl
@[simp] theorem putCrc_staged (d : Dev) (i : Nat) (x : CrcBlock) : (d.putCrc i x).staged = d.staged := rfl
@[simp] theorem putCrc_capture (d : Dev) (i : Nat) (x : CrcBlock) : (d.putCrc i x).capture = d.capture := rfl
@[simp] theorem putCrc_resp (d : Dev) (i : Nat) (x : CrcBlock) : (d.putCrc i x).resp = d.resp := rfl
@[simp] theorem putCrc_hwSet (d : Dev) (i : Nat) (x : CrcBlock) : (d.putCrc i x).hwSet = d.hwSet := rfl
@[simp] theorem putCrc_free (d : Dev) (i : Nat) (x : CrcBlock) : (d.putCrc i x).free = d.free := rfl
@[simp] theorem putCrc_drbg (d : Dev) (i : Nat) (x : CrcBlock) : (d.putCrc i x).drbg = d.drbg := rfl
@[simp] theorem putCrc_snag (d : Dev) (i : Nat) (x : CrcBlock) : (d.putCrc i x).snag = d.snag := rfl
@[simp] theorem putCrc_ladder (d : Dev) (i : Nat) (x : CrcBlock) : (d.putCrc i x).ladder = d.ladder := rfl
@[simp] theorem putCrc_watch (d : Dev) (i : Nat) (x : CrcBlock) : (d.putCrc i x).watch = d.watch := rfl
@[simp] theorem putCrc_skim (d : Dev) (i : Nat) (x : CrcBlock) : (d.putCrc i x).skim = d.skim := rfl
@[simp] theorem putCrc_sig (d : Dev) (i : Nat) (x : CrcBlock) : (d.putCrc i x).sig = d.sig := rfl
@[simp] theorem putCrc_arr (d : Dev) (i : Nat) (x : CrcBlock) : (d.putCrc i x).arr = d.arr := rfl
@[simp] theorem putCrc_plan (d : Dev) (i : Nat) (x : CrcBlock) : (d.putCrc i x).plan = d.plan := rfl
@[simp] theorem putCrc_memsys (d : Dev) (i : Nat) (x : CrcBlock) : (d.putCrc i x).memsys = d.memsys := rfl
@[simp] theorem putCrc_links (d : Dev) (i : Nat) (x : CrcBlock) : (d.putCrc i x).links = d.links := rfl
@[simp] theorem putCrc_gate (d : Dev) (i : Nat) (x : CrcBlock) : (d.putCrc i x).gate = d.gate := rfl
@[simp] theorem putCrc_time (d : Dev) (i : Nat) (x : CrcBlock) : (d.putCrc i x).time = d.time := rfl
@[simp] theorem putCrc_net (d : Dev) (i : Nat) (x : CrcBlock) : (d.putCrc i x).net = d.net := rfl
@[simp] theorem putCrc_cmd (d : Dev) (i : Nat) (x : CrcBlock) : (d.putCrc i x).cmd = d.cmd := rfl
@[simp] theorem putCrc_boot (d : Dev) (i : Nat) (x : CrcBlock) : (d.putCrc i x).boot = d.boot := rfl
@[simp] theorem putCrc_health (d : Dev) (i : Nat) (x : CrcBlock) : (d.putCrc i x).health = d.health := rfl
@[simp] theorem putCrc_twin (d : Dev) (i : Nat) (x : CrcBlock) : (d.putCrc i x).twin = d.twin := rfl
@[simp] theorem putCrc_power (d : Dev) (i : Nat) (x : CrcBlock) : (d.putCrc i x).power = d.power := rfl
@[simp] theorem fld_putCrc (d : Dev) (i : Nat) (x : CrcBlock) (f : Fld) : (d.putCrc i x).fld f = d.fld f := rfl
@[simp] theorem on_putCrc (d : Dev) (i : Nat) (x : CrcBlock) (f : Fld) : (d.putCrc i x).on f = d.on f := rfl
theorem crcOf_congr {d e : Dev} (h : e.cores = d.cores) (i : Nat) : e.crcOf i = d.crcOf i := by simp only [Dev.crcOf, h]
@[simp] theorem crcOf_put (d : Dev) (f : Fld) (v : Nat) (i : Nat) : (d.put f v).crcOf i = d.crcOf i := rfl
@[simp] theorem crcOf_flag (d : Dev) (f : Fld) (b : Bool) (i : Nat) : (d.flag f b).crcOf i = d.crcOf i := rfl
@[simp] theorem crcOf_count (d : Dev) (f : Fld) (n : Nat) (i : Nat) : (d.count f n).crcOf i = d.crcOf i := rfl
@[simp] theorem crcOf_answer (d : Dev) (r : Resp) (i : Nat) : (d.answer r).crcOf i = d.crcOf i := rfl
@[simp] theorem crcOf_cause (d : Dev) (n : Nat) (b : Bool) (i : Nat) : (d.cause n b).crcOf i = d.crcOf i := rfl
@[simp] theorem crcOf_post (d : Dev) (m : Msg) (i : Nat) : (d.post m).crcOf i = d.crcOf i := rfl
@[simp] theorem crcOf_raiseInj (d : Dev) (die : Die) (n det : Nat) (b : Bool) (i : Nat) : (d.raiseInj die n det b).crcOf i = d.crcOf i :=
  crcOf_congr (raiseInj_cores d die n det b) i
@[simp] theorem crcOf_settle (d : Dev) (i : Nat) : d.settle.crcOf i = d.crcOf i := crcOf_congr (settle_cores d) i
@[simp] theorem crcOf_runOn (s : State) (f : Mem → Dev → Dev) (i : Nat) : (runOn s f).dev.crcOf i = (f s.mem s.dev).crcOf i := crcOf_congr (runOn_cores s f) i

/-! `Dev.dogOf` -/

@[simp] theorem dogOf_putDog_same (d : Dev) (i : Nat) (x : Dog) : (d.putDog i x).dogOf i = x := tabGet_set_same _ _ _ _
theorem dogOf_putDog_other (d : Dev) {i j : Nat} (x : Dog) (h : j ≠ i) : (d.putDog i x).dogOf j = d.dogOf j := tabGet_set_other _ _ _ h
@[simp] theorem putDog_now (d : Dev) (i : Nat) (x : Dog) : (d.putDog i x).now = d.now := rfl
@[simp] theorem putDog_regs (d : Dev) (i : Nat) (x : Dog) : (d.putDog i x).regs = d.regs := rfl
@[simp] theorem putDog_staged (d : Dev) (i : Nat) (x : Dog) : (d.putDog i x).staged = d.staged := rfl
@[simp] theorem putDog_capture (d : Dev) (i : Nat) (x : Dog) : (d.putDog i x).capture = d.capture := rfl
@[simp] theorem putDog_resp (d : Dev) (i : Nat) (x : Dog) : (d.putDog i x).resp = d.resp := rfl
@[simp] theorem putDog_hwSet (d : Dev) (i : Nat) (x : Dog) : (d.putDog i x).hwSet = d.hwSet := rfl
@[simp] theorem putDog_free (d : Dev) (i : Nat) (x : Dog) : (d.putDog i x).free = d.free := rfl
@[simp] theorem putDog_drbg (d : Dev) (i : Nat) (x : Dog) : (d.putDog i x).drbg = d.drbg := rfl
@[simp] theorem putDog_snag (d : Dev) (i : Nat) (x : Dog) : (d.putDog i x).snag = d.snag := rfl
@[simp] theorem putDog_watch (d : Dev) (i : Nat) (x : Dog) : (d.putDog i x).watch = d.watch := rfl
@[simp] theorem putDog_skim (d : Dev) (i : Nat) (x : Dog) : (d.putDog i x).skim = d.skim := rfl
@[simp] theorem putDog_sig (d : Dev) (i : Nat) (x : Dog) : (d.putDog i x).sig = d.sig := rfl
@[simp] theorem putDog_arr (d : Dev) (i : Nat) (x : Dog) : (d.putDog i x).arr = d.arr := rfl
@[simp] theorem putDog_plan (d : Dev) (i : Nat) (x : Dog) : (d.putDog i x).plan = d.plan := rfl
@[simp] theorem putDog_memsys (d : Dev) (i : Nat) (x : Dog) : (d.putDog i x).memsys = d.memsys := rfl
@[simp] theorem putDog_links (d : Dev) (i : Nat) (x : Dog) : (d.putDog i x).links = d.links := rfl
@[simp] theorem putDog_gate (d : Dev) (i : Nat) (x : Dog) : (d.putDog i x).gate = d.gate := rfl
@[simp] theorem putDog_time (d : Dev) (i : Nat) (x : Dog) : (d.putDog i x).time = d.time := rfl
@[simp] theorem putDog_net (d : Dev) (i : Nat) (x : Dog) : (d.putDog i x).net = d.net := rfl
@[simp] theorem putDog_cmd (d : Dev) (i : Nat) (x : Dog) : (d.putDog i x).cmd = d.cmd := rfl
@[simp] theorem putDog_cores (d : Dev) (i : Nat) (x : Dog) : (d.putDog i x).cores = d.cores := rfl
@[simp] theorem putDog_boot (d : Dev) (i : Nat) (x : Dog) : (d.putDog i x).boot = d.boot := rfl
@[simp] theorem putDog_health (d : Dev) (i : Nat) (x : Dog) : (d.putDog i x).health = d.health := rfl
@[simp] theorem putDog_twin (d : Dev) (i : Nat) (x : Dog) : (d.putDog i x).twin = d.twin := rfl
@[simp] theorem putDog_power (d : Dev) (i : Nat) (x : Dog) : (d.putDog i x).power = d.power := rfl
@[simp] theorem fld_putDog (d : Dev) (i : Nat) (x : Dog) (f : Fld) : (d.putDog i x).fld f = d.fld f := rfl
@[simp] theorem on_putDog (d : Dev) (i : Nat) (x : Dog) (f : Fld) : (d.putDog i x).on f = d.on f := rfl
theorem dogOf_congr {d e : Dev} (h : e.ladder.dogs = d.ladder.dogs) (i : Nat) : e.dogOf i = d.dogOf i := by simp only [Dev.dogOf, h]
@[simp] theorem dogOf_put (d : Dev) (f : Fld) (v : Nat) (i : Nat) : (d.put f v).dogOf i = d.dogOf i := rfl
@[simp] theorem dogOf_flag (d : Dev) (f : Fld) (b : Bool) (i : Nat) : (d.flag f b).dogOf i = d.dogOf i := rfl
@[simp] theorem dogOf_count (d : Dev) (f : Fld) (n : Nat) (i : Nat) : (d.count f n).dogOf i = d.dogOf i := rfl
@[simp] theorem dogOf_answer (d : Dev) (r : Resp) (i : Nat) : (d.answer r).dogOf i = d.dogOf i := rfl
@[simp] theorem dogOf_cause (d : Dev) (n : Nat) (b : Bool) (i : Nat) : (d.cause n b).dogOf i = d.dogOf i := rfl
@[simp] theorem dogOf_post (d : Dev) (m : Msg) (i : Nat) : (d.post m).dogOf i = d.dogOf i := rfl
@[simp] theorem dogOf_raiseInj (d : Dev) (die : Die) (n det : Nat) (b : Bool) (i : Nat) : (d.raiseInj die n det b).dogOf i = d.dogOf i :=
  dogOf_congr (raiseInj_ladder_dogs d die n det b) i
@[simp] theorem dogOf_settle (d : Dev) (i : Nat) : d.settle.dogOf i = d.dogOf i := dogOf_congr (congrArg Ladder.dogs (settle_ladder d)) i
@[simp] theorem dogOf_runOn (s : State) (f : Mem → Dev → Dev) (i : Nat) : (runOn s f).dev.dogOf i = (f s.mem s.dev).dogOf i := dogOf_congr (congrArg Ladder.dogs (runOn_ladder s f)) i

/-! `Dev.watchOf` -/

@[simp] theorem watchOf_putWatch_same (d : Dev) (i : Nat) (x : Watch) : (d.putWatch i x).watchOf i = x := tabGet_set_same _ _ _ _
theorem watchOf_putWatch_other (d : Dev) {i j : Nat} (x : Watch) (h : j ≠ i) : (d.putWatch i x).watchOf j = d.watchOf j := tabGet_set_other _ _ _ h
@[simp] theorem putWatch_now (d : Dev) (i : Nat) (x : Watch) : (d.putWatch i x).now = d.now := rfl
@[simp] theorem putWatch_regs (d : Dev) (i : Nat) (x : Watch) : (d.putWatch i x).regs = d.regs := rfl
@[simp] theorem putWatch_staged (d : Dev) (i : Nat) (x : Watch) : (d.putWatch i x).staged = d.staged := rfl
@[simp] theorem putWatch_capture (d : Dev) (i : Nat) (x : Watch) : (d.putWatch i x).capture = d.capture := rfl
@[simp] theorem putWatch_resp (d : Dev) (i : Nat) (x : Watch) : (d.putWatch i x).resp = d.resp := rfl
@[simp] theorem putWatch_hwSet (d : Dev) (i : Nat) (x : Watch) : (d.putWatch i x).hwSet = d.hwSet := rfl
@[simp] theorem putWatch_free (d : Dev) (i : Nat) (x : Watch) : (d.putWatch i x).free = d.free := rfl
@[simp] theorem putWatch_drbg (d : Dev) (i : Nat) (x : Watch) : (d.putWatch i x).drbg = d.drbg := rfl
@[simp] theorem putWatch_snag (d : Dev) (i : Nat) (x : Watch) : (d.putWatch i x).snag = d.snag := rfl
@[simp] theorem putWatch_ladder (d : Dev) (i : Nat) (x : Watch) : (d.putWatch i x).ladder = d.ladder := rfl
@[simp] theorem putWatch_skim (d : Dev) (i : Nat) (x : Watch) : (d.putWatch i x).skim = d.skim := rfl
@[simp] theorem putWatch_sig (d : Dev) (i : Nat) (x : Watch) : (d.putWatch i x).sig = d.sig := rfl
@[simp] theorem putWatch_arr (d : Dev) (i : Nat) (x : Watch) : (d.putWatch i x).arr = d.arr := rfl
@[simp] theorem putWatch_plan (d : Dev) (i : Nat) (x : Watch) : (d.putWatch i x).plan = d.plan := rfl
@[simp] theorem putWatch_memsys (d : Dev) (i : Nat) (x : Watch) : (d.putWatch i x).memsys = d.memsys := rfl
@[simp] theorem putWatch_links (d : Dev) (i : Nat) (x : Watch) : (d.putWatch i x).links = d.links := rfl
@[simp] theorem putWatch_gate (d : Dev) (i : Nat) (x : Watch) : (d.putWatch i x).gate = d.gate := rfl
@[simp] theorem putWatch_time (d : Dev) (i : Nat) (x : Watch) : (d.putWatch i x).time = d.time := rfl
@[simp] theorem putWatch_net (d : Dev) (i : Nat) (x : Watch) : (d.putWatch i x).net = d.net := rfl
@[simp] theorem putWatch_cmd (d : Dev) (i : Nat) (x : Watch) : (d.putWatch i x).cmd = d.cmd := rfl
@[simp] theorem putWatch_cores (d : Dev) (i : Nat) (x : Watch) : (d.putWatch i x).cores = d.cores := rfl
@[simp] theorem putWatch_boot (d : Dev) (i : Nat) (x : Watch) : (d.putWatch i x).boot = d.boot := rfl
@[simp] theorem putWatch_health (d : Dev) (i : Nat) (x : Watch) : (d.putWatch i x).health = d.health := rfl
@[simp] theorem putWatch_twin (d : Dev) (i : Nat) (x : Watch) : (d.putWatch i x).twin = d.twin := rfl
@[simp] theorem putWatch_power (d : Dev) (i : Nat) (x : Watch) : (d.putWatch i x).power = d.power := rfl
@[simp] theorem fld_putWatch (d : Dev) (i : Nat) (x : Watch) (f : Fld) : (d.putWatch i x).fld f = d.fld f := rfl
@[simp] theorem on_putWatch (d : Dev) (i : Nat) (x : Watch) (f : Fld) : (d.putWatch i x).on f = d.on f := rfl
theorem watchOf_congr {d e : Dev} (h : e.watch = d.watch) (i : Nat) : e.watchOf i = d.watchOf i := by simp only [Dev.watchOf, h]
@[simp] theorem watchOf_put (d : Dev) (f : Fld) (v : Nat) (i : Nat) : (d.put f v).watchOf i = d.watchOf i := rfl
@[simp] theorem watchOf_flag (d : Dev) (f : Fld) (b : Bool) (i : Nat) : (d.flag f b).watchOf i = d.watchOf i := rfl
@[simp] theorem watchOf_count (d : Dev) (f : Fld) (n : Nat) (i : Nat) : (d.count f n).watchOf i = d.watchOf i := rfl
@[simp] theorem watchOf_answer (d : Dev) (r : Resp) (i : Nat) : (d.answer r).watchOf i = d.watchOf i := rfl
@[simp] theorem watchOf_cause (d : Dev) (n : Nat) (b : Bool) (i : Nat) : (d.cause n b).watchOf i = d.watchOf i := rfl
@[simp] theorem watchOf_post (d : Dev) (m : Msg) (i : Nat) : (d.post m).watchOf i = d.watchOf i := rfl
@[simp] theorem watchOf_raiseInj (d : Dev) (die : Die) (n det : Nat) (b : Bool) (i : Nat) : (d.raiseInj die n det b).watchOf i = d.watchOf i :=
  watchOf_congr (raiseInj_watch d die n det b) i
@[simp] theorem watchOf_settle (d : Dev) (i : Nat) : d.settle.watchOf i = d.watchOf i := watchOf_congr (settle_watch d) i
@[simp] theorem watchOf_runOn (s : State) (f : Mem → Dev → Dev) (i : Nat) : (runOn s f).dev.watchOf i = (f s.mem s.dev).watchOf i := watchOf_congr (runOn_watch s f) i

/-! `Dev.link` -/

@[simp] theorem link_putLink_same (d : Dev) (i : Nat) (x : LinkPort) : (d.putLink i x).link i = x := tabGet_set_same _ _ _ _
theorem link_putLink_other (d : Dev) {i j : Nat} (x : LinkPort) (h : j ≠ i) : (d.putLink i x).link j = d.link j := tabGet_set_other _ _ _ h
@[simp] theorem putLink_now (d : Dev) (i : Nat) (x : LinkPort) : (d.putLink i x).now = d.now := rfl
@[simp] theorem putLink_regs (d : Dev) (i : Nat) (x : LinkPort) : (d.putLink i x).regs = d.regs := rfl
@[simp] theorem putLink_staged (d : Dev) (i : Nat) (x : LinkPort) : (d.putLink i x).staged = d.staged := rfl
@[simp] theorem putLink_capture (d : Dev) (i : Nat) (x : LinkPort) : (d.putLink i x).capture = d.capture := rfl
@[simp] theorem putLink_resp (d : Dev) (i : Nat) (x : LinkPort) : (d.putLink i x).resp = d.resp := rfl
@[simp] theorem putLink_hwSet (d : Dev) (i : Nat) (x : LinkPort) : (d.putLink i x).hwSet = d.hwSet := rfl
@[simp] theorem putLink_free (d : Dev) (i : Nat) (x : LinkPort) : (d.putLink i x).free = d.free := rfl
@[simp] theorem putLink_drbg (d : Dev) (i : Nat) (x : LinkPort) : (d.putLink i x).drbg = d.drbg := rfl
@[simp] theorem putLink_snag (d : Dev) (i : Nat) (x : LinkPort) : (d.putLink i x).snag = d.snag := rfl
@[simp] theorem putLink_ladder (d : Dev) (i : Nat) (x : LinkPort) : (d.putLink i x).ladder = d.ladder := rfl
@[simp] theorem putLink_watch (d : Dev) (i : Nat) (x : LinkPort) : (d.putLink i x).watch = d.watch := rfl
@[simp] theorem putLink_skim (d : Dev) (i : Nat) (x : LinkPort) : (d.putLink i x).skim = d.skim := rfl
@[simp] theorem putLink_sig (d : Dev) (i : Nat) (x : LinkPort) : (d.putLink i x).sig = d.sig := rfl
@[simp] theorem putLink_arr (d : Dev) (i : Nat) (x : LinkPort) : (d.putLink i x).arr = d.arr := rfl
@[simp] theorem putLink_plan (d : Dev) (i : Nat) (x : LinkPort) : (d.putLink i x).plan = d.plan := rfl
@[simp] theorem putLink_memsys (d : Dev) (i : Nat) (x : LinkPort) : (d.putLink i x).memsys = d.memsys := rfl
@[simp] theorem putLink_gate (d : Dev) (i : Nat) (x : LinkPort) : (d.putLink i x).gate = d.gate := rfl
@[simp] theorem putLink_time (d : Dev) (i : Nat) (x : LinkPort) : (d.putLink i x).time = d.time := rfl
@[simp] theorem putLink_net (d : Dev) (i : Nat) (x : LinkPort) : (d.putLink i x).net = d.net := rfl
@[simp] theorem putLink_cmd (d : Dev) (i : Nat) (x : LinkPort) : (d.putLink i x).cmd = d.cmd := rfl
@[simp] theorem putLink_cores (d : Dev) (i : Nat) (x : LinkPort) : (d.putLink i x).cores = d.cores := rfl
@[simp] theorem putLink_boot (d : Dev) (i : Nat) (x : LinkPort) : (d.putLink i x).boot = d.boot := rfl
@[simp] theorem putLink_health (d : Dev) (i : Nat) (x : LinkPort) : (d.putLink i x).health = d.health := rfl
@[simp] theorem putLink_twin (d : Dev) (i : Nat) (x : LinkPort) : (d.putLink i x).twin = d.twin := rfl
@[simp] theorem putLink_power (d : Dev) (i : Nat) (x : LinkPort) : (d.putLink i x).power = d.power := rfl
@[simp] theorem fld_putLink (d : Dev) (i : Nat) (x : LinkPort) (f : Fld) : (d.putLink i x).fld f = d.fld f := rfl
@[simp] theorem on_putLink (d : Dev) (i : Nat) (x : LinkPort) (f : Fld) : (d.putLink i x).on f = d.on f := rfl
theorem link_congr {d e : Dev} (h : e.links = d.links) (i : Nat) : e.link i = d.link i := by simp only [Dev.link, h]
@[simp] theorem link_put (d : Dev) (f : Fld) (v : Nat) (i : Nat) : (d.put f v).link i = d.link i := rfl
@[simp] theorem link_flag (d : Dev) (f : Fld) (b : Bool) (i : Nat) : (d.flag f b).link i = d.link i := rfl
@[simp] theorem link_count (d : Dev) (f : Fld) (n : Nat) (i : Nat) : (d.count f n).link i = d.link i := rfl
@[simp] theorem link_answer (d : Dev) (r : Resp) (i : Nat) : (d.answer r).link i = d.link i := rfl
@[simp] theorem link_cause (d : Dev) (n : Nat) (b : Bool) (i : Nat) : (d.cause n b).link i = d.link i := rfl
@[simp] theorem link_post (d : Dev) (m : Msg) (i : Nat) : (d.post m).link i = d.link i := rfl
@[simp] theorem link_raiseInj (d : Dev) (die : Die) (n det : Nat) (b : Bool) (i : Nat) : (d.raiseInj die n det b).link i = d.link i :=
  link_congr (raiseInj_links d die n det b) i
@[simp] theorem link_settle (d : Dev) (i : Nat) : d.settle.link i = d.link i := link_congr (settle_links d) i
@[simp] theorem link_runOn (s : State) (f : Mem → Dev → Dev) (i : Nat) : (runOn s f).dev.link i = (f s.mem s.dev).link i := link_congr (runOn_links s f) i

/-! `Dev.tdm` -/

@[simp] theorem tdm_putTdm_same (d : Dev) (i : Nat) (x : TdmPort) : (d.putTdm i x).tdm i = x := tabGet_set_same _ _ _ _
theorem tdm_putTdm_other (d : Dev) {i j : Nat} (x : TdmPort) (h : j ≠ i) : (d.putTdm i x).tdm j = d.tdm j := tabGet_set_other _ _ _ h
@[simp] theorem putTdm_now (d : Dev) (i : Nat) (x : TdmPort) : (d.putTdm i x).now = d.now := rfl
@[simp] theorem putTdm_regs (d : Dev) (i : Nat) (x : TdmPort) : (d.putTdm i x).regs = d.regs := rfl
@[simp] theorem putTdm_staged (d : Dev) (i : Nat) (x : TdmPort) : (d.putTdm i x).staged = d.staged := rfl
@[simp] theorem putTdm_capture (d : Dev) (i : Nat) (x : TdmPort) : (d.putTdm i x).capture = d.capture := rfl
@[simp] theorem putTdm_resp (d : Dev) (i : Nat) (x : TdmPort) : (d.putTdm i x).resp = d.resp := rfl
@[simp] theorem putTdm_hwSet (d : Dev) (i : Nat) (x : TdmPort) : (d.putTdm i x).hwSet = d.hwSet := rfl
@[simp] theorem putTdm_free (d : Dev) (i : Nat) (x : TdmPort) : (d.putTdm i x).free = d.free := rfl
@[simp] theorem putTdm_drbg (d : Dev) (i : Nat) (x : TdmPort) : (d.putTdm i x).drbg = d.drbg := rfl
@[simp] theorem putTdm_snag (d : Dev) (i : Nat) (x : TdmPort) : (d.putTdm i x).snag = d.snag := rfl
@[simp] theorem putTdm_ladder (d : Dev) (i : Nat) (x : TdmPort) : (d.putTdm i x).ladder = d.ladder := rfl
@[simp] theorem putTdm_watch (d : Dev) (i : Nat) (x : TdmPort) : (d.putTdm i x).watch = d.watch := rfl
@[simp] theorem putTdm_skim (d : Dev) (i : Nat) (x : TdmPort) : (d.putTdm i x).skim = d.skim := rfl
@[simp] theorem putTdm_sig (d : Dev) (i : Nat) (x : TdmPort) : (d.putTdm i x).sig = d.sig := rfl
@[simp] theorem putTdm_arr (d : Dev) (i : Nat) (x : TdmPort) : (d.putTdm i x).arr = d.arr := rfl
@[simp] theorem putTdm_plan (d : Dev) (i : Nat) (x : TdmPort) : (d.putTdm i x).plan = d.plan := rfl
@[simp] theorem putTdm_memsys (d : Dev) (i : Nat) (x : TdmPort) : (d.putTdm i x).memsys = d.memsys := rfl
@[simp] theorem putTdm_links (d : Dev) (i : Nat) (x : TdmPort) : (d.putTdm i x).links = d.links := rfl
@[simp] theorem putTdm_time (d : Dev) (i : Nat) (x : TdmPort) : (d.putTdm i x).time = d.time := rfl
@[simp] theorem putTdm_net (d : Dev) (i : Nat) (x : TdmPort) : (d.putTdm i x).net = d.net := rfl
@[simp] theorem putTdm_cmd (d : Dev) (i : Nat) (x : TdmPort) : (d.putTdm i x).cmd = d.cmd := rfl
@[simp] theorem putTdm_cores (d : Dev) (i : Nat) (x : TdmPort) : (d.putTdm i x).cores = d.cores := rfl
@[simp] theorem putTdm_boot (d : Dev) (i : Nat) (x : TdmPort) : (d.putTdm i x).boot = d.boot := rfl
@[simp] theorem putTdm_health (d : Dev) (i : Nat) (x : TdmPort) : (d.putTdm i x).health = d.health := rfl
@[simp] theorem putTdm_twin (d : Dev) (i : Nat) (x : TdmPort) : (d.putTdm i x).twin = d.twin := rfl
@[simp] theorem putTdm_power (d : Dev) (i : Nat) (x : TdmPort) : (d.putTdm i x).power = d.power := rfl
@[simp] theorem fld_putTdm (d : Dev) (i : Nat) (x : TdmPort) (f : Fld) : (d.putTdm i x).fld f = d.fld f := rfl
@[simp] theorem on_putTdm (d : Dev) (i : Nat) (x : TdmPort) (f : Fld) : (d.putTdm i x).on f = d.on f := rfl
theorem tdm_congr {d e : Dev} (h : e.gate.ports = d.gate.ports) (i : Nat) : e.tdm i = d.tdm i := by simp only [Dev.tdm, h]
@[simp] theorem tdm_put (d : Dev) (f : Fld) (v : Nat) (i : Nat) : (d.put f v).tdm i = d.tdm i := rfl
@[simp] theorem tdm_flag (d : Dev) (f : Fld) (b : Bool) (i : Nat) : (d.flag f b).tdm i = d.tdm i := rfl
@[simp] theorem tdm_count (d : Dev) (f : Fld) (n : Nat) (i : Nat) : (d.count f n).tdm i = d.tdm i := rfl
@[simp] theorem tdm_answer (d : Dev) (r : Resp) (i : Nat) : (d.answer r).tdm i = d.tdm i := rfl
@[simp] theorem tdm_cause (d : Dev) (n : Nat) (b : Bool) (i : Nat) : (d.cause n b).tdm i = d.tdm i := rfl
@[simp] theorem tdm_post (d : Dev) (m : Msg) (i : Nat) : (d.post m).tdm i = d.tdm i := rfl
@[simp] theorem tdm_raiseInj (d : Dev) (die : Die) (n det : Nat) (b : Bool) (i : Nat) : (d.raiseInj die n det b).tdm i = d.tdm i :=
  tdm_congr (congrArg Gate.ports (raiseInj_gate d die n det b)) i
@[simp] theorem tdm_settle (d : Dev) (i : Nat) : d.settle.tdm i = d.tdm i := tdm_congr (settle_gate_ports d) i
@[simp] theorem tdm_runOn (s : State) (f : Mem → Dev → Dev) (i : Nat) : (runOn s f).dev.tdm i = (f s.mem s.dev).tdm i := tdm_congr (runOn_gate_ports s f) i

/-! `Dev.ptp` -/

@[simp] theorem ptp_putPtp_same (d : Dev) (i : Nat) (x : PtpInst) : (d.putPtp i x).ptp i = x := tabGet_set_same _ _ _ _
theorem ptp_putPtp_other (d : Dev) {i j : Nat} (x : PtpInst) (h : j ≠ i) : (d.putPtp i x).ptp j = d.ptp j := tabGet_set_other _ _ _ h
@[simp] theorem putPtp_now (d : Dev) (i : Nat) (x : PtpInst) : (d.putPtp i x).now = d.now := rfl
@[simp] theorem putPtp_regs (d : Dev) (i : Nat) (x : PtpInst) : (d.putPtp i x).regs = d.regs := rfl
@[simp] theorem putPtp_staged (d : Dev) (i : Nat) (x : PtpInst) : (d.putPtp i x).staged = d.staged := rfl
@[simp] theorem putPtp_capture (d : Dev) (i : Nat) (x : PtpInst) : (d.putPtp i x).capture = d.capture := rfl
@[simp] theorem putPtp_resp (d : Dev) (i : Nat) (x : PtpInst) : (d.putPtp i x).resp = d.resp := rfl
@[simp] theorem putPtp_hwSet (d : Dev) (i : Nat) (x : PtpInst) : (d.putPtp i x).hwSet = d.hwSet := rfl
@[simp] theorem putPtp_free (d : Dev) (i : Nat) (x : PtpInst) : (d.putPtp i x).free = d.free := rfl
@[simp] theorem putPtp_drbg (d : Dev) (i : Nat) (x : PtpInst) : (d.putPtp i x).drbg = d.drbg := rfl
@[simp] theorem putPtp_snag (d : Dev) (i : Nat) (x : PtpInst) : (d.putPtp i x).snag = d.snag := rfl
@[simp] theorem putPtp_ladder (d : Dev) (i : Nat) (x : PtpInst) : (d.putPtp i x).ladder = d.ladder := rfl
@[simp] theorem putPtp_watch (d : Dev) (i : Nat) (x : PtpInst) : (d.putPtp i x).watch = d.watch := rfl
@[simp] theorem putPtp_skim (d : Dev) (i : Nat) (x : PtpInst) : (d.putPtp i x).skim = d.skim := rfl
@[simp] theorem putPtp_sig (d : Dev) (i : Nat) (x : PtpInst) : (d.putPtp i x).sig = d.sig := rfl
@[simp] theorem putPtp_arr (d : Dev) (i : Nat) (x : PtpInst) : (d.putPtp i x).arr = d.arr := rfl
@[simp] theorem putPtp_plan (d : Dev) (i : Nat) (x : PtpInst) : (d.putPtp i x).plan = d.plan := rfl
@[simp] theorem putPtp_memsys (d : Dev) (i : Nat) (x : PtpInst) : (d.putPtp i x).memsys = d.memsys := rfl
@[simp] theorem putPtp_links (d : Dev) (i : Nat) (x : PtpInst) : (d.putPtp i x).links = d.links := rfl
@[simp] theorem putPtp_gate (d : Dev) (i : Nat) (x : PtpInst) : (d.putPtp i x).gate = d.gate := rfl
@[simp] theorem putPtp_net (d : Dev) (i : Nat) (x : PtpInst) : (d.putPtp i x).net = d.net := rfl
@[simp] theorem putPtp_cmd (d : Dev) (i : Nat) (x : PtpInst) : (d.putPtp i x).cmd = d.cmd := rfl
@[simp] theorem putPtp_cores (d : Dev) (i : Nat) (x : PtpInst) : (d.putPtp i x).cores = d.cores := rfl
@[simp] theorem putPtp_boot (d : Dev) (i : Nat) (x : PtpInst) : (d.putPtp i x).boot = d.boot := rfl
@[simp] theorem putPtp_health (d : Dev) (i : Nat) (x : PtpInst) : (d.putPtp i x).health = d.health := rfl
@[simp] theorem putPtp_twin (d : Dev) (i : Nat) (x : PtpInst) : (d.putPtp i x).twin = d.twin := rfl
@[simp] theorem putPtp_power (d : Dev) (i : Nat) (x : PtpInst) : (d.putPtp i x).power = d.power := rfl
@[simp] theorem fld_putPtp (d : Dev) (i : Nat) (x : PtpInst) (f : Fld) : (d.putPtp i x).fld f = d.fld f := rfl
@[simp] theorem on_putPtp (d : Dev) (i : Nat) (x : PtpInst) (f : Fld) : (d.putPtp i x).on f = d.on f := rfl
theorem ptp_congr {d e : Dev} (h : e.time = d.time) (i : Nat) : e.ptp i = d.ptp i := by simp only [Dev.ptp, h]
@[simp] theorem ptp_put (d : Dev) (f : Fld) (v : Nat) (i : Nat) : (d.put f v).ptp i = d.ptp i := rfl
@[simp] theorem ptp_flag (d : Dev) (f : Fld) (b : Bool) (i : Nat) : (d.flag f b).ptp i = d.ptp i := rfl
@[simp] theorem ptp_count (d : Dev) (f : Fld) (n : Nat) (i : Nat) : (d.count f n).ptp i = d.ptp i := rfl
@[simp] theorem ptp_answer (d : Dev) (r : Resp) (i : Nat) : (d.answer r).ptp i = d.ptp i := rfl
@[simp] theorem ptp_cause (d : Dev) (n : Nat) (b : Bool) (i : Nat) : (d.cause n b).ptp i = d.ptp i := rfl
@[simp] theorem ptp_post (d : Dev) (m : Msg) (i : Nat) : (d.post m).ptp i = d.ptp i := rfl
@[simp] theorem ptp_raiseInj (d : Dev) (die : Die) (n det : Nat) (b : Bool) (i : Nat) : (d.raiseInj die n det b).ptp i = d.ptp i :=
  ptp_congr (raiseInj_time d die n det b) i
@[simp] theorem ptp_settle (d : Dev) (i : Nat) : d.settle.ptp i = d.ptp i := ptp_congr (settle_time d) i
@[simp] theorem ptp_runOn (s : State) (f : Mem → Dev → Dev) (i : Nat) : (runOn s f).dev.ptp i = (f s.mem s.dev).ptp i := ptp_congr (runOn_time s f) i

/-! `Dev.tbAt` -/

@[simp] theorem tbAt_putTb_same (d : Dev) (i : Nat) (x : TimeBase) : (d.putTb i x).tbAt i = x := tabGet_set_same _ _ _ _
theorem tbAt_putTb_other (d : Dev) {i j : Nat} (x : TimeBase) (h : j ≠ i) : (d.putTb i x).tbAt j = d.tbAt j := tabGet_set_other _ _ _ h
@[simp] theorem putTb_now (d : Dev) (i : Nat) (x : TimeBase) : (d.putTb i x).now = d.now := rfl
@[simp] theorem putTb_regs (d : Dev) (i : Nat) (x : TimeBase) : (d.putTb i x).regs = d.regs := rfl
@[simp] theorem putTb_staged (d : Dev) (i : Nat) (x : TimeBase) : (d.putTb i x).staged = d.staged := rfl
@[simp] theorem putTb_capture (d : Dev) (i : Nat) (x : TimeBase) : (d.putTb i x).capture = d.capture := rfl
@[simp] theorem putTb_resp (d : Dev) (i : Nat) (x : TimeBase) : (d.putTb i x).resp = d.resp := rfl
@[simp] theorem putTb_hwSet (d : Dev) (i : Nat) (x : TimeBase) : (d.putTb i x).hwSet = d.hwSet := rfl
@[simp] theorem putTb_free (d : Dev) (i : Nat) (x : TimeBase) : (d.putTb i x).free = d.free := rfl
@[simp] theorem putTb_drbg (d : Dev) (i : Nat) (x : TimeBase) : (d.putTb i x).drbg = d.drbg := rfl
@[simp] theorem putTb_snag (d : Dev) (i : Nat) (x : TimeBase) : (d.putTb i x).snag = d.snag := rfl
@[simp] theorem putTb_ladder (d : Dev) (i : Nat) (x : TimeBase) : (d.putTb i x).ladder = d.ladder := rfl
@[simp] theorem putTb_watch (d : Dev) (i : Nat) (x : TimeBase) : (d.putTb i x).watch = d.watch := rfl
@[simp] theorem putTb_skim (d : Dev) (i : Nat) (x : TimeBase) : (d.putTb i x).skim = d.skim := rfl
@[simp] theorem putTb_sig (d : Dev) (i : Nat) (x : TimeBase) : (d.putTb i x).sig = d.sig := rfl
@[simp] theorem putTb_arr (d : Dev) (i : Nat) (x : TimeBase) : (d.putTb i x).arr = d.arr := rfl
@[simp] theorem putTb_plan (d : Dev) (i : Nat) (x : TimeBase) : (d.putTb i x).plan = d.plan := rfl
@[simp] theorem putTb_memsys (d : Dev) (i : Nat) (x : TimeBase) : (d.putTb i x).memsys = d.memsys := rfl
@[simp] theorem putTb_links (d : Dev) (i : Nat) (x : TimeBase) : (d.putTb i x).links = d.links := rfl
@[simp] theorem putTb_gate (d : Dev) (i : Nat) (x : TimeBase) : (d.putTb i x).gate = d.gate := rfl
@[simp] theorem putTb_net (d : Dev) (i : Nat) (x : TimeBase) : (d.putTb i x).net = d.net := rfl
@[simp] theorem putTb_cmd (d : Dev) (i : Nat) (x : TimeBase) : (d.putTb i x).cmd = d.cmd := rfl
@[simp] theorem putTb_cores (d : Dev) (i : Nat) (x : TimeBase) : (d.putTb i x).cores = d.cores := rfl
@[simp] theorem putTb_boot (d : Dev) (i : Nat) (x : TimeBase) : (d.putTb i x).boot = d.boot := rfl
@[simp] theorem putTb_health (d : Dev) (i : Nat) (x : TimeBase) : (d.putTb i x).health = d.health := rfl
@[simp] theorem putTb_twin (d : Dev) (i : Nat) (x : TimeBase) : (d.putTb i x).twin = d.twin := rfl
@[simp] theorem putTb_power (d : Dev) (i : Nat) (x : TimeBase) : (d.putTb i x).power = d.power := rfl
@[simp] theorem fld_putTb (d : Dev) (i : Nat) (x : TimeBase) (f : Fld) : (d.putTb i x).fld f = d.fld f := rfl
@[simp] theorem on_putTb (d : Dev) (i : Nat) (x : TimeBase) (f : Fld) : (d.putTb i x).on f = d.on f := rfl
theorem tbAt_congr {d e : Dev} (h : e.time = d.time) (i : Nat) : e.tbAt i = d.tbAt i := by simp only [Dev.tbAt, h]
@[simp] theorem tbAt_put (d : Dev) (f : Fld) (v : Nat) (i : Nat) : (d.put f v).tbAt i = d.tbAt i := rfl
@[simp] theorem tbAt_flag (d : Dev) (f : Fld) (b : Bool) (i : Nat) : (d.flag f b).tbAt i = d.tbAt i := rfl
@[simp] theorem tbAt_count (d : Dev) (f : Fld) (n : Nat) (i : Nat) : (d.count f n).tbAt i = d.tbAt i := rfl
@[simp] theorem tbAt_answer (d : Dev) (r : Resp) (i : Nat) : (d.answer r).tbAt i = d.tbAt i := rfl
@[simp] theorem tbAt_cause (d : Dev) (n : Nat) (b : Bool) (i : Nat) : (d.cause n b).tbAt i = d.tbAt i := rfl
@[simp] theorem tbAt_post (d : Dev) (m : Msg) (i : Nat) : (d.post m).tbAt i = d.tbAt i := rfl
@[simp] theorem tbAt_raiseInj (d : Dev) (die : Die) (n det : Nat) (b : Bool) (i : Nat) : (d.raiseInj die n det b).tbAt i = d.tbAt i :=
  tbAt_congr (raiseInj_time d die n det b) i
@[simp] theorem tbAt_settle (d : Dev) (i : Nat) : d.settle.tbAt i = d.tbAt i := tbAt_congr (settle_time d) i
@[simp] theorem tbAt_runOn (s : State) (f : Mem → Dev → Dev) (i : Nat) : (runOn s f).dev.tbAt i = (f s.mem s.dev).tbAt i := tbAt_congr (runOn_time s f) i

/-! `Dev.caps` -/

theorem caps_congr {d e : Dev} (h : e.time = d.time) (i : Nat) : e.caps i = d.caps i := by simp only [Dev.caps, h]
@[simp] theorem caps_put (d : Dev) (f : Fld) (v : Nat) (i : Nat) : (d.put f v).caps i = d.caps i := rfl
@[simp] theorem caps_flag (d : Dev) (f : Fld) (b : Bool) (i : Nat) : (d.flag f b).caps i = d.caps i := rfl
@[simp] theorem caps_count (d : Dev) (f : Fld) (n : Nat) (i : Nat) : (d.count f n).caps i = d.caps i := rfl
@[simp] theorem caps_answer (d : Dev) (r : Resp) (i : Nat) : (d.answer r).caps i = d.caps i := rfl
@[simp] theorem caps_cause (d : Dev) (n : Nat) (b : Bool) (i : Nat) : (d.cause n b).caps i = d.caps i := rfl
@[simp] theorem caps_post (d : Dev) (m : Msg) (i : Nat) : (d.post m).caps i = d.caps i := rfl
@[simp] theorem caps_raiseInj (d : Dev) (die : Die) (n det : Nat) (b : Bool) (i : Nat) : (d.raiseInj die n det b).caps i = d.caps i :=
  caps_congr (raiseInj_time d die n det b) i
@[simp] theorem caps_settle (d : Dev) (i : Nat) : d.settle.caps i = d.caps i := caps_congr (settle_time d) i
@[simp] theorem caps_runOn (s : State) (f : Mem → Dev → Dev) (i : Nat) : (runOn s f).dev.caps i = (f s.mem s.dev).caps i := caps_congr (runOn_time s f) i

/-! `Dev.model` -/

@[simp] theorem model_putModel_same (d : Dev) (i : Nat) (x : Model) : (d.putModel i x).model i = x := tabGet_set_same _ _ _ _
theorem model_putModel_other (d : Dev) {i j : Nat} (x : Model) (h : j ≠ i) : (d.putModel i x).model j = d.model j := tabGet_set_other _ _ _ h
@[simp] theorem putModel_now (d : Dev) (i : Nat) (x : Model) : (d.putModel i x).now = d.now := rfl
@[simp] theorem putModel_regs (d : Dev) (i : Nat) (x : Model) : (d.putModel i x).regs = d.regs := rfl
@[simp] theorem putModel_staged (d : Dev) (i : Nat) (x : Model) : (d.putModel i x).staged = d.staged := rfl
@[simp] theorem putModel_capture (d : Dev) (i : Nat) (x : Model) : (d.putModel i x).capture = d.capture := rfl
@[simp] theorem putModel_resp (d : Dev) (i : Nat) (x : Model) : (d.putModel i x).resp = d.resp := rfl
@[simp] theorem putModel_hwSet (d : Dev) (i : Nat) (x : Model) : (d.putModel i x).hwSet = d.hwSet := rfl
@[simp] theorem putModel_free (d : Dev) (i : Nat) (x : Model) : (d.putModel i x).free = d.free := rfl
@[simp] theorem putModel_drbg (d : Dev) (i : Nat) (x : Model) : (d.putModel i x).drbg = d.drbg := rfl
@[simp] theorem putModel_snag (d : Dev) (i : Nat) (x : Model) : (d.putModel i x).snag = d.snag := rfl
@[simp] theorem putModel_ladder (d : Dev) (i : Nat) (x : Model) : (d.putModel i x).ladder = d.ladder := rfl
@[simp] theorem putModel_watch (d : Dev) (i : Nat) (x : Model) : (d.putModel i x).watch = d.watch := rfl
@[simp] theorem putModel_skim (d : Dev) (i : Nat) (x : Model) : (d.putModel i x).skim = d.skim := rfl
@[simp] theorem putModel_sig (d : Dev) (i : Nat) (x : Model) : (d.putModel i x).sig = d.sig := rfl
@[simp] theorem putModel_plan (d : Dev) (i : Nat) (x : Model) : (d.putModel i x).plan = d.plan := rfl
@[simp] theorem putModel_memsys (d : Dev) (i : Nat) (x : Model) : (d.putModel i x).memsys = d.memsys := rfl
@[simp] theorem putModel_links (d : Dev) (i : Nat) (x : Model) : (d.putModel i x).links = d.links := rfl
@[simp] theorem putModel_gate (d : Dev) (i : Nat) (x : Model) : (d.putModel i x).gate = d.gate := rfl
@[simp] theorem putModel_time (d : Dev) (i : Nat) (x : Model) : (d.putModel i x).time = d.time := rfl
@[simp] theorem putModel_net (d : Dev) (i : Nat) (x : Model) : (d.putModel i x).net = d.net := rfl
@[simp] theorem putModel_cmd (d : Dev) (i : Nat) (x : Model) : (d.putModel i x).cmd = d.cmd := rfl
@[simp] theorem putModel_cores (d : Dev) (i : Nat) (x : Model) : (d.putModel i x).cores = d.cores := rfl
@[simp] theorem putModel_boot (d : Dev) (i : Nat) (x : Model) : (d.putModel i x).boot = d.boot := rfl
@[simp] theorem putModel_health (d : Dev) (i : Nat) (x : Model) : (d.putModel i x).health = d.health := rfl
@[simp] theorem putModel_twin (d : Dev) (i : Nat) (x : Model) : (d.putModel i x).twin = d.twin := rfl
@[simp] theorem putModel_power (d : Dev) (i : Nat) (x : Model) : (d.putModel i x).power = d.power := rfl
@[simp] theorem fld_putModel (d : Dev) (i : Nat) (x : Model) (f : Fld) : (d.putModel i x).fld f = d.fld f := rfl
@[simp] theorem on_putModel (d : Dev) (i : Nat) (x : Model) (f : Fld) : (d.putModel i x).on f = d.on f := rfl
theorem model_congr {d e : Dev} (h : e.arr = d.arr) (i : Nat) : e.model i = d.model i := by simp only [Dev.model, h]
@[simp] theorem model_put (d : Dev) (f : Fld) (v : Nat) (i : Nat) : (d.put f v).model i = d.model i := rfl
@[simp] theorem model_flag (d : Dev) (f : Fld) (b : Bool) (i : Nat) : (d.flag f b).model i = d.model i := rfl
@[simp] theorem model_count (d : Dev) (f : Fld) (n : Nat) (i : Nat) : (d.count f n).model i = d.model i := rfl
@[simp] theorem model_answer (d : Dev) (r : Resp) (i : Nat) : (d.answer r).model i = d.model i := rfl
@[simp] theorem model_cause (d : Dev) (n : Nat) (b : Bool) (i : Nat) : (d.cause n b).model i = d.model i := rfl
@[simp] theorem model_post (d : Dev) (m : Msg) (i : Nat) : (d.post m).model i = d.model i := rfl
@[simp] theorem model_raiseInj (d : Dev) (die : Die) (n det : Nat) (b : Bool) (i : Nat) : (d.raiseInj die n det b).model i = d.model i :=
  model_congr (raiseInj_arr d die n det b) i
@[simp] theorem model_settle (d : Dev) (i : Nat) : d.settle.model i = d.model i := model_congr (settle_arr d) i
@[simp] theorem model_runOn (s : State) (f : Mem → Dev → Dev) (i : Nat) : (runOn s f).dev.model i = (f s.mem s.dev).model i := model_congr (runOn_arr s f) i

/-! `Dev.winInst` -/

@[simp] theorem winInst_putWin_same (d : Dev) (i : Nat) (x : Option WinInst) : (d.putWin i x).winInst i = x := tabGet_set_same _ _ _ _
theorem winInst_putWin_other (d : Dev) {i j : Nat} (x : Option WinInst) (h : j ≠ i) : (d.putWin i x).winInst j = d.winInst j := tabGet_set_other _ _ _ h
@[simp] theorem putWin_now (d : Dev) (i : Nat) (x : Option WinInst) : (d.putWin i x).now = d.now := rfl
@[simp] theorem putWin_regs (d : Dev) (i : Nat) (x : Option WinInst) : (d.putWin i x).regs = d.regs := rfl
@[simp] theorem putWin_staged (d : Dev) (i : Nat) (x : Option WinInst) : (d.putWin i x).staged = d.staged := rfl
@[simp] theorem putWin_capture (d : Dev) (i : Nat) (x : Option WinInst) : (d.putWin i x).capture = d.capture := rfl
@[simp] theorem putWin_resp (d : Dev) (i : Nat) (x : Option WinInst) : (d.putWin i x).resp = d.resp := rfl
@[simp] theorem putWin_hwSet (d : Dev) (i : Nat) (x : Option WinInst) : (d.putWin i x).hwSet = d.hwSet := rfl
@[simp] theorem putWin_free (d : Dev) (i : Nat) (x : Option WinInst) : (d.putWin i x).free = d.free := rfl
@[simp] theorem putWin_drbg (d : Dev) (i : Nat) (x : Option WinInst) : (d.putWin i x).drbg = d.drbg := rfl
@[simp] theorem putWin_snag (d : Dev) (i : Nat) (x : Option WinInst) : (d.putWin i x).snag = d.snag := rfl
@[simp] theorem putWin_ladder (d : Dev) (i : Nat) (x : Option WinInst) : (d.putWin i x).ladder = d.ladder := rfl
@[simp] theorem putWin_watch (d : Dev) (i : Nat) (x : Option WinInst) : (d.putWin i x).watch = d.watch := rfl
@[simp] theorem putWin_skim (d : Dev) (i : Nat) (x : Option WinInst) : (d.putWin i x).skim = d.skim := rfl
@[simp] theorem putWin_sig (d : Dev) (i : Nat) (x : Option WinInst) : (d.putWin i x).sig = d.sig := rfl
@[simp] theorem putWin_arr (d : Dev) (i : Nat) (x : Option WinInst) : (d.putWin i x).arr = d.arr := rfl
@[simp] theorem putWin_memsys (d : Dev) (i : Nat) (x : Option WinInst) : (d.putWin i x).memsys = d.memsys := rfl
@[simp] theorem putWin_links (d : Dev) (i : Nat) (x : Option WinInst) : (d.putWin i x).links = d.links := rfl
@[simp] theorem putWin_gate (d : Dev) (i : Nat) (x : Option WinInst) : (d.putWin i x).gate = d.gate := rfl
@[simp] theorem putWin_time (d : Dev) (i : Nat) (x : Option WinInst) : (d.putWin i x).time = d.time := rfl
@[simp] theorem putWin_net (d : Dev) (i : Nat) (x : Option WinInst) : (d.putWin i x).net = d.net := rfl
@[simp] theorem putWin_cmd (d : Dev) (i : Nat) (x : Option WinInst) : (d.putWin i x).cmd = d.cmd := rfl
@[simp] theorem putWin_cores (d : Dev) (i : Nat) (x : Option WinInst) : (d.putWin i x).cores = d.cores := rfl
@[simp] theorem putWin_boot (d : Dev) (i : Nat) (x : Option WinInst) : (d.putWin i x).boot = d.boot := rfl
@[simp] theorem putWin_health (d : Dev) (i : Nat) (x : Option WinInst) : (d.putWin i x).health = d.health := rfl
@[simp] theorem putWin_twin (d : Dev) (i : Nat) (x : Option WinInst) : (d.putWin i x).twin = d.twin := rfl
@[simp] theorem putWin_power (d : Dev) (i : Nat) (x : Option WinInst) : (d.putWin i x).power = d.power := rfl
@[simp] theorem fld_putWin (d : Dev) (i : Nat) (x : Option WinInst) (f : Fld) : (d.putWin i x).fld f = d.fld f := rfl
@[simp] theorem on_putWin (d : Dev) (i : Nat) (x : Option WinInst) (f : Fld) : (d.putWin i x).on f = d.on f := rfl
theorem winInst_congr {d e : Dev} (h : e.plan = d.plan) (i : Nat) : e.winInst i = d.winInst i := by simp only [Dev.winInst, h]
@[simp] theorem winInst_put (d : Dev) (f : Fld) (v : Nat) (i : Nat) : (d.put f v).winInst i = d.winInst i := rfl
@[simp] theorem winInst_flag (d : Dev) (f : Fld) (b : Bool) (i : Nat) : (d.flag f b).winInst i = d.winInst i := rfl
@[simp] theorem winInst_count (d : Dev) (f : Fld) (n : Nat) (i : Nat) : (d.count f n).winInst i = d.winInst i := rfl
@[simp] theorem winInst_answer (d : Dev) (r : Resp) (i : Nat) : (d.answer r).winInst i = d.winInst i := rfl
@[simp] theorem winInst_cause (d : Dev) (n : Nat) (b : Bool) (i : Nat) : (d.cause n b).winInst i = d.winInst i := rfl
@[simp] theorem winInst_post (d : Dev) (m : Msg) (i : Nat) : (d.post m).winInst i = d.winInst i := rfl
@[simp] theorem winInst_raiseInj (d : Dev) (die : Die) (n det : Nat) (b : Bool) (i : Nat) : (d.raiseInj die n det b).winInst i = d.winInst i :=
  winInst_congr (raiseInj_plan d die n det b) i
@[simp] theorem winInst_settle (d : Dev) (i : Nat) : d.settle.winInst i = d.winInst i := winInst_congr (settle_plan d) i
@[simp] theorem winInst_runOn (s : State) (f : Mem → Dev → Dev) (i : Nat) : (runOn s f).dev.winInst i = (f s.mem s.dev).winInst i := winInst_congr (runOn_plan s f) i

/-! `Dev.stnInst` -/

@[simp] theorem stnInst_putStn_same (d : Dev) (i : Nat) (x : Option StnInst) : (d.putStn i x).stnInst i = x := tabGet_set_same _ _ _ _
theorem stnInst_putStn_other (d : Dev) {i j : Nat} (x : Option StnInst) (h : j ≠ i) : (d.putStn i x).stnInst j = d.stnInst j := tabGet_set_other _ _ _ h
@[simp] theorem putStn_now (d : Dev) (i : Nat) (x : Option StnInst) : (d.putStn i x).now = d.now := rfl
@[simp] theorem putStn_regs (d : Dev) (i : Nat) (x : Option StnInst) : (d.putStn i x).regs = d.regs := rfl
@[simp] theorem putStn_staged (d : Dev) (i : Nat) (x : Option StnInst) : (d.putStn i x).staged = d.staged := rfl
@[simp] theorem putStn_capture (d : Dev) (i : Nat) (x : Option StnInst) : (d.putStn i x).capture = d.capture := rfl
@[simp] theorem putStn_resp (d : Dev) (i : Nat) (x : Option StnInst) : (d.putStn i x).resp = d.resp := rfl
@[simp] theorem putStn_hwSet (d : Dev) (i : Nat) (x : Option StnInst) : (d.putStn i x).hwSet = d.hwSet := rfl
@[simp] theorem putStn_free (d : Dev) (i : Nat) (x : Option StnInst) : (d.putStn i x).free = d.free := rfl
@[simp] theorem putStn_drbg (d : Dev) (i : Nat) (x : Option StnInst) : (d.putStn i x).drbg = d.drbg := rfl
@[simp] theorem putStn_snag (d : Dev) (i : Nat) (x : Option StnInst) : (d.putStn i x).snag = d.snag := rfl
@[simp] theorem putStn_ladder (d : Dev) (i : Nat) (x : Option StnInst) : (d.putStn i x).ladder = d.ladder := rfl
@[simp] theorem putStn_watch (d : Dev) (i : Nat) (x : Option StnInst) : (d.putStn i x).watch = d.watch := rfl
@[simp] theorem putStn_skim (d : Dev) (i : Nat) (x : Option StnInst) : (d.putStn i x).skim = d.skim := rfl
@[simp] theorem putStn_sig (d : Dev) (i : Nat) (x : Option StnInst) : (d.putStn i x).sig = d.sig := rfl
@[simp] theorem putStn_arr (d : Dev) (i : Nat) (x : Option StnInst) : (d.putStn i x).arr = d.arr := rfl
@[simp] theorem putStn_memsys (d : Dev) (i : Nat) (x : Option StnInst) : (d.putStn i x).memsys = d.memsys := rfl
@[simp] theorem putStn_links (d : Dev) (i : Nat) (x : Option StnInst) : (d.putStn i x).links = d.links := rfl
@[simp] theorem putStn_gate (d : Dev) (i : Nat) (x : Option StnInst) : (d.putStn i x).gate = d.gate := rfl
@[simp] theorem putStn_time (d : Dev) (i : Nat) (x : Option StnInst) : (d.putStn i x).time = d.time := rfl
@[simp] theorem putStn_net (d : Dev) (i : Nat) (x : Option StnInst) : (d.putStn i x).net = d.net := rfl
@[simp] theorem putStn_cmd (d : Dev) (i : Nat) (x : Option StnInst) : (d.putStn i x).cmd = d.cmd := rfl
@[simp] theorem putStn_cores (d : Dev) (i : Nat) (x : Option StnInst) : (d.putStn i x).cores = d.cores := rfl
@[simp] theorem putStn_boot (d : Dev) (i : Nat) (x : Option StnInst) : (d.putStn i x).boot = d.boot := rfl
@[simp] theorem putStn_health (d : Dev) (i : Nat) (x : Option StnInst) : (d.putStn i x).health = d.health := rfl
@[simp] theorem putStn_twin (d : Dev) (i : Nat) (x : Option StnInst) : (d.putStn i x).twin = d.twin := rfl
@[simp] theorem putStn_power (d : Dev) (i : Nat) (x : Option StnInst) : (d.putStn i x).power = d.power := rfl
@[simp] theorem fld_putStn (d : Dev) (i : Nat) (x : Option StnInst) (f : Fld) : (d.putStn i x).fld f = d.fld f := rfl
@[simp] theorem on_putStn (d : Dev) (i : Nat) (x : Option StnInst) (f : Fld) : (d.putStn i x).on f = d.on f := rfl
theorem stnInst_congr {d e : Dev} (h : e.plan = d.plan) (i : Nat) : e.stnInst i = d.stnInst i := by simp only [Dev.stnInst, h]
@[simp] theorem stnInst_put (d : Dev) (f : Fld) (v : Nat) (i : Nat) : (d.put f v).stnInst i = d.stnInst i := rfl
@[simp] theorem stnInst_flag (d : Dev) (f : Fld) (b : Bool) (i : Nat) : (d.flag f b).stnInst i = d.stnInst i := rfl
@[simp] theorem stnInst_count (d : Dev) (f : Fld) (n : Nat) (i : Nat) : (d.count f n).stnInst i = d.stnInst i := rfl
@[simp] theorem stnInst_answer (d : Dev) (r : Resp) (i : Nat) : (d.answer r).stnInst i = d.stnInst i := rfl
@[simp] theorem stnInst_cause (d : Dev) (n : Nat) (b : Bool) (i : Nat) : (d.cause n b).stnInst i = d.stnInst i := rfl
@[simp] theorem stnInst_post (d : Dev) (m : Msg) (i : Nat) : (d.post m).stnInst i = d.stnInst i := rfl
@[simp] theorem stnInst_raiseInj (d : Dev) (die : Die) (n det : Nat) (b : Bool) (i : Nat) : (d.raiseInj die n det b).stnInst i = d.stnInst i :=
  stnInst_congr (raiseInj_plan d die n det b) i
@[simp] theorem stnInst_settle (d : Dev) (i : Nat) : d.settle.stnInst i = d.stnInst i := stnInst_congr (settle_plan d) i
@[simp] theorem stnInst_runOn (s : State) (f : Mem → Dev → Dev) (i : Nat) : (runOn s f).dev.stnInst i = (f s.mem s.dev).stnInst i := stnInst_congr (runOn_plan s f) i

/-! `Dev.curSet` -/

@[simp] theorem curSet_putCur_same (d : Dev) (i : Nat) (x : TableSet) : (d.putCur i x).curSet i = x := tabGet_set_same _ _ _ _
theorem curSet_putCur_other (d : Dev) {i j : Nat} (x : TableSet) (h : j ≠ i) : (d.putCur i x).curSet j = d.curSet j := tabGet_set_other _ _ _ h
@[simp] theorem putCur_now (d : Dev) (i : Nat) (x : TableSet) : (d.putCur i x).now = d.now := rfl
@[simp] theorem putCur_regs (d : Dev) (i : Nat) (x : TableSet) : (d.putCur i x).regs = d.regs := rfl
@[simp] theorem putCur_staged (d : Dev) (i : Nat) (x : TableSet) : (d.putCur i x).staged = d.staged := rfl
@[simp] theorem putCur_capture (d : Dev) (i : Nat) (x : TableSet) : (d.putCur i x).capture = d.capture := rfl
@[simp] theorem putCur_resp (d : Dev) (i : Nat) (x : TableSet) : (d.putCur i x).resp = d.resp := rfl
@[simp] theorem putCur_hwSet (d : Dev) (i : Nat) (x : TableSet) : (d.putCur i x).hwSet = d.hwSet := rfl
@[simp] theorem putCur_free (d : Dev) (i : Nat) (x : TableSet) : (d.putCur i x).free = d.free := rfl
@[simp] theorem putCur_drbg (d : Dev) (i : Nat) (x : TableSet) : (d.putCur i x).drbg = d.drbg := rfl
@[simp] theorem putCur_snag (d : Dev) (i : Nat) (x : TableSet) : (d.putCur i x).snag = d.snag := rfl
@[simp] theorem putCur_ladder (d : Dev) (i : Nat) (x : TableSet) : (d.putCur i x).ladder = d.ladder := rfl
@[simp] theorem putCur_watch (d : Dev) (i : Nat) (x : TableSet) : (d.putCur i x).watch = d.watch := rfl
@[simp] theorem putCur_sig (d : Dev) (i : Nat) (x : TableSet) : (d.putCur i x).sig = d.sig := rfl
@[simp] theorem putCur_arr (d : Dev) (i : Nat) (x : TableSet) : (d.putCur i x).arr = d.arr := rfl
@[simp] theorem putCur_plan (d : Dev) (i : Nat) (x : TableSet) : (d.putCur i x).plan = d.plan := rfl
@[simp] theorem putCur_memsys (d : Dev) (i : Nat) (x : TableSet) : (d.putCur i x).memsys = d.memsys := rfl
@[simp] theorem putCur_links (d : Dev) (i : Nat) (x : TableSet) : (d.putCur i x).links = d.links := rfl
@[simp] theorem putCur_gate (d : Dev) (i : Nat) (x : TableSet) : (d.putCur i x).gate = d.gate := rfl
@[simp] theorem putCur_time (d : Dev) (i : Nat) (x : TableSet) : (d.putCur i x).time = d.time := rfl
@[simp] theorem putCur_net (d : Dev) (i : Nat) (x : TableSet) : (d.putCur i x).net = d.net := rfl
@[simp] theorem putCur_cmd (d : Dev) (i : Nat) (x : TableSet) : (d.putCur i x).cmd = d.cmd := rfl
@[simp] theorem putCur_cores (d : Dev) (i : Nat) (x : TableSet) : (d.putCur i x).cores = d.cores := rfl
@[simp] theorem putCur_boot (d : Dev) (i : Nat) (x : TableSet) : (d.putCur i x).boot = d.boot := rfl
@[simp] theorem putCur_health (d : Dev) (i : Nat) (x : TableSet) : (d.putCur i x).health = d.health := rfl
@[simp] theorem putCur_twin (d : Dev) (i : Nat) (x : TableSet) : (d.putCur i x).twin = d.twin := rfl
@[simp] theorem putCur_power (d : Dev) (i : Nat) (x : TableSet) : (d.putCur i x).power = d.power := rfl
@[simp] theorem fld_putCur (d : Dev) (i : Nat) (x : TableSet) (f : Fld) : (d.putCur i x).fld f = d.fld f := rfl
@[simp] theorem on_putCur (d : Dev) (i : Nat) (x : TableSet) (f : Fld) : (d.putCur i x).on f = d.on f := rfl
theorem curSet_congr {d e : Dev} (h : e.skim = d.skim) (i : Nat) : e.curSet i = d.curSet i := by simp only [Dev.curSet, h]
@[simp] theorem curSet_put (d : Dev) (f : Fld) (v : Nat) (i : Nat) : (d.put f v).curSet i = d.curSet i := rfl
@[simp] theorem curSet_flag (d : Dev) (f : Fld) (b : Bool) (i : Nat) : (d.flag f b).curSet i = d.curSet i := rfl
@[simp] theorem curSet_count (d : Dev) (f : Fld) (n : Nat) (i : Nat) : (d.count f n).curSet i = d.curSet i := rfl
@[simp] theorem curSet_answer (d : Dev) (r : Resp) (i : Nat) : (d.answer r).curSet i = d.curSet i := rfl
@[simp] theorem curSet_cause (d : Dev) (n : Nat) (b : Bool) (i : Nat) : (d.cause n b).curSet i = d.curSet i := rfl
@[simp] theorem curSet_post (d : Dev) (m : Msg) (i : Nat) : (d.post m).curSet i = d.curSet i := rfl
@[simp] theorem curSet_raiseInj (d : Dev) (die : Die) (n det : Nat) (b : Bool) (i : Nat) : (d.raiseInj die n det b).curSet i = d.curSet i :=
  curSet_congr (raiseInj_skim d die n det b) i
@[simp] theorem curSet_settle (d : Dev) (i : Nat) : d.settle.curSet i = d.curSet i := curSet_congr (settle_skim d) i
@[simp] theorem curSet_runOn (s : State) (f : Mem → Dev → Dev) (i : Nat) : (runOn s f).dev.curSet i = (f s.mem s.dev).curSet i := curSet_congr (runOn_skim s f) i

/-! `Dev.nextSet` -/

@[simp] theorem nextSet_putNext_same (d : Dev) (i : Nat) (x : TableSet) : (d.putNext i x).nextSet i = x := tabGet_set_same _ _ _ _
theorem nextSet_putNext_other (d : Dev) {i j : Nat} (x : TableSet) (h : j ≠ i) : (d.putNext i x).nextSet j = d.nextSet j := tabGet_set_other _ _ _ h
@[simp] theorem putNext_now (d : Dev) (i : Nat) (x : TableSet) : (d.putNext i x).now = d.now := rfl
@[simp] theorem putNext_regs (d : Dev) (i : Nat) (x : TableSet) : (d.putNext i x).regs = d.regs := rfl
@[simp] theorem putNext_staged (d : Dev) (i : Nat) (x : TableSet) : (d.putNext i x).staged = d.staged := rfl
@[simp] theorem putNext_capture (d : Dev) (i : Nat) (x : TableSet) : (d.putNext i x).capture = d.capture := rfl
@[simp] theorem putNext_resp (d : Dev) (i : Nat) (x : TableSet) : (d.putNext i x).resp = d.resp := rfl
@[simp] theorem putNext_hwSet (d : Dev) (i : Nat) (x : TableSet) : (d.putNext i x).hwSet = d.hwSet := rfl
@[simp] theorem putNext_free (d : Dev) (i : Nat) (x : TableSet) : (d.putNext i x).free = d.free := rfl
@[simp] theorem putNext_drbg (d : Dev) (i : Nat) (x : TableSet) : (d.putNext i x).drbg = d.drbg := rfl
@[simp] theorem putNext_snag (d : Dev) (i : Nat) (x : TableSet) : (d.putNext i x).snag = d.snag := rfl
@[simp] theorem putNext_ladder (d : Dev) (i : Nat) (x : TableSet) : (d.putNext i x).ladder = d.ladder := rfl
@[simp] theorem putNext_watch (d : Dev) (i : Nat) (x : TableSet) : (d.putNext i x).watch = d.watch := rfl
@[simp] theorem putNext_sig (d : Dev) (i : Nat) (x : TableSet) : (d.putNext i x).sig = d.sig := rfl
@[simp] theorem putNext_arr (d : Dev) (i : Nat) (x : TableSet) : (d.putNext i x).arr = d.arr := rfl
@[simp] theorem putNext_plan (d : Dev) (i : Nat) (x : TableSet) : (d.putNext i x).plan = d.plan := rfl
@[simp] theorem putNext_memsys (d : Dev) (i : Nat) (x : TableSet) : (d.putNext i x).memsys = d.memsys := rfl
@[simp] theorem putNext_links (d : Dev) (i : Nat) (x : TableSet) : (d.putNext i x).links = d.links := rfl
@[simp] theorem putNext_gate (d : Dev) (i : Nat) (x : TableSet) : (d.putNext i x).gate = d.gate := rfl
@[simp] theorem putNext_time (d : Dev) (i : Nat) (x : TableSet) : (d.putNext i x).time = d.time := rfl
@[simp] theorem putNext_net (d : Dev) (i : Nat) (x : TableSet) : (d.putNext i x).net = d.net := rfl
@[simp] theorem putNext_cmd (d : Dev) (i : Nat) (x : TableSet) : (d.putNext i x).cmd = d.cmd := rfl
@[simp] theorem putNext_cores (d : Dev) (i : Nat) (x : TableSet) : (d.putNext i x).cores = d.cores := rfl
@[simp] theorem putNext_boot (d : Dev) (i : Nat) (x : TableSet) : (d.putNext i x).boot = d.boot := rfl
@[simp] theorem putNext_health (d : Dev) (i : Nat) (x : TableSet) : (d.putNext i x).health = d.health := rfl
@[simp] theorem putNext_twin (d : Dev) (i : Nat) (x : TableSet) : (d.putNext i x).twin = d.twin := rfl
@[simp] theorem putNext_power (d : Dev) (i : Nat) (x : TableSet) : (d.putNext i x).power = d.power := rfl
@[simp] theorem fld_putNext (d : Dev) (i : Nat) (x : TableSet) (f : Fld) : (d.putNext i x).fld f = d.fld f := rfl
@[simp] theorem on_putNext (d : Dev) (i : Nat) (x : TableSet) (f : Fld) : (d.putNext i x).on f = d.on f := rfl
theorem nextSet_congr {d e : Dev} (h : e.skim = d.skim) (i : Nat) : e.nextSet i = d.nextSet i := by simp only [Dev.nextSet, h]
@[simp] theorem nextSet_put (d : Dev) (f : Fld) (v : Nat) (i : Nat) : (d.put f v).nextSet i = d.nextSet i := rfl
@[simp] theorem nextSet_flag (d : Dev) (f : Fld) (b : Bool) (i : Nat) : (d.flag f b).nextSet i = d.nextSet i := rfl
@[simp] theorem nextSet_count (d : Dev) (f : Fld) (n : Nat) (i : Nat) : (d.count f n).nextSet i = d.nextSet i := rfl
@[simp] theorem nextSet_answer (d : Dev) (r : Resp) (i : Nat) : (d.answer r).nextSet i = d.nextSet i := rfl
@[simp] theorem nextSet_cause (d : Dev) (n : Nat) (b : Bool) (i : Nat) : (d.cause n b).nextSet i = d.nextSet i := rfl
@[simp] theorem nextSet_post (d : Dev) (m : Msg) (i : Nat) : (d.post m).nextSet i = d.nextSet i := rfl
@[simp] theorem nextSet_raiseInj (d : Dev) (die : Die) (n det : Nat) (b : Bool) (i : Nat) : (d.raiseInj die n det b).nextSet i = d.nextSet i :=
  nextSet_congr (raiseInj_skim d die n det b) i
@[simp] theorem nextSet_settle (d : Dev) (i : Nat) : d.settle.nextSet i = d.nextSet i := nextSet_congr (settle_skim d) i
@[simp] theorem nextSet_runOn (s : State) (f : Mem → Dev → Dev) (i : Nat) : (runOn s f).dev.nextSet i = (f s.mem s.dev).nextSet i := nextSet_congr (runOn_skim s f) i

/-! `Dev.wd` -/

theorem wd_congr {d e : Dev} (h : e.watch = d.watch) (i j : Nat) : e.wd i j = d.wd i j := by simp only [Dev.wd, h]
@[simp] theorem wd_put (d : Dev) (f : Fld) (v : Nat) (i j : Nat) : (d.put f v).wd i j = d.wd i j := rfl
@[simp] theorem wd_flag (d : Dev) (f : Fld) (b : Bool) (i j : Nat) : (d.flag f b).wd i j = d.wd i j := rfl
@[simp] theorem wd_count (d : Dev) (f : Fld) (n : Nat) (i j : Nat) : (d.count f n).wd i j = d.wd i j := rfl
@[simp] theorem wd_answer (d : Dev) (r : Resp) (i j : Nat) : (d.answer r).wd i j = d.wd i j := rfl
@[simp] theorem wd_cause (d : Dev) (n : Nat) (b : Bool) (i j : Nat) : (d.cause n b).wd i j = d.wd i j := rfl
@[simp] theorem wd_post (d : Dev) (m : Msg) (i j : Nat) : (d.post m).wd i j = d.wd i j := rfl
@[simp] theorem wd_raiseInj (d : Dev) (die : Die) (n det : Nat) (b : Bool) (i j : Nat) : (d.raiseInj die n det b).wd i j = d.wd i j :=
  wd_congr (raiseInj_watch d die n det b) i j
@[simp] theorem wd_settle (d : Dev) (i j : Nat) : d.settle.wd i j = d.wd i j := wd_congr (settle_watch d) i j
@[simp] theorem wd_runOn (s : State) (f : Mem → Dev → Dev) (i j : Nat) : (runOn s f).dev.wd i j = (f s.mem s.dev).wd i j := wd_congr (runOn_watch s f) i j

/-! `Dev.jobIn` -/

theorem jobIn_congr {d e : Dev} (h : e.skim = d.skim) (i j : Nat) : e.jobIn i j = d.jobIn i j := by simp only [Dev.jobIn, h]
@[simp] theorem jobIn_put (d : Dev) (f : Fld) (v : Nat) (i j : Nat) : (d.put f v).jobIn i j = d.jobIn i j := rfl
@[simp] theorem jobIn_flag (d : Dev) (f : Fld) (b : Bool) (i j : Nat) : (d.flag f b).jobIn i j = d.jobIn i j := rfl
@[simp] theorem jobIn_count (d : Dev) (f : Fld) (n : Nat) (i j : Nat) : (d.count f n).jobIn i j = d.jobIn i j := rfl
@[simp] theorem jobIn_answer (d : Dev) (r : Resp) (i j : Nat) : (d.answer r).jobIn i j = d.jobIn i j := rfl
@[simp] theorem jobIn_cause (d : Dev) (n : Nat) (b : Bool) (i j : Nat) : (d.cause n b).jobIn i j = d.jobIn i j := rfl
@[simp] theorem jobIn_post (d : Dev) (m : Msg) (i j : Nat) : (d.post m).jobIn i j = d.jobIn i j := rfl
@[simp] theorem jobIn_raiseInj (d : Dev) (die : Die) (n det : Nat) (b : Bool) (i j : Nat) : (d.raiseInj die n det b).jobIn i j = d.jobIn i j :=
  jobIn_congr (raiseInj_skim d die n det b) i j
@[simp] theorem jobIn_settle (d : Dev) (i j : Nat) : d.settle.jobIn i j = d.jobIn i j := jobIn_congr (settle_skim d) i j
@[simp] theorem jobIn_runOn (s : State) (f : Mem → Dev → Dev) (i j : Nat) : (runOn s f).dev.jobIn i j = (f s.mem s.dev).jobIn i j := jobIn_congr (runOn_skim s f) i j

/-! `Dev.sa` -/

theorem sa_congr {d e : Dev} (h : e.net = d.net) (i j : Nat) : e.sa i j = d.sa i j := by simp only [Dev.sa, h]
@[simp] theorem sa_put (d : Dev) (f : Fld) (v : Nat) (i j : Nat) : (d.put f v).sa i j = d.sa i j := rfl
@[simp] theorem sa_flag (d : Dev) (f : Fld) (b : Bool) (i j : Nat) : (d.flag f b).sa i j = d.sa i j := rfl
@[simp] theorem sa_count (d : Dev) (f : Fld) (n : Nat) (i j : Nat) : (d.count f n).sa i j = d.sa i j := rfl
@[simp] theorem sa_answer (d : Dev) (r : Resp) (i j : Nat) : (d.answer r).sa i j = d.sa i j := rfl
@[simp] theorem sa_cause (d : Dev) (n : Nat) (b : Bool) (i j : Nat) : (d.cause n b).sa i j = d.sa i j := rfl
@[simp] theorem sa_post (d : Dev) (m : Msg) (i j : Nat) : (d.post m).sa i j = d.sa i j := rfl
@[simp] theorem sa_raiseInj (d : Dev) (die : Die) (n det : Nat) (b : Bool) (i j : Nat) : (d.raiseInj die n det b).sa i j = d.sa i j :=
  sa_congr (raiseInj_net d die n det b) i j
@[simp] theorem sa_settle (d : Dev) (i j : Nat) : d.settle.sa i j = d.sa i j := sa_congr (settle_net d) i j
@[simp] theorem sa_runOn (s : State) (f : Mem → Dev → Dev) (i j : Nat) : (runOn s f).dev.sa i j = (f s.mem s.dev).sa i j := sa_congr (runOn_net s f) i j

/-! `Dev.session` -/

theorem session_congr {d e : Dev} (h : e.cmd.sessions = d.cmd.sessions) (i : Nat) : e.session i = d.session i := by simp only [Dev.session, h]
@[simp] theorem session_put (d : Dev) (f : Fld) (v : Nat) (i : Nat) : (d.put f v).session i = d.session i := rfl
@[simp] theorem session_flag (d : Dev) (f : Fld) (b : Bool) (i : Nat) : (d.flag f b).session i = d.session i := rfl
@[simp] theorem session_count (d : Dev) (f : Fld) (n : Nat) (i : Nat) : (d.count f n).session i = d.session i := rfl
@[simp] theorem session_answer (d : Dev) (r : Resp) (i : Nat) : (d.answer r).session i = d.session i := rfl
@[simp] theorem session_cause (d : Dev) (n : Nat) (b : Bool) (i : Nat) : (d.cause n b).session i = d.session i := rfl
@[simp] theorem session_post (d : Dev) (m : Msg) (i : Nat) : (d.post m).session i = d.session i := rfl
@[simp] theorem session_settle (d : Dev) (i : Nat) : d.settle.session i = d.session i := session_congr (settle_cmd_sessions d) i
@[simp] theorem session_runOn (s : State) (f : Mem → Dev → Dev) (i : Nat) : (runOn s f).dev.session i = (f s.mem s.dev).session i := session_congr (runOn_cmd_sessions s f) i

/-! `Dev.isSet` -/

theorem isSet_congr {d e : Dev} (h : e.snag.set = d.snag.set) (i : Nat) : e.isSet i = d.isSet i := by simp only [Dev.isSet, h]
@[simp] theorem isSet_put (d : Dev) (f : Fld) (v : Nat) (i : Nat) : (d.put f v).isSet i = d.isSet i := rfl
@[simp] theorem isSet_flag (d : Dev) (f : Fld) (b : Bool) (i : Nat) : (d.flag f b).isSet i = d.isSet i := rfl
@[simp] theorem isSet_count (d : Dev) (f : Fld) (n : Nat) (i : Nat) : (d.count f n).isSet i = d.isSet i := rfl
@[simp] theorem isSet_answer (d : Dev) (r : Resp) (i : Nat) : (d.answer r).isSet i = d.isSet i := rfl

@[simp] theorem isSet_post (d : Dev) (m : Msg) (i : Nat) : (d.post m).isSet i = d.isSet i := rfl
@[simp] theorem isSet_settle (d : Dev) (i : Nat) : d.settle.isSet i = d.isSet i := isSet_congr (settle_snag_set d) i
@[simp] theorem isSet_runOn (s : State) (f : Mem → Dev → Dev) (i : Nat) : (runOn s f).dev.isSet i = (f s.mem s.dev).isSet i := isSet_congr (runOn_snag_set s f) i

end Sys2Proof.Laws
end

