-- ==== Sys2Proof/Laws/Tensor.lean ====
section
/-!
SUPPORT. What loading the inputs of a run and clearing a model's tensors can do, and the effect of an operation that no RUN model owns.
-/

namespace Sys2Proof.Laws

open Sys2Proof.Machine

/-- A fold of steps that change the tensors alone changes the tensors alone. -/
theorem tensors_fold {α : Type} (f : Dev → α → Tab (List Byte)) (l : List α) (d : Dev) :
    ∃ t, l.foldl (fun e i => { e with arr := { e.arr with tensors := f e i } }) d = { d with arr := { d.arr with tensors := t } } := by
  induction l generalizing d with
  | nil => exact ⟨d.arr.tensors, rfl⟩
  | cons a l ih =>
    obtain ⟨t, ht⟩ := ih { d with arr := { d.arr with tensors := f d a } }
    exact ⟨t, ht⟩

/-- Loading inputs changes the tensors and the count of free values, and nothing else. -/
theorem loadInputs_cases (d : Dev) (o : OpOwner) :
    ∃ t n, d.loadInputs o = { d with arr := { d.arr with tensors := t }, free := n } := by
  unfold Dev.loadInputs
  split
  · exact ⟨d.arr.tensors, d.free, rfl⟩
  · dsimp only
    split
    all_goals exact ⟨_, _, by rw [(tensors_fold _ _ d).choose_spec]⟩

@[simp] theorem loadInputs_regs (d : Dev) (o : OpOwner) : (d.loadInputs o).regs = d.regs := by
  obtain ⟨t, n, h⟩ := loadInputs_cases d o
  rw [h]

@[simp] theorem loadInputs_plan (d : Dev) (o : OpOwner) : (d.loadInputs o).arr.plan = d.arr.plan := by
  obtain ⟨t, n, h⟩ := loadInputs_cases d o
  rw [h]

@[simp] theorem loadInputs_running (d : Dev) (o : OpOwner) : (d.loadInputs o).arr.running = d.arr.running := by
  obtain ⟨t, n, h⟩ := loadInputs_cases d o
  rw [h]

@[simp] theorem clearTensors_regs (d : Dev) (id : Nat) : (d.clearTensors id).regs = d.regs := rfl
@[simp] theorem clearTensors_models (d : Dev) (id : Nat) : (d.clearTensors id).arr.models = d.arr.models := rfl

/-- An operation that no RUN model owns leaves the tensors as they are, draws nothing and sets the exceptions of its own sums. -/
theorem opEffect_none (d : Dev) (m : Mem) (o : ArrOp) (h : d.runModel o.owner = none) : d.opEffect m o = ⟨d.arr.tensors, 0, d.ownerExc m o.owner⟩ := by
  simp only [Dev.opEffect, h]

end Sys2Proof.Laws
end

