-- ==== Sys2Proof/WellFormed.lean ====
section
/-!
DEFINITION. Well-formed commands: every operand lies in the range that the spec gives the thing it names. A command that is not well-formed names
nothing that exists; the machine answers it too, and does nothing for it or drops it.
-/

namespace Sys2Proof

/-- A request names a session from 1 to 8 and a 32-bit REQ_ID, and its message is at most 65 536 bytes (Table 11.1). -/
def reqWf (r : Req) : Bool := 1 ≤ r.session && r.session ≤ 8 && r.reqId < 4294967296 && r.payload.length ≤ 65536

/-- A handshake message (Table 11.1). -/
def handWf (h : Hand) : Bool := h.port < 65536 && h.reqId < 4294967296 && h.version < 256 && h.payload.length ≤ 65536

/-- A datagram: an IP address and a UDP port. -/
def datagramWf (k : Datagram) : Bool := k.srcAddr < 2 ^ 128 && k.srcPort < 65536 && k.bytes.length ≤ 65535

/-- Both copies of a fuse field have `n` bits (Table 14.2). -/
def fuseWf (n : Nat) (f : Nat × Nat) : Bool := f.1 < 2 ^ n && f.2 < 2 ^ n

/-- What a boot finds: fuses of their widths, ten comparators (R391), two flashes (R520). -/
def bootWf (e : BootEnv) : Bool :=
  fuseWf 64 e.fuses.arb && fuseWf 2 e.fuses.ownerRevoke && fuseWf 4 e.fuses.vendorRevoke && fuseWf 1 e.fuses.hwStart
    && fuseWf 1 e.fuses.debugDisable && fuseWf 512 e.fuses.owner0 && fuseWf 512 e.fuses.owner1 && e.comparatorMiss < 1024
    && e.flashModels.all (fun m => m.1 < 2)

/-- The header fields of a record have the widths of Table 08.6. -/
def recordWf (r : LinkRecord) : Bool :=
  r.kind < 256 && r.vc < 256 && r.watch < 65536 && r.frame < 4294967296 && r.slot < 256 && r.fmt < 256 && r.length < 65536
    && r.offset < 4294967296 && r.arg < 18446744073709551616 && r.linkTag < 65536 && r.reserved < 281474976710656
    && r.trailer < 4294967296 && r.payload.length ≤ 65536

/-- A read names one of 32 masters, and one of the four registers of its set. -/
def byMasterWf (x : ByMaster) : Bool := x.mid < 32 && x.index < 4

/-- The operands of a command are in range. -/
def wellFormed (i : Instr) : Bool :=
  match i with
  | .registerWrite mid addr value bytes => mid < 32 && addr < 4294967296 && value < 4294967296 && bytes < 5
  | .tckCommit => true
  | .tickRunStart hz => hz < 4294967296
  | .tickRunStop => true
  | .sampleTick _ _ => true
  | .tickBoundary _ => true
  | .releasePoint _ => true
  | .evaluationFinal watch frame => watch < 4096 && frame < 4294967296
  | .lateResult watch frame code detail => watch < 4096 && frame < 4294967296 && code < 16 && detail < 4294967296
  | .armEntryAppend watch => watch < 4096
  | .retireEntryAppend watch => watch < 4096
  | .armListClear value => value < 4294967296
  | .descriptorWrite watch word value => watch < 4096 && word < 64 && value < 4294967296
  | .wchInj value => value < 4294967296
  | .logRdAdvance _ index => index < 1024
  | .clrLost _ => true
  | .skimRecordProcess port vc _ => port < 4 && vc < 16
  | .knownAnswerTest unit _ => unit < 4
  | .skmEpochOverrun => true
  | .skmRekey value => value < 4294967296
  | .skmUInj unit value => unit < 4 && value < 4294967296
  | .signalCheckResult watch frame => watch < 4096 && frame < 4294967296
  | .windowEvaluation _ => true
  | .livenessLimit watch frame => watch < 4096 && frame < 4294967296
  | .wchSigInj value => value < 4294967296
  | .arrayOperationIssue _ _ => true
  | .tileBoundary _ _ => true
  | .arrayOperationComplete _ _ exc => exc < 65536
  | .mtxInj value => value < 4294967296
  | .stencilSendPoint watch => watch < 4096
  | .stageWindowOpen window frame => window < 256 && frame < 4294967296
  | .stageWindowClose window => window < 256
  | .swdCheckin mid value => mid < 32 && value < 4294967296
  | .swdInj value => value < 4294967296
  | .dmaDescriptorPost mid engine _ _ => mid < 32 && engine < 4
  | .dmaDescriptorComplete engine _ _ => engine < 4
  | .memPageRetired page => page < 262144
  | .memXltInv value => value < 4294967296
  | .xltInvalidateDone => true
  | .memErrClr value => value < 4294967296
  | .memInj value => value < 4294967296
  | .fjlPortEnable port => port < 4
  | .fjlPortDisable port => port < 4
  | .trainingStateExit port _ _ _ => port < 5
  | .trainingTimeout port => port < 5
  | .ack port vc nextSeq _ => port < 5 && vc < 16 && nextSeq < 4294967296
  | .nack port vc nextSeq _ _ => port < 5 && vc < 16 && nextSeq < 4294967296
  | .credit port vc limit => port < 5 && vc < 16 && limit < 65536
  | .mark port epoch _ => port < 5 && epoch < 256
  | .resetBlock port _ => port < 5
  | .recordReceived port record => port < 5 && recordWf record
  | .blockLockLoss port => port < 5
  | .data port vc => port < 5 && vc < 16
  | .heartbeat port => port < 5
  | .checkin port => port < 5
  | .identRsp port => port < 5
  | .peerAlert port => port < 5
  | .recordTransmit port => port < 5
  | .fjlCmdRetrain port => port < 4
  | .fjlCmdReset port => port < 4
  | .clrPeer port => port < 4
  | .fjlPInj port value => port < 4 && value < 4294967296
  | .tdmInputFrame port _ _ _ => port < 6
  | .portLock port => port < 6
  | .avtpListenerPacket listener _ => listener < 16
  | .avtStreamLost listener => listener < 16
  | .sgtPortEnable port => port < 6
  | .sgtPortDisable port => port < 6
  | .sgtInj value => value < 4294967296
  | .ethLinkChange port _ speed => port < 2 && speed < 4
  | .ethFrameReceived port _ => port < 2
  | .cbRecoveryTimeout recovery => recovery < 32
  | .neighbourSolicitation port _ target => port < 2 && target < 2 ^ 128
  | .echoRequest port _ target _ => port < 2 && target < 2 ^ 128
  | .gateControlGo port => port < 2
  | .gateListAdopt port => port < 2
  | .preemptionVerify port _ => port < 2
  | .macsecInstall port => port < 2
  | .txAnSelect port an => port < 2 && an < 4
  | .safetyStatusTimer => true
  | .ethStatusLate port => port < 2
  | .timTbStep tb value => tb < 4 && value < 4294967296
  | .tbLatchRead tb => byMasterWf tb
  | .captureEdge input _ _ => input < 4
  | .capNsRead input => byMasterWf input
  | .capSecHiRead input => byMasterWf input
  | .syncEdge output => output < 4
  | .ptpSync inst _ _ _ => inst < 2
  | .ptpAnnounce inst grandmaster _ => inst < 2 && grandmaster < 18446744073709551616
  | .pdelay port _ => port < 2
  | .timSyncLoss inst => inst < 2
  | .timeBaseRevert tb => tb < 4
  | .commandPacket packet => datagramWf packet
  | .fragmentTimeout => true
  | .handshakeTimeout => true
  | .sessionIdleTimeout => true
  | .ping req => reqWf req
  | .hello hand => handWf hand
  | .auth hand => handWf hand
  | .close req => reqWf req
  | .deviceInfo req => reqWf req
  | .statusGet req => reqWf req
  | .subscribe req => reqWf req
  | .opQuery req => reqWf req
  | .attest req => reqWf req
  | .sessionList req => reqWf req
  | .regRead req => reqWf req
  | .regWrite req => reqWf req
  | .regModify req => reqWf req
  | .regReadBlock req => reqWf req
  | .commit req => reqWf req
  | .watchDefine req => reqWf req
  | .watchRead req => reqWf req
  | .armList req => reqWf req
  | .logRead req => reqWf req
  | .coverageGet req => reqWf req
  | .modelLoad req => reqWf req
  | .modelLoadDone model => model < 1024
  | .modelUnload req => reqWf req
  | .modelInfo req => reqWf req
  | .portStatus req => reqWf req
  | .gateStatus req => reqWf req
  | .fallbackStatus req => reqWf req
  | .faultList req => reqWf req
  | .faultClear req => reqWf req
  | .faultLogRead req => reqWf req
  | .wdgEvidence req => reqWf req
  | .ladderClear req => reqWf req
  | .timeGet req => reqWf req
  | .timeStep req => reqWf req
  | .captureRead req => reqWf req
  | .imgOpen req => reqWf req
  | .imgChunk req => reqWf req
  | .imgClose req => reqWf req
  | .fwInstall req => reqWf req
  | .fwInstallDone _ => true
  | .topcoatInstall req => reqWf req
  | .topcoatInstallDone _ => true
  | .slotSelect req => reqWf req
  | .restart req => reqWf req
  | .maintEnter req => reqWf req
  | .maintLeave req => reqWf req
  | .sealBreak req => reqWf req
  | .debugOpen req => reqWf req
  | .hppr req => reqWf req
  | .hpprDone => true
  | .twinStatus req => reqWf req
  | .twinHandover req => reqWf req
  | .twinPair req => reqWf req
  | .twinUnpair req => reqWf req
  | .inject req => reqWf req
  | .selftestStatus req => reqWf req
  | .statusTest req => reqWf req
  | .ethCmdInj value => value < 4294967296
  | .lockstepCompare pair _ _ _ _ _ => pair < 10
  | .selftestSliceDone pair _ _ => pair < 10
  | .unfence mid pair _ _ => mid < 32 && pair < 10
  | .pairReset mid pair => mid < 32 && pair < 10
  | .lckInj value => value < 4294967296
  | .debugHalt pair => pair < 10
  | .debugAction pair _ _ => pair < 10
  | .debugResume pair _ _ => pair < 10
  | .mbxTx mid channel value => mid < 32 && channel < 64 && value < 4294967296
  | .mbxRx mid channel => mid < 32 && channel < 64
  | .mbxDbRing mid channel => mid < 32 && channel < 64
  | .mbxDbClear mid channel => mid < 32 && channel < 64
  | .mbxStall channel => channel < 64
  | .mbxInj value => value < 4294967296
  | .crcStart mid channel => mid < 32 && channel < 64
  | .crcData mid channel value => mid < 32 && channel < 64 && value < 4294967296
  | .crcEnd mid channel bytes => mid < 32 && channel < 64 && bytes < 5
  | .crcBlockDone channel => channel < 64
  | .crcRunWrite mid channel _ value => mid < 32 && channel < 64 && value < 4294967296
  | .snagSourceDetect _ source detail _ => source < 1024 && detail < 4294967296
  | .alarmAssert _ source detail => source < 1024 && detail < 4294967296
  | .collectorReport _ source => source < 1024
  | .dieHeartbeatLoss _ _ => true
  | .sngFlFault _ _ => true
  | .sevMirrorCheck _ _ => true
  | .tb0ShadowReload => true
  | .resume _ => true
  | .sngSetClear mid word bits => mid < 32 && word < 32 && bits < 4294967296
  | .sngSevWrite word value => word < 256 && value < 4294967296
  | .sngInj mid value => mid < 32 && value < 4294967296
  | .restartDelayExpiry env => bootWf env
  | .wdgStart watchdog => watchdog < 10
  | .wdgService mid watchdog key pc _ _ => mid < 32 && watchdog < 10 && key < 4294967296 && pc < 18446744073709551616
  | .watchdogWindowClose watchdog pc _ _ => watchdog < 10 && pc < 18446744073709551616
  | .watchdogWarn watchdog => watchdog < 10
  | .ladderClr mid => mid < 32
  | .triesCalmReset => true
  | .wdgInj value => value < 4294967296
  | .sCoreLoss => true
  | .sCoreRecovery env => bootWf env
  | .powerOnReset env => bootWf env
  | .warmRestart env => bootWf env
  | .wrstPin env => bootWf env
  | .xspiRelease => true
  | .bootDone mid => mid < 32
  | .trialTimeout => true
  | .newChal mid => mid < 32
  | .debugClose mid env => mid < 32 && bootWf env
  | .debugExpire env => bootWf env
  | .arbAdvance mid _ => mid < 32
  | .secBootSelWrite mid value => mid < 32 && value < 4294967296
  | .entropyHealthTest _ => true
  | .secInj value => value < 4294967296
  | .hairlineSample _ => true
  | .temperatureSample sensor value => sensor < 16 && value < 4294967296
  | .voltageSample monitor mv _ => monitor < 16 && mv < 65536
  | .marginLoop => true
  | .pmbusTransactionDone _ readback => readback < 65536
  | .selftestSegmentDone _ _ addr => addr < 17179869184
  | .hlnInj value => value < 4294967296
  | .agreeDecision => true
  | .agree => true
  | .sync => true
  | .state => true
  | .stateSend => true
  | .handover => true
  | .twnCmdHandover mid => mid < 32
  | .twnCtrlPair mid value => mid < 32 && value < 4294967296
  | .peerOkChange _ => true
  | .peerHbLoss _ => true
  | .peerStateTimeout => true
  | .giveBack => true
  | .twnInj value => value < 4294967296
  | .mclkMeasure hz => hz < 4294967296
  | .pwrRefclkSys => true
  | .pllLockLoss pll => pll < 10
  | .strapChange _ => true
  | .pwrInj value => value < 4294967296
  | .timInj value => value < 4294967296
  | .dieHeartbeatReturn _ => true
  | .pllRelock pll => pll < 10
  | .refclkSysReturn => true
  | .supplyLoss dies => dies < 16
  | .serviceRowTransmit port => port < 5
  | .safeHbEdge => true
  | .ethFrameTransmit port => port < 2
  | .gateEntryIntervalEnd port => port < 2
  | .timeBaseSrcWrite tb value => tb < 4 && value < 4294967296

end Sys2Proof
end

