-- ==== Sys2Proof/Tests/Slice0.lean ====
section
/-!
SUPPORT. Tests: well-formedness refuses each operand out of its range; each statement's hypotheses are met, clause by clause, by a small state,
where one step does what the clause says.
-/

namespace Sys2Proof.Tests

open Sys2Proof.Machine

set_option Elab.async false

/-! Well-formedness. -/

def okReq : Req := ⟨1, 0, false, []⟩
def badReq : Req := ⟨9, 0, false, []⟩
def okHand : Hand := ⟨0, 0, 0, false, 1, []⟩
def badHand : Hand := ⟨0, 65536, 0, false, 1, []⟩
def okDatagram : Datagram := ⟨1, 1, []⟩
def badDatagram : Datagram := ⟨1, 65536, []⟩
def okEnv : BootEnv := ⟨false, .blank, none, none, 0, true, true, [], []⟩
def badEnv : BootEnv := { okEnv with comparatorMiss := 1024 }
def okRecord : LinkRecord := ⟨1, 0, 0, 0, 0, 0, 0, 0, 0, 0, 0, [], 0, true⟩
def badRecord : LinkRecord := { okRecord with kind := 256 }
def okPacket : AafPacket := ⟨0, 0, 0, 0, 0, 0, []⟩
def okFrame : RxFrame := ⟨64, true, 0, 0, none, 0, 0, 0, none, none, none, .other⟩
def soundReads : SkimReads := ⟨.sound, .sound⟩
def agreedTile : TileEnd := ⟨true, .sound⟩

theorem test_wf_requests :
    [{ okReq with session := 0 }, badReq, { okReq with reqId := 4294967296 }].any reqWf = false ∧
    [badHand, { okHand with reqId := 4294967296 }, { okHand with version := 256 }].any handWf = false ∧
    [{ okDatagram with srcAddr := 2 ^ 128 }, badDatagram].any datagramWf = false := by decide +kernel

theorem test_wf_boots :
    [{ okEnv with fuses := { Fuses.blank with arb := (2 ^ 64, 0) } }, { okEnv with fuses := { Fuses.blank with ownerRevoke := (0, 4) } },
      { okEnv with fuses := { Fuses.blank with vendorRevoke := (16, 0) } }, { okEnv with fuses := { Fuses.blank with hwStart := (2, 0) } },
      { okEnv with fuses := { Fuses.blank with debugDisable := (0, 2) } }, { okEnv with fuses := { Fuses.blank with owner0 := (2 ^ 512, 0) } },
      { okEnv with fuses := { Fuses.blank with owner1 := (0, 2 ^ 512) } }, badEnv, { okEnv with flashModels := [(2, 0, [])] }].any bootWf
      = false := by decide +kernel

theorem test_wf_records :
    [badRecord, { okRecord with vc := 256 }, { okRecord with watch := 65536 }, { okRecord with frame := 4294967296 },
      { okRecord with slot := 256 }, { okRecord with fmt := 256 }, { okRecord with length := 65536 }, { okRecord with offset := 4294967296 },
      { okRecord with arg := 18446744073709551616 }, { okRecord with linkTag := 65536 }, { okRecord with reserved := 281474976710656 },
      { okRecord with trailer := 4294967296 }].any recordWf = false := by decide +kernel

/-- A payload longer than a message may be. -/
theorem test_wf_lengths (l : List Byte) (h : 65536 < l.length) :
    reqWf { okReq with payload := l } = false ∧ handWf { okHand with payload := l } = false ∧
    datagramWf { okDatagram with bytes := l } = false ∧ recordWf { okRecord with payload := l } = false := by
  simp only [reqWf, handWf, datagramWf, recordWf, Bool.and_eq_false_iff, decide_eq_false_iff_not]
  omega

/-- Terms with one operand out of its range. -/
def illFormed0 : List Instr :=
  [.registerWrite 32 0 0 0, .registerWrite 0 4294967296 0 0, .registerWrite 0 0 4294967296 0, .registerWrite 0 0 0 5,
   .tickRunStart 4294967296, .evaluationFinal 4096 0, .evaluationFinal 0 4294967296, .lateResult 4096 0 0 0,
   .lateResult 0 4294967296 0 0, .lateResult 0 0 16 0, .lateResult 0 0 0 4294967296, .armEntryAppend 4096,
   .retireEntryAppend 4096, .armListClear 4294967296, .descriptorWrite 4096 0 0, .descriptorWrite 0 64 0,
   .descriptorWrite 0 0 4294967296, .wchInj 4294967296, .logRdAdvance .verdict 1024, .skimRecordProcess 4 0 soundReads,
   .skimRecordProcess 0 16 soundReads, .knownAnswerTest 4 false, .skmRekey 4294967296, .skmUInj 4 0, .skmUInj 0 4294967296,
   .signalCheckResult 4096 0, .signalCheckResult 0 4294967296, .livenessLimit 4096 0, .livenessLimit 0 4294967296,
   .wchSigInj 4294967296, .arrayOperationComplete false false 65536, .mtxInj 4294967296, .stencilSendPoint 4096,
   .stageWindowOpen 256 0, .stageWindowOpen 0 4294967296, .stageWindowClose 256]

theorem test_wf_refuses0 : illFormed0.all (fun i => !wellFormed i) = true := by decide +kernel

/-- Terms with one operand out of its range. -/
def illFormed1 : List Instr :=
  [.swdCheckin 32 0, .swdCheckin 0 4294967296, .swdInj 4294967296, .dmaDescriptorPost 32 0 .plan [],
   .dmaDescriptorPost 0 4 .plan [], .dmaDescriptorComplete 4 .plan [], .memPageRetired 262144, .memXltInv 4294967296,
   .memErrClr 4294967296, .memInj 4294967296, .fjlPortEnable 4, .fjlPortDisable 4, .trainingStateExit 5 0 false [],
   .trainingTimeout 5, .ack 5 0 0 false, .ack 0 16 0 false, .ack 0 0 4294967296 false, .nack 5 0 0 0 false,
   .nack 0 16 0 0 false, .nack 0 0 4294967296 0 false, .credit 5 0 0, .credit 0 16 0, .credit 0 0 65536, .mark 5 0 false,
   .mark 0 256 false, .resetBlock 5 0, .recordReceived 5 okRecord, .recordReceived 0 badRecord, .blockLockLoss 5, .data 5 0,
   .data 0 16, .heartbeat 5, .checkin 5, .identRsp 5, .peerAlert 5, .recordTransmit 5]

theorem test_wf_refuses1 : illFormed1.all (fun i => !wellFormed i) = true := by decide +kernel

/-- Terms with one operand out of its range. -/
def illFormed2 : List Instr :=
  [.fjlCmdRetrain 4, .fjlCmdReset 4, .clrPeer 4, .fjlPInj 4 0, .fjlPInj 0 4294967296, .tdmInputFrame 6 none false [],
   .portLock 6, .avtpListenerPacket 16 okPacket, .avtStreamLost 16, .sgtPortEnable 6, .sgtPortDisable 6, .sgtInj 4294967296,
   .ethLinkChange 2 false 0, .ethLinkChange 0 false 4, .ethFrameReceived 2 okFrame, .cbRecoveryTimeout 32,
   .neighbourSolicitation 2 false 0, .neighbourSolicitation 0 false (2 ^ 128), .echoRequest 2 false 0 [],
   .echoRequest 0 false (2 ^ 128) [], .gateControlGo 2, .gateListAdopt 2, .preemptionVerify 2 false, .macsecInstall 2,
   .txAnSelect 2 0, .txAnSelect 0 4, .ethStatusLate 2, .timTbStep 4 0, .timTbStep 0 4294967296, .tbLatchRead ⟨32, 0⟩,
   .captureEdge 4 false 0, .capNsRead ⟨32, 0⟩, .capSecHiRead ⟨32, 0⟩, .syncEdge 4, .ptpSync 2 0 0 0, .ptpAnnounce 2 0 0]

theorem test_wf_refuses2 : illFormed2.all (fun i => !wellFormed i) = true := by decide +kernel

/-- Terms with one operand out of its range. -/
def illFormed3 : List Instr :=
  [.ptpAnnounce 0 18446744073709551616 0, .pdelay 2 ⟨0, 0, 0, 0⟩, .timSyncLoss 2, .timeBaseRevert 4,
   .commandPacket badDatagram, .ping badReq, .hello badHand, .auth badHand, .close badReq, .deviceInfo badReq,
   .statusGet badReq, .subscribe badReq, .opQuery badReq, .attest badReq, .sessionList badReq, .regRead badReq,
   .regWrite badReq, .regModify badReq, .regReadBlock badReq, .commit badReq, .watchDefine badReq, .watchRead badReq,
   .armList badReq, .logRead badReq, .coverageGet badReq, .modelLoad badReq, .modelLoadDone 1024, .modelUnload badReq,
   .modelInfo badReq, .portStatus badReq, .gateStatus badReq, .fallbackStatus badReq, .faultList badReq, .faultClear badReq,
   .faultLogRead badReq, .wdgEvidence badReq]

theorem test_wf_refuses3 : illFormed3.all (fun i => !wellFormed i) = true := by decide +kernel

/-- Terms with one operand out of its range. -/
def illFormed4 : List Instr :=
  [.ladderClear badReq, .timeGet badReq, .timeStep badReq, .captureRead badReq, .imgOpen badReq, .imgChunk badReq,
   .imgClose badReq, .fwInstall badReq, .topcoatInstall badReq, .slotSelect badReq, .restart badReq, .maintEnter badReq,
   .maintLeave badReq, .sealBreak badReq, .debugOpen badReq, .hppr badReq, .twinStatus badReq, .twinHandover badReq,
   .twinPair badReq, .twinUnpair badReq, .inject badReq, .selftestStatus badReq, .statusTest badReq, .ethCmdInj 4294967296,
   .lockstepCompare 10 [] [] false ⟨[], none⟩ none, .selftestSliceDone 10 false false, .unfence 32 0 false false,
   .unfence 0 10 false false, .pairReset 32 0, .pairReset 0 10, .lckInj 4294967296, .debugHalt 10,
   .debugAction 10 (.write 0 0) [], .debugResume 10 [] none, .mbxTx 32 0 0, .mbxTx 0 64 0]

theorem test_wf_refuses4 : illFormed4.all (fun i => !wellFormed i) = true := by decide +kernel

/-- Terms with one operand out of its range. -/
def illFormed5 : List Instr :=
  [.mbxTx 0 0 4294967296, .mbxRx 32 0, .mbxRx 0 64, .mbxDbRing 32 0, .mbxDbRing 0 64, .mbxDbClear 32 0, .mbxDbClear 0 64,
   .mbxStall 64, .mbxInj 4294967296, .crcStart 32 0, .crcStart 0 64, .crcData 32 0 0, .crcData 0 64 0, .crcData 0 0 4294967296,
   .crcEnd 32 0 0, .crcEnd 0 64 0, .crcEnd 0 0 5, .crcBlockDone 64, .crcRunWrite 32 0 false 0, .crcRunWrite 0 64 false 0,
   .crcRunWrite 0 0 false 4294967296, .snagSourceDetect .x 1024 0 false, .snagSourceDetect .x 0 4294967296 false,
   .alarmAssert .x 1024 0, .alarmAssert .x 0 4294967296, .collectorReport .x 1024, .sngSetClear 32 0 0, .sngSetClear 0 32 0,
   .sngSetClear 0 0 4294967296, .sngSevWrite 256 0, .sngSevWrite 0 4294967296, .sngInj 32 0, .sngInj 0 4294967296,
   .restartDelayExpiry badEnv, .wdgStart 10, .wdgService 32 0 0 0 false false]

theorem test_wf_refuses5 : illFormed5.all (fun i => !wellFormed i) = true := by decide +kernel

/-- Terms with one operand out of its range. -/
def illFormed6 : List Instr :=
  [.wdgService 0 10 0 0 false false, .wdgService 0 0 4294967296 0 false false,
   .wdgService 0 0 0 18446744073709551616 false false, .watchdogWindowClose 10 0 false false,
   .watchdogWindowClose 0 18446744073709551616 false false, .watchdogWarn 10, .ladderClr 32, .wdgInj 4294967296,
   .sCoreRecovery badEnv, .powerOnReset badEnv, .warmRestart badEnv, .wrstPin badEnv, .bootDone 32, .newChal 32,
   .debugClose 32 okEnv, .debugClose 0 badEnv, .debugExpire badEnv, .arbAdvance 32 false, .secBootSelWrite 32 0,
   .secBootSelWrite 0 4294967296, .secInj 4294967296, .temperatureSample 16 0, .temperatureSample 0 4294967296,
   .voltageSample 16 0 false, .voltageSample 0 65536 false, .pmbusTransactionDone false 65536,
   .selftestSegmentDone false false 17179869184, .hlnInj 4294967296, .twnCmdHandover 32, .twnCtrlPair 32 0,
   .twnCtrlPair 0 4294967296, .twnInj 4294967296, .mclkMeasure 4294967296, .pllLockLoss 10, .pwrInj 4294967296,
   .timInj 4294967296]

theorem test_wf_refuses6 : illFormed6.all (fun i => !wellFormed i) = true := by decide +kernel

/-- Terms with one operand out of its range. -/
def illFormed7 : List Instr :=
  [.pllRelock 10, .supplyLoss 16, .serviceRowTransmit 5, .ethFrameTransmit 2, .gateEntryIntervalEnd 2, .timeBaseSrcWrite 4 0,
   .timeBaseSrcWrite 0 4294967296]

theorem test_wf_refuses7 : illFormed7.all (fun i => !wellFormed i) = true := by decide +kernel

/-- Each command with every operand at the start of its range. -/
def plain0 : List Instr :=
  [.registerWrite 0 0 0 0, .tckCommit, .tickRunStart 0, .tickRunStop, .sampleTick false [], .tickBoundary [], .releasePoint [],
   .evaluationFinal 0 0, .lateResult 0 0 0 0, .armEntryAppend 0, .retireEntryAppend 0, .armListClear 0, .descriptorWrite 0 0 0,
   .wchInj 0, .logRdAdvance .verdict 0, .clrLost .verdict, .skimRecordProcess 0 0 soundReads, .knownAnswerTest 0 false,
   .skmEpochOverrun, .skmRekey 0, .skmUInj 0 0, .signalCheckResult 0 0, .windowEvaluation 0, .livenessLimit 0 0, .wchSigInj 0,
   .arrayOperationIssue none false, .tileBoundary false agreedTile, .arrayOperationComplete false false 0, .mtxInj 0,
   .stencilSendPoint 0, .stageWindowOpen 0 0, .stageWindowClose 0, .swdCheckin 0 0, .swdInj 0, .dmaDescriptorPost 0 0 .plan [],
   .dmaDescriptorComplete 0 .plan []]

theorem test_wf_accepts0 : plain0.all wellFormed = true := by decide +kernel

/-- Each command with every operand at the start of its range. -/
def plain1 : List Instr :=
  [.memPageRetired 0, .memXltInv 0, .xltInvalidateDone, .memErrClr 0, .memInj 0, .fjlPortEnable 0, .fjlPortDisable 0,
   .trainingStateExit 0 0 false [], .trainingTimeout 0, .ack 0 0 0 false, .nack 0 0 0 0 false, .credit 0 0 0, .mark 0 0 false,
   .resetBlock 0 0, .recordReceived 0 okRecord, .blockLockLoss 0, .data 0 0, .heartbeat 0, .checkin 0, .identRsp 0,
   .peerAlert 0, .recordTransmit 0, .fjlCmdRetrain 0, .fjlCmdReset 0, .clrPeer 0, .fjlPInj 0 0, .tdmInputFrame 0 none false [],
   .portLock 0, .avtpListenerPacket 0 okPacket, .avtStreamLost 0, .sgtPortEnable 0, .sgtPortDisable 0, .sgtInj 0,
   .ethLinkChange 0 false 0, .ethFrameReceived 0 okFrame, .cbRecoveryTimeout 0]

theorem test_wf_accepts1 : plain1.all wellFormed = true := by decide +kernel

/-- Each command with every operand at the start of its range. -/
def plain2 : List Instr :=
  [.neighbourSolicitation 0 false 0, .echoRequest 0 false 0 [], .gateControlGo 0, .gateListAdopt 0, .preemptionVerify 0 false,
   .macsecInstall 0, .txAnSelect 0 0, .safetyStatusTimer, .ethStatusLate 0, .timTbStep 0 0, .tbLatchRead ⟨0, 0⟩,
   .captureEdge 0 false 0, .capNsRead ⟨0, 0⟩, .capSecHiRead ⟨0, 0⟩, .syncEdge 0, .ptpSync 0 0 0 0, .ptpAnnounce 0 0 0,
   .pdelay 0 ⟨0, 0, 0, 0⟩, .timSyncLoss 0, .timeBaseRevert 0, .commandPacket okDatagram, .fragmentTimeout, .handshakeTimeout,
   .sessionIdleTimeout, .ping okReq, .hello okHand, .auth okHand, .close okReq, .deviceInfo okReq, .statusGet okReq,
   .subscribe okReq, .opQuery okReq, .attest okReq, .sessionList okReq, .regRead okReq, .regWrite okReq]

theorem test_wf_accepts2 : plain2.all wellFormed = true := by decide +kernel

/-- Each command with every operand at the start of its range. -/
def plain3 : List Instr :=
  [.regModify okReq, .regReadBlock okReq, .commit okReq, .watchDefine okReq, .watchRead okReq, .armList okReq, .logRead okReq,
   .coverageGet okReq, .modelLoad okReq, .modelLoadDone 0, .modelUnload okReq, .modelInfo okReq, .portStatus okReq,
   .gateStatus okReq, .fallbackStatus okReq, .faultList okReq, .faultClear okReq, .faultLogRead okReq, .wdgEvidence okReq,
   .ladderClear okReq, .timeGet okReq, .timeStep okReq, .captureRead okReq, .imgOpen okReq, .imgChunk okReq, .imgClose okReq,
   .fwInstall okReq, .fwInstallDone false, .topcoatInstall okReq, .topcoatInstallDone false, .slotSelect okReq, .restart okReq,
   .maintEnter okReq, .maintLeave okReq, .sealBreak okReq, .debugOpen okReq]

theorem test_wf_accepts3 : plain3.all wellFormed = true := by decide +kernel

/-- Each command with every operand at the start of its range. -/
def plain4 : List Instr :=
  [.hppr okReq, .hpprDone, .twinStatus okReq, .twinHandover okReq, .twinPair okReq, .twinUnpair okReq, .inject okReq,
   .selftestStatus okReq, .statusTest okReq, .ethCmdInj 0, .lockstepCompare 0 [] [] false ⟨[], none⟩ none,
   .selftestSliceDone 0 false false, .unfence 0 0 false false, .pairReset 0 0, .lckInj 0, .debugHalt 0,
   .debugAction 0 (.write 0 0) [], .debugResume 0 [] none, .mbxTx 0 0 0, .mbxRx 0 0, .mbxDbRing 0 0, .mbxDbClear 0 0,
   .mbxStall 0, .mbxInj 0, .crcStart 0 0, .crcData 0 0 0, .crcEnd 0 0 0, .crcBlockDone 0, .crcRunWrite 0 0 false 0,
   .snagSourceDetect .x 0 0 false, .alarmAssert .x 0 0, .collectorReport .x 0, .dieHeartbeatLoss .x false, .sngFlFault .x 0,
   .sevMirrorCheck .x [], .tb0ShadowReload]

theorem test_wf_accepts4 : plain4.all wellFormed = true := by decide +kernel

/-- Each command with every operand at the start of its range. -/
def plain5 : List Instr :=
  [.resume false, .sngSetClear 0 0 0, .sngSevWrite 0 0, .sngInj 0 0, .restartDelayExpiry okEnv, .wdgStart 0,
   .wdgService 0 0 0 0 false false, .watchdogWindowClose 0 0 false false, .watchdogWarn 0, .ladderClr 0, .triesCalmReset,
   .wdgInj 0, .sCoreLoss, .sCoreRecovery okEnv, .powerOnReset okEnv, .warmRestart okEnv, .wrstPin okEnv, .xspiRelease,
   .bootDone 0, .trialTimeout, .newChal 0, .debugClose 0 okEnv, .debugExpire okEnv, .arbAdvance 0 false, .secBootSelWrite 0 0,
   .entropyHealthTest false, .secInj 0, .hairlineSample [], .temperatureSample 0 0, .voltageSample 0 0 false, .marginLoop,
   .pmbusTransactionDone false 0, .selftestSegmentDone false false 0, .hlnInj 0, .agreeDecision, .agree]

theorem test_wf_accepts5 : plain5.all wellFormed = true := by decide +kernel

/-- Each command with every operand at the start of its range. -/
def plain6 : List Instr :=
  [.sync, .state, .stateSend, .handover, .twnCmdHandover 0, .twnCtrlPair 0 0, .peerOkChange false, .peerHbLoss false,
   .peerStateTimeout, .giveBack, .twnInj 0, .mclkMeasure 0, .pwrRefclkSys, .pllLockLoss 0, .strapChange false, .pwrInj 0,
   .timInj 0, .dieHeartbeatReturn .x, .pllRelock 0, .refclkSysReturn, .supplyLoss 0, .serviceRowTransmit 0, .safeHbEdge,
   .ethFrameTransmit 0, .gateEntryIntervalEnd 0, .timeBaseSrcWrite 0 0]

theorem test_wf_accepts6 : plain6.all wellFormed = true := by decide +kernel

/-! Small states. -/

/-- The state after reset with some fields at other values. -/
def st (l : List (Fld × Nat)) : State := { State.reset with dev := l.foldl (fun d x => d.put x.1 x.2) State.reset.dev }

/-- Every die's heartbeat runs and its blocks are reachable. -/
def upFlds : List (Fld × Nat) :=
  [(hbOkFld 0, 1), (hbOkFld 1, 1), (hbOkFld 2, 1), (reachFld 0, 1), (reachFld 1, 1), (reachFld 2, 1)]

def up (l : List (Fld × Nat)) : State := st (upFlds ++ l)

/-- Change the device of a state. -/
def on (s : State) (f : Dev → Dev) : State := { s with dev := f s.dev }

/-- The state in which a command that answers a next state ends. -/
def after (c : Instr) (s : State) : State := match exec c s with | .next t => t | _ => s

/-- The state one cycle later. -/
def later (s : State) : State := on s (fun d => { d with now := d.now + 1 })

/-! The machine and the bus. -/

/-- The front command runs; an idle step is one cycle. -/
theorem test_step : (match step { up [] with pending := [.clrLost .fault, .tickRunStop] } with | .next t => t.pending | _ => []) = [.tickRunStop] ∧
    (match step (up []) with | .next t => t.dev.now | _ => 9) = 1 ∧ Memory.wf (up []).mem = true ∧ (up []).dev.dead = false ∧
    (up []).dev.ladder.coreLost = false ∧ (up []).dev.memsys.writes = [] := by decide +kernel

/-- The invariants hold at reset and in a state where a source at SAFE is set. -/
theorem test_safe_states : (State.reset.dev.safeCause = true → State.reset.dev.on SNG.STAT_SAFE = true) ∧
    (after (.snagSourceDetect .s 5 0 false) (up [])).dev.safeCause = true ∧
    (after (.snagSourceDetect .s 5 0 false) (up [])).dev.on SNG.STAT_SAFE = true := by decide +kernel

theorem test_narrow_access : (after (.registerWrite 0 0x01000004 1 2) (up [])).dev.resp = .error ∧
    (after (.registerWrite 0 0x01000005 1 4) (up [])).dev.resp = .error ∧ ((up []).dev.busRead 0 0x01000002 4).resp = .error := by decide +kernel

/-- One register of each access type, and the addresses at the edges of the regions. -/
theorem test_access_types :
    (up []).dev.splitMaster 0 = false ∧ (up []).dev.access 0 .s = true ∧ (up [(LCK.P_STAT_STATE 9, 4)]).dev.access 9 .s = false ∧
    (after (.registerWrite 9 TWN.HANDOVER_FRAME.addr 1 4) (up [(LCK.P_STAT_STATE 9, 4)])).dev.resp = .error ∧
    (after (.registerWrite 0 TWN.HANDOVER_FRAME.addr 4294967295 4) (up [])).dev.fld TWN.HANDOVER_FRAME = 4294967295 ∧
    (up []).dev.tdmEn 5 = false ∧ (after (.registerWrite 0 (SGT.P_VMASK_VMASK 5).addr 65537 4) (up [])).dev.fld (SGT.P_VMASK_VMASK 5) = 1 ∧
    (up [(SGT.CTRL_PORT_EN, 32)]).dev.tdmEn 5 = true ∧
    (after (.registerWrite 0 (SGT.P_VMASK_VMASK 5).addr 1 4) (up [(SGT.CTRL_PORT_EN, 32)])).dev.resp = .discarded ∧
    (after (.registerWrite 0 TCK.RELEASE_MARGIN.addr 7 4) (up [])).dev.stagedFld TCK.RELEASE_MARGIN = 7 ∧
    (after (.registerWrite 0 (CRC.MISMATCH_MAP_MISMATCH 1).addr 4 4) (up [(CRC.MISMATCH_MAP_MISMATCH 1, 6)])).dev.fld (CRC.MISMATCH_MAP_MISMATCH 1) = 2 ∧
    (after (.registerWrite 0 (CRC.MISMATCH_MAP_MISMATCH 1).addr 4 4) (on (up [(CRC.MISMATCH_MAP_MISMATCH 1, 4)])
      (fun d => { d with hwSet := [(key2 (CRC.MISMATCH_MAP_MISMATCH 1).key 2, 1)] }))).dev.fld (CRC.MISMATCH_MAP_MISMATCH 1) = 4 := by
  decide +kernel

theorem test_access_ends :
    (after (.registerWrite 0 SEC.PAIR_TAG_LO_TAG.addr 3 4) (up [])).dev.fld SEC.PAIR_TAG_LO_TAG = 3 ∧
    (after (.registerWrite 0 SEC.PAIR_TAG_LO_TAG.addr 3 4) (up [(SEC.STATE_SEALED, 1)])).dev.resp = .discarded ∧
    (after (.registerWrite 0 SEC.PAIR_TAG_LO_TAG.addr 3 4) (up [(SEC.STATE_SEALED, 1)])).dev.isSet 1 = true ∧
    (after (.registerWrite 0 MBX.CTRL_ACK_TIMEOUT.addr 65536 4) (up [])).dev.resp = .rejected ∧
    (after (.registerWrite 0 0x01000040 1 4) (up [])).dev.resp = .done ∧
    (after (.registerWrite 0 0x01FFFFFC 1 4) (up [])).dev.resp = .error ∧ (after (.registerWrite 0 0x02100000 1 4) (up [])).dev.resp = .error ∧
    (after (.registerWrite 0 0x04000000 1 4) (up [])).dev.resp = .error := by decide +kernel

/-- Pair 9 runs split: its cores are masters 9 and 25. -/
def split9 : State := on (up []) (fun d => { d with cores := { d.cores with split := 8 } })

theorem test_split_master : split9.dev.splitMaster 25 = true ∧ split9.dev.splitMaster 9 = true ∧ isBlock 0x01000000 = true ∧
    guarded (blockNo 0x01000000) = true ∧ (after (.registerWrite 25 0x01000000 1 4) split9).dev.resp = .error := by decide +kernel

def running : List (Fld × Nat) := [(TCK.CTRL_RUN, 1)]

theorem test_tick_unit : (up []).dev.running = false ∧ (up []).dev.fld TCK.RELEASE_MARGIN ≤ (up []).dev.len ∧
    (after (.tickRunStart 49152000) (up [])).dev.running = true ∧ (up [(TCK.RELEASE_MARGIN, 2047)]).dev.len < 2047 ∧
    (after (.tickRunStart 49152000) (up [(TCK.RELEASE_MARGIN, 2047)])).dev.on TCK.CTRL_START_ERR = true ∧ (up running).dev.running = true ∧
    (after .tickRunStop (up running)).dev.plan.stopping = true ∧
    (after (.tickRunStart 0) (after .tickRunStop (up running))).dev.plan.stopping = false := by decide +kernel

theorem test_commit : (after .tckCommit (after (.armEntryAppend 7) (up running))).dev.capture.isSome = true ∧
    (after .tckCommit (after (.armEntryAppend 7) (up running))).dev.watch.staged = [] ∧ (after .tckCommit (up [])).dev.capture = none ∧
    (after (.armEntryAppend 4095) (up [])).dev.watch.staged = [⟨true, 4095⟩] ∧
    (on (up []) (fun d => { d with watch := { d.watch with staged := List.replicate 256 ⟨true, 1⟩ } })).dev.watch.staged.length = 256 ∧
    (after (.retireEntryAppend 1) (on (up []) (fun d => { d with watch := { d.watch with staged := List.replicate 256 ⟨true, 1⟩ } }))).dev.resp
      = .discarded ∧
    (after (.armListClear 1) (after (.armEntryAppend 7) (up []))).dev.watch.staged = [] ∧
    (after (.armListClear 2) (after (.armEntryAppend 7) (up []))).dev.watch.staged.length = 1 := by decide +kernel

theorem test_descriptors : (up []).dev.descOpen 4095 = true ∧ (after (.descriptorWrite 4095 47 5) (up [])).dev.wd 4095 47 = 5 ∧
    (after (.descriptorWrite 4095 48 5) (up [])).dev.resp = .done ∧
    (after (.descriptorWrite 9 0 5) (on (up []) (fun d => d.putWatch 9 { d.watchOf 9 with state := .running }))).dev.resp = .discarded := by decide +kernel

/-- The tick unit between starting and its first boundary, in a frame, at a stop, and without S_CORE. -/
theorem test_boundaries : (after (.tickBoundary []) (after (.tickRunStart 0) (up []))).dev.frame = 0 ∧
    (after (.tickBoundary []) (up ((TCK.FRAME_NO_FRAME_NO, 4294967295) :: running))).dev.frame = 0 ∧
    (after (.tickBoundary []) (up ((TCK.FRAME_NO_FRAME_NO, 6) :: running))).dev.frame = 7 ∧
    (after (.tickBoundary []) (after .tickRunStop (up running))).dev.running = false ∧
    (after (.tickBoundary []) (up [])).dev.running = false ∧ (up running).dev.ticking = true ∧ (up []).dev.ticking = false ∧
    (after (.sampleTick false []) (up running)).dev.gate.tick = 1 ∧ (after (.sampleTick false []) (up [])).dev.gate.tick = 0 ∧
    (after (.sampleTick false []) (on (up running) (fun d => { d with ladder := { d.ladder with coreLost := true } }))).dev.gate.tick = 0 := by decide +kernel

/-- A talker of one sample per packet on port 0: the packet is not sent in time while the port is down (Table 09.6). -/
theorem test_talker_underrun :
    let talker (up0 : Nat) := up ((AVT.CTRL_TALK_EN, 1) :: (AVT.T_CFG_SPP_M1 0, 0) :: (AVT.T_CFG_PORTS 0, 1) :: (ETH.CTRL_EN, 1)
      :: (ETH.P_STAT_LINK 0, up0) :: running)
    let seen (s : State) : List Nat := (after (.sampleTick false []) s).dev.snag.reports.map (·.source)
    seen (talker 0) = [408] ∧ seen (talker 1) = [] := by decide +kernel

/-! Release points, evaluations and the Snag unit. -/

/-- Frame 4 runs and frame 1 was the last one decided: frame 2 is due. -/
def rpState : State := on (up ((TCK.FRAME_NO_FRAME_NO, 4) :: (SGT.OUT_EN 0, 1) :: running)) (fun d =>
  { d with gate := { d.gate with lastRp := some 1, tick := 4 * d.len + d.marginOf 2 } })

theorem test_release_point : rpState.dev.rpDue = true ∧ rpState.dev.on SNG.STAT_SAFE = true ∧ 0 ∈ rpState.dev.holdChannels ∧
    (after (.releasePoint []) rpState).dev.gate.lastRp = some 2 ∧ ((after (.releasePoint []) rpState).dev.out 0).content = .subst ∧
    (up []).dev.rpDue = false ∧ (after (.releasePoint []) (up [])).dev.gate.lastRp = none := by decide +kernel

/-- Watch 5 runs with a job for frame 7. -/
def jobState (final : Bool) (l : List (Fld × Nat)) : State := on (up ((TCK.FRAME_NO_FRAME_NO, 10) :: l ++ running)) (fun d =>
  d.putWatch 5 { Watch.idle with state := .running, ring := [{ Job.start 7 1 [] with final := final }] })

theorem test_evaluation : ((jobState false []).dev.jobOf 5 7).isSome = true ∧ ((jobState false []).dev.watchOf 5).state.checks = true ∧
    ((jobState false []).dev.watchOf 5).retireAt = none ∧ (jobState false []).dev.evalPast 5 7 = true ∧ ((after (.evaluationFinal 5 7) (jobState false [])).dev.watchOf 5).lastFrame = 7 ∧
    ((after (.evaluationFinal 5 7) (jobState false [])).dev.watchOf 5).totalEval = 1 ∧
    (jobState false [(WCH.INJ_ARM, 1), (WCH.INJ_WATCH_ID, 5), (WCH.INJ_CODE, 3)]).dev.forced 5 = true ∧
    ((after (.evaluationFinal 5 7) (jobState false [(WCH.INJ_ARM, 1), (WCH.INJ_WATCH_ID, 5), (WCH.INJ_CODE, 3)])).dev.watchOf 5).lastVerdict = 3 ∧
    (after (.evaluationFinal 5 7) (jobState false [(WCH.INJ_ARM, 1), (WCH.INJ_WATCH_ID, 5), (WCH.INJ_CODE, 3)])).dev.on WCH.INJ_ARM = false := by
  decide +kernel

theorem test_late_result : ((jobState true []).dev.jobOf 5 7).any (·.final) = true ∧
    ((after (.lateResult 5 7 6 0) (jobState true [])).dev.watchOf 5).ring = [] ∧ (jobState true []).dev.on (logFull .verdict) = false ∧
    (tabGet [] ((after (.lateResult 5 7 6 0) (jobState true [])).dev.logOf .verdict) 0).getD 1 0 = 5 + 65536 * 38 := by decide +kernel

/-- A detection on the S-die and on the X-die, an alarm, and the report of a collector. -/
theorem test_sources : srcExists 425 = true ∧ (up []).dev.on (hbOkFld 2) = true ∧
    (after (.snagSourceDetect .s 0 0 true) (up [])).dev.isSet 0 = true ∧ tabGet false (after (.snagSourceDetect .s 0 0 true) (up [])).dev.snag.cause 0 = true ∧
    tabGet false (after (.snagSourceDetect .x 425 0 false) (up [])).dev.snag.held (key2 2 425) = true ∧
    (takeReport .x 425 (after (.snagSourceDetect .x 425 0 false) (up [])).dev.snag.reports).isSome = true ∧
    (after (.collectorReport .x 425) (after (.snagSourceDetect .x 425 0 false) (up []))).dev.isSet 425 = true ∧
    (after (.snagSourceDetect .c0 80 0 false) (up [(MEM.SRAM_CNT_CE, 5)])).dev.fld MEM.SRAM_CNT_CE = 6 := by decide +kernel

/-- Source 425 at SAFE. -/
def severe : State := up [(sevFld 425, 4)]

theorem test_alarm : sevSafe ≤ severe.dev.collSev 2 425 ∧ (after (.alarmAssert .x 425 0) severe).dev.on SNG.STAT_SAFE = true ∧
    tabGet false (after (.alarmAssert .x 425 0) severe).dev.snag.held (key2 2 425) = true := by decide +kernel

theorem test_heartbeats : tabGet 0 (up []).dev.snag.hbUntil 2 = 0 ∧ (after (.dieHeartbeatLoss .x false) (up [])).dev.isSet 10 = true ∧
    (after (.dieHeartbeatLoss .x false) (up [])).dev.reach .c0 = false ∧ (after (.dieHeartbeatLoss .c0 true) (up [])).dev.reach .c0 = true ∧
    (after (.dieHeartbeatLoss .c0 true) (up [])).dev.on (hbOkFld 0) = false ∧ bit (up []).dev.power.lost 2 = false ∧
    (after (.dieHeartbeatReturn .x) (after (.dieHeartbeatLoss .x false) (up []))).dev.reach .c1 = true ∧
    tabGet false (after (.dieHeartbeatReturn .x) (after (.dieHeartbeatLoss .x false) (up []))).dev.snag.cause 10 = false := by decide +kernel

theorem test_fault_lines : (after (.sngFlFault .c1 12) (up [])).dev.isSet 5 = true ∧ (after (.sngFlFault .c1 12) (up [])).dev.on (alarmFld 1) = true ∧
    (after (.sngFlFault .c1 11) (up [])).dev.isSet 5 = false ∧ (up []).dev.snag.sevCopy = [] ∧ (4 ≠ (up []).dev.sev 425) ∧
    (after (.sevMirrorCheck .x [(425, 4)]) (up [])).dev.isSet 4 = true ∧ (after (.sevMirrorCheck .x [(425, 4)]) (up [])).dev.snag.sevCopy = [] ∧
    (after .tb0ShadowReload (up [])).dev.snag.shadow = ⟨0, 0, false⟩ ∧ (after .tb0ShadowReload State.reset).dev.snag.shadow.free = true := by
  decide +kernel

def booted : List (Fld × Nat) := [(SEC.STATE_BOOT_DONE, 1)]

/-- A trial's fused step is due, and the blow fails. -/
def arbTrial : State := on (up ([(SEC.CTRL_ARB_AUTO, 1), (SEC.ARB_FW_STEP, 3)] ++ booted)) (fun d => { d with boot := { d.boot with arbDue := true } })

theorem test_resume : (up booted).dev.resumeAllowed = true ∧ (up booted).dev.setAlarms.safeCause = false ∧ (up booted).dev.on SNG.STAT_SAFE = true ∧
    (after (.resume true) (up booted)).dev.on SNG.STAT_SAFE = false ∧ (after (.resume true) (up booted)).dev.on SNG.STAT_SAFE_OK = true ∧
    (after (.resume true) (up (running ++ booted))).dev.snag.resumePending = true ∧ (up []).dev.resumeAllowed = false ∧
    (after (.resume true) (up [])).dev.on SNG.STAT_RESUME_REFUSED = true ∧ arbTrial.dev.resumeAllowed = true ∧ arbTrial.dev.fusedStep < 3 ∧
    (after (.resume false) arbTrial).dev.isSet 522 = true ∧ (after (.resume true) arbTrial).dev.fld SEC.ARB_FUSED = 3 := by decide +kernel

/-- A source at SAFE in the cycle of an accepted RESUME. -/
theorem test_resume_refused : srcExists 5 = true ∧ sevSafe ≤ (up booted).dev.sev 5 ∧
    (after (.resume true) (up booted)).dev.snag.resumeAt = some ((up booted).dev.now, true) ∧
    (after (.snagSourceDetect .s 5 0 false) (after (.resume true) (up booted))).dev.snag.refused = some true ∧
    (after (.snagSourceDetect .s 5 0 false) (after (.resume true) (up booted))).dev.on SNG.STAT_SAFE = true := by decide +kernel

/-- Outside the safe state an edge is due. -/
def quiet (l : List (Fld × Nat)) : State := up ([(SNG.STAT_SAFE, 0), (SNG.STAT_SAFE_OK, 1)] ++ l)

theorem test_heartbeat_edge : (quiet []).dev.setAlarms.safeCause = false ∧ (quiet []).dev.snag.hbDue ≤ (quiet []).dev.now ∧
    (after .safeHbEdge (quiet [])).dev.snag.hbLevel = true ∧ (after .safeHbEdge (quiet [])).dev.snag.hbDue = 30000 := by decide +kernel

/-- Source 36 with its cause present, source 1 without. -/
theorem test_clears : (after (.snagSourceDetect .s 1 0 false) (up [])).dev.causeNow 1 = false ∧
    (after (.sngSetClear 18 0 2) (later (after (.snagSourceDetect .s 1 0 false) (up [])))).dev.isSet 1 = false ∧
    (after (.snagSourceDetect .s 1 0 false) (up [])).dev.freshSource 1 = true ∧
    (after (.sngSetClear 18 0 2) (after (.snagSourceDetect .s 1 0 false) (up []))).dev.isSet 1 = true ∧
    (after (.snagSourceDetect .s 36 0 true) (up [])).dev.causeNow 36 = true ∧
    (after (.sngSetClear 0 1 16) (after (.snagSourceDetect .s 36 0 true) (up []))).dev.isSet 36 = true ∧ trusted 2 = false ∧
    (after (.sngSetClear 2 1 16) (after (.snagSourceDetect .s 36 0 true) (up []))).dev.resp = .error := by decide +kernel

/-- Word 106 holds the severities of sources 424 to 427. -/
theorem test_severities : (up []).dev.on SEC.STATE_SEALED = false ∧ (List.range 4).any (sevBad 106 0x01010401) = false ∧
    (after (.sngSevWrite 106 0x01010401) (up [])).dev.sev 425 = 4 ∧
    (after (.sngSevWrite 106 0x01010401) (after (.snagSourceDetect .s 425 0 false) (quiet []))).dev.on SNG.STAT_SAFE = true ∧
    (List.range 4).any (sevBad 106 0x01010701) = true ∧ (after (.sngSevWrite 106 0x01010701) (up [])).dev.resp = .rejected ∧
    srcExists 425 = true ∧ (up [(SEC.STATE_SEALED, 1)]).dev.fld (sevFld 425) ≠ sevByte 0x01010401 1 ∧
    (after (.sngSevWrite 106 0x01010401) (up [(SEC.STATE_SEALED, 1)])).dev.isSet 1 = true := by decide +kernel

theorem test_log_index : (up []).dev.fld (logRd .fault) < logSize .fault ∧ 1 % logSize .fault ≠ (up []).dev.fld (logRd .fault) ∧
    (after (.logRdAdvance .fault (logSize .fault - 1)) (up [(logFull .fault, 1)])).dev.fld (logRd .fault) = logSize .fault - 1 ∧
    (after (.logRdAdvance .fault 1) (up [(logFull .fault, 1)])).dev.on (logFull .fault) = false ∧
    (after (.logRdAdvance .fault (logSize .fault)) (up [(logFull .fault, 1)])).dev.on (logFull .fault) = true ∧
    (after (.clrLost .event) (up [(logLost .event, 3)])).dev.fld (logLost .event) = 0 := by decide +kernel

/-! Injections and watchdogs. -/

/-- Which injection registers admit a write of `v`, and whether each admitted write gives the fields their values. -/
def injAdmits (v : Nat) : List Bool := (Claims.injections (up []).dev 3 v).map (·.2.1)
def injGives (v : Nat) : Bool := ((Claims.injections (up []).dev 3 v).filter (·.2.1)).all (fun e =>
  e.2.2.all (fun p => (after e.1 (up [])).dev.fld p.1 == p.2 % 2 ^ p.1.width) && (after e.1 (up [])).dev.resp == .done)

/-- ARM with mode 1, mode 2, mode 3 and CODE or WINDOW mode 1: every register is admitted for one of them. -/
theorem test_injections : (List.range 16).all (fun i => [0x81010001, 0x80000002, 0x80000003].any (fun v => (injAdmits v).getD i false)) = true ∧
    [0x81010001, 0x80000002, 0x80000003, 0x7FFFFFFF].all injGives = true := by decide +kernel

/-- Every injection register with ARM 1. -/
def armed : State := up [(WCH.INJ_ARM, 1), (WCH.SIG_INJ_ARM, 1), (MTX.INJ_ARM, 1), (SWD.INJ_ARM, 1), (MEM.INJ_ARM, 1), (FJL.P_INJ_ARM 0, 1), (SGT.INJ_ARM, 1),
  (ETH.CMD_INJ_ARM, 1), (LCK.INJ_ARM, 1), (MBX.INJ_ARM, 1), (WDG.INJ_ARM, 1), (SEC.INJ_ARM, 1), (HLN.INJ_ARM, 1), (TWN.INJ_ARM, 1), (PWR.INJ_ARM, 1),
  (TIM.INJ_ARM, 1)]

theorem test_injections_busy : (Claims.injectionsBusy armed.dev 0 0x80000002).all (fun e => e.2 && (after e.1 armed).dev.resp == .discarded) = true := by
  decide +kernel

theorem test_injections_sng : bit 0x81000000 31 = true ∧ trusted 18 = true ∧ (up []).dev.on SNG.INJ_ARM = false ∧ srcExists (bitsAt 0x810001A9 9 0) = true ∧
    (after (.sngInj 18 0x810001A9) (up [])).dev.isSet 425 = true ∧ (after (.sngInj 0 0x82000000) (up [])).dev.isSet 3 = true ∧
    (after (.sngInj 1 0x83020000) (up [])).dev.on (alarmFld 2) = true ∧ (after (.sngInj 1 0x85020000) (up [])).dev.on (lineFaultFld 2) = true ∧
    (after (.sngInj 2 0x81000000) (up [])).dev.resp = .error := by decide +kernel

theorem test_injections_at_once : (after (.mbxInj 0x80000001) (up [])).dev.isSet 488 = true ∧ (after (.wdgInj 0x80000003) (quiet [])).dev.isSet 6 = true ∧
    (after (.wdgInj 0x80000003) (quiet [])).dev.on SNG.STAT_SAFE = true ∧ (after (.secInj 0x80000003) (up [])).dev.isSet 523 = true ∧
    (after (.pwrInj 0x80000901) (up [(PWR.CLK_STAT_LOCKED, 1023)])).dev.isSet 715 = true ∧
    bit ((after (.pwrInj 0x80000901) (up [(PWR.CLK_STAT_LOCKED, 1023)])).dev.fld PWR.CLK_STAT_LOCKED) 9 = false ∧
    tabGet false (after (.timInj 0x8000000D) (up [])).dev.snag.held (key2 2 434) = true ∧ (after (.timInj 0x80000002) (up [])).dev.time.loseSync = true ∧
    (after (.ethCmdInj 0x80000001) (up [])).dev.on ETH.CMD_INJ_ARM = true := by decide +kernel

/-- Watchdog 9 with a window of 100 us, open from 10 us on, warning at 50 us, at a number of cycles. -/
def dogFlds : List (Fld × Nat) := [(WDG.OPEN_OPEN 9, 10), (WDG.WARN_WARN 9, 50), (WDG.CLOSE_CLOSE 9, 100)]
def dog (now : Nat) (serviced : Bool) : State := on (up ((WDG.CFG_EN 9, 1) :: dogFlds)) (fun d =>
  { d with now := now, ladder := { d.ladder with dogs := tabSet Dog.idle d.ladder.dogs 9 { Dog.idle with serviced := serviced } } })

theorem test_watchdog : (up dogFlds).dev.dogLimits 9 = true ∧ (after (.wdgStart 9) (up dogFlds)).dev.on (WDG.CFG_EN 9) = true ∧
    (up [(WDG.OPEN_OPEN 9, 100), (WDG.CLOSE_CLOSE 9, 100)]).dev.dogLimits 9 = false ∧
    (after (.wdgStart 9) (up [(WDG.OPEN_OPEN 9, 100), (WDG.CLOSE_CLOSE 9, 100)])).dev.resp = .rejected ∧ (dog 6000 false).dev.splitMaster 9 = false ∧ (dog 6000 false).dev.access 9 .s = true ∧
    (dog 6000 false).dev.dogClosing 9 = false ∧ (dog 6000 false).dev.fld (WDG.OPEN_OPEN 9) ≤ (dog 6000 false).dev.dogCount 9 ∧
    ((after (.wdgService 9 9 107 0 false false) (dog 6000 false)).dev.dogOf 9).serviced = true ∧ (dog 60000 true).dev.dogClosing 9 = true ∧
    ((after (.watchdogWindowClose 9 0 false false) (dog 60000 true)).dev.dogOf 9).start = 60000 ∧
    (dog 30000 false).dev.fld (WDG.WARN_WARN 9) ≤ (dog 30000 false).dev.dogCount 9 ∧
    tabGet false (after (.watchdogWarn 9) (dog 30000 false)).dev.ladder.irq 9 = true := by decide +kernel

theorem test_watchdog_faults : (dog 60000 false).dev.dogClosing 9 = true ∧ (dog 60000 false).dev.on WDG.LADDER_LOCKED = false ∧
    (dog 60000 false).dev.ladder.eventAt ≠ some 60000 ∧ (dog 60000 false).dev.ladder.step1At = none ∧ (dog 60000 false).dev.pairState 9 ≠ 4 ∧
    (dog 60000 false).dev.sev 25 ≠ sevRestart ∧ (dog 60000 false).dev.sev 35 ≠ sevRestart ∧ (dog 60000 false).dev.sev 2 ≠ sevRestart ∧
    (after (.watchdogWindowClose 9 77 false false) (dog 60000 false)).dev.isSet 25 = true ∧
    (after (.watchdogWindowClose 9 77 false false) (dog 60000 false)).dev.fld (WDG.EV_PC_LO_PC 9) = 77 ∧ 108 % 256 ≠ 107 ∧
    (after (.wdgService 9 9 108 77 false false) (dog 6000 false)).dev.isSet 35 = true ∧
    (after (.wdgService 8 9 107 77 false false) (dog 6000 false)).dev.resp = .error := by decide +kernel

theorem test_ladder : (after (.ladderClr 18) (up [(WDG.LADDER_LOCKED, 1), (WDG.LADDER_TRIES, 3)])).dev.on WDG.LADDER_LOCKED = false ∧
    (after (.ladderClr 18) (up [(WDG.LADDER_LOCKED, 1), (WDG.LADDER_TRIES, 3)])).dev.fld WDG.LADDER_TRIES = 0 ∧
    (after (.ladderClr 18) (up [])).dev.resp = .done ∧ (after (.ladderClr 0) (up [(WDG.LADDER_LOCKED, 1)])).dev.resp = .error ∧
    (after .triesCalmReset (on (up [(WDG.CALM_CALM_S, 1), (WDG.LADDER_TRIES, 3)]) (fun d => { d with now := 600000000 }))).dev.fld WDG.LADDER_TRIES = 0 ∧
    (after .triesCalmReset (on (up [(WDG.CALM_CALM_S, 1), (WDG.LADDER_TRIES, 3)]) (fun d => { d with now := 599999999 }))).dev.fld WDG.LADDER_TRIES = 3 := by
  decide +kernel

/-! Checks, stencils, windows, the array and transfers. -/

/-- Watch 5 of a kind, RUNNING in tick 8, with a job for frame 7; the signals are checked. -/
def kindState (kind : Nat) (f : Dev → Dev) : State := on (up ([(TCK.FRAME_NO_FRAME_NO, 8), (MEM.HBM_STAT_TRAINED, 1), (SKM.CTRL_EN, 15)] ++ running))
  (fun d => f ({ d with watch := { d.watch with desc := [(320, kind)] } }.putWatch 5 { Watch.idle with state := .running, ring := [Job.start 7 1 []] }))

/-- A DATA record of frame 7 for watch 5, on TENSOR. -/
def dataRec : LinkRecord := { okRecord with watch := 5, frame := 7, length := 4, payload := [1, 2, 3, 4] }
def delivered (kind : Nat) : State := kindState kind (fun d => d.putLink 3 { LinkPort.reset with deliver := [dataRec] })

theorem test_records : (delivered 8).dev.reach (clusterDie 3) = true ∧ ((delivered 8).dev.link 3).deliver.find? (fun r => r.vc == 0) = some dataRec ∧
    ((delivered 8).dev.openJob 5 7).isSome = true ∧ (delivered 8).dev.wdKind 5 ≠ 0 ∧
    ((after (.skimRecordProcess 3 0 soundReads) (delivered 8)).dev.link 3).deliver = [] ∧
    tabGet 0 (after (.skimRecordProcess 3 0 soundReads) (delivered 8)).dev.skim.bytes 3 = 4 := by decide +kernel

/-- Two epochs after the swap, no unit has passed its known-answer test. -/
def overdue : State := kindState 8 (fun d => { d with now := 1000000000000, skim := { d.skim with epochOpen := true } })

theorem test_known_answers : (delivered 8).dev.skimOn 3 = true ∧ (delivered 8).dev.nextBuilt = true ∧
    (after (.knownAnswerTest 3 false) (delivered 8)).dev.on (SKM.U_STAT_KAT_FAIL 3) = true ∧
    tabGet false (after (.knownAnswerTest 3 false) (delivered 8)).dev.snag.held (key2 1 70) = true ∧
    overdue.dev.katPassed = false ∧ overdue.dev.skim.swapAt + 2 * msCycles overdue.dev.tEff ≤ overdue.dev.now ∧
    (after .skmEpochOverrun overdue).dev.on SKM.REBUILD_OVERRUN = true ∧
    (after (.skmRekey 1) (up [])).dev.skim.rekey = true ∧ (after (.skmRekey 2) (up [])).dev.skim.rekey = false := by decide +kernel

/-- A SEQ watch with a liveness limit of five sixteenths of a sample tick, which is past. -/
def silent : State := kindState 8 (fun d => { d with now := 4000, watch := { d.watch with desc := [(320, 8), (338, 5)] } })

/-- A BND watch with no channels whose samples are all in, and a silent SEQ watch. -/
theorem test_signal_checks : (kindState 5 id).dev.checks = true ∧ 2 ≤ (kindState 5 id).dev.wdKind 5 ∧
    ((kindState 5 id).dev.frameStart 7 + (kindState 5 id).dev.len) / 16 ≤ 100000 ∧
    ((after (.signalCheckResult 5 7) (kindState 5 (fun d => { d with sig := { d.sig with blocks := 100000 } }))).dev.jobOf 5 7).any
      (fun i => i.status == 2) = true ∧
    (after (.windowEvaluation 0) (kindState 5 id)).dev.sig.blocks = 1 ∧
    silent.dev.seqLive 5 = 5 ∧ silent.dev.livePast 5 7 = true ∧ (silent.dev.jobIn 5 7).arrivals = 0 ∧ (silent.dev.jobIn 5 7).fail = none ∧
    ((after (.livenessLimit 5 7) silent).dev.jobIn 5 7).fail = some (15, 0) := by
  decide +kernel

def stencilState (f : Dev → Dev) : State := kindState 7 (fun d => f (d.putStn 5 (some ⟨8, 0, false, false⟩)))

/-- Work that no budget holds. -/
def overloaded (d : Dev) : Dev := { d with plan := { d.plan with carried := 100000000 } }

theorem test_stencils : (stencilState id).dev.stnInst 5 = some ⟨8, 0, false, false⟩ ∧ (stencilState id).dev.sendDue 5 = true ∧
    (stencilState id).dev.stnWaits 8 5 = false ∧ (stencilState id).dev.stnDemand 8 5 = [] ∧
    ((stencilState id).dev.projectedOver [5] (stencilState id).dev.plan.waste == []) = true ∧
    (after (.stencilSendPoint 5) (stencilState id)).dev.stnInst 5 = some ⟨8, 0, false, true⟩ ∧
    ((stencilState overloaded).dev.projectedOver [5] (stencilState overloaded).dev.plan.waste == []) = false ∧
    (after (.stencilSendPoint 5) (stencilState overloaded)).dev.stnInst 5 = some ⟨9, 1, false, false⟩ := by decide +kernel

/-- Window 255 expects tasks 0 and 31 of master 0 in every tick. -/
def windowFlds : List (Fld × Nat) := [(SWD.CFG_EN 255, 1), (SWD.EXPECT_EXPECT 255, 0x80000001), (TCK.FRAME_NO_FRAME_NO, 8)]
def windowState (done : Nat) : State := on (up ((SWD.TIME_CLOSE 255, 16) :: windowFlds ++ running)) (fun d => d.putWin 255 (some ⟨8, done, 0, false⟩))
/-- The same window a sample tick after the boundary, where it closes. -/
def closing (done : Nat) : State := on (windowState done) (fun d => { d with now := 100000 })

theorem test_windows : (on (windowState 0) (fun d => d.putWin 255 none)).dev.winDue 255 8 = true ∧ (windowState 0).dev.openPast 255 8 = true ∧
    (windowState 0).dev.closePast 255 8 = false ∧ (closing 0).dev.closePast 255 8 = true ∧ (windowState 0).dev.access 0 .s = true ∧
    (after (.swdCheckin 0 (65536 * 255 + 31)) (closing 0)).dev.winInst 255 = some ⟨8, 0, 0, false⟩ ∧
    (after (.stageWindowOpen 255 8) (on (windowState 0) (fun d => d.putWin 255 none))).dev.winInst 255 = some ⟨8, 0, 0, false⟩ ∧
    (windowState 0).dev.fld (SWD.CFG_SRC 255) = 0 ∧ (windowState 0).dev.fld (SWD.CFG_MID 255) = 0 ∧
    (after (.swdCheckin 0 (65536 * 255 + 31)) (windowState 0)).dev.winInst 255 = some ⟨8, 0x80000000, 0, false⟩ ∧
    (after (.swdCheckin 0 (65536 * 255 + 30)) (windowState 0)).dev.winInst 255 = some ⟨8, 0x40000000, 0x40000000, false⟩ ∧
    (after (.swdCheckin 1 (65536 * 255 + 31)) (windowState 0)).dev.winInst 255 = some ⟨8, 0, 0, false⟩ ∧
    (after (.stageWindowClose 255) (closing 1)).dev.isSet 351 = true ∧
    (after (.stageWindowClose 255) (closing 1)).dev.fld (SWD.LAST_MISS_MISSING 255) = 0x80000000 ∧
    (after (.stageWindowClose 255) (closing 0x80000001)).dev.winInst 255 = none := by decide +kernel

/-- A PLAN operation of two tiles for the fallback of slot 0. -/
def op : ArrOp := ⟨List.replicate 16 9, .fallback 0 7, 0, 0, true, 2, 0, false, 0, none, 0, 0, 0, 0⟩
def arrState (waits : List ArrOp) (runs : Option (ArrQueue × ArrOp)) : State :=
  on (up [(MEM.HBM_STAT_TRAINED, 1)]) (fun d => { d with arr := { d.arr with plan := waits, running := runs, stage := waits.head?.map (·.owner) } })

theorem test_array : (arrState [op] none).dev.nextPlan = some op ∧ (arrState [op] none).dev.checks = true ∧
    (arrState [op] none).dev.operandFault (arrState [op] none).mem op = none ∧ (arrState [op] none).mem.marked .double ((arrState [op] none).dev.opWeights op) = [] ∧
    (after (.arrayOperationIssue none true) (arrState [op] none)).dev.arr.running = some (.plan, { op with clk := (arrState [op] none).dev.clocksOf op }) ∧
    (after (.arrayOperationIssue none true) (arrState [op] none)).dev.on MTX.STAT_BUSY = true ∧
    (after (.tileBoundary true ⟨false, .sound⟩) (arrState [] (some (.plan, op)))).dev.arr.running = some (.plan, { op with done := 1 }) ∧
    (after (.tileBoundary false agreedTile) (arrState [] (some (.plan, op)))).dev.arr.running = none ∧
    (after (.arrayOperationComplete true true 9) (arrState [] (some (.plan, { op with done := 2 })))).dev.on MTX.EXC_SAT = true ∧
    (after (.arrayOperationComplete true true 9) (arrState [] (some (.plan, { op with done := 2 })))).dev.on MTX.EXC_NONFINITE = true ∧
    tabGet false (after (.arrayOperationComplete false true 0) (arrState [] (some (.plan, { op with done := 2 })))).dev.snag.held (key2 1 78) = true := by
  decide +kernel

/-- A BACKGROUND operation of three tiles, which gives way to a PLAN one, goes on with the records it left, and stops where they differ. -/
def bgOp : ArrOp := { op with owner := .build 3, tiles := 3 }
def suspended : State := on (arrState [] none) (fun d => { d with arr := { d.arr with suspended := some { bgOp with done := 1 } } })

theorem test_array_background : (arrState [op] (some (.background, bgOp))).dev.nextPlan = some op ∧ suspended.dev.nextPlan = none ∧
    suspended.dev.bgAllowed = true ∧
    (after (.tileBoundary true agreedTile) (arrState [op] (some (.background, bgOp)))).dev.arr.running = none ∧
    (after (.tileBoundary true agreedTile) (arrState [op] (some (.background, bgOp)))).dev.on MTX.STAT_SUSPENDED = true ∧
    tabGet false (after (.tileBoundary true ⟨false, .sound⟩) (arrState [op] (some (.background, bgOp)))).dev.snag.held (key2 0 78) = true ∧
    (after (.arrayOperationIssue none true) suspended).dev.arr.running.map (·.1) = some .background ∧
    tabGet false (after (.arrayOperationIssue none false) suspended).dev.snag.held (key2 0 78) = true ∧
    tabGet false (after (.arrayOperationComplete true false 0) (arrState [] (some (.background, { bgOp with done := 3 })))).dev.snag.held (key2 0 77) = true := by
  decide +kernel

/-- A RUN model in slot 0: A (2 × 3) and B (3 × 2) in INT8 and an INT32 bias are parameters; tensor 3 takes the output. -/
def smallModel : Model := { Model.empty with
  state := 2, kind := 1, flags := 2, nIn := 1, nOut := 1, tensors := [(6, 0, 3, 0), (6, 0, 3, 8), (8, 3, 3, 16), (16, 3, 0, 0)], io := [3, 3],
  params := [1, 2, 3, 255, 254, 127, 0, 0, 5, 6, 7, 128, 9, 10, 0, 0] ++ leBytes 4 1000 ++ leBytes 4 4294966296 }
/-- GEMM with INT8 operands and ACC = INT32 (R161): handles of tensors 0, 1 and 3, `ctl` beyond the opcode and ACC. -/
def gemmDesc (ctl c0 : Nat) : List Nat :=
  [0x100001 + ctl, 0x00010001, 2, 0, modelHandle 5 1, modelHandle 5 2, modelHandle 5 4, modelHandle 5 3, 0, c0, 0, 0, 0, 0, 0, 7]
def gemmState (ctl c0 : Nat) : State :=
  on (up [(MEM.HBM_STAT_TRAINED, 1), (SGT.FB_MODEL_ID 0, 5)]) (fun d =>
    { d.putModel 5 smallModel with arr := { (d.putModel 5 smallModel).arr with running := some (.plan, { op with desc := gemmDesc ctl c0, done := 2, last := false }) } })

/-- The sums of products by hand: 38, 872, −80 and 1380; with the bias 1000 and −1000 into INT32 (R153), and times 0.5 into FP16. -/
theorem test_gemm :
    tabGet [] (after (.arrayOperationComplete true true 0) (gemmState 0x430000 0)).dev.arr.tensors (tensorKey 5 3 false) =
      [1038, 4294967168, 920, 380].flatMap (leBytes 4) ∧
    tabGet [] (after (.arrayOperationComplete true true 0) (gemmState 0x70000 0x3F000000)).dev.arr.tensors (tensorKey 5 3 false) =
      [0x4CC0, 0x5ED0, 0xD100, 0x6164].flatMap (leBytes 2) ∧
    (after (.arrayOperationComplete true true 0) (gemmState 0x430000 0)).dev.on MTX.EXC_SAT = false := by decide +kernel

/-- Steps and roundings by hand (R152, R153, R174, R175): 1 + 2^-24 to even, ∞ − ∞, −1/3 to BF16 upward and downward, 464 to E4M3, saturation of
INT32, half away from zero, and the second segment of a table at 0.5. -/
theorem test_array_arithmetic : add32 (Fl.word 0x3F800000) (Fl.word 0x33800000) = (Fl.word 0x3F800000, 0) ∧
    add32 (.inf false) (.inf true) = (.nan, 2) ∧ ((Fl.word 0xBEAAAAAB).toFmt 6 1 false).1.bits 6 0 = 0xBEAA ∧
    ((Fl.word 0xBEAAAAAB).toFmt 6 2 false).1.bits 6 0 = 0xBEAB ∧ ((Fl.ofInt 464).toFmt 4 0 false).1.bits 4 0 = 0x7E ∧
    ((Fl.ofInt 465).toFmt 4 0 true).1.bits 4 0 = 0x7E ∧ ((Fl.ofInt 465).toFmt 4 0 false).1 = .nan ∧
    sumInt 32 0 [2147483647, 1] = (2147483647, 8) ∧ requant (leBytes 4 0x40000000 ++ [0, 0] ++ leBytes 2 5 ++ leBytes 2 65436 ++ leBytes 2 100) (-3) = 3 ∧
    pwl ([0xBF800000, 0x3F800000].flatMap (leBytes 4) ++ [2, 0, 0, 0, 0, 0, 0, 0] ++ [0x3F800000, 0, 0x40000000, 0x3F000000].flatMap (leBytes 4)) 0
      (Fl.word 0x3F000000) = (Fl.word 0x3FC00000, 0) := by decide +kernel

/-- Values known without the model: σ(0), √9, log2 8, a quarter turn, the softmax of two equal elements, erf and tanh at 0, and a row whose deviations
are ±1 with ε = 3. -/
theorem test_real_functions : funcReal 4 .zero = fxOne / 2 ∧ natSqrt 9 = 3 ∧ natSqrt 15 = 3 ∧ (Dy.ofInt 8).log2 = 3 * fxOne ∧ cosTurn 1 4 = 0 ∧
    cosTurn 1 2 = -fxOne ∧ softReal [.zero, .zero] 1 = fxOne / 2 ∧ fxErf 0 = 0 ∧ fxTanh 0 = 0 ∧
    normReal false [.ofInt 4, .ofInt 6] (.ofInt 3) 0 = some (-(fxOne / 2)) := by decide +kernel

/-- Four bytes within cluster 0's SRAM, tensor 256 of the SYSTEM context, from offset 16 to offset 64. -/
def dma (dropped : Bool) : DmaDesc := ⟨0, 0xCFFC0100, 16, 0xCFFC0100, 64, 4, 0, 0, 0, dropped, none⟩
def dmaEnv (m : Mem) : XltEnv := ⟨0, m, lineBad m, []⟩
def dmaState (l : List DmaDesc) : State :=
  { on (up [(MEM.HBM_STAT_TRAINED, 1)]) (fun d => d.putRing 3 .plan l) with
    mem := ⟨[(clusterBase 0 + 16, 1), (clusterBase 0 + 17, 2), (clusterBase 0 + 18, 3), (clusterBase 0 + 19, 4)], []⟩ }

theorem test_posts : (after (.dmaDescriptorPost 9 3 .plan []) (dmaState [])).dev.ring 3 .plan = [dmaOf 9 ((dmaState []).dev.ctxOwner 0 .plan) []] ∧ (dmaState []).dev.access 9 (clusterDie 3) = true ∧
    (dmaState (List.replicate 256 (dma false))).dev.reach (clusterDie 3) = true ∧
    (after (.dmaDescriptorPost 9 3 .plan []) (dmaState (List.replicate 256 (dma false)))).dev.resp = .error ∧
    (after (.dmaDescriptorPost 10 3 .plan []) (dmaState [])).dev.resp = .error ∧
    (dmaState [dma true]).dev.ring 3 .plan = [dma true] ∧ (dma true).dropped = true ∧ (dmaState []).dev.reach .x = true := by decide +kernel

theorem test_transfer : MemoryKept (dmaState [dma false]) ∧ (dmaState [dma false]).dev.dmaInvalid (dmaEnv (dmaState [dma false]).mem) (dma false) = false ∧
    (dmaState [dma false]).dev.dmaHbm (dmaEnv (dmaState [dma false]).mem) (dma false) = false ∧
    tabGet [] (dmaState [dma false]).dev.memsys.undo (ringKey 3 .plan) = [] ∧ (dmaState [dma false]).dev.memsys.xlt = [] ∧
    (List.range 4).any (fun i => lineBad (dmaState [dma false]).mem (clusterBase 0 + 16 + i)) = false ∧
    (dmaState [dma false]).dev.moveUnits (dmaEnv (dmaState [dma false]).mem) (dma false) 1 ((dma false).units 1) =
      ((List.range 4).map (fun i => (clusterBase 0 + 16 + i, clusterBase 0 + 64 + i)), none) ∧
    (after (.dmaDescriptorComplete 3 .plan []) (dmaState [dma false])).dev.fld (MEM.DMA_STAT_LAST_STATUS 3) = 0 ∧
    ((List.range 5).map (fun i => (after (.dmaDescriptorComplete 3 .plan []) (dmaState [dma false])).mem.byte (clusterBase 0 + 64 + i))) = [1, 2, 3, 4, 0] := by
  unfold MemoryKept
  decide +kernel

/-- Page 7 is being retired in favour of page 262 143. -/
def retiring : State := on (up []) (fun d => { d with memsys := { d.memsys with retires := [⟨7, 0, 0, true, 262143⟩] } })

theorem test_memory_registers : retiring.dev.memsys.retires.find? (fun r => r.started && r.page == 7) = some ⟨7, 0, 0, true, 262143⟩ ∧
    (after (.memPageRetired 7) retiring).dev.fld MEM.SPARE_USED = 1 ∧ tabGet 0 (after (.memPageRetired 7) retiring).dev.memsys.standIn 262143 = 7 ∧ (after (.memXltInv 0x10007) (up [])).dev.on MEM.XLT_INV_ALL = true ∧
    (after .xltInvalidateDone (after (.memXltInv 7) (up []))).dev.on MEM.XLT_INV_BUSY = false ∧
    (after (.memErrClr 1) (up [(MEM.UE_INFO_VALID, 1), (MEM.XF_INFO_VALID, 1)])).dev.on MEM.UE_INFO_VALID = false ∧
    (after (.memErrClr 1) (up [(MEM.UE_INFO_VALID, 1), (MEM.XF_INFO_VALID, 1)])).dev.on MEM.XF_INFO_VALID = true := by decide +kernel

/-! Links. -/

/-- Port 3 in a state, with a change to it. -/
def port3 (state : Nat) (f : LinkPort → LinkPort) : State :=
  on (up [(FJL.CTRL_EN, 8), (FJL.P_STAT_STATE 3, state), (TCK.FRAME_NO_FRAME_NO, 8), (TCK.CTRL_RUN, 1)]) (fun d => d.putLink 3 (f (d.link 3)))

theorem test_port_enable : bit ((up []).dev.fld FJL.CTRL_EN) 3 = false ∧ (after (.fjlPortEnable 3) (up [])).dev.linkSt 3 = 1 ∧
    (after (.fjlPortEnable 3) (up [])).dev.fld FJL.CTRL_EN = 8 ∧ (after (.fjlPortDisable 3) (port3 7 id)).dev.linkSt 3 = 0 ∧
    (after (.fjlPortEnable 3) (port3 7 id)).dev.linkSt 3 = 7 ∧ (after (.fjlPortDisable 3) (up [])).dev.resp = .done ∧
    (after (.fjlPortEnable 3) (on (up []) (fun d => (d.putLink 3 { LinkPort.reset with wasDown := true }).putFails 3 2))).dev.trainFails 3 = 0 ∧
    (after (.fjlPortEnable 3) (on (up []) (fun d => d.putFails 3 2))).dev.trainFails 3 = 2 := by decide +kernel

/-- A CONFIG that agrees, and one that does not. -/
def config : List Nat := [65536, 0, 0, 0, 256, 32, 32, 65536]

theorem test_training : (after (.trainingStateExit 3 0 false []) (port3 4 id)).dev.linkSt 3 = 5 ∧
    (after (.trainingStateExit 3 0 false []) (port3 5 id)).dev.linkSt 3 = 6 ∧ (after (.trainingStateExit 3 0 false []) (port3 5 id)).dev.linkEpoch 3 = 1 ∧
    (port3 6 id).dev.configAgrees 3 config = true ∧ (after (.trainingStateExit 3 0 false config) (port3 6 id)).dev.linkSt 3 = 7 ∧
    (port3 6 id).dev.configAgrees 3 [] = false ∧ (after (.trainingStateExit 3 0 false []) (port3 8 id)).dev.linkSt 3 = 1 ∧
    (after (.trainingTimeout 3) (port3 2 id)).dev.linkSt 3 = 1 ∧
    (after (.trainingTimeout 3) (on (port3 6 id) (fun d => d.putFails 3 2))).dev.linkSt 3 = 9 := by decide +kernel

theorem test_retrain : (after (.blockLockLoss 3) (port3 7 id)).dev.linkSt 3 = (if (port3 7 id).dev.fastRetrain 3 then 8 else 1) ∧
    (after (.resetBlock 3 1) (port3 7 id)).dev.linkSt 3 = 5 ∧ (after (.resetBlock 3 1) (port3 8 id)).dev.linkEpoch 3 = 1 ∧
    (after (.fjlCmdRetrain 3) (port3 9 id)).dev.linkSt 3 = 1 ∧ tabGet false (after (.fjlCmdRetrain 3) (port3 7 id)).dev.snag.held (key2 1 359) = true ∧
    (after (.fjlCmdReset 3) (port3 8 id)).dev.linkSt 3 = 5 ∧ ((after (.fjlCmdReset 3) (port3 8 id)).dev.link 3).resetSent = 2 ∧
    (after (.clrPeer 3) (up [(FJL.P_PEER_VALID 3, 1), (FJL.P_PEER_CODE 3, 9)])).dev.fld (FJL.P_PEER_CODE 3) = 0 := by decide +kernel

/-- One record sent and not covered. -/
def sent (l : LinkPort) : LinkPort := { l with replay := [(2, 0, { okRecord with vc := 2 })], txSeq := [(2, 1)] }

theorem test_credits_and_acks : (after (.credit 3 3 65535) (port3 7 id)).dev.link 3 = { LinkPort.reset with txLimit := [(3, 65535)] } ∧
    ((port3 7 sent).dev.link 3).covered 2 1 = some 1 ∧ ((after (.ack 3 2 1 false) (port3 7 sent)).dev.link 3).replay = [] ∧
    tabGet none ((after (.nack 3 2 0 1 false) (port3 7 sent)).dev.link 3).nacks 2 = some 0 ∧
    ((after (.nack 3 2 0 1 false) (port3 7 (fun l => { sent l with nacks := [(1, some 0), (3, some 0)] }))).dev.link 3).txQueue.length = 1 ∧
    ((port3 7 sent).dev.link 3).covered 2 9 = none ∧ (after (.ack 3 2 9 false) (port3 7 sent)).dev.linkSt 3 = 5 ∧
    (after (.nack 3 2 9 4 false) (port3 7 sent)).dev.linkSt 3 = 5 ∧ (after (.mark 3 1 false) (port3 7 id)).dev.linkSt 3 = 5 ∧
    (after (.mark 3 0 true) (port3 7 id)).dev.linkSt 3 = 7 := by decide +kernel

/-- A record waits, and its channel has credits. -/
def waiting (l : LinkPort) : LinkPort := { l with txQueue := [{ okRecord with vc := 2 }], txLimit := [(2, 16)] }

theorem test_transmission : (port3 7 waiting).dev.fjlArmed 3 2 = false ∧ ((port3 7 waiting).dev.link 3).txQueue.find? (fun r => ((port3 7 waiting).dev.link 3).startable.contains r)
      = some { okRecord with vc := 2 } ∧ ((after (.recordTransmit 3) (port3 7 waiting)).dev.link 3).txQueue = [] ∧
    tabGet 0 ((after (.recordTransmit 3) (port3 7 waiting)).dev.link 3).txSeq 2 = 1 ∧
    ((after (.serviceRowTransmit 3) (port3 7 (fun l => { l with rotation := 7 }))).dev.link 3).rotation = 0 ∧
    ((after (.serviceRowTransmit 3) (port3 7 (fun l => { l with framingLost := true }))).dev.link 3).lastRow.getD 0 0 = 0x55 := by decide +kernel

/-- The record of `dataRec` with its trailer. -/
def goodRec : LinkRecord := { dataRec with trailer := trailerOf 0 (headerBytes dataRec ++ dataRec.payload) }

theorem test_reception : (port3 7 id).dev.headerOk 3 goodRec = true ∧ recCredits 4 ≤ ((port3 7 id).dev.link 3).rxFree false 0 ∧
    ((after (.recordReceived 3 goodRec) (port3 7 id)).dev.link 3).held = [goodRec] ∧ dataRec.trailer ≠ goodRec.trailer ∧
    ((port3 7 id).dev.link 3).losses + 1 < (port3 7 id).dev.retryMax 3 ∧
    ((after (.recordReceived 3 dataRec) (port3 7 id)).dev.link 3).framingLost = true ∧
    ((after (.recordReceived 3 dataRec) (port3 7 id)).dev.link 3).cause = 1 := by decide +kernel

/-- A record waits whose trailer check came in its window. -/
def held (r : LinkRecord) (l : LinkPort) : LinkPort := { l with held := [r], inTime := [true] }
def untimely (l : LinkPort) : LinkPort := { held dataRec l with inTime := [false] }

theorem test_delivery : (port3 7 (held dataRec)).dev.heldRec 3 0 1 = some dataRec ∧ (port3 7 (held dataRec)).dev.timely 3 dataRec = true ∧
    (after (.data 3 0) (port3 7 (held dataRec))).dev.fld (FJL.P_DROP_STRAY 3) = 1 ∧
    (port3 7 untimely).dev.timely 3 dataRec = false ∧ (after (.data 3 0) (port3 7 untimely)).dev.fld (FJL.P_DROP_WINDOW 3) = 1 ∧
    ((after (.recordReceived 3 goodRec) (port3 7 id)).dev.link 3).inTime = [true] ∧
    ((after (.heartbeat 3) (port3 7 (held { okRecord with kind := 0x12, vc := 1 }))).dev.link 3).held = [] ∧
    ((after (.checkin 3) (port3 7 (held { okRecord with kind := 0x13, vc := 1 }))).dev.link 3).held = [] ∧
    (after (.identRsp 3) (port3 7 (held { okRecord with kind := 0x21, vc := 3, payload := List.replicate 64 1 }))).dev.fld (FJL.P_IDENT_IDENT 3 15) = 0x01010101 ∧
    (after (.peerAlert 3) (port3 7 (held { okRecord with kind := 0x22, vc := 3, frame := 7, arg := 9 }))).dev.fld (FJL.P_PEER_CODE 3) = 9 := by decide +kernel

/-- The record's watch serves its port, and the record is handed on. -/
def served : State := kindState 1 (fun d => (((d.put FJL.CTRL_EN 1).put (FJL.P_STAT_STATE 0) 7).putLink 0 { LinkPort.reset with held := [dataRec], inTime := [true] }))

theorem test_handed_on : (served.dev.namedWatch 0 5 7 && served.dev.takesData 5 0 7) = true ∧ served.dev.timely 0 dataRec = true ∧
    ((after (.data 0 0) served).dev.link 0).deliver = [dataRec] := by decide +kernel

/-! Mailboxes, CRC channels and lockstep pairs. -/

/-- Channel 63 binds masters 1 and 2, and side A's queue holds some words. -/
def mbxFlds : List (Fld × Nat) := [(MBX.BIND_EN 63, 1), (MBX.BIND_MID_A 63, 1), (MBX.BIND_MID_B 63, 2), (MBX.BIND_DB_AUTO_A 63, 1)]
def mbx (n : Nat) : State := on (up mbxFlds) (fun d =>
  { d with cores := { d.cores with mbx := tabSet MbxSide.zero d.cores.mbx 126 { MbxSide.zero with out := List.replicate n ⟨5, 0, 0⟩ } } })

/-- Pair 2 has retired an instruction that no comparison covers. -/
def ahead : State := on (mbx 1) (fun d => { d with cores := { d.cores with pairs := tabSet .locked d.cores.pairs 2 { Pair.locked with misrMain := 1 } } })

theorem test_mailbox : (mbx 0).dev.access 1 .s = true ∧ (mbx 0).dev.mbxView 1 63 = some 126 ∧ (mbx 0).dev.on MBX.INJ_ARM = false ∧ (mbx 7).dev.mbxSide 126 = { MbxSide.zero with out := List.replicate 7 ⟨5, 0, 0⟩ } ∧
    ((after (.mbxTx 1 63 9) (mbx 7)).dev.mbxSide 126).out.length = 8 ∧ ((after (.mbxTx 1 63 9) (mbx 7)).dev.mbxSide 127).dbIn = true ∧
    (after (.mbxTx 1 63 9) (mbx 8)).dev.resp = .error ∧ ((after (.mbxTx 1 63 9) (mbx 8)).dev.mbxSide 126).overflow = 1 ∧
    (mbx 8).dev.mbxView 2 63 = some 127 ∧ (after (.mbxRx 2 63) (mbx 1)).dev.resp = .value 5 ∧ ((after (.mbxRx 2 63) (mbx 1)).dev.mbxSide 126).consumed = 1 ∧
    (after (.mbxRx 2 63) (mbx 0)).dev.resp = .value 0 ∧ ((mbx 1).dev.compares 2 && ((mbx 1).dev.pairOf 2).uncompared) = false ∧
    (ahead.dev.compares 2 && (ahead.dev.pairOf 2).uncompared) = true ∧ ((after (.mbxRx 2 63) ahead).dev.pairOf 2).loads = [MBX.RX 63] ∧
    ((after (.mbxRx 2 63) ahead).dev.mbxSide 126).out.length = 1 := by decide +kernel

/-- Side A's queue is full and nothing has moved for longer than ACK_TIMEOUT. -/
def stalled : State := on (mbx 8) (fun d =>
  { d with now := 100000000, cores := { d.cores with mbx := tabSet MbxSide.zero d.cores.mbx 127 { MbxSide.zero with out := List.replicate 8 ⟨5, 0, 0⟩ } } })

theorem test_mailbox_bells : ((after (.mbxDbRing 1 63) (mbx 0)).dev.mbxSide 127).dbIn = true ∧ ((mbx 0).dev.mbxSide 126).ringAt ≠ some (mbx 0).dev.now ∧
    ((after (.mbxDbClear 2 63) (on (after (.mbxDbRing 1 63) (mbx 0)) (fun d => { d with now := 1 }))).dev.mbxSide 127).dbIn = false ∧
    stalled.dev.mbxStalled 63 = true ∧ (after (.mbxStall 63) stalled).dev.isSet 488 = true ∧ (mbx 0).dev.mbxView 3 63 = none ∧
    (after (.mbxTx 3 63 0) (mbx 0)).dev.isSet 489 = true ∧ (after (.mbxRx 3 63) (mbx 0)).dev.resp = .error ∧
    (after (.mbxDbRing 3 63) (mbx 0)).dev.resp = .error ∧ (on (mbx 0) (fun d => d.put (LCK.P_STAT_STATE 3) 4)).dev.access 3 .s = false ∧
    (after (.mbxTx 3 63 0) (on (mbx 0) (fun d => d.put (LCK.P_STAT_STATE 3) 4))).dev.isSet 489 = false ∧ (after (.mbxDbClear 3 63) (mbx 0)).dev.isSet 489 = true := by decide +kernel

/-- Channel 63 belongs to master 1 and checks; INIT is 7. -/
def crc (l : List (Fld × Nat)) : State := up ([(CRC.OWNER_EN 63, 1), (CRC.OWNER_MID 63, 1), (CRC.INIT_LO_INIT 63, 7), (CRC.CFG_MODE 63, 1)] ++ l)

theorem test_crc : (crc []).dev.access 1 .s = true ∧ (crc []).dev.on (CRC.CFG_FOLD_SEQ 63) = false ∧ (crc []).dev.on (CRC.CFG_FOLD_ADDR 63) = false ∧
    (after (.crcStart 1 63) (crc [])).dev.on (CRC.STAT_BUSY 63) = true ∧ ((crc []).dev.crcOf 63).result = none ∧
    ((crc []).dev.on (CRC.CFG_MODE 63) && (crc []).dev.on (CRC.CFG_STRIP 63)) = false ∧ (after (.crcData 1 63 5) (crc [])).dev.fld (CRC.STAT_WORDS 63) = 1 ∧
    ((after (.crcStart 1 63) (crc [])).dev.crcOf 63).open_ = true ∧
    ((after (.crcEnd 1 63 4) (after (.crcStart 1 63) (crc []))).dev.crcOf 63).result.isSome = true ∧
    (after (.crcBlockDone 63) (on (crc []) (fun d => { d with cores := { d.cores with crc := [(63, { CrcBlock.idle with result := some (3, 3) })] } }))).dev.on
      (CRC.STAT_MATCH 63) = true ∧
    (after (.crcRunWrite 1 63 false 9) (crc [])).dev.fld (CRC.RUN_LO_RUN 63) = 9 ∧
    (after (.crcRunWrite 1 63 true 9) (crc [(CRC.STAT_BUSY 63, 1)])).dev.isSet 0 = true ∧ (after (.crcStart 0 63) (crc [])).dev.resp = .error ∧
    (after (.crcData 0 63 1) (crc [])).dev.resp = .error ∧ (after (.crcEnd 0 63 4) (crc [])).dev.resp = .error := by decide +kernel

/-- Pair 9 in a state, with its copies as given. -/
def pair9 (state : Nat) (x : Pair) : State := on (up [(LCK.P_STAT_STATE 9, state)]) (fun d => { d with cores := { d.cores with pairs := tabSet .locked d.cores.pairs 9 x } })

/-- A store of pair 9 waits; its copies have come to the MISRs given. -/
def storing (main chk : Nat) : Pair := { Pair.locked with misrMain := main, misrChk := chk, stores := [.mem (clusterBase 0) 7] }
def noBus : PairBus := ⟨[], none⟩

theorem test_lockstep : (pair9 0 .locked).dev.pairState 9 = 0 ∧ (runCore [.store (.mem (clusterBase 0) 7), .load 1] 0 [5] 31).stores = [.mem (clusterBase 0) 7] ∧
    (hbmSize ≤ clusterBase 0 ∧ clusterBase 0 < memEnd ∧ (pair9 0 .locked).dev.access 9 .c0 = true ∧ (pair9 0 .locked).dev.reach .c0 = true) ∧
    (memPlace (clusterBase 0)).2.2.2 = .c0 ∧
    (after (.lockstepCompare 9 [] [] false noBus none) (pair9 0 (storing 3 3))).mem.byte (clusterBase 0) = 7 ∧
    ((after (.lockstepCompare 9 [] [] false noBus none) (pair9 0 (storing 3 3))).dev.pairOf 9).misrMain = 0 ∧
    (after (.lockstepCompare 9 [] [] false noBus none) (pair9 0 { Pair.locked with haltReq := true })).dev.pairState 9 = 6 ∧
    (pair9 0 .locked).dev.on LCK.INJ_ARM = false ∧
    (after (.lockstepCompare 9 [] [] false noBus none) (pair9 0 (storing 3 4))).dev.pairState 9 = 1 ∧
    (after (.lockstepCompare 9 [] [] false noBus none) (pair9 0 (storing 3 4))).mem.byte (clusterBase 0) = 0 ∧
    (after (.lockstepCompare 9 [] [] false noBus none) (pair9 4 (storing 3 3))).mem.byte (clusterBase 0) = 0 ∧
    (after (.selftestSliceDone 9 true true) (pair9 1 .locked)).dev.pairState 9 = 0 ∧ ((pair9 1 .locked).dev.pairCfg 9).2.1 = 0 ∧
    (after (.selftestSliceDone 9 true false) (pair9 1 .locked)).dev.pairState 9 = 2 := by decide +kernel

theorem test_debug : (after (.debugResume 9 [] none) (pair9 6 .locked)).dev.pairState 9 = 0 ∧
    ((after (.debugAction 9 (.write 1 2) []) (pair9 6 .locked)).dev.pairOf 9).replay = [.write 1 2] ∧
    (after (.debugAction 9 (.write 1 2) []) (pair9 6 { Pair.locked with replay := List.replicate 256 (.write 0 0) })).dev.resp = .error ∧
    ((after (.debugHalt 9) (on (up [(SEC.STATE_DEBUG_OPEN, 1)]) (fun d => { d with boot := { d.boot with debugScope := 512 } }))).dev.pairOf 9).haltReq = true := by
  decide +kernel

/-- The function of the MISR is free (log entry 107): where it tells the address 64 from no instruction, a checker copy that does not retire it differs. -/
theorem test_debug_misr (h : misrIn 0 64 ≠ 0) :
    (runCore ([DebugAct.step [] [.retire 64]].flatMap DebugAct.events) 0 [] 32).misr ≠ (runCore [] 0 [] 32).misr := by
  simpa [runCore, DebugAct.events] using h

theorem test_unfence : lckWriter 1 9 = true ∧ (pair9 4 .locked).dev.reach (pairDie 9) = true ∧ (pair9 4 .locked).dev.pairSplit 9 = false ∧
    (after (.unfence 1 9 true true) (pair9 4 { Pair.locked with mainFenced := true, chkFenced := true })).dev.pairState 9 = 0 ∧
    ((after (.pairReset 1 9) (pair9 0 { Pair.locked with stores := [.mem 0 1] })).dev.pairOf 9).stores = [] ∧ lckWriter 0 9 = false ∧
    (after (.unfence 0 9 true true) (pair9 4 .locked)).dev.resp = .error ∧ (after (.pairReset 0 9) (pair9 4 .locked)).dev.resp = .error := by
  decide +kernel

/-! Sample I/O, Ethernet and time. -/

/-- Port 5 enabled with a clock role, its lock and its measurement. -/
def tdm (clk locked measured : Nat) : State :=
  on (up [(SGT.CTRL_PORT_EN, 32), (SGT.P_CFG_CLK 5, clk), (SGT.P_STAT_LOCKED 5, locked), (SGT.IN_EN 127, 1), (SGT.IN_UNIT 127, 5)]) (fun d =>
    d.putTdm 5 { TdmPort.reset with measured := measured, phase := 3 })

theorem test_port_lock : (up []).dev.tdmEn 5 = false ∧ (after (.sgtPortEnable 5) (up [])).dev.tdmEn 5 = true ∧
    (after (.sgtPortEnable 5) (up [(SGT.P_CFG_CLK 5, 0)])).dev.on (SGT.P_STAT_LOCKED 5) = true ∧
    (after (.sgtPortEnable 5) (up [(SGT.P_CFG_CLK 5, 1)])).dev.on (SGT.P_STAT_LOCKED 5) = false ∧ (tdm 1 1 0).dev.tdmEn 5 = true ∧
    (after (.sgtPortDisable 5) (tdm 1 1 0)).dev.tdmEn 5 = false ∧ (after (.sgtPortDisable 5) (tdm 1 1 0)).dev.on (SGT.P_STAT_MUTED 5) = true ∧
    ((after (.tdmInputFrame 5 (some 3) false []) (tdm 1 0 0)).dev.tdm 5).measured = 1 ∧ (tdm 1 0 15).dev.samePhase 5 3 = true ∧
    ((after (.tdmInputFrame 5 (some 5) false []) (tdm 1 0 15)).dev.tdm 5).measured = 16 ∧
    ((after (.tdmInputFrame 5 (some 6) false []) (tdm 1 0 15)).dev.tdm 5).measured = 0 ∧
    ((after (.tdmInputFrame 5 (some 3) true []) (tdm 1 0 15)).dev.tdm 5).measured = 0 ∧ (after (.portLock 5) (tdm 1 0 16)).dev.on (SGT.P_STAT_LOCKED 5) = true ∧
    (after (.portLock 5) (tdm 1 0 15)).dev.on (SGT.P_STAT_LOCKED 5) = false := by decide +kernel

theorem test_port_frames : (after (.tdmInputFrame 5 none false []) (tdm 1 1 16)).dev.isSet 389 = true ∧
    (after (.tdmInputFrame 5 none false []) (tdm 1 1 16)).dev.fld (SGT.P_STAT_CLKFAULTS 5) = 1 ∧ (tdm 1 1 16).dev.samePhase 6 3 = false ∧
    (after (.tdmInputFrame 5 (some 6) false []) (tdm 1 1 16)).dev.on (SGT.P_STAT_LOCKED 5) = false ∧
    (tdm 0 1 0).dev.fld (SGT.IN_LAG 127) ≤ (tdm 0 1 0).dev.gate.tick ∧ (tdm 0 1 0).dev.fld (SGT.IN_SLOT 127) ≤ (tdm 0 1 0).dev.fld (SGT.P_CFG_SLOTS_M1 5) ∧
    tabGet none (after (.tdmInputFrame 5 (some 0) false [0xFFFFFFFF]) (tdm 0 1 0)).dev.gate.inputs (inKey 127 0) = some (-1) ∧
    tabGet none (after (.tdmInputFrame 5 (some 5) false [7]) (tdm 1 1 16)).dev.gate.inputs (inKey 127 0) = some 7 := by decide +kernel

/-- Listener 15 takes stream 9 on port 0. -/
def listening (now : Nat) : State := on (up [(AVT.CTRL_LIST_EN, 32768), (AVT.L_CFG_PORTS 15, 1), (AVT.L_ID_LO_ID 15, 9), (AVT.L_STAT_LOCKED 15, 1)])
  (fun d => { d with now := now })
def aaf (seq : Nat) : AafPacket := ⟨0, 9, (listening 0).dev.fld (AVT.L_CFG_FMT 15), nsrOf ((listening 0).dev.fld TCK.FRAME_FS_SEL), seq, 0,
  List.replicate ((listening 0).dev.fld (AVT.L_CFG_SPP_M1 15) + 1) (List.replicate ((listening 0).dev.fld (AVT.L_CFG_CHANS_M1 15) + 1) 0)⟩

theorem test_listener : (listening 5).dev.reach .x = true ∧ (listening 5).dev.aafMatches 15 (aaf 255) = true ∧
    tabGet 0 (after (.avtpListenerPacket 15 (aaf 255)) (listening 5)).dev.gate.listenAt 15 = 5 ∧
    (after (.avtpListenerPacket 15 (aaf 255)) (listening 5)).dev.fld (AVT.L_CNT_SEQ_GAP 15) = 1 ∧
    (after (.avtpListenerPacket 15 (aaf 0)) (listening 5)).dev.fld (AVT.L_CNT_SEQ_GAP 15) = 0 ∧
    (listening 5).dev.aafMatches 15 { aaf 0 with id := 8 } = false ∧ (after (.avtStreamLost 15) (listening 600000)).dev.on (AVT.L_STAT_LOCKED 15) = false ∧
    tabGet false (after (.avtStreamLost 15) (listening 600000)).dev.snag.held (key2 2 407) = true ∧
    (after (.avtStreamLost 15) (listening 599999)).dev.on (AVT.L_STAT_LOCKED 15) = true := by decide +kernel

theorem test_core_loss : (quiet [(TWN.CTRL_PAIR, 1), (TWN.STAT_OWN_OUT, 1)]).dev.ladder.coreLost = false ∧
    (after .sCoreLoss (quiet [(TWN.CTRL_PAIR, 1), (TWN.STAT_OWN_OUT, 1)])).dev.on TWN.STAT_OWN_OUT = false ∧
    (after .sCoreLoss (quiet [(SGT.P_STAT_VALID 5, 1)])).dev.on (SGT.P_STAT_VALID 5) = false ∧ (after .sCoreLoss (quiet [])).dev.isSet 6 = true ∧
    (after .sCoreLoss (quiet [])).dev.on SNG.STAT_SAFE = true ∧
    (after .sCoreLoss (on (quiet []) (fun d => { d with ladder := { d.ladder with coreLost := true } }))).dev.isSet 6 = false := by decide +kernel

/-- Port 1 enabled with a link. -/
def eth (l : List (Fld × Nat)) : State := up ([(ETH.CTRL_EN, 2), (ETH.P_STAT_LINK 1, 1), (ETH.P_CFG_MAXFRM 1, 1522), (ETH.P_STAT_SPEED 1, 3)] ++ l)

def ptpFlds : List (Fld × Nat) := [(TIM.PTP_CFG_EN 1, 1), (TIM.PTP_CFG_PORT 1, 1)]

theorem test_eth_receive : (eth []).dev.portUp 1 = true ∧ (after (.ethLinkChange 1 false 0) (eth [])).dev.on (ETH.P_STAT_LINK 1) = false ∧
    tabGet false (after (.ethLinkChange 1 false 0) (eth [])).dev.snag.held (key2 2 417) = true ∧
    (after (.ethLinkChange 1 true 3) (eth [])).dev.fld (ETH.P_STAT_SPEED 1) = 3 ∧
    (after (.ethFrameReceived 1 { okFrame with len := 63 }) (eth [])).dev.fld (ETH.P_RX_ERR_COUNT 1) = 1 ∧ (eth []).dev.matchFilter ((eth []).dev.classify okFrame) = none ∧
    (after (.ethFrameReceived 1 okFrame) (eth [])).dev.net.received = some ((eth []).dev.classify okFrame) ∧
    (eth ptpFlds).dev.carriesPtp 1 = true ∧ (eth ptpFlds).dev.matchFilter ((eth ptpFlds).dev.classify { okFrame with kind := .pdelayReq }) = none ∧
    (tabGet [] (after (.ethFrameReceived 1 { okFrame with kind := .pdelayReq }) (eth ptpFlds)).dev.net.queues (key2 1 7)).length = 2 ∧
    (eth [(ETH.SF_ID_HI_EN 63, 1), (ETH.SF_ACT_GATE_OPEN 63, 0)]).dev.matchFilter
      ((eth []).dev.classify okFrame) = some 63 ∧
    (after (.ethFrameReceived 1 okFrame) (eth [(ETH.SF_ID_HI_EN 63, 1), (ETH.SF_ACT_GATE_OPEN 63, 0)])).dev.fld (ETH.SF_DROP_COUNT 63) = 1 ∧
    (after (.ethFrameReceived 1 okFrame) (eth [(ETH.P_MS_CTRL_EN 1, 1)])).dev.fld (ETH.P_MS_CNT_DROP 1) = 1 := by decide +kernel

/-- A recovery function with a history, 10 ms after its last frame. -/
def recovering (now : Nat) : State := on (eth [(ETH.CBR_CFG_EN 31, 1), (ETH.CBR_CFG_TIMEOUT 31, 10)]) (fun d =>
  { d with now := now, net := { d.net with hist := [(31, some ⟨5, [0], 1, 0⟩)] } })

theorem test_eth_answers : tabGet none (after (.cbRecoveryTimeout 31) (recovering 6000000)).dev.net.hist 31 = none ∧
    (tabGet none (after (.cbRecoveryTimeout 31) (recovering 5999999)).dev.net.hist 31).isSome = true ∧ (eth [(ETH.IP4_ADDR, 7)]).dev.ownAddr false 7 = true ∧
    (tabGet [] (after (.neighbourSolicitation 1 false 7) (eth [(ETH.IP4_ADDR, 7)])).dev.net.queues (key2 1 ((eth []).dev.fld ETH.IP_CFG_PCP))).length = 1 ∧
    (tabGet [] (after (.echoRequest 1 false 7 [1]) (eth [(ETH.IP4_ADDR, 7), (ETH.IP_CFG_ICMP_EN, 1)])).dev.net.queues (key2 1 ((eth []).dev.fld ETH.IP_CFG_PCP))).length
      = 1 ∧ (after (.echoRequest 1 false 7 [1]) (eth [(ETH.IP4_ADDR, 7), (ETH.IP_CFG_ICMP_EN, 0)])).dev.net.queues = [] ∧
    (eth [(ETH.IP4_ADDR, 7)]).dev.ownAddr false 8 = false ∧ (after (.neighbourSolicitation 1 false 8) (eth [(ETH.IP4_ADDR, 7)])).dev.net.queues = [] := by
  decide +kernel

/-- A list of one entry and a cycle of 1 ms, pending for time 0. -/
def gclFlds (cycle : Nat) : List (Fld × Nat) :=
  [(ETH.P_GATE_CTRL_ADMIN_LEN 1, 1), (ETH.P_GATE_CYCLE_CYCLE 1, cycle), (ETH.P_GCL_GATES_GATES 1 0, 5), (ETH.P_GCL_INT_INTERVAL 1 0, 10)]
def gcl (at_ : Int) : State := on (eth (gclFlds 1000000)) (fun d => { d with net := { d.net with change := [(1, some at_)] } })

theorem test_gates : (after (.gateControlGo 1) (eth (gclFlds 1000))).dev.on (ETH.P_GATE_STAT_PENDING 1) = true ∧
    (after (.gateControlGo 1) (eth (gclFlds 999))).dev.on (ETH.P_GATE_STAT_ERR 1) = true ∧
    tabGet false (after (.gateControlGo 1) (eth (gclFlds 999))).dev.snag.held (key2 2 419) = true ∧
    (0 : Int) ≤ (gcl 0).dev.gateNow ((gcl 0).dev.fld (ETH.P_GATE_CTRL_TBSEL 1)) ∧ tabGet 255 (after (.gateListAdopt 1) (gcl 0)).dev.net.gates 1 = 5 ∧
    (after (.gateListAdopt 1) (gcl 0)).dev.fld (ETH.P_GATE_STAT_OPER_LEN 1) = 1 ∧ (after (.gateListAdopt 1) (gcl 1)).dev.fld (ETH.P_GATE_STAT_OPER_LEN 1) = 0 ∧
    (tabGet GateList.none (after (.gateEntryIntervalEnd 1) (on (eth []) (fun d =>
      { d with net := { d.net with oper := [(1, ⟨[(1, 0), (2, 0)], 1000, 0, 0, 0⟩)] } }))).dev.net.oper 1).index = 1 ∧
    (tabGet GateList.none (after (.gateEntryIntervalEnd 1) (on (eth []) (fun d =>
      { d with net := { d.net with oper := [(1, ⟨[(1, 5), (2, 0)], 1000, 0, 0, 0⟩)] } }))).dev.net.oper 1).index = 0 ∧
    (after (.preemptionVerify 1 true) (eth [(ETH.P_PRE_EN 1, 1)])).dev.on (ETH.P_STAT_PRE_ACTIVE 1) = true := by decide +kernel

theorem test_macsec : ((after (.macsecInstall 1) (on (eth []) (fun d => { d.putKeyReg 1 0 77 with net := { (d.putKeyReg 1 0 77).net with keySel := [(1, 19)] } }))).dev.sa 1 19).isSome
      = true ∧ (after (.macsecInstall 1) (on (eth []) (fun d => d.putKeyReg 1 0 77))).dev.keyReg 1 0 = 0 ∧
    (after (.txAnSelect 1 3) (eth [])).dev.fld (ETH.P_MS_CTRL_TX_AN 1) = 3 := by decide +kernel

/-- A status frame waits in class 7 since cycle 0. -/
def queued (now : Nat) (ms pn : Nat) : State := on (eth [(ETH.P_MS_CTRL_EN 1, ms)]) (fun d => { d with now := now, net := { d.net with
  queues := [(key2 1 7, [⟨[], 64, some 0, false, false, none, none, none, none⟩])], sas := [(key2 1 0, some ⟨[], [], 0, pn, 0⟩)] } })

theorem test_eth_transmit : (queued 0 0 0).dev.drainOutbox.net.queues = (queued 0 0 0).dev.net.queues ∧ ((queued 0 0 0).dev.drainOutbox.credits 1).mayStart 1 7 = true ∧
    (after (.ethFrameTransmit 1) (queued 0 0 0)).dev.net.queues = [] ∧ (after (.ethFrameTransmit 1) (queued 0 0 0)).dev.fld (ETH.P_TX_FRAMES_COUNT 1) = 1 ∧
    ((eth []).dev.drainOutbox.credits 1).mayStart 1 0 = false ∧ (after (.ethFrameTransmit 1) (eth [])).dev.fld (ETH.P_TX_FRAMES_COUNT 1) = 0 ∧
    ((after (.ethFrameTransmit 1) (queued 0 1 6)).dev.sa 1 0) = some ⟨[], [], 0, 7, 0⟩ ∧
    tabGet false (after (.ethFrameTransmit 1) (queued 0 1 18446744069414584320)).dev.snag.held (key2 2 421) = true ∧
    (after (.ethStatusLate 1) (queued 120001 0 0)).dev.fld ETH.STATUS_STAT_LATE = 1 ∧ tabGet false (after (.ethStatusLate 1) (queued 120001 0 0)).dev.snag.held (key2 2 424) = true ∧
    (after (.ethStatusLate 1) (queued 120000 0 0)).dev.fld ETH.STATUS_STAT_LATE = 0 := by decide +kernel

theorem test_status_timer : (up []).dev.cmd.held = none ∧
    (after .safetyStatusTimer (on (up [(ETH.SD_CFG_EN 3, 1)]) (fun d => { d with now := 600000 }))).dev.cmd.statusAt = 600000 ∧
    (after .safetyStatusTimer (on (up [(ETH.SD_CFG_EN 3, 1)]) (fun d => { d with now := 600000 }))).dev.cmd.outbox.map (fun m => (m.dest, m.opcode)) = [(3, 14)] ∧
    (after .safetyStatusTimer (on (up [(ETH.SD_CFG_EN 3, 1)]) (fun d => { d with now := 599999 }))).dev.cmd.outbox = [] := by decide +kernel

/-- Time base 3 of INDEPENDENT mode stands at 2^32 + 1 s and 5 ns. -/
def tb3 (l : List (Fld × Nat)) : State := on (up ((TIM.CTRL_MODE, 1) :: l)) (fun d => d.putTb 3 { TimeBase.zero with val := ⟨4294967297, 5, 0⟩ })

theorem test_tb_latch : (tb3 []).dev.reach .x = true ∧ (tb3 []).dev.access 9 .x = true ∧ ((tb3 []).dev.compares 9 && ((tb3 []).dev.pairOf 9).uncompared) = false ∧
    (after (.tbLatchRead ⟨9, 3⟩) (tb3 [])).dev.resp = .value 5 ∧ ((after (.tbLatchRead ⟨9, 3⟩) (tb3 [])).dev.busRead 9 (TIM.TB_SEC_LO 3) 4).resp = .value 1 ∧
    ((after (.tbLatchRead ⟨9, 3⟩) (tb3 [])).dev.busRead 9 (TIM.TB_SEC_HI 3) 4).resp = .value 1 ∧ ((tb3 []).dev.busRead 9 (TIM.TB_SEC_HI 3) 4).resp = .value 0 ∧
    ((tb3 []).dev.busRead 9 (TIM.TB_NS 3) 4).resp = .value 5 := by decide +kernel

theorem test_tb_step : ((after (.timTbStep 3 0xFFFFFFFA) (tb3 [])).dev.tb 3).val = ⟨4294967296, 999999999, 0⟩ ∧
    ((after (.timTbStep 0 7) (up [])).dev.tbAt 3).val = ⟨0, 7, 0⟩ ∧ (after (.timTbStep 3 7) (up [])).dev.resp = .done ∧
    (after (.timTbStep 3 7) (tb3 [(TIM.TB_CFG_SRC 3, 1)])).dev.isSet 0 = true ∧
    (tb3 (running ++ [(TIM.TICK_CFG_TBSEL, 3), (TIM.TICK_CFG_LOCK_EN, 1)])).dev.stepForbidden 3 = true ∧
    (after (.timeBaseSrcWrite 3 0x104) (tb3 [])).dev.fld (TIM.TB_STAT_STATE 3) = 1 ∧ (after (.timeBaseSrcWrite 3 0x104) (tb3 [])).dev.fld (TIM.TB_CFG_REVERT_S 3) = 1 ∧
    (after (.timeBaseSrcWrite 3 5) (tb3 [])).dev.resp = .rejected := by decide +kernel

theorem test_captures : (after (.captureEdge 3 true 16) (tb3 [(TIM.CAP_CFG_EN 3, 1), (TIM.CAP_CFG_EDGE 3, 1), (TIM.CAP_CFG_TBSEL 3, 3)])).dev.caps 3 = [⟨true, 4294967297, 5⟩] ∧
    (after (.captureEdge 3 true 15) (tb3 [(TIM.CAP_CFG_EN 3, 1), (TIM.CAP_CFG_EDGE 3, 1)])).dev.caps 3 = [] ∧
    (after (.captureEdge 3 false 16) (on (up [(TIM.CAP_CFG_EN 3, 1), (TIM.CAP_CFG_EDGE 3, 2)]) (fun d => d.putCaps 3 (List.replicate 16 ⟨false, 0, 0⟩)))).dev.fld
      (TIM.CAP_STAT_OVF 3) = 1 ∧
    (after (.capNsRead ⟨9, 3⟩) (on (up []) (fun d => d.putCaps 3 [⟨true, 1, 2⟩]))).dev.resp = .value 3221225474 ∧
    (after (.capSecHiRead ⟨9, 3⟩) (on (up []) (fun d => d.putCaps 3 [⟨true, 1, 2⟩]))).dev.fld (TIM.CAP_STAT_COUNT 3) = 0 ∧
    (after (.capNsRead ⟨9, 3⟩) (up [])).dev.resp = .value 0 := by decide +kernel

/-- SYNC output 3 pulses every 10 ns from time 0 on. -/
def syncing (l : List (Fld × Nat)) : State := up ([(TIM.SYNC_CFG_MODE 3, 1), (TIM.SYNC_PERIOD_NS 3, 10), (TIM.SYNC_WIDTH_NS 3, 4)] ++ l)

theorem test_sync : (syncing []).dev.syncInstant 3 0 = some 0 ∧ tabGet ⟨0, false⟩ (after (.syncEdge 3) (syncing [])).dev.time.syncs 3 = ⟨1, true⟩ ∧
    (syncing [(TIM.SYNC_START_NS_START 3, 1)]).dev.syncInstant 3 0 = some 1 ∧ (after (.syncEdge 3) (syncing [(TIM.SYNC_START_NS_START 3, 1)])).dev.time.syncs = [] ∧
    (up []).dev.syncInstant 3 0 = none := by decide +kernel

/-- Change the times of a state. -/
def timed (s : State) (f : Time → Time) : State := on s (fun d => { d with time := f d.time })

/-- An instance with fifteen Syncs in, and one that has been good for a second. -/
def young : PtpInst := { PtpInst.zero with syncs := 15, known := true, annGap := 600000000 }
def good : PtpInst := ⟨16, 599999999, 600000000, 599999999, 600000000, 0, 0, 0, true⟩

/-- Instance 1 is enabled on port 0, and its grandmaster is known. -/
def ptp1 : State := timed (up [(TIM.PTP_CFG_EN 1, 1), (TIM.PTP_GM_LO_GM 1, 5)]) (fun x => { x with ptp := [(1, young)], linkDelay := [(0, some 800)] })

theorem test_ptp : syncGapOk 18750000 = true ∧ (after (.ptpSync 1 7 0 18750000) ptp1).dev.on (TIM.PTP_STAT_VALID 1) = true ∧
    ((after (.ptpSync 1 7 0 18749999) ptp1).dev.ptp 1).syncs = 15 ∧ ((after (.ptpSync 1 7 0 600000000) (up [])).dev.ptp 1).syncs = 0 ∧
    (after (.ptpAnnounce 1 6 9) ptp1).dev.fld (TIM.PTP_STAT_GM_CHANGES 1) = 1 ∧ ((after (.ptpAnnounce 1 6 9) ptp1).dev.ptp 1).syncs = 0 ∧
    ((after (.ptpAnnounce 1 5 9) ptp1).dev.ptp 1).syncs = 15 ∧ tabGet none (after (.pdelay 1 ⟨0, 8000, 9000, 17000⟩) (up [])).dev.time.linkDelay 1 ≠ none ∧
    (after (.ptpSync 0 7 0 18750000) (on (up [(TIM.PTP_CFG_EN 0, 1), (TIM.INJ_ARM, 1)]) (fun d => { d with time := { d.time with loseSync := true } }))).dev.on TIM.INJ_ARM
      = false := by decide +kernel

/-- Time base 0 follows instance 0, which was valid, with SRC A or A_B. -/
def losing (src : Nat) (l : List (Fld × Nat)) : State := up ([(TIM.PTP_STAT_VALID 0, 1), (TIM.TB_CFG_SRC 0, src)] ++ l)

theorem test_sync_loss : (losing 1 []).dev.ptpGood 0 = false ∧ (losing 1 []).dev.follows 0 = some 0 ∧ (losing 1 []).dev.fallbackInst 0 = none ∧
    (after (.timSyncLoss 0) (losing 1 [])).dev.fld (TIM.TB_STAT_STATE 0) = 3 ∧ tabGet false (after (.timSyncLoss 0) (losing 1 [])).dev.snag.held (key2 2 426) = true ∧
    (losing 3 [(TIM.PTP_STAT_VALID 1, 1), (TIM.DELTA_NS_VALID, 1), (TIM.DELTA_NS_NS, 9)]).dev.deltaHeld = some 9 ∧
    (after (.timSyncLoss 0) (losing 3 [(TIM.PTP_STAT_VALID 1, 1), (TIM.DELTA_NS_VALID, 1), (TIM.DELTA_NS_NS, 9)])).dev.follows 0 = some 1 ∧
    ((after (.timSyncLoss 0) (losing 3 [(TIM.PTP_STAT_VALID 1, 1), (TIM.DELTA_NS_VALID, 1), (TIM.DELTA_NS_NS, 9)])).dev.tbAt 0).held = -9 ∧
    (after (.timSyncLoss 0) (up [])).dev.snag.held = [] := by decide +kernel

/-- Both instances are good, and time base 3 has followed the other for a second. -/
def reverting (secs : Nat) : State :=
  on (timed (up [(TIM.CTRL_MODE, 1), (TIM.PTP_CFG_EN 0, 1), (TIM.PTP_CFG_EN 1, 1), (TIM.PTP_CFG_PORT 1, 1),
    (TIM.PTP_STAT_VALID 0, 1), (TIM.TB_CFG_SRC 3, 3), (TIM.TB_STAT_ON_ALT 3, 1), (TIM.TB_CFG_REVERT_S 3, secs)])
    (fun x => { x with ptp := [(0, good), (1, good)], linkDelay := [(0, some 800), (1, some 800)] })) (fun d => { d with now := 600000000 })

theorem test_revert : (reverting 1).dev.revertDue 3 = true ∧ (after (.timeBaseRevert 3) (reverting 1)).dev.on (TIM.TB_STAT_ON_ALT 3) = false ∧
    (reverting 2).dev.revertDue 3 = false ∧ (after (.timeBaseRevert 3) (reverting 2)).dev.on (TIM.TB_STAT_ON_ALT 3) = true := by decide +kernel

/-! Boot and security. -/

/-- An environment whose fuses name an owner. -/
def owned : BootEnv := { okEnv with fuses := { Fuses.blank with owner0 := (1, 1) } }

/-- A state in cycle 5 with no restart pending. -/
def due (f : Dev → Dev) : State := on (quiet [(WDG.RESET_CAUSE_CAUSE, 9)]) (fun d => f { d with now := 5 })

/-- The conditions of each reset. What a boot leaves depends on values that are left open, and is shown by proof alone. -/
theorem test_resets : (due id).dev.boot.flashTc = [] ∧ (due id).dev.dead = false ∧ (due id).dev.snag.restart = none ∧ owned.flashTc = none ∧
    (due (fun d => { d with cmd := { d.cmd with restartAt := some (5, 2) } })).dev.cmd.restartAt = some ((due id).dev.now, 2) ∧
    (due (fun d => d.flag PWR.RST_WRST_EN true)).dev.on PWR.RST_WRST_EN = true ∧ trusted 18 = true ∧
    (due (fun d => d.flag SEC.STATE_DEBUG_OPEN true)).dev.on SEC.STATE_DEBUG_OPEN = true ∧
    (after (.wrstPin owned) (due (fun d => d.flag PWR.RST_WRST_EN false))).dev.fld WDG.RESET_CAUSE_CAUSE = 9 ∧
    (after (.sCoreRecovery owned) (due id)).dev.fld WDG.RESET_CAUSE_CAUSE = 9 ∧ (after (.warmRestart owned) (due id)).dev.fld WDG.RESET_CAUSE_CAUSE = 9 ∧
    (after (.debugExpire owned) (due id)).dev.fld WDG.RESET_CAUSE_CAUSE = 9 ∧
    (after (.restartDelayExpiry owned) (due id)).dev.fld WDG.RESET_CAUSE_CAUSE = 9 := by decide +kernel

theorem test_no_owner : (up []).dev.boot.fuses = .blank ∧ okEnv.fuses = .blank ∧
    (after .xspiRelease (on (up []) (fun d => { d with now := 6000000, boot := { d.boot with haltAt := some 0 } }))).dev.boot.xspiReleased = true ∧
    (after .xspiRelease (on (up []) (fun d => { d with now := 5999999, boot := { d.boot with haltAt := some 0 } }))).dev.boot.xspiReleased = false := by
  decide +kernel

/-- A trial 14 s after step 5, with TRIAL_S at a value. -/
def trial (secs : Nat) : State := on (up [(SEC.BOOT_STAT_TRIAL, 1), (SEC.BOOT_SEL_TRIAL, 1), (SEC.BOOT_SEL_NEXT, 1), (SEC.CTRL_TRIAL_S, secs)]) (fun d =>
  { d with now := 8400000001 })

theorem test_boot_done : (up []).dev.boot.haltAt = none ∧ (up []).dev.on SEC.STATE_BOOT_DONE = false ∧ (trial 15).dev.trialOpen = true ∧
    (trial 15).dev.trialLate = false ∧ (after (.bootDone 0) (up booted)).dev.isSet 0 = true ∧
    (after (.bootDone 2) (up [])).dev.resp = .error ∧ (trial 14).dev.trialLate = true ∧ (after .trialTimeout (trial 14)).dev.fld SEC.BOOT_SEL_NEXT = 0 ∧
    (after .trialTimeout (trial 14)).dev.boot.revertDue = true := by decide +kernel

theorem test_slots_and_fuses : (after (.secBootSelWrite 18 0x101) (up [])).dev.fld SEC.BOOT_SEL_NEXT = 1 ∧
    (after (.secBootSelWrite 18 0x101) (up [])).dev.on SEC.BOOT_SEL_TRIAL = true ∧
    (after (.arbAdvance 0 true) (up [(SEC.STATE_MAINT, 1), (SEC.ARB_FW_STEP, 3)])).dev.boot.fuses.arb = (7, 7) ∧
    (after (.arbAdvance 0 false) (up [(SEC.STATE_MAINT, 1), (SEC.ARB_FW_STEP, 3)])).dev.isSet 522 = true ∧
    (after (.arbAdvance 0 true) (up [(SEC.ARB_FW_STEP, 3)])).dev.resp = .discarded ∧ (after (.arbAdvance 2 true) (up [])).dev.resp = .error ∧
    (after (.secBootSelWrite 2 1) (up [])).dev.resp = .error ∧ (after (.newChal 2) (up [])).dev.resp = .error := by decide +kernel

theorem test_entropy : (up []).dev.on SEC.INJ_ARM = false ∧ (after (.entropyHealthTest true) (up [])).dev.on SEC.STATE_ENTROPY_OK = true ∧
    (after (.entropyHealthTest false) (up [])).dev.isSet 518 = true ∧ tabGet false (after (.entropyHealthTest false) (up [])).dev.snag.cause 518 = true := by
  decide +kernel

/-! Health, power and the twin. -/

def margin (l : List (Fld × Nat)) : State := up ([(HLN.CTRL_MARGIN_EN, 1), (HLN.MARGIN_SLACK_CRIT, 10), (HLN.MARGIN_SLACK_LOW, 20)] ++ l)

theorem test_sensors : (margin []).dev.hlnOn = true ∧ (margin []).dev.on HLN.INJ_ARM = false ∧ (margin []).dev.reach (slackDie 63) = true ∧
    (after (.hairlineSample (List.replicate 64 300)) (margin [])).dev.fld (HLN.SLACK_NOW 63) = 255 ∧
    (after (.hairlineSample (List.replicate 64 3)) (margin [(HLN.SLACK_MIN 63, 2)])).dev.fld (HLN.SLACK_MIN 63) = 2 ∧
    (margin []).dev.reach (tempDie 15) = true ∧ outsidePct 900 ((margin []).dev.railNominal 8) 6 = true ∧
    tabGet false (after (.voltageSample 8 900 true) (margin [])).dev.snag.held (key2 2 584) = true ∧
    (after (.voltageSample 11 0 false) (margin [])).dev.on (HLN.VMON_FAIL 11) = true ∧ (up [(HLN.CTRL_MARGIN_EN, 0)]).dev.hlnOn = false ∧
    (after (.voltageSample 11 0 false) (up [(HLN.CTRL_MARGIN_EN, 0)])).dev.on (HLN.VMON_FAIL 11) = false := by decide +kernel

/-- 0x7FFF is above the limit of every grade. -/
theorem test_temperature : (margin []).dev.tempLimit < signedOf 16 0x7FFF := by
  unfold Dev.tempLimit
  split <;> decide

theorem test_margin_loop : (margin [(HLN.SLACK_NOW 43, 9)]).dev.worst = (9, 43) ∧
    (margin [(HLN.SLACK_NOW 43, 9)]).dev.fld HLN.FREQ_MIN_MHZ < (margin [(HLN.SLACK_NOW 43, 9)]).dev.fld HLN.FREQ_CUR_MHZ ∧
    (after .marginLoop (margin ((HLN.SLACK_NOW 43, 9) :: running))).dev.health.step = some ((up []).dev.fld HLN.FREQ_CUR_MHZ - 25, 1) ∧
    (after .marginLoop (margin [(HLN.SLACK_NOW 43, 9), (HLN.FREQ_CUR_MHZ, 5), (HLN.FREQ_MIN_MHZ, 5)])).dev.isSet 578 = true ∧
    (margin [(HLN.SLACK_NOW 43, 19), (HLN.VOLT_VMAX, 900), (HLN.CTRL_VSTEP, 5), (HLN.PMB_EN 0, 1), (HLN.PMB_DIE 0, 1)]).dev.regulated 1 = true ∧
    (after .marginLoop (margin [(HLN.SLACK_NOW 43, 19), (HLN.VOLT_VMAX, 900), (HLN.CTRL_VSTEP, 5), (HLN.PMB_EN 0, 1), (HLN.PMB_DIE 0, 1)])).dev.health.command
      = some (1, 805) := by decide +kernel

/-- A rail is being commanded to 805 mV. -/
def commanded : State := on (up [(HLN.CTRL_VSTEP, 5)]) (fun d => { d with health := { d.health with command := some (1, 805), slotDue := true } })

theorem test_pmbus_and_slots : (after (.pmbusTransactionDone true 815) commanded).dev.rail 1 = 805 ∧
    (after (.pmbusTransactionDone false 805) commanded).dev.isSet 579 = true ∧ commanded.dev.slotRan = true ∧
    (after (.selftestSegmentDone true true 0) commanded).dev.fld HLN.ST_STAT_POS = 1 ∧
    (after (.selftestSegmentDone true true 0) (on commanded (fun d => d.put HLN.ST_STAT_POS 2293))).dev.fld HLN.ST_STAT_POS = 0 := by decide +kernel

theorem test_clocks : (up []).dev.pwrArmed 2 = false ∧ (up []).dev.mclkOut 0 = true ∧ (after (.mclkMeasure 0) (up running)).dev.isSet 705 = true ∧
    (after (.mclkMeasure (mclkHz ((up []).dev.fld TCK.FRAME_FS_SEL))) (up running)).dev.on PWR.CLK_STAT_MCLK_OK = true ∧
    (after .pwrRefclkSys (up [])).dev.isSet 704 = true ∧ tabGet false (after .refclkSysReturn (after .pwrRefclkSys (up []))).dev.snag.cause 704 = false ∧
    (after (.pllLockLoss 9) (up [(PWR.CLK_STAT_LOCKED, 1023)])).dev.fld PWR.CLK_STAT_LOCKED = 511 ∧
    (after (.pllRelock 9) (up [(PWR.CLK_STAT_LOCKED, 0)])).dev.fld PWR.CLK_STAT_LOCKED = 512 ∧ (after (.strapChange true) (up [])).dev.isSet 716 = true ∧
    (after (.supplyLoss 4) (up [])).dev.isSet 10 = true ∧ (after (.supplyLoss 8) (quiet [])).dev.dead = true ∧
    (after (.supplyLoss 8) (quiet [])).dev.on SNG.STAT_SAFE = true := by decide +kernel

/-- Paired, BOND active, with a record held on it. -/
def paired (l : List (Fld × Nat)) (rs : List LinkRecord) (f : Twin → Twin) : State := on (up ((TWN.CTRL_PAIR, 1) :: l)) (fun d =>
  { d.putLink 4 { LinkPort.reset with bondState := 7, held := rs } with twin := f d.twin })

def twinRec (kind vc frame : Nat) (payload : List Byte) : LinkRecord := { okRecord with kind := kind, vc := vc, frame := frame, payload := payload }

theorem test_twin_records : (paired [] [twinRec 0x42 2 0 (List.replicate 32 4)] id).dev.heldRec 4 2 0x42 = some (twinRec 0x42 2 0 (List.replicate 32 4)) ∧
    (after .sync (paired [] [twinRec 0x41 1 7 (List.replicate 16 0)] id)).dev.twin.peerSync = some (7, 0) ∧
    (paired [] [] id).dev.rpPast 7 = false ∧ (paired [] [] id).dev.gate.lastRp = none ∧
    ((after .agree (paired [] [twinRec 0x40 0 7 (List.replicate 28 0)] id)).dev.twin.peer.map (·.frame)) = [7] ∧
    (paired ((TCK.FRAME_NO_FRAME_NO, 10) :: running) [] id).dev.rpPast 7 = true ∧
    (after .agree (paired ((TCK.FRAME_NO_FRAME_NO, 10) :: running) [twinRec 0x40 0 7 (List.replicate 28 0)] id)).dev.twin.peer = [] ∧
    ((after .handover (paired [(TWN.STAT_STATE, 4)] [twinRec 0x43 2 0 [9, 0, 0, 0, 1, 0, 0, 0]] id)).dev.twin.handover) = some ⟨9, false, true, none⟩ ∧
    (after .peerStateTimeout (on (paired [] [] (fun t => { t with stateFresh := true })) (fun d => { d with now := 600000 }))).dev.fld TWN.STAT_STATE = 1 := by
  decide +kernel

theorem test_twin_sends : ((after .stateSend (on (paired [] [] id) (fun d => { d with now := 150000 }))).dev.link 4).txQueue.map (·.kind) = [0x42] ∧
    (paired ([(TCK.FRAME_NO_FRAME_NO, 3), (TWN.STAT_STATE, 4)] ++ running) [] id).dev.joint = true ∧
    ((after .agreeDecision (paired ([(TCK.FRAME_NO_FRAME_NO, 3), (TWN.STAT_STATE, 4)] ++ running) [] id)).dev.twin.own.map (·.frame)) = [0] ∧
    (after (.twnCmdHandover 18) (paired [(TWN.STAT_STATE, 2), (TWN.PEER_STATE, 4)] [] id)).dev.twin.handover = some ⟨4, true, false, none⟩ ∧
    (after .giveBack (on (paired [(TWN.STAT_STATE, 2), (TWN.PEER_STATE, 4), (TWN.CFG_GIVE_BACK, 1), (TWN.CFG_PREFER_LEAD, 0), (TWN.GB_GB_S, 1)] []
      (fun t => { t with peerReadyFrom := some 0, peerPrefer := true })) (fun d => { d with now := 600000000 }))).dev.twin.handover = some ⟨4, true, false, none⟩ ∧
    (after (.twnCmdHandover 2) (paired [] [] id)).dev.resp = .error := by decide +kernel

theorem test_pairing : (after (.twnCtrlPair 0 1) (up [(PWR.STRAP_TWIN_EN, 1)])).dev.on TWN.CTRL_PAIR = true ∧
    (after (.twnCtrlPair 0 1) (up [(PWR.STRAP_TWIN_EN, 1)])).dev.fld TWN.STAT_STATE = 1 ∧ (after (.twnCtrlPair 0 1) (up [(PWR.STRAP_TWIN_EN, 0)])).dev.resp = .rejected ∧
    (after (.twnCtrlPair 0 0) (paired [] [] id)).dev.on TWN.STAT_OWN_OUT = true ∧ (after (.peerOkChange true) (up [(TWN.STAT_PEER_HB_OK, 1)])).dev.on TWN.STAT_PEER_OK = true ∧
    (after (.peerHbLoss true) (up [(TWN.STAT_PEER_OK, 1)])).dev.on TWN.STAT_PEER_HB_OK = true ∧ tabGet false (up []).dev.snag.cause 673 = false ∧
    (after (.peerOkChange false) (up [])).dev.isSet 673 = true ∧ (after (.peerHbLoss false) (up [])).dev.isSet 673 = true := by decide +kernel

/-! Requests, sessions, packets. -/

/-- A maintainer's session, and a device that is past BOOT_DONE with it open as session 1. -/
def host : Session := ⟨2, 3, 5, 6, 10, [9], 4, 0, [], 0, 0, [], []⟩
def srv (l : List (Fld × Nat)) (x : Session) (f : Dev → Dev) : State := on (up (booted ++ [(SEC.STATE_ENTROPY_OK, 1), (ETH.CMD_CTRL_MAX_SESS, 8)] ++ l))
  (fun d => f (d.withSession 1 (some x)))
def req (p : List Byte) : Req := ⟨1, 7, false, p⟩

/-- Decided form of `Claims.Admitted` for the session that is open. -/
def admits (s : State) (op : Nat) (r : Req) : Bool :=
  !s.dev.dead && s.dev.memsys.writes == [] && s.dev.endpoint && r.session != 0 &&
  match s.dev.session r.session with
  | none => false
  | some x => (x.cache.find? (fun c => c.reqId == r.reqId)).isNone && s.dev.underWay r.session x < 16
      && (!nonIdempotent.contains op || !s.dev.cacheFull x) && s.dev.refusal op r.reqId x r.payload == 0

theorem admits_admitted (s : State) (op : Nat) (r : Req) (h : admits s op r = true) : ∃ x, Claims.Admitted s op r x := by
  unfold admits at h
  split at h
  · simp at h
  next x hx =>
    refine ⟨x, ⟨?_, ?_, ?_, ?_, hx⟩, ⟨?_, ?_, ?_⟩, ?_⟩ <;> simp_all [Dev.cacheFull]
    intro m
    exact h.2.1.2.resolve_left (by simp [m])

/-- A payload in range for every request that has one. -/
def sample (op : Nat) : List Byte :=
  match op with
  | 0x06 => [7, 4, 0, 0] | 0x07 => [0, 0, 0, 9] | 0x08 => List.replicate 32 1
  | 0x10 => beBytes 4 (TIM.TB_NS 3) | 0x11 => beBytes 4 (SWD.EXPECT_EXPECT 255).addr ++ [0, 0, 0, 5]
  | 0x12 => beBytes 4 (SWD.EXPECT_EXPECT 255).addr ++ [0, 0, 0, 5, 0, 0, 0, 7] | 0x13 => beBytes 4 (TIM.TB_NS 3) ++ [0, 1, 0, 0]
  | 0x30 => [15, 255, 0, 0] ++ List.replicate 192 3 | 0x31 => [15, 255] | 0x32 => [0, 0, 0, 0, 0x40, 0, 15, 255] | 0x33 => [0, 80, 1, 0]
  | 0x34 => [15, 255, 0, 1] | 0x38 => [3, 0, 0, 0] | 0x39 => [3, 255] | 0x3A => [3, 255] | 0x60 => [3, 255] | 0x61 => [3, 255] | 0x62 => [0, 80, 0, 0]
  | 0x71 => [3, 0, 0, 0, 255, 255, 255, 255] | 0x72 => [3, 16] | 0x80 => [3, 0, 0, 0, 0, 0, 0, 0, 0, 0, 0, 0, 0, 0, 32, 0]
  | 0x81 => [3, 0, 0, 0, 0, 0, 0, 0, 0, 0, 5, 0] ++ List.replicate 1280 8 | 0x82 => [3] | 0x83 => [3] | 0x84 => [3, 1] | 0x85 => [1] | 0x86 => [0]
  | 0x88 => [3] | 0x89 => [3] | 0x8A => [63] | 0x91 => [0, 0, 0, 0] | 0xA0 => beBytes 4 TIM.INJ_ARM.addr ++ [0x80, 0, 0, 2]
  | _ => []

theorem test_requests_admitted :
    Claims.requests.all (fun c => admits (srv [] host id) c.1 (Claims.fixed c.2.1 (req (sample c.1)))) = true := by decide +kernel

def replies (t : State) : List (Nat × Nat × Nat) := t.dev.cmd.outbox.map (fun m => (m.opcode, m.status, m.seq))

/-- One request for each way to end: a reply, a pending operation and a wait for a capture. -/
theorem test_requests_answered : replies (after (.ping (req [])) (srv [] host id)) = [(0, 0, 5)] ∧
    replies (after (.twinPair (req [])) (srv [(PWR.STRAP_TWIN_EN, 1)] host id)) = [(0x92, 1, 5), (13, 0, 6)] ∧
    (after (.commit (req [])) (srv running host id)).dev.on TCK.COMMIT_STATUS_PENDING = true ∧
    replies (after (.commit (req [])) (srv running host id)) = [] := by decide +kernel

def kept : Session := { host with cache := [⟨7, 0, [], ⟨1, 0, false, 7, 0, [9], 0, 3, 0, (5, 6)⟩, 0⟩] }
def busy : Session := { host with ops := (List.range 16).map (fun i => ⟨i, 0x38, none⟩) }
def packed : Session := { host with cache := (List.range 64).map (fun i => ⟨i + 100, 0, [], ⟨1, 0, false, 7, 0, [9], 0, 3, 0, (5, 6)⟩, 0⟩) }

theorem test_requests_refused : replies (after (.ping { req [] with retry := true }) (srv [] kept id)) = [(0, 0, 5)] ∧
    replies (after (.ping (req [])) (srv [] kept id)) = [(0, 0x0105, 5)] ∧ replies (after (.ping (req [])) (srv [] busy id)) = [(0, 0x0104, 5)] ∧
    nonIdempotent.contains 0x14 = true ∧ replies (after (.commit (req [])) (srv [] packed id)) = [(0x14, 0x0104, 5)] ∧
    replies (after (.ping (req [1])) (srv [] host id)) = [(0, 0x0101, 5)] ∧
    replies (after (.ping { req [] with reqId := 0 }) (srv [] host id)) = [(0, 0x0102, 5)] ∧
    replies (after (.modelInfo (req [4, 0])) (srv [] host id)) = [(0x3A, 0x0102, 5)] ∧
    replies (after (.commit (req [])) (srv [] { host with role := 0 } id)) = [(0x14, 0x0103, 5)] ∧
    (srv [] host id).dev.session 2 = none ∧ replies (after (.ping { req [] with session := 2 }) (srv [] host id)) = [] := by decide +kernel

theorem test_read_requests : (host.ops.find? (fun o => o.reqId == 9)) = none ∧
    replies (after (.opQuery (req (sample 7))) (srv [] host id)) = [(7, 0x010E, 5)] ∧
    ((after (.opQuery (req (sample 7))) (srv [] { host with ops := [⟨9, 0x38, some 0x0203⟩] } id)).dev.cmd.outbox.map (·.payload)) = [[2, 3, 0, 0]] := by
  decide +kernel

theorem test_register_requests : replies (after (.regRead (req (sample 0x10))) (srv [] host id)) = [(0x10, 0, 5)] ∧
    (∃ v, ((Claims.entered (srv [] host id) (req (sample 0x12)) host).busRead 18 (SWD.EXPECT_EXPECT 255).addr 4).resp = .value v) ∧
    replies (after (.regReadBlock (req (sample 0x13))) (srv [] host id)) = [(0x13, 0, 5)] ∧
    replies (after (.regRead (req [1, 0, 0, 2])) (srv [] host id)) = [(0x10, 0x0107, 5)] ∧
    replies (after (.regModify (req (sample 0x12))) (srv [] host id)) = [(0x12, 0, 5)] ∧
    (after (.regModify (req (sample 0x12))) (srv [] host id)).dev.stagedFld (SWD.EXPECT_EXPECT 255) % 8 = 5 ∧
    replies (after (.regWrite (req (sample 0x11))) (srv [] host id)) = [(0x11, 0, 5)] ∧
    replies (after (.regWrite (req (beBytes 4 0x01000006 ++ [0, 0, 0, 5]))) (srv [] host id)) = [(0x11, 0x0107, 5)] ∧
    replies (after (.inject (req (sample 0xA0))) (srv [] host id)) = [(0xA0, 0, 5)] ∧
    replies (after (.inject (req (sample 0xA0))) (srv [(TIM.INJ_ARM, 1)] host id)) = [(0xA0, 0x0108, 5)] := by
  refine ⟨by decide +kernel, ⟨_, rfl⟩, ?_⟩
  decide +kernel

/-- Source 425 is set and its cause is absent. -/
def put425 (d : Dev) : Dev := { d with snag := { d.snag with set := tabSet false d.snag.set 425 true } }

theorem test_watch_requests : (srv [] host id).dev.descOpen 4095 = true ∧
    (after (.watchDefine (req (sample 0x30))) (srv [] host id)).dev.wd 4095 47 = 0x03030303 ∧
    (srv [] host (fun d => d.putWatch 4095 { d.watchOf 4095 with state := .running })).dev.descOpen 4095 = false ∧
    beAt (sample 0x32) 4 4 / 1073741824 = 1 ∧ (after (.armList (req (sample 0x32))) (srv [] host id)).dev.watch.staged = [⟨true, 4095⟩] ∧
    (srv running host id).dev.running = true ∧ (srv running host id).dev.capture = none ∧
    ((after (.logRead (req (sample 0x33))) (srv [(WCH.LOG_WR_WR, 1)] host (fun d => d))).dev.fld (logRd .verdict)) = 1 ∧
    (srv [] host id).dev.fld (logRd .fault) < logSize .fault ∧
    ((after (.faultClear (req [1, 169])) (srv [] host id)).dev.cmd.outbox.map (·.payload)) = [[2]] ∧
    (srv [] host put425).dev.isSet 425 = true ∧ (srv [] host put425).dev.causeNow 425 = false ∧ (srv [] host put425).dev.freshSource 425 = false ∧
    (after (.faultClear (req [1, 169])) (srv [] host put425)).dev.isSet 425 = false := by decide +kernel

theorem test_ladder_time_capture : replies (after (.ladderClear (req [])) (srv [(WDG.LADDER_LOCKED, 1)] host id)) = [(0x64, 0, 5)] ∧
    (after (.ladderClear (req [])) (srv [(WDG.LADDER_LOCKED, 1)] host id)).dev.on WDG.LADDER_LOCKED = false ∧
    replies (after (.ladderClear (req [])) (srv [] host id)) = [(0x64, 0x0106, 5)] ∧
    (srv [(TIM.CTRL_MODE, 1)] host id).dev.fld (TIM.TB_CFG_SRC 3) = 0 ∧ (srv [(TIM.CTRL_MODE, 1)] host id).dev.stepForbidden 3 = false ∧
    ((after (.timeStep (req (sample 0x71))) (srv [(TIM.CTRL_MODE, 1)] host (·.putTb 3 { TimeBase.zero with val := ⟨0, 5, 0⟩ }))).dev.tb 3).val.ns = 4 ∧
    (after (.timeStep (req (sample 0x71))) (srv [(TIM.TB_CFG_SRC 3, 1)] host id)).dev.isSet 0 = true ∧
    (srv (running ++ [(TIM.TICK_CFG_TBSEL, 3), (TIM.TICK_CFG_LOCK_EN, 1)]) host id).dev.stepForbidden 3 = true ∧
    ((after (.captureRead (req [3, 1])) (srv [] host (·.putCaps 3 [⟨true, 1, 2⟩, ⟨false, 3, 4⟩]))).dev.caps 3) = [⟨false, 3, 4⟩] ∧
    (after (.captureRead (req [3, 1])) (srv [] host (·.putCaps 3 [⟨true, 1, 2⟩, ⟨false, 3, 4⟩]))).dev.fld (TIM.CAP_STAT_COUNT 3) = 1 := by decide +kernel

/-- The last stage holds 2 560 bytes of a kind for session 1. -/
def staging (l : List (Fld × Nat)) (kind : Nat) (f : Dev → Dev) : State := srv l host (fun d =>
  f { d with cmd := { d.cmd with stages := tabSet none d.cmd.stages 3 (some ⟨1, kind, 2560, []⟩) } })

theorem test_stages : ((after (.imgOpen (req (sample 0x80))) (srv [] host id)).dev.cmd.stages) = [(0, some ⟨1, 3, 8192, []⟩)] ∧
    cdiv 65536 65536 ≤ (srv [] host id).dev.freePages ∧
    (after (.imgOpen (req [0, 0, 0, 0, 0, 0, 0, 0, 0, 0, 0, 0, 0, 1, 0, 0])) (srv [] host id)).dev.cmd.stages = [(0, some ⟨1, 0, 65536, []⟩)] ∧
    ((tabGet none (after (.imgChunk (req (sample 0x81))) (staging [] 3 id)).dev.cmd.stages 3).map (fun g => tabGet [] g.chunks 39))
      = some (List.replicate 64 8) ∧
    (after (.imgClose (req [3])) (staging [] 3 id)).dev.cmd.stages = [] := by decide +kernel

/-- Model 9 is LOADING with no tensors, and its load passes. -/
def loading (id : Nat) : State := srv [] host (fun d =>
  { d.putModel id { Model.empty with state := 1 } with arr := { (d.putModel id { Model.empty with state := 1 }).arr with loads := [⟨1, 7, id, 0, []⟩] } })
/-- The repair of log entry 63, whose page is 0. -/
def repairing : State := srv [] host (fun d => { d with boot := { d.boot with hppr := some (1, 7, [63]) } })

theorem test_installs : admits (staging [] 0 id) 0x38 (req (sample 0x38)) = true ∧ admits (staging [] 1 id) 0x83 (req [3]) = true ∧
    admits (staging [] 2 id) 0x84 (req [3, 1]) = true ∧ (staging [] 2 id).dev.tcInForce 1 = false ∧
    (srv [] host (·.putModel 1023 { Model.empty with state := 2 })).dev.modelUsers 1023 = 0 ∧
    ((after (.modelUnload (req [3, 255])) (srv [] host (·.putModel 1023 { Model.empty with state := 2 }))).dev.model 1023) = .empty ∧
    (after (.hppr (req [63])) (srv [(SEC.STATE_MAINT, 1), (MEM.RETIRE_PAGE_VALID 63, 1)] host id)).dev.boot.hppr = some (1, 7, [63]) ∧
    takeLoad 9 [⟨1, 7, 9, 3, []⟩] = some (⟨1, 7, 9, 3, []⟩, []) ∧ takeLoad 9 [⟨1, 7, 9, 0, []⟩] ≠ none ∧
    (loading 9).dev.loadOver 9 ((loading 9).dev.model 9) = false ∧ ((after (.modelLoadDone 9) (loading 9)).dev.model 9).state = 2 ∧
    (after (.modelLoadDone 9) (loading 9)).mem.byte (ctxRecord (modelCtx 9) + 6) = 1 ∧ repairing.dev.boot.hppr = some (1, 7, [63]) ∧
    (after .hpprDone repairing).dev.boot.hppr = none ∧
    takeInstall false [⟨1, 7, 1, true, [4]⟩, ⟨1, 7, 1, false, [5]⟩] = some (⟨1, 7, 1, false, [5]⟩, [⟨1, 7, 1, true, [4]⟩]) ∧
    takeInstall true [⟨1, 7, 1, true, [4]⟩] = some (⟨1, 7, 1, true, [4]⟩, []) ∧
    (after (.fwInstallDone true) (srv [] host (fun d => { d with boot := { d.boot with installs := [⟨1, 7, 1, false, [5]⟩] } }))).dev.boot.flashFw = [(1, [5])] ∧
    (after (.topcoatInstallDone false) (srv [] host (fun d => { d with boot := { d.boot with installs := [⟨1, 7, 1, true, [5]⟩] } }))).dev.boot.installs = [] := by
  decide +kernel

theorem test_sessions : (after (.subscribe (req (sample 6))) (srv [] host id)).dev.session 1 ≠ none ∧
    (((after (.subscribe (req (sample 6))) (srv [] host id)).dev.session 1).map (·.mask)) = some 7 ∧ admits (srv [] host id) 3 (req []) = true ∧
    (after .sessionIdleTimeout (srv [(ETH.CMD_CTRL_SESS_IDLE, 60)] host (fun d => { d with now := sCycles 60 }))).dev.session 1 = none ∧
    (after .sessionIdleTimeout (srv [(ETH.CMD_CTRL_SESS_IDLE, 60)] host (fun d => { d with now := sCycles 60 - 1 }))).dev.session 1 = some host := by decide +kernel

theorem test_maintenance : (after (.slotSelect (req [1])) (srv [] host id)).dev.fld SEC.BOOT_SEL_NEXT = 1 ∧
    (after (.restart (req [0])) (srv [] host id)).dev.cmd.restartAt = some (600000, 3) ∧
    (after (.maintEnter (req [])) (srv [] host id)).dev.on SEC.STATE_MAINT = true ∧ (after (.maintEnter (req [])) (srv [] host id)).dev.session 1 = none ∧
    replies (after (.maintEnter (req [])) (srv [(SEC.STATE_MAINT, 1)] host id)) = [(0x87, 0x0106, 5)] ∧
    replies (after (.maintEnter (req [])) (srv [(TWN.STAT_STATE, 2), (TWN.PEER_STATE, 4)] host id)) = [(0x87, 0x0106, 5)] ∧
    (after (.maintLeave (req [])) (srv [(SEC.STATE_MAINT, 1)] host id)).dev.cmd.restartAt = some (0, 3) ∧
    replies (after (.maintLeave (req [])) (srv [] host id)) = [(0x87, 0x0106, 5)] ∧
    replies (after (.sealBreak (req [3])) (srv [] host id)) = [(0x88, 0x0106, 5)] ∧
    admits (staging [(SEC.STATE_MAINT, 1)] 3 id) 0x88 (req [3]) = true ∧ admits (staging [] 3 id) 0x89 (req [3]) = true ∧
    fuseOr (staging [] 3 id).dev.boot.fuses.debugDisable = 0 ∧
    replies (after (.debugOpen (req [3])) (srv [] host (fun d => { d with boot := { d.boot with fuses := { d.boot.fuses with debugDisable := (0, 1) } } })))
      = [(0x89, 0x0106, 5)] ∧ replies (after (.statusTest (req [])) (srv [] host id)) = [(0xA2, 0, 5)] := by decide +kernel

/-- The staged bytes are no container, so the token engine refuses them. (That it accepts one rests on the verification of a signature.) -/
theorem test_token_refused : ((staging [] 3 id).dev.takeToken 1 []).1 = false := by decide +kernel

def lead (l : List (Fld × Nat)) : State := srv ([(TWN.STAT_STATE, 2), (TWN.PEER_STATE, 4)] ++ l) host id

theorem test_twin_requests : (after (.twinHandover (req (sample 0x91))) (lead [])).dev.twin.handover = some ⟨4, true, false, some (1, 7)⟩ ∧
    replies (after (.twinHandover (req [0, 0, 0, 3])) (lead [])) = [(0x91, 0x0106, 5)] ∧
    replies (after (.twinHandover (req [0x80, 0, 0, 0])) (lead [])) = [(0x91, 0x0106, 5)] ∧
    (after (.twinHandover (req [0x7F, 255, 255, 255])) (lead [])).dev.twin.handover = some ⟨2147483647, true, false, some (1, 7)⟩ ∧
    replies (after (.twinHandover (req (sample 0x91))) (srv [] host id)) = [(0x91, 0x0106, 5)] ∧
    (after (.twinPair (req [])) (srv [(PWR.STRAP_TWIN_EN, 1)] host id)).dev.on TWN.CTRL_PAIR = true ∧
    replies (after (.twinPair (req [])) (srv [(PWR.STRAP_TWIN_EN, 0)] host id)) = [(0x92, 0x0106, 5)] ∧
    (after (.twinUnpair (req [])) (srv [(TWN.CTRL_PAIR, 1)] host id)).dev.on TWN.CTRL_PAIR = false := by decide +kernel

/-- A packet of 48 bytes: FLAGS, OPCODE, SESSION, SEQ and REQ_ID 7, with no body. -/
def pkt (flags op session seq : Nat) : Datagram := ⟨5, 6, [0x5A, 0x4C, 1] ++ beBytes 1 flags ++ beBytes 1 op ++ beBytes 1 session ++ [0, 0]
  ++ beBytes 8 seq ++ [0, 0, 0, 7] ++ List.replicate 28 0⟩

/-- Everything about a packet but its tag, which the cryptography decides. -/
theorem test_packets : (srv [] host id).dev.addressed (pkt 1 0 1 11) = false ∧ (srv [] host id).dev.addressed (pkt 0 0 2 11) = false ∧
    (after (.commandPacket (pkt 0 0 2 11)) (srv [] host id)).dev.fld ETH.CMD_STAT_ADDR_DROP = 1 ∧ (srv [] host id).dev.addressed (pkt 0 0 1 11) = true ∧
    (srv [] host id).dev.addressed (pkt 4 2 0 0) = true ∧ fresh host 9 = false ∧ fresh host 10 = false ∧ fresh host 8 = true ∧ fresh host 11 = true ∧
    beAt (pkt 4 2 0 0).bytes 28 4 = 0 ∧ beAt (pkt 0 0 1 11).bytes 24 4 = 0 ∧ bit (pktFlags (pkt 4 2 0 0).bytes) 3 = false ∧
    (after .fragmentTimeout (srv [] host (fun d => { d with now := 60000001, cmd := { d.cmd with partials := [⟨1, 0, 7, 9, 5, 6, [], 0⟩] } }))).dev.cmd.partials
      = [] ∧
    ((after .fragmentTimeout (srv [] host (fun d => { d with now := 60000000, cmd := { d.cmd with partials := [⟨1, 0, 7, 9, 5, 6, [], 0⟩] } }))).dev.cmd.partials.length)
      = 1 := by decide +kernel

/-- A HELLO by key 3 for a role, and a device that knows the key. -/
def helloOf (n role : Nat) : Hand := ⟨5, 6, 7, false, 1, [3] ++ beBytes 1 role ++ List.replicate (n - 2) 0⟩
def keyed (l : List (Fld × Nat)) : State := srv l host (fun d => { d with boot := { d.boot with ctrlKeys := [(3, some ⟨2, [], []⟩)] } })

theorem test_hello : (helloOf 1252 2).payload.length = 1252 ∧ (keyed []).dev.freeSession = some 2 ∧ (keyed []).dev.on SEC.STATE_ENTROPY_OK = true ∧
    (tabGet none (keyed []).dev.boot.ctrlKeys 3).map (·.role) = some 2 ∧
    (after (.hello { helloOf 1252 2 with version := 2 }) (keyed [])).dev.cmd.outbox.map (·.status) = [0x0013] ∧
    (after (.hello (helloOf 1251 2)) (keyed [])).dev.cmd.outbox.map (·.status) = [0x0101] ∧
    (after (.hello { helloOf 1252 2 with reqId := 0 }) (keyed [])).dev.cmd.outbox.map (·.status) = [0x0102] ∧
    (after (.hello (helloOf 1252 2)) (keyed [(SEC.STATE_BOOT_DONE, 0)])).dev.cmd.outbox.map (·.status) = [0x0010] := by decide +kernel

/-- A handshake of the peer for session 2 (the signatures decide how AUTH ends). -/
def shaking (now : Nat) : State := on (keyed []) (fun d => { d with now := now, cmd := { d.cmd with handshakes :=
  [⟨5, 6, 7, 3, 2, 2, [], [], ⟨0, 1, false, 7, 0, [], 0, 0, 0, (5, 6)⟩, 0⟩] } })

theorem test_auth : ((shaking 9).dev.handshakes.reverse.find? (fun x => x.addr == 5 && x.port == 6)).map (·.session) = some 2 ∧
    (List.replicate 3373 (0 : Byte)).length = 3373 ∧ (after .handshakeTimeout (shaking (sCycles 1))).dev.cmd.handshakes = [] ∧
    (after .handshakeTimeout (shaking (sCycles 1 - 1))).dev.cmd.handshakes.length = 1 := by decide +kernel

end Sys2Proof.Tests
end

section
namespace Sys2Proof.Proofs.Scope

open Sys2Proof.Machine Sys2Proof.Laws

theorem yields_imp {o : Host.Outcome State Fault Refusal} {P Q : State → Prop} (h : Yields o P) (hpq : ∀ t, P t → Q t) : Yields o Q := by
  obtain ⟨t, ht, hp⟩ := h
  exact ⟨t, ht, hpq t hp⟩

/-- A command that only answers its access changes nothing else. -/
theorem answer_yields {s : State} {f : Mem → Dev → Dev} {r : Resp} (hd : s.dev.dead = false) (hm : s.dev.memsys.writes = [])
    (hf : f s.mem s.dev = s.dev.answer r) : Yields (run s f) (fun t => t.dev.resp = r ∧ RegsOnly [] s t) :=
  run_body hd hf ⟨by simp, runOn_regsOnly hm (fun _ _ => rfl) rfl⟩

/-! Accesses of another size or at another address than a word's (R6). -/

theorem busWrite_not_word (d : Dev) (mid v : Nat) {a bytes : Nat} (h : bytes ≠ 4 ∨ a % 4 ≠ 0) : d.busWrite mid a v bytes = d.answer .error := by
  have hc : (bytes != 4 || a % 4 != 0) = true := by simpa using h
  simp only [Dev.busWrite, hc, if_true]

theorem busRead_not_word (d : Dev) (mid : Nat) {a bytes : Nat} (h : bytes ≠ 4 ∨ a % 4 ≠ 0) : d.busRead mid a bytes = d.answer .error := by
  have hc : (bytes != 4 || a % 4 != 0) = true := by simpa using h
  simp only [Dev.busRead, hc, if_true]

/-- Settles O7: both accesses end at their first check, which only answers. -/
theorem narrowOrUnalignedAccessesFail : Obligations.NarrowOrUnalignedAccessesFail := by
  intro s mid a v bytes hd hm h
  refine ⟨answer_yields hd hm (busWrite_not_word s.dev mid v h), ?_⟩
  rw [busRead_not_word s.dev mid h]
  exact ⟨rfl, fun _ => rfl⟩

/-! Clearing a source (R10, R426 to R428). -/

/-- A fold that acts at one index of a range acts once. -/
theorem foldl_range_single {α : Type} (g : α → Nat → α) (j : Nat) (a : α) :
    ∀ n, (List.range n).foldl (fun x i => if i = j then g x i else x) a = if j < n then g a j else a
  | 0 => rfl
  | n + 1 => by
    rw [List.range_succ, List.foldl_append, foldl_range_single g j a n]
    by_cases hn : n = j
    · subst hn
      simp
    · have : j < n + 1 ↔ j < n := by omega
      simp [hn, this]

theorem bit_two_pow (j i : Nat) : bit (2 ^ j) i = decide (i = j) := by
  have h : bit (2 ^ j) i = (2 ^ j).testBit i := by
    rw [Nat.testBit_eq_decide_div_mod_eq]
    rfl
  rw [h, Nat.testBit_two_pow]
  simp [eq_comm]

/-- A write that names one bit clears one source. -/
theorem clearBits_two_pow (d : Dev) (mid word : Nat) {j : Nat} (hj : j < 32) :
    d.clearBits mid word (2 ^ j) = (d.clearSource mid (32 * word + j)).2 := by
  have h := foldl_range_single (fun (d : Dev) i => (d.clearSource mid (32 * word + i)).2) j d 32
  simpa [Dev.clearBits, bit_two_pow, hj] using h

@[simp] theorem isSet_unset (d : Dev) (n : Nat) : (d.unset n).isSet n = false := by
  have h : tabGet false (tabSet false d.snag.set n false) n = false := tabGet_set_same ..
  unfold Dev.unset
  dsimp only
  split <;> exact h

@[simp] theorem isSet_groupClear (d : Dev) (g n : Nat) : (d.groupClear g).isSet n = d.isSet n := rfl

/-- A set source without a cause leaves the set. -/
theorem clearSource_clears (d : Dev) (mid : Nat) {n : Nat} (hs : d.isSet n = true) (hc : d.causeNow n = false) (hf : d.freshSource n = false) :
    (d.clearSource mid n).2.isSet n = false := by
  simp only [Dev.clearSource, hs, hc, hf, Bool.not_true, Bool.or_self, Bool.false_eq_true, if_false]
  split <;> simp

/-- A set source whose cause is present, or that hardware sets in the same cycle, stays. -/
theorem clearSource_refuses (d : Dev) (mid : Nat) {n : Nat} (hs : d.isSet n = true) (hc : d.causeNow n = true ∨ d.freshSource n = true) :
    (d.clearSource mid n).2.isSet n = true := by
  have hc' : (d.causeNow n || d.freshSource n) = true := by simpa using hc
  have hr := faultRecord_raises d n (b2n (tabGet false d.snag.injected n) + 4) (mid % 32)
  simp only [Dev.clearSource, hs, hc', if_true, Bool.not_true, Bool.false_eq_true, if_false]
  split
  · exact (hr.trans (raise_raises _ .s 2)).set n hs
  · exact hr.set n hs

theorem setClearWrite_trusted (d : Dev) {mid word j : Nat} (ht : trusted mid = true) (hw : word < 32) (hj : j < 32) :
    d.setClearWrite mid word (2 ^ j) = (d.clearSource mid (32 * word + j)).2.answer .done := by
  simp [Dev.setClearWrite, ht, hw, clearBits_two_pow d mid word hj]

theorem setClearWrite_other (d : Dev) {mid : Nat} (word bits : Nat) (ht : trusted mid = false) :
    d.setClearWrite mid word bits = d.answer .error := by
  simp [Dev.setClearWrite, ht]

/-- Settles O18: the write clears the one source that its bit names, by the rule of `clearSource`. -/
theorem sourcesAreClearedByTrustedMasters : Obligations.SourcesAreClearedByTrustedMasters := by
  intro s mid word j hd hm hw hj hs
  refine ⟨fun ht => ⟨fun hc hf => ?_, fun hc => ?_⟩, fun ht bits => answer_yields hd hm (setClearWrite_other s.dev word bits ht)⟩
  · refine run_body hd (setClearWrite_trusted s.dev ht hw hj) ⟨?_, by simp⟩
    rw [isSet_runOn, isSet_answer, clearSource_clears s.dev mid hs hc hf]
  · refine run_body hd (setClearWrite_trusted s.dev ht hw hj) ⟨?_, by simp⟩
    rw [isSet_runOn, isSet_answer, clearSource_refuses s.dev mid hs hc]

end Sys2Proof.Proofs.Scope
end

section
namespace Sys2Proof.Proofs.Scope

open Sys2Proof.Machine Sys2Proof.Laws

/-! An admitted request runs its operation, and its reply is sent (R367, R371). -/

theorem reply_some {e : Dev} {sess : Nat} {y : Session} (reqId op st : Nat) (q p : List Byte) (h : e.session sess = some y) :
    ∃ m, m ∈ (e.reply sess reqId op st q p).cmd.outbox ∧ m.session = sess ∧ m.opcode = op ∧ m.event = false ∧ m.reqId = reqId ∧
      m.status = st ∧ m.payload = p ∧ m.seq = y.txSeq + 1 := by
  simp only [Dev.reply, h, Dev.post_outbox]
  exact ⟨_, List.mem_append_right _ (List.mem_singleton.mpr rfl), rfl, rfl, rfl, rfl, rfl, rfl, rfl⟩

@[simp] theorem reply_regs (e : Dev) (sess reqId op st : Nat) (q p : List Byte) : (e.reply sess reqId op st q p).regs = e.regs := by
  unfold Dev.reply
  split <;> rfl

/-- A session that has reached its last SEQ ends; its messages stay. -/
theorem seqLimit_keeps (d : Dev) (n : Nat) : (d.seqLimit n).regs = d.regs ∧ ∀ m ∈ d.cmd.outbox, m ∈ (d.seqLimit n).cmd.outbox := by
  have he : (d.endSession n 2).regs = d.regs ∧ ∀ m ∈ d.cmd.outbox, m ∈ (d.endSession n 2).cmd.outbox := by
    unfold Dev.endSession Dev.event
    split
    · split
      · exact ⟨rfl, fun _ h => h⟩
      · exact ⟨rfl, fun _ h => List.mem_append_left _ h⟩
    · exact ⟨rfl, fun _ h => h⟩
  unfold Dev.seqLimit
  split
  · exact ⟨rfl, fun _ h => h⟩
  · split
    · exact he
    · exact ⟨rfl, fun _ h => h⟩

/-- An admitted request reaches its operation, in the device that `Claims.entered` names. -/
theorem request_admitted {s : State} {op : Nat} {r : Req} {x : Session} (h : Claims.Admitted s op r x) (ho : requestOps.contains op = true) :
    s.dev.request op r = ((Claims.entered s r x).runRequest op r { x with lastAt := s.dev.now }).seqLimit r.session := by
  obtain ⟨⟨-, -, hend, -, hsess⟩, ⟨hcache, hway, hfull⟩, hrefuse⟩ := h
  have hroom : (16 ≤ (Claims.entered s r x).underWay r.session { x with lastAt := s.dev.now } ||
      (nonIdempotent.contains op && (Claims.entered s r x).cacheFull { x with lastAt := s.dev.now })) = false := by
    rw [Bool.or_eq_false_iff]
    refine ⟨decide_eq_false (Nat.not_le.mpr hway), ?_⟩
    cases hn : nonIdempotent.contains op
    · rfl
    · exact hfull hn
  have hrefuse' : (Claims.entered s r x).refusal op r.reqId { x with lastAt := s.dev.now } r.payload = 0 := hrefuse
  have hans : (Claims.entered s r x).answerRequest op r { x with lastAt := s.dev.now } =
      (Claims.entered s r x).runRequest op r { x with lastAt := s.dev.now } := by
    unfold Dev.answerRequest
    simp only [ho, hcache, hroom, hrefuse', Bool.not_true, Bool.false_eq_true, if_false, bne_self_eq_false]
  unfold Dev.request
  simp only [hend, hsess, Bool.not_true, Bool.false_eq_true, if_false]
  exact congrArg (fun d : Dev => d.seqLimit r.session) hans

/-- Where the operation ends with a status, and nothing follows the reply, the reply is the session's next packet and the registers are those
that the operation leaves. -/
theorem request_reports {s : State} {op st : Nat} {r : Req} {x : Session} {p : List Byte} {e : Dev} (h : Claims.Admitted s op r x)
    (ho : requestOps.contains op = true) (hafter : ∀ d : Dev, d.afterReply op r.session = d)
    (hop : (Claims.entered s r x).operate op r.session r.reqId { x with lastAt := s.dev.now } r.payload = (.reply st p, e)) :
    Yields (run s fun _ d => d.request op r) (Claims.Reports e r op st p) := by
  have hrun : s.dev.request op r = (e.reply r.session r.reqId op st r.payload p).seqLimit r.session := by
    rw [request_admitted h ho]
    simp only [Dev.runRequest, hop, hafter, ite_self]
  obtain ⟨hregs, hbox⟩ := seqLimit_keeps (e.reply r.session r.reqId op st r.payload p) r.session
  have hne : op ≠ 14 := by
    rintro rfl
    exact absurd ho (by decide)
  refine run_yields h.1.1 ⟨fun y hy => ?_, fun f _ hf => ?_⟩
  · obtain ⟨m, hm, hses, hopc, hev, hreq, hst, hpay, hseq⟩ := reply_some r.reqId op st r.payload p hy
    exact ⟨m, runOn_message s _ (hrun ▸ hbox m hm) (hopc ▸ hne), hses, hopc, hev, hreq, hst, hpay, hseq⟩
  · rw [runOn_fld s _ hf, hrun]
    exact Dev.fld_regs (hregs.trans (reply_regs ..)) f

/-! One register, read and written by a request (R373). -/

theorem readRegs_value {d : Dev} {a v : Nat} (h : (d.busRead 18 a 4).resp = .value v) :
    d.readRegs 0 [] [a] = (.reply 0 (beBytes 4 v), d.busRead 18 a 4) := by
  simp [Dev.readRegs, Dev.fetch, h, Ans.ok]

theorem fetch_error {d : Dev} {a : Nat} (h : ∀ v, (d.busRead 18 a 4).resp ≠ .value v) : d.fetch a = (none, d.busRead 18 a 4) := by
  unfold Dev.fetch
  dsimp only
  split
  · exact absurd ‹_› (h _)
  · rfl

theorem readRegs_error {d : Dev} {a : Nat} (h : ∀ v, (d.busRead 18 a 4).resp ≠ .value v) :
    d.readRegs 0 [] [a] = (.reply 0x0107 (beBytes 2 0), d.busRead 18 a 4) := by
  simp only [Dev.readRegs, fetch_error h]

theorem writeEntry_write (d : Dev) (a v : Nat) : d.writeEntry false (a, 0, v) = d.busWrite 18 a v 4 := rfl

theorem writeEntry_modify {d : Dev} {a v : Nat} (m w : Nat) (h : (d.busRead 18 a 4).resp = .value v) :
    d.writeEntry true (a, m, w) = (d.busRead 18 a 4).busWrite 18 a (Nat.lor (Nat.land v (4294967295 - m)) (Nat.land w m)) 4 := by
  simp [Dev.writeEntry, Dev.fetch, h]

/-- What `writeRegs` answers for one entry, by how its access ended. -/
theorem writeRegs_error {d e : Dev} {modify : Bool} {w : Nat × Nat × Nat} (he : d.writeEntry modify w = e) (h : e.resp = .error) :
    d.writeRegs modify 0 none [w] = (.reply 0x0107 (beBytes 2 0), e) := by
  simp only [Dev.writeRegs, he, h]

theorem writeRegs_discarded {d e : Dev} {modify : Bool} {w : Nat × Nat × Nat} (he : d.writeEntry modify w = e) (h : e.resp = .discarded) :
    d.writeRegs modify 0 none [w] = (.reply 0x0108 (beBytes 2 1 ++ beBytes 2 0), e) := by
  simp [Dev.writeRegs, he, h]

theorem writeRegs_done {d e : Dev} {modify : Bool} {w : Nat × Nat × Nat} (he : d.writeEntry modify w = e) (h : e.resp ≠ .error)
    (h' : e.resp ≠ .discarded) : d.writeRegs modify 0 none [w] = (.reply 0 (beBytes 2 1 ++ beBytes 2 65535), e) := by
  simp only [Dev.writeRegs, he]
  split <;> simp_all

/-- The reply of a request for one read, by how its access ended. -/
theorem readRegs_reports {s : State} {op a : Nat} {r : Req} {x : Session} {e : Dev} (h : Claims.Admitted s op r x)
    (ho : requestOps.contains op = true) (hafter : ∀ d : Dev, d.afterReply op r.session = d) (he : e = (Claims.entered s r x).busRead 18 a 4)
    (hop : (Claims.entered s r x).operate op r.session r.reqId { x with lastAt := s.dev.now } r.payload =
      (Claims.entered s r x).readRegs 0 [] [a]) :
    Yields (run s fun _ d => d.request op r) (fun t => (∀ v, e.resp = .value v → Claims.Reports e r op 0 (beBytes 4 v) t) ∧
      ((∀ v, e.resp ≠ .value v) → Claims.Reports e r op 0x0107 (beBytes 2 0) t)) := by
  subst he
  by_cases hv : ∃ v, ((Claims.entered s r x).busRead 18 a 4).resp = .value v
  · obtain ⟨v, hv⟩ := hv
    refine yields_imp (request_reports h ho hafter (hop.trans (readRegs_value hv))) (fun t ht => ⟨fun w hw => ?_, fun hn => absurd hv (hn v)⟩)
    rw [hv] at hw
    cases hw
    exact ht
  · have hn : ∀ v, ((Claims.entered s r x).busRead 18 a 4).resp ≠ .value v := fun v hw => hv ⟨v, hw⟩
    exact yields_imp (request_reports h ho hafter (hop.trans (readRegs_error hn))) (fun t ht => ⟨fun v hw => absurd hw (hn v), fun _ => ht⟩)

/-- How an access ended: to show what each ending claims of a command, show it where the access ended so. -/
theorem yields_byEnding {o : Host.Outcome State Fault Refusal} {ending : Resp} {A B C : State → Prop} (herr : ending = .error → Yields o A)
    (hdis : ending = .discarded → Yields o B) (hok : ending ≠ .error → ending ≠ .discarded → Yields o C) :
    Yields o (fun t => (ending = .error → A t) ∧ (ending = .discarded → B t) ∧ (ending ≠ .error → ending ≠ .discarded → C t)) := by
  by_cases h1 : ending = .error
  · subst h1
    exact yields_imp (herr rfl) (fun t ht => ⟨fun _ => ht, fun h2 => absurd h2 (by decide), fun h2 => absurd rfl h2⟩)
  · by_cases h2 : ending = .discarded
    · exact yields_imp (hdis h2) (fun t ht => ⟨fun h => absurd h h1, fun _ => ht, fun _ h => absurd h2 h⟩)
    · exact yields_imp (hok h1 h2) (fun t ht => ⟨fun h => absurd h h1, fun h => absurd h h2, fun _ _ => ht⟩)

/-- The reply of a request for one write, by how its access ended. -/
theorem writeRegs_reports {s : State} {op : Nat} {r : Req} {x : Session} {e : Dev} {modify : Bool} {w : Nat × Nat × Nat}
    (h : Claims.Admitted s op r x) (ho : requestOps.contains op = true) (hafter : ∀ d : Dev, d.afterReply op r.session = d)
    (he : (Claims.entered s r x).writeEntry modify w = e)
    (hop : (Claims.entered s r x).operate op r.session r.reqId { x with lastAt := s.dev.now } r.payload =
      (Claims.entered s r x).writeRegs modify 0 none [w]) :
    Yields (run s fun _ d => d.request op r) (fun t =>
      (e.resp = .error → Claims.Reports e r op 0x0107 (beBytes 2 0) t) ∧
      (e.resp = .discarded → Claims.Reports e r op 0x0108 (beBytes 2 1 ++ beBytes 2 0) t) ∧
      (e.resp ≠ .error → e.resp ≠ .discarded → Claims.Reports e r op 0 (beBytes 2 1 ++ beBytes 2 65535) t)) :=
  yields_byEnding (fun h1 => request_reports h ho hafter (hop.trans (writeRegs_error he h1)))
    (fun h1 => request_reports h ho hafter (hop.trans (writeRegs_discarded he h1)))
    (fun h1 h2 => request_reports h ho hafter (hop.trans (writeRegs_done he h1 h2)))

/-- The operation of INJECT, by how its access ended. -/
theorem opInject_cases (d : Dev) (p : List Byte) : ∀ e, e = d.busWrite 18 (beAt p 0 4) (beAt p 4 4) 4 →
    (e.resp = .error → d.opInject p = (.reply 0x0107 (beBytes 2 0), e)) ∧ (e.resp = .discarded → d.opInject p = (.reply 0x0108 [], e)) ∧
    (e.resp ≠ .error → e.resp ≠ .discarded → d.opInject p = (.reply 0 [], e)) := by
  rintro e rfl
  refine ⟨fun h => ?_, fun h => ?_, fun h1 h2 => ?_⟩
  · simp only [Dev.opInject, h]
  · simp only [Dev.opInject, h, Ans.refuse]
  · unfold Dev.opInject
    dsimp only
    split
    · exact absurd ‹_› h1
    · exact absurd ‹_› h2
    · rfl

/-- The reply of INJECT, by how its access ended. -/
theorem inject_reports {s : State} {r : Req} {x : Session} {e : Dev} (h : Claims.Admitted s 0xA0 r x)
    (he : e = (Claims.entered s r x).busWrite 18 (beAt r.payload 0 4) (beAt r.payload 4 4) 4) :
    Yields (run s fun _ d => d.request 0xA0 r) (fun t =>
      (e.resp = .error → Claims.Reports e r 0xA0 0x0107 (beBytes 2 0) t) ∧
      (e.resp = .discarded → Claims.Reports e r 0xA0 0x0108 [] t) ∧
      (e.resp ≠ .error → e.resp ≠ .discarded → Claims.Reports e r 0xA0 0 [] t)) := by
  obtain ⟨herr, hdis, hok⟩ := opInject_cases _ _ e he
  exact yields_byEnding (fun h1 => request_reports h (by decide) (fun _ => rfl) (herr h1))
    (fun h1 => request_reports h (by decide) (fun _ => rfl) (hdis h1)) (fun h1 h2 => request_reports h (by decide) (fun _ => rfl) (hok h1 h2))

/-! The operations of the four requests, where their payload names one register. -/

theorem opRegRead_one (d : Dev) {p : List Byte} (h : p.length = 4) : d.opRegRead p = d.readRegs 0 [] [beAt p 0 4] := by
  simp [Dev.opRegRead, h, List.range_succ, entryWord]

theorem opReadBlock_one (d : Dev) {p : List Byte} (h : beAt p 4 2 = 1) : d.opReadBlock p = d.readRegs 0 [] [beAt p 0 4] := by
  simp [Dev.opReadBlock, h, List.range_succ]

theorem opRegWrite_one (d : Dev) {p : List Byte} (h : p.length = 8) :
    d.opRegWrite p = d.writeRegs false 0 none [(beAt p 0 4, 0, beAt p 4 4)] := by
  simp [Dev.opRegWrite, h, List.range_succ, entryWord]

theorem opRegModify_one (d : Dev) {p : List Byte} (h : p.length = 12) :
    d.opRegModify p = d.writeRegs true 0 none [(beAt p 0 4, beAt p 4 4, beAt p 8 4)] := by
  simp [Dev.opRegModify, h, List.range_succ, entryWord]

/-- Settles O52: each request runs as the one access that its payload names, and its reply follows how that access ended. -/
theorem registerRequestsAccessAsMaster18 : Obligations.RegisterRequestsAccessAsMaster18 := by
  intro s r x
  refine ⟨fun e he => ⟨fun h hp => ?_, fun h hp => ?_, fun h hp v hv e' he' => ?_⟩, fun e he => ⟨fun h hp => ?_, fun h => inject_reports h he⟩⟩
  · exact readRegs_reports h (by decide) (fun _ => rfl) he (opRegRead_one _ hp)
  · exact readRegs_reports h (by decide) (fun _ => rfl) he (opReadBlock_one _ hp)
  · subst he
    exact writeRegs_reports h (by decide) (fun _ => rfl) ((writeEntry_modify _ _ hv).trans he'.symm) (opRegModify_one _ hp)
  · exact writeRegs_reports h (by decide) (fun _ => rfl) ((writeEntry_write _ _ _).trans he.symm) (opRegWrite_one _ hp)

end Sys2Proof.Proofs.Scope
end

section
namespace Sys2Proof.Proofs.Scope

open Sys2Proof.Machine Sys2Proof.Laws

/-! A field that stands at a reserved value turns away the writes of its whole block (`Dev.regOk`), also the write of a register that has
no reserved value. -/

/-- The state after reset, but with the configuration field SEC_CTRL.TRIAL_S at 0, which SEC rejects when written. -/
def trialZero : State := { State.reset with dev := { Dev.reset with regs := [(SEC.CTRL_TRIAL_S.key, 0)] } }

/-- Master 14 reaches the S-die there, the seal is open and the device at work. -/
theorem trialZero_admits : trialZero.dev.dead = false ∧ trialZero.dev.memsys.writes = [] ∧ trialZero.dev.splitMaster 14 = false ∧
    trialZero.dev.access 14 .s = true ∧ trialZero.dev.on SEC.STATE_SEALED = false := by decide

/-- SEC rejects there a write of PAIR_TAG_LO, every value of which is valid. -/
theorem trialZero_rejects : (trialZero.dev.busWrite 14 SEC.PAIR_TAG_LO_TAG.addr 1 4).resp = .rejected := by decide

/-- Refutes O8: with the seal open a write of the RWL register SEC_PAIR_TAG_LO does not always take its value. `Dev.regOk` looks at the
values that the block holds after the write, so with SEC_CTRL.TRIAL_S at its reserved value 0 (`trialZero`, one of the states that the
statement speaks of, though a write of 0 to TRIAL_S is itself rejected) the write is rejected. The other clauses play no part. -/
theorem not_registerWritesFollowTheirAccessTypes : ¬ Obligations.RegisterWritesFollowTheirAccessTypes := by
  intro h
  obtain ⟨hdead, hwrites, hsplit, haccess, hopen⟩ := trialZero_admits
  obtain ⟨-, -, -, -, -, hlocked, -⟩ := h trialZero 14 1 hdead hwrites (by decide) hsplit haccess
  obtain ⟨t, ht, -, hdone, -⟩ := hlocked hopen
  have hrun : exec (.registerWrite 14 SEC.PAIR_TAG_LO_TAG.addr 1 4) trialZero =
      .next (runOn trialZero fun _ d => d.busWrite 14 SEC.PAIR_TAG_LO_TAG.addr 1 4) := run_alive hdead _
  obtain rfl : _ = t := Host.Outcome.next.inj (hrun.symm.trans ht)
  rw [runOn_resp, trialZero_rejects] at hdone
  cases hdone

end Sys2Proof.Proofs.Scope
end

section
namespace Sys2Proof.Proofs.Scope

open Sys2Proof.Machine Sys2Proof.Laws

/-! The measurement of MCLK_AUD (R515). -/

/-- Keys of the fields that a measurement may change. -/
def mclkKeys : List Nat := [PWR.INJ_ARM.key, PWR.MCLK_MEAS_HZ.key, PWR.CLK_STAT_MCLK_OK.key] ++ raiseKeys

/-- The device once a measurement has been taken, before its source is raised. -/
def measured (d : Dev) (hz : Nat) : Dev :=
  (((if d.pwrArmed 2 then d.flag PWR.INJ_ARM false else d).put PWR.MCLK_MEAS_HZ hz).flag PWR.CLK_STAT_MCLK_OK
    (!(d.mclkOut hz || d.pwrArmed 2))).cause 705 ((d.mclkOut hz || d.pwrArmed 2) && d.running)

theorem mclk_eq (d : Dev) (hz : Nat) : d.mclk hz =
    if (d.mclkOut hz || d.pwrArmed 2) && d.running then (measured d hz).raiseInj .s 705 0 (d.pwrArmed 2) else measured d hz := rfl

theorem measured_fld (d : Dev) (hz : Nat) {f : Fld} (h : f.key ∉ mclkKeys) : (measured d hz).fld f = d.fld f := by
  simp only [mclkKeys, List.mem_append, List.mem_cons, List.not_mem_nil, or_false, not_or] at h
  obtain ⟨⟨harm, hhz, hok⟩, -⟩ := h
  rw [measured, Dev.fld_cause, Dev.fld_flag_other _ _ hok, Dev.fld_put_other _ _ hhz]
  split
  · exact Dev.fld_flag_other _ _ harm
  · rfl

/-- A measurement raises a source at most. -/
theorem mclk_raises (d : Dev) (hz : Nat) : Raises (measured d hz) (d.mclk hz) := by
  rw [mclk_eq]
  exact .ite (fun _ => raiseInj_raises _ _ _ _ _) (fun _ => .refl _)

theorem mclk_fld (d : Dev) (hz : Nat) {f : Fld} (h : f.key ∉ mclkKeys) : (d.mclk hz).fld f = d.fld f :=
  ((mclk_raises d hz).regs f (fun hk => h (List.mem_append_right _ hk))).trans (measured_fld d hz h)

theorem mclk_on (d : Dev) (hz : Nat) {f : Fld} (h : f.key ∉ mclkKeys) : (d.mclk hz).on f = d.on f := Dev.on_fld (mclk_fld d hz h)

@[simp] theorem mclk_plan (d : Dev) (hz : Nat) : (d.mclk hz).plan = d.plan := by
  rw [(mclk_raises d hz).plan, measured]
  split <;> rfl

@[simp] theorem mclk_time (d : Dev) (hz : Nat) : (d.mclk hz).time = d.time := by
  rw [(mclk_raises d hz).time, measured]
  split <;> rfl

theorem mclk_hz (d : Dev) (hz : Nat) : (d.mclk hz).fld PWR.MCLK_MEAS_HZ = hz % 2 ^ PWR.MCLK_MEAS_HZ.width := by
  rw [(mclk_raises d hz).regs _ (by decide), measured, Dev.fld_cause, Dev.fld_flag_other _ _ (by decide), Dev.fld_put_same]

theorem mclk_ok (d : Dev) (hz : Nat) : (d.mclk hz).on PWR.CLK_STAT_MCLK_OK = !(d.mclkOut hz || d.pwrArmed 2) := by
  rw [(mclk_raises d hz).on (by decide), measured, Dev.on_cause, Dev.on_flag_same]

/-- While RUN is 1, a measurement out of range sets PWR_MCLK_AUD. -/
theorem mclk_sets (d : Dev) (hz : Nat) (hr : d.running = true) (h : d.mclkOut hz = true ∨ d.pwrArmed 2 = true) : (d.mclk hz).isSet 705 = true := by
  have hout : (d.mclkOut hz || d.pwrArmed 2) = true := by simpa using h
  rw [mclk_eq, hout, hr]
  exact raiseInj_s_set (n := 705) _ 0 _ (by decide)

theorem mclkOut_congr {d e : Dev} (h : e.fld TCK.FRAME_FS_SEL = d.fld TCK.FRAME_FS_SEL) (hz : Nat) : e.mclkOut hz = d.mclkOut hz := by
  simp only [Dev.mclkOut, h]

theorem pwrArmed_congr {d e : Dev} (ha : e.fld PWR.INJ_ARM = d.fld PWR.INJ_ARM) (hm : e.fld PWR.INJ_MODE = d.fld PWR.INJ_MODE) (mode : Nat) :
    e.pwrArmed mode = d.pwrArmed mode := by
  simp only [Dev.pwrArmed, Dev.on, ha, hm]

/-! A start of the tick unit (R350). -/

/-- The device as a start sets RUN, before the measurement. -/
def runSet (d : Dev) : Dev := ({ d with plan := { d.plan with starting := true, stopping := false } }.flag TCK.CTRL_RUN true).flag TCK.CTRL_START_ERR false

theorem runSet_fld (d : Dev) {f : Fld} (hr : f.key ≠ TCK.CTRL_RUN.key) (he : f.key ≠ TCK.CTRL_START_ERR.key) : (runSet d).fld f = d.fld f :=
  (Dev.fld_flag_other _ _ he).trans (Dev.fld_flag_other _ _ hr)

theorem runSet_running (d : Dev) : (runSet d).running = true :=
  (Dev.on_flag_other _ _ (by decide)).trans (Dev.on_flag_same _ _ _)

/-- Keys of TIM_TICK_START, which a locked start fills in. -/
def tickStartKeys : List Nat := [TIM.TICK_START_NS_START.key, TIM.TICK_START_SEC_LO_START.key, TIM.TICK_START_SEC_HI_START.key]

/-- The device with B(0) scheduled at an instant. -/
def lockedStart (e : Dev) (i : Int) : Dev :=
  ((({ e with time := { e.time with start := some i, outside := 0, inside := 0 } }.put TIM.TICK_START_NS_START (i % 1000000000).toNat).put
    TIM.TICK_START_SEC_LO_START (i / 1000000000).toNat).put TIM.TICK_START_SEC_HI_START ((i / 1000000000).toNat / 4294967296))

/-- What a start does after the measurement: with LOCK_EN it schedules B(0), else nothing waits for an instant. -/
def scheduled (e : Dev) : Dev :=
  if e.on TIM.TICK_CFG_LOCK_EN then lockedStart e e.startInstant else { e with time := { e.time with start := none } }

theorem tickStart_eq (d : Dev) (hz : Nat) : d.tickStart hz = scheduled ((runSet d).mclk hz) := rfl

theorem lockedStart_fld (e : Dev) (i : Int) {f : Fld} (h : f.key ∉ tickStartKeys) : (lockedStart e i).fld f = e.fld f := by
  simp only [tickStartKeys, List.mem_cons, List.not_mem_nil, or_false, not_or] at h
  obtain ⟨hns, hlo, hhi⟩ := h
  rw [lockedStart, Dev.fld_put_other _ _ hhi, Dev.fld_put_other _ _ hlo, Dev.fld_put_other _ _ hns]
  rfl

@[simp] theorem lockedStart_plan (e : Dev) (i : Int) : (lockedStart e i).plan = e.plan := rfl
@[simp] theorem lockedStart_start (e : Dev) (i : Int) : (lockedStart e i).time.start = some i := rfl
@[simp] theorem isSet_lockedStart (e : Dev) (i : Int) (n : Nat) : (lockedStart e i).isSet n = e.isSet n := rfl

theorem scheduled_fld (e : Dev) {f : Fld} (h : f.key ∉ tickStartKeys) : (scheduled e).fld f = e.fld f := by
  unfold scheduled
  split
  · exact lockedStart_fld e _ h
  · rfl

theorem scheduled_on (e : Dev) {f : Fld} (h : f.key ∉ tickStartKeys) : (scheduled e).on f = e.on f := Dev.on_fld (scheduled_fld e h)

@[simp] theorem scheduled_plan (e : Dev) : (scheduled e).plan = e.plan := by
  unfold scheduled
  split
  · exact lockedStart_plan e _
  · rfl

@[simp] theorem isSet_scheduled (e : Dev) (n : Nat) : (scheduled e).isSet n = e.isSet n := by
  unfold scheduled
  split
  · exact isSet_lockedStart e _ n
  · rfl

theorem scheduled_start (e : Dev) : (scheduled e).time.start = if e.on TIM.TICK_CFG_LOCK_EN then some e.startInstant else none := by
  unfold scheduled
  split
  · exact lockedStart_start e _
  · rfl

/-- The first instant of START's grid depends on the schedule's registers and on the time bases alone. -/
theorem startInstant_congr {d e : Dev} (ht : e.time = d.time)
    (hf : ∀ f ∈ [TIM.TICK_START_NS_START, TIM.TICK_START_SEC_LO_START, TIM.TICK_START_SEC_HI_START, TIM.TICK_CFG_TBSEL, TIM.CTRL_MODE,
      TCK.FRAME_LEN, TCK.FRAME_FS_SEL], e.fld f = d.fld f) : e.startInstant = d.startInstant := by
  simp only [List.forall_mem_cons] at hf
  obtain ⟨hns, hlo, hhi, htb, hmode, hlen, hfs, -⟩ := hf
  have htick : e.tickNs = d.tickNs := by simp only [Dev.tickNs, Dev.tb, ht, htb, hmode]
  have hfs' : e.fs = d.fs := by simp only [Dev.fs, hfs]
  unfold Dev.startInstant Dev.len
  rw [htick, hfs', hlen, hns, hlo, hhi]

/-- A stopped unit whose MARGIN fits starts (R350). -/
theorem runStart_fits {d : Dev} (hz : Nat) (hr : d.running = false) (hm : d.fld TCK.RELEASE_MARGIN ≤ d.len) :
    d.runStart hz = (scheduled ((runSet d).mclk hz)).answer .done := by
  simp only [Dev.runStart, hr, Bool.false_eq_true, if_false, Nat.not_lt.mpr hm, tickStart_eq]

theorem runStart_tooLong {d : Dev} (hz : Nat) (hr : d.running = false) (hm : d.len < d.fld TCK.RELEASE_MARGIN) :
    d.runStart hz = (d.flag TCK.CTRL_START_ERR true).answer .done := by
  simp only [Dev.runStart, hr, hm, Bool.false_eq_true, if_false, if_true]

theorem runStart_running {d : Dev} (hz : Nat) (hr : d.running = true) :
    d.runStart hz = { d with plan := { d.plan with stopping := false } }.answer .done := by
  simp only [Dev.runStart, hr, if_true]

theorem runStop_running {d : Dev} (hr : d.running = true) : d.runStop = { d with plan := { d.plan with stopping := true } }.answer .done := by
  simp only [Dev.runStop, hr, Bool.not_true, Bool.false_eq_true, if_false]

theorem runStop_stopped {d : Dev} (hr : d.running = false) : d.runStop = d.answer .done := by
  simp only [Dev.runStop, hr, Bool.not_false, if_true]

/-- A start of a stopped unit, as O9 says it. -/
theorem tickRunStart_starts {s : State} {hz : Nat} (hd : s.dev.dead = false) (hr : s.dev.running = false)
    (hm : s.dev.fld TCK.RELEASE_MARGIN ≤ s.dev.len) : Yields (exec (.tickRunStart hz) s) (fun t =>
      t.dev.running = true ∧ t.dev.on TCK.CTRL_START_ERR = false ∧ t.dev.plan.starting = true ∧ t.dev.plan.stopping = false ∧
      t.dev.fld PWR.MCLK_MEAS_HZ = hz % 2 ^ PWR.MCLK_MEAS_HZ.width ∧ t.dev.resp = .done ∧
      (s.dev.mclkOut hz = true ∨ s.dev.pwrArmed 2 = true → t.dev.isSet 705 = true ∧ t.dev.on PWR.CLK_STAT_MCLK_OK = false) ∧
      (s.dev.mclkOut hz = false → s.dev.pwrArmed 2 = false → t.dev.on PWR.CLK_STAT_MCLK_OK = true) ∧
      t.dev.time.start = (if s.dev.on TIM.TICK_CFG_LOCK_EN then some s.dev.startInstant else none)) := by
  have hout : (runSet s.dev).mclkOut hz = s.dev.mclkOut hz := mclkOut_congr (runSet_fld _ (by decide) (by decide)) hz
  have harm : (runSet s.dev).pwrArmed 2 = s.dev.pwrArmed 2 :=
    pwrArmed_congr (runSet_fld _ (by decide) (by decide)) (runSet_fld _ (by decide) (by decide)) 2
  have hfld : ∀ f ∈ [TIM.TICK_START_NS_START, TIM.TICK_START_SEC_LO_START, TIM.TICK_START_SEC_HI_START, TIM.TICK_CFG_TBSEL, TIM.CTRL_MODE,
      TCK.FRAME_LEN, TCK.FRAME_FS_SEL], f.key ∉ mclkKeys ∧ f.key ≠ TCK.CTRL_RUN.key ∧ f.key ≠ TCK.CTRL_START_ERR.key := by decide
  have hstart : ((runSet s.dev).mclk hz).startInstant = s.dev.startInstant := by
    refine startInstant_congr (mclk_time _ _) (fun f hf => ?_)
    obtain ⟨h1, h2, h3⟩ := hfld f hf
    rw [mclk_fld _ _ h1, runSet_fld _ h2 h3]
  have hlock : ((runSet s.dev).mclk hz).on TIM.TICK_CFG_LOCK_EN = s.dev.on TIM.TICK_CFG_LOCK_EN :=
    (mclk_on _ _ (by decide)).trans (Dev.on_fld (runSet_fld _ (by decide) (by decide)))
  have hok : ((runSet s.dev).mclk hz).on PWR.CLK_STAT_MCLK_OK = !(s.dev.mclkOut hz || s.dev.pwrArmed 2) := by rw [mclk_ok, hout, harm]
  refine run_body hd (runStart_fits hz hr hm) ⟨?_, ?_, ?_, ?_, ?_, by simp, fun h => ⟨?_, ?_⟩, fun h1 h2 => ?_, ?_⟩
  · rw [Dev.running, runOn_on _ _ (by decide), Dev.on_answer, scheduled_on _ (by decide), mclk_on _ _ (by decide)]
    exact runSet_running _
  · rw [runOn_on _ _ (by decide), Dev.on_answer, scheduled_on _ (by decide), mclk_on _ _ (by decide), runSet, Dev.on_flag_same]
  · simp [runSet]
  · simp [runSet]
  · rw [runOn_fld _ _ (by decide), Dev.fld_answer, scheduled_fld _ (by decide), mclk_hz]
  · rw [isSet_runOn, isSet_answer, isSet_scheduled]
    exact mclk_sets _ _ (runSet_running _) (by rwa [hout, harm])
  · rw [runOn_on _ _ (by decide), Dev.on_answer, scheduled_on _ (by decide), hok]
    rcases h with h | h <;> simp [h]
  · rw [runOn_on _ _ (by decide), Dev.on_answer, scheduled_on _ (by decide), hok, h1, h2]
    rfl
  · rw [runOn_time, Dev.answer_time, scheduled_start, hlock, hstart]

theorem tickRunStart_tooLong {s : State} {hz : Nat} (hd : s.dev.dead = false) (hm : s.dev.memsys.writes = []) (hr : s.dev.running = false)
    (hl : s.dev.len < s.dev.fld TCK.RELEASE_MARGIN) : Yields (exec (.tickRunStart hz) s) (fun t =>
      t.dev.on TCK.CTRL_START_ERR = true ∧ t.dev.running = false ∧ RegsOnly [TCK.CTRL_START_ERR.key] s t) := by
  refine run_body hd (runStart_tooLong hz hr hl) ⟨?_, ?_, runOn_regsOnly hm (fun g hg => ?_) rfl⟩
  · rw [runOn_on _ _ (by decide), Dev.on_answer, Dev.on_flag_same]
  · rw [Dev.running, runOn_on _ _ (by decide), Dev.on_answer, Dev.on_flag_other _ _ (by decide)]
    exact hr
  · rw [Dev.fld_answer]
    exact Dev.fld_flag_other _ _ (fun h => hg (List.mem_singleton.mpr h))

/-- A write of RUN while the unit runs says whether a stop is due, and changes nothing else. -/
theorem stopping_yields {s : State} {f : Mem → Dev → Dev} {b : Bool} (hd : s.dev.dead = false) (hm : s.dev.memsys.writes = [])
    (hf : f s.mem s.dev = { s.dev with plan := { s.dev.plan with stopping := b } }.answer .done) : Yields (run s f) (fun t =>
      t.dev.plan.stopping = b ∧ Frame [] (fun d => { d with resp := .idle, plan := { d.plan with stopping := false } }) s t) :=
  run_body hd hf ⟨by simp, runOn_frame (fun _ _ => rfl) hm (fun _ _ => rfl) rfl rfl⟩

end Sys2Proof.Proofs.Scope
end

section
namespace Sys2Proof.Proofs.Scope

open Sys2Proof.Machine Sys2Proof.Laws

/-! What a capture's application leaves alone: the capture that waits and the staged arm list (R12, R48). -/

/-- What waits for a commit write or for a boundary. -/
def waiting (d : Dev) : Option Capture × List ArmEntry := (d.capture, d.watch.staged)

theorem waiting_raises {d e : Dev} (h : Raises d e) : waiting e = waiting d := by
  rw [waiting, waiting, h.capture, h.watch]

theorem waiting_foldl {α : Type} (g : Dev → α → Dev) (hg : ∀ d a, waiting (g d a) = waiting d) (l : List α) :
    ∀ d, waiting (l.foldl g d) = waiting d := by
  induction l with
  | nil => exact fun _ => rfl
  | cons a l ih => exact fun d => (ih (g d a)).trans (hg d a)

theorem waiting_ite {c : Prop} [Decidable c] {d e₁ e₂ : Dev} (h₁ : waiting e₁ = waiting d) (h₂ : waiting e₂ = waiting d) :
    waiting (if c then e₁ else e₂) = waiting d := by
  split
  · exact h₁
  · exact h₂

@[simp] theorem waiting_put (d : Dev) (f : Fld) (v : Nat) : waiting (d.put f v) = waiting d := rfl
@[simp] theorem waiting_cause (d : Dev) (n : Nat) (b : Bool) : waiting (d.cause n b) = waiting d := rfl
@[simp] theorem waiting_putOut (d : Dev) (c : Nat) (o : OutCh) : waiting (d.putOut c o) = waiting d := rfl
@[simp] theorem waiting_raise (d : Dev) (die : Die) (n : Nat) : waiting (d.raise die n) = waiting d := waiting_raises (raise_raises d die n)

@[simp] theorem waiting_rebuildStatus (d : Dev) : waiting d.rebuildStatus = waiting d := rfl
@[simp] theorem waiting_updateMinMs (d : Dev) : waiting d.updateMinMs = waiting d :=
  (waiting_rebuildStatus _).trans (waiting_put _ _ _)

theorem waiting_startBuild (d : Dev) (w : Nat) (cur : Bool) : waiting (d.startBuild w cur) = waiting d := by
  unfold Dev.startBuild
  cases cur
  · exact waiting_ite rfl rfl
  · exact waiting_ite rfl rfl

@[simp] theorem waiting_startBuilds (d : Dev) : waiting d.startBuilds = waiting d := by
  refine (waiting_rebuildStatus _).trans (waiting_ite rfl ?_)
  refine (waiting_foldl _ (fun d w => waiting_ite (waiting_startBuild d w false) rfl) _ _).trans ?_
  exact waiting_foldl _ (fun d w => waiting_ite (waiting_startBuild d w true) rfl) _ _

theorem waiting_planCovs (d : Dev) (c : Tab (Option Nat)) : waiting (d.planCovs c) = waiting d := by
  refine waiting_foldl _ (fun d w => ?_) _ d
  rfl

theorem waiting_skimCycles (d : Dev) (g : Nat → Nat) (l : List Nat) :
    waiting (l.foldl (fun x u => x.put (TCK.PLAN_SKIM_CYC u) (g u)) d) = waiting d :=
  waiting_foldl (fun x u => x.put (TCK.PLAN_SKIM_CYC u) (g u)) (fun _ _ => waiting_put _ _ _) l d

@[simp] theorem waiting_buildPlan (d : Dev) : waiting d.buildPlan = waiting d := by
  unfold Dev.buildPlan
  dsimp only
  refine waiting_ite ?_ ?_
  · rw [waiting_cause, waiting_raise, waiting_skimCycles]
    exact waiting_planCovs _ _
  · rw [waiting_cause, waiting_skimCycles]
    exact waiting_planCovs _ _

theorem waiting_armWatch (d : Dev) (w a : Nat) : waiting (d.armWatch w a) = waiting d :=
  waiting_ite ((waiting_updateMinMs _).trans rfl) rfl

theorem waiting_goIdle (d : Dev) (w : Nat) : waiting (d.goIdle w) = waiting d :=
  waiting_ite ((waiting_updateMinMs _).trans rfl) rfl

theorem waiting_retireWatch (d : Dev) (w r : Nat) (stopped : Bool) : waiting (d.retireWatch w r stopped) = waiting d :=
  waiting_ite (waiting_goIdle d w) rfl

theorem waiting_applyList (d : Dev) (l : List ArmEntry) (a : Nat) (stopped : Bool) : waiting (d.applyList l a stopped) = waiting d := by
  unfold Dev.applyList
  rw [waiting_startBuilds, waiting_put, waiting_put, waiting_put]
  refine waiting_foldl _ (fun d e => ?_) l d
  exact waiting_ite (waiting_armWatch d e.watch a) (waiting_retireWatch d e.watch a stopped)

theorem waiting_passReturn (d : Dev) : waiting d.passReturn = waiting d := by
  refine waiting_foldl _ (fun d c => ?_) _ d
  exact waiting_ite rfl (waiting_putOut _ _ _)

theorem waiting_windowChange (a : Nat) (d : Dev) (w : Nat) : waiting (Dev.windowChange a d w) = waiting d := rfl

theorem waiting_channelChange (a : Nat) (d : Dev) (c : Nat) : waiting (Dev.channelChange a d c) = waiting d := waiting_putOut _ _ _

theorem waiting_applyFields (d : Dev) (cs : List (Fld × Nat)) : waiting (d.applyFields cs) = waiting d := by
  refine waiting_foldl _ (fun d c => ?_) cs d
  rfl

theorem waiting_groupEffect (d : Dev) (at_ : CommitAt) (old g : Nat) (cs : List (Fld × Nat)) : waiting (d.groupEffect at_ old g cs) = waiting d := by
  unfold Dev.groupEffect
  split
  · exact waiting_ite rfl rfl
  · exact waiting_foldl _ (waiting_windowChange at_.frame) _ _
  · have hch (l : List Nat) : waiting (l.foldl (Dev.channelChange at_.frame) d) = waiting d :=
      waiting_foldl _ (waiting_channelChange at_.frame) l d
    exact waiting_ite ((waiting_passReturn _).trans (hch _)) (hch _)
  · rfl

theorem waiting_armGroup (d : Dev) (at_ : CommitAt) (l : List ArmEntry) (r : CommitRun) : waiting (d.armGroup at_ l r).1 = waiting d := by
  unfold Dev.armGroup
  split
  · rfl
  · split
    · rfl
    · exact waiting_applyList d l at_.frame at_.stopped

theorem waiting_commitGroup (at_ : CommitAt) (fields : Tab Nat) (l : List ArmEntry) (a : Dev × CommitRun) (g : Nat) :
    waiting (Dev.commitGroup at_ fields l a g).1 = waiting a.1 := by
  unfold Dev.commitGroup
  dsimp only
  split
  · exact waiting_armGroup _ at_ l _
  · split
    · rfl
    · split
      · rfl
      · split
        · rfl
        · exact (waiting_groupEffect _ at_ _ g _).trans (waiting_applyFields _ _)

/-! The groups of a capture (R213). -/

/-- The groups of a capture, judged and applied. -/
def grouped (d : Dev) (at_ : CommitAt) (fields : Tab Nat) (l : List ArmEntry) (gs : List Nat) (r : CommitRun) : Dev × CommitRun :=
  gs.foldl (Dev.commitGroup at_ fields l) (d, r)

theorem waiting_grouped (at_ : CommitAt) (fields : Tab Nat) (l : List ArmEntry) (gs : List Nat) :
    ∀ d r, waiting (grouped d at_ fields l gs r).1 = waiting d := by
  induction gs with
  | nil => exact fun _ _ => rfl
  | cons g gs ih => exact fun d r => (ih _ _).trans (waiting_commitGroup at_ fields l (d, r) g)

/-- With nothing staged for a group, and nothing changed before it, the group does nothing. -/
theorem commitGroup_idle {d : Dev} {r : CommitRun} {fields : Tab Nat} {g : Nat} (at_ : CommitAt) (hg : d.groupChanges fields g = [])
    (hr : r.changed = false) : Dev.commitGroup at_ fields [] (d, r) g = (d, r) := by
  simp [Dev.commitGroup, Dev.armGroup, hg, hr]

/-- With nothing staged for a group, the group may be rejected, but changes nothing. -/
theorem commitGroup_still {d : Dev} {fields : Tab Nat} {g : Nat} (at_ : CommitAt) (r : CommitRun) (hg : d.groupChanges fields g = []) :
    (Dev.commitGroup at_ fields [] (d, r) g).1 = d ∧ (Dev.commitGroup at_ fields [] (d, r) g).2.plan = r.plan := by
  unfold Dev.commitGroup Dev.armGroup
  dsimp only
  rw [hg]
  split
  · exact ⟨rfl, rfl⟩
  · split
    · exact ⟨rfl, rfl⟩
    · split <;> exact ⟨rfl, rfl⟩

theorem grouped_idle {d : Dev} {r : CommitRun} {fields : Tab Nat} (at_ : CommitAt) (hr : r.changed = false) (gs : List Nat)
    (hg : ∀ g ∈ gs, d.groupChanges fields g = []) : grouped d at_ fields [] gs r = (d, r) := by
  induction gs with
  | nil => rfl
  | cons g gs ih =>
    have h := commitGroup_idle at_ (hg g List.mem_cons_self) hr
    have ih := ih (fun x hx => hg x (List.mem_cons_of_mem _ hx))
    rw [grouped] at ih ⊢
    rw [List.foldl_cons, h, ih]

theorem grouped_still {d : Dev} {fields : Tab Nat} (at_ : CommitAt) (gs : List Nat) (hg : ∀ g ∈ gs, d.groupChanges fields g = []) :
    ∀ r, (grouped d at_ fields [] gs r).1 = d ∧ (grouped d at_ fields [] gs r).2.plan = r.plan := by
  induction gs with
  | nil => exact fun _ => ⟨rfl, rfl⟩
  | cons g gs ih =>
    intro r
    obtain ⟨h1, h2⟩ := commitGroup_still at_ r (hg g List.mem_cons_self)
    obtain ⟨h3, h4⟩ := ih (fun x hx => hg x (List.mem_cons_of_mem _ hx)) (Dev.commitGroup at_ fields [] (d, r) g).2
    have h : grouped d at_ fields [] (g :: gs) r = grouped d at_ fields [] gs (Dev.commitGroup at_ fields [] (d, r) g).2 := by
      rw [grouped, grouped, List.foldl_cons]
      exact congrArg (gs.foldl _) (Prod.ext h1 rfl)
    rw [h]
    exact ⟨h3, h4.trans h2⟩

/-! A staged MARGIN (R30, R50). -/

/-- Whether FRAME is accepted depends on MARGIN, LEN and the watches alone. -/
theorem frameOk_congr {d e : Dev} (hm : e.fld TCK.RELEASE_MARGIN = d.fld TCK.RELEASE_MARGIN) (hl : e.fld TCK.FRAME_LEN = d.fld TCK.FRAME_LEN)
    (hw : e.watch.watches = d.watch.watches) (hd : e.watch.desc = d.watch.desc) : e.frameOk = d.frameOk := by
  unfold Dev.frameOk Dev.len Dev.activeWatches Dev.watchOf Dev.wdDeadline Dev.wdKind Dev.seqLive Dev.wdKindWord Dev.wd
  rw [hm, hl, hw, hd]

theorem fieldOfKey_margin : fieldOfKey TCK.RELEASE_MARGIN.key = some TCK.RELEASE_MARGIN := by decide

theorem groupOf_margin : groupOf (TCK.RELEASE_MARGIN.key / 32) = some 0 := by decide

/-- MARGIN is a member of FRAME. -/
theorem groupChanges_margin {d : Dev} {v : Nat} (hv : v ≠ d.fld TCK.RELEASE_MARGIN) :
    d.groupChanges [(TCK.RELEASE_MARGIN.key, v)] 0 = [(TCK.RELEASE_MARGIN, v)] := by
  simp only [Dev.groupChanges, List.filterMap_cons, List.filterMap_nil, groupOf_margin, fieldOfKey_margin, if_neg hv.symm]
  rfl

theorem groupChanges_margin_other (d : Dev) (v : Nat) {g : Nat} (hg : g ≠ 0) : d.groupChanges [(TCK.RELEASE_MARGIN.key, v)] g = [] := by
  simp [Dev.groupChanges, groupOf_margin, hg.symm]

/-- The device with a staged MARGIN in force. -/
def withMargin (d : Dev) (v : Nat) : Dev := (d.put TCK.RELEASE_MARGIN v).putStaged TCK.RELEASE_MARGIN (d.stagedFld TCK.RELEASE_MARGIN)

theorem frameGroup_rejects {d : Dev} {v : Nat} (at_ : CommitAt) (r : CommitRun) (hv : v ≠ d.fld TCK.RELEASE_MARGIN) (hok : (withMargin d v).frameOk = false) :
    Dev.commitGroup at_ [(TCK.RELEASE_MARGIN.key, v)] [] (d, r) 0 = (d, { r with rejected := r.rejected ++ [0] }) := by
  have h : d.groupOk (d.applyFields [(TCK.RELEASE_MARGIN, v)]) 0 = false := hok
  simp [Dev.commitGroup, groupChanges_margin hv, h]

theorem frameGroup_applies {d : Dev} {v : Nat} {at_ : CommitAt} (r : CommitRun) (hs : at_.stopped = true) (hv : v ≠ d.fld TCK.RELEASE_MARGIN)
    (hok : (withMargin d v).frameOk = true) : Dev.commitGroup at_ [(TCK.RELEASE_MARGIN.key, v)] [] (d, r) 0 =
      ({ withMargin d v with gate := { (withMargin d v).gate with margins := [] } }, { r with changed := true }) := by
  have h : d.groupOk (d.applyFields [(TCK.RELEASE_MARGIN, v)]) 0 = true := hok
  simp only [Dev.commitGroup, groupChanges_margin hv, h, Dev.groupEffect, Dev.marginChange, hs]
  simp [Dev.applyFields, withMargin]

end Sys2Proof.Proofs.Scope
end

section
namespace Sys2Proof.Proofs.Scope

open Sys2Proof.Machine Sys2Proof.Laws

/-! What follows the groups of a capture: the status registers, the replies, the configuration digest (R214, R368, R493). -/

/-- Keys of the fields that replies and the configuration digest may change. -/
def digestKeys : List Nat := TWN.STAT_STATE.key :: raiseKeys

/-- An update that replies and the configuration digest may make. -/
structure Digests (d e : Dev) : Prop where
  fld : ∀ f : Fld, f.key ∉ digestKeys → e.fld f = d.fld f
  set : ∀ n, d.isSet n = true → e.isSet n = true
  waiting : waiting e = waiting d

theorem Digests.refl (d : Dev) : Digests d d := ⟨fun _ _ => rfl, fun _ h => h, rfl⟩

theorem Digests.trans {a b c : Dev} (h : Digests a b) (k : Digests b c) : Digests a c :=
  ⟨fun f hf => (k.fld f hf).trans (h.fld f hf), fun n hn => k.set n (h.set n hn), k.waiting.trans h.waiting⟩

theorem Digests.raises {a b c : Dev} (h : Digests a b) (k : Raises b c) : Digests a c :=
  h.trans ⟨fun f hf => k.regs f (fun hk => hf (List.mem_cons_of_mem _ hk)), k.set, waiting_raises k⟩

theorem Digests.foldl {α : Type} (g : Dev → α → Dev) (hg : ∀ d a, Digests d (g d a)) (l : List α) : ∀ d, Digests d (l.foldl g d) := by
  induction l with
  | nil => exact fun d => .refl d
  | cons a l ih => exact fun d => (hg d a).trans (ih (g d a))

theorem Digests.ite {d e₁ e₂ : Dev} {c : Prop} [Decidable c] (h₁ : Digests d e₁) (h₂ : Digests d e₂) : Digests d (if c then e₁ else e₂) := by
  split
  · exact h₁
  · exact h₂

theorem Digests.cause {d e : Dev} (h : Digests d e) (n : Nat) (b : Bool) : Digests d (e.cause n b) := h.trans ⟨fun _ _ => rfl, fun _ h => h, rfl⟩

theorem reply_raises (d : Dev) (sess reqId op status : Nat) (request payload : List Byte) : Raises d (d.reply sess reqId op status request payload) := by
  unfold Dev.reply
  split
  · exact .refl d
  · exact ((Raises.refl d).session _ _).post _

theorem twinEvent_raises (d : Dev) (code : Nat) : Raises d (d.twinEvent code) := by
  refine Raises.foldl _ (fun d n => ?_) _ d
  split
  · exact .refl d
  · exact .ite (fun _ => event_raises _ _ _ _) (fun _ => .refl d)

/-- One cause of the twin: its source is set where it comes up. -/
theorem twinCause_digests {d e : Dev} (h : Digests d e) (n : Nat) (b : Bool) :
    Digests d (if b then (if tabGet false e.snag.cause n then e else (e.raise .s n).cause n true) else e.cause n false) :=
  .ite (.ite h ((h.raises (raise_raises e .s n)).cause n true)) (h.cause n false)

theorem twinCauses_digests (d : Dev) : Digests d d.twinCauses :=
  twinCause_digests (twinCause_digests (twinCause_digests (.refl d) 672 _) 677 _) 678 _

theorem twinRefresh_digests (d : Dev) : Digests d d.twinRefresh := by
  have hput : Digests d (d.put TWN.STAT_STATE d.twinState) :=
    ⟨fun f hf => Dev.fld_put_other _ _ (fun h => hf (h ▸ List.mem_cons_self)), fun _ h => h, rfl⟩
  refine Digests.trans ?_ (twinCauses_digests _)
  exact .ite hput (.ite (hput.raises (twinEvent_raises _ 2)) (.ite (hput.raises (twinEvent_raises _ 1)) hput))

theorem contents_digests (d : Dev) (c : List Nat) : Digests d { d with twin := { d.twin with contents := c } } := ⟨fun _ _ => rfl, fun _ h => h, rfl⟩

theorem configDigest_digests (d : Dev) : Digests d d.configDigest := by
  unfold Dev.configDigest
  exact (contents_digests d _).trans (twinRefresh_digests _)

theorem commitReplies_digests (d : Dev) (n : Nat) : Digests d (d.commitReplies n) := by
  unfold Dev.commitReplies
  dsimp only
  have h0 : Digests d { d with cmd := { d.cmd with commitWait := d.cmd.commitWait.drop n } } := ⟨fun _ _ => rfl, fun _ h => h, rfl⟩
  exact h0.trans (Digests.foldl _ (fun d _ => (Digests.refl d).raises (reply_raises d _ _ _ _ _ _)) _ _)

/-! The status registers of a capture (R214). -/

/-- Keys of TCK_COMMIT_STATUS but PENDING, of TCK_COMMIT_REJ and of TCK_COMMIT_FRAME. -/
def statusKeys : List Nat :=
  [TCK.COMMIT_STATUS_RESULT.key, TCK.COMMIT_STATUS_GROUP.key, TCK.COMMIT_STATUS_REJECTED.key, TCK.COMMIT_REJ0_REJ.key, TCK.COMMIT_REJ1_REJ.key,
    TCK.COMMIT_FRAME_FRAME_NO.key]

/-- The device with the outcome of a capture in its status registers. -/
def statusPut (d : Dev) (at_ : CommitAt) (rej : List Nat) : Dev :=
  (((((d.put TCK.COMMIT_STATUS_RESULT (if rej == [] then 1 else 2)).put TCK.COMMIT_STATUS_GROUP (rej.headD 0)).put
    TCK.COMMIT_STATUS_REJECTED rej.length).put TCK.COMMIT_REJ0_REJ (bitsOf 32 rej.contains)).put
    TCK.COMMIT_REJ1_REJ (bitsOf 32 (fun j => rej.contains (32 + j)))).put TCK.COMMIT_FRAME_FRAME_NO (if at_.stopped then 0 else at_.frame)

theorem commitStatus_eq (d : Dev) (at_ : CommitAt) (rej : List Nat) :
    d.commitStatus at_ rej = if rej == [] then statusPut d at_ rej else (statusPut d at_ rej).raise .s 66 := rfl

theorem waiting_statusPut (d : Dev) (at_ : CommitAt) (rej : List Nat) : waiting (statusPut d at_ rej) = waiting d := by simp [statusPut]

theorem statusPut_fld (d : Dev) (at_ : CommitAt) (rej : List Nat) {f : Fld} (h : f.key ∉ statusKeys) : (statusPut d at_ rej).fld f = d.fld f := by
  simp only [statusKeys, List.mem_cons, List.not_mem_nil, or_false, not_or] at h
  obtain ⟨hres, hgroup, hrej, hrej0, hrej1, hframe⟩ := h
  rw [statusPut, Dev.fld_put_other _ _ hframe, Dev.fld_put_other _ _ hrej1, Dev.fld_put_other _ _ hrej0, Dev.fld_put_other _ _ hrej,
    Dev.fld_put_other _ _ hgroup, Dev.fld_put_other _ _ hres]

theorem statusPut_result (d : Dev) (at_ : CommitAt) (rej : List Nat) :
    (statusPut d at_ rej).fld TCK.COMMIT_STATUS_RESULT = if rej == [] then 1 else 2 := by
  rw [statusPut, Dev.fld_put_other _ _ (by decide), Dev.fld_put_other _ _ (by decide), Dev.fld_put_other _ _ (by decide),
    Dev.fld_put_other _ _ (by decide), Dev.fld_put_other _ _ (by decide), Dev.fld_put_same]
  split <;> rfl

theorem statusPut_rejected (d : Dev) (at_ : CommitAt) : (statusPut d at_ []).fld TCK.COMMIT_STATUS_REJECTED = 0 := by
  rw [statusPut, Dev.fld_put_other _ _ (by decide), Dev.fld_put_other _ _ (by decide), Dev.fld_put_other _ _ (by decide), Dev.fld_put_same]
  rfl

theorem statusPut_frame (d : Dev) {at_ : CommitAt} (hs : at_.stopped = true) (rej : List Nat) :
    (statusPut d at_ rej).fld TCK.COMMIT_FRAME_FRAME_NO = 0 := by
  rw [statusPut, Dev.fld_put_same, hs]
  rfl

theorem commitStatus_digests (d : Dev) (at_ : CommitAt) (rej : List Nat) : Digests (statusPut d at_ rej) (d.commitStatus at_ rej) := by
  rw [commitStatus_eq]
  exact .ite (.refl _) ((Digests.refl _).raises (raise_raises _ .s 66))

/-- A rejection sets COMMIT_REJECT (R214). -/
theorem commitStatus_sets (d : Dev) (at_ : CommitAt) {rej : List Nat} (h : rej ≠ []) : (d.commitStatus at_ rej).isSet 66 = true := by
  rw [commitStatus_eq, if_neg (by simpa using h)]
  exact raise_s_set _ (by decide)

/-! A capture applies (R12, R215). -/

/-- The device once the groups of a capture have applied, with the plan that they call for. -/
def planned (a : Dev × CommitRun) : Dev := if a.2.plan then a.1.buildPlan else a.1

/-- The groups of a capture, from the first on. -/
def allGroups (d : Dev) (at_ : CommitAt) (fields : Tab Nat) (l : List ArmEntry) : Dev × CommitRun :=
  grouped d at_ fields l commitGroups ⟨false, [], false⟩

theorem commitApply_eq (d : Dev) (at_ : CommitAt) (fields : Tab Nat) (l : List ArmEntry) (n : Nat) : d.commitApply at_ fields l n =
    (((planned (allGroups d at_ fields l)).commitStatus at_ (allGroups d at_ fields l).2.rejected).commitReplies n).configDigest := rfl

/-- A capture's application ends with its status registers, up to the replies and the digest. -/
theorem commitApply_digests (d : Dev) (at_ : CommitAt) (fields : Tab Nat) (l : List ArmEntry) (n : Nat) :
    Digests (statusPut (planned (allGroups d at_ fields l)) at_ (allGroups d at_ fields l).2.rejected) (d.commitApply at_ fields l n) := by
  rw [commitApply_eq]
  exact ((commitStatus_digests _ _ _).trans (commitReplies_digests _ _)).trans (configDigest_digests _)

theorem commitApply_sets (d : Dev) (at_ : CommitAt) (fields : Tab Nat) (l : List ArmEntry) (n : Nat)
    (h : (allGroups d at_ fields l).2.rejected ≠ []) : (d.commitApply at_ fields l n).isSet 66 = true := by
  rw [commitApply_eq]
  exact ((commitReplies_digests _ _).trans (configDigest_digests _)).set 66 (commitStatus_sets _ _ h)

theorem waiting_planned (a : Dev × CommitRun) : waiting (planned a) = waiting a.1 := waiting_ite (waiting_buildPlan _) rfl

theorem waiting_commitApply (d : Dev) (at_ : CommitAt) (fields : Tab Nat) (l : List ArmEntry) (n : Nat) :
    waiting (d.commitApply at_ fields l n) = waiting d := by
  rw [(commitApply_digests d at_ fields l n).waiting, waiting_statusPut, waiting_planned]
  exact waiting_grouped at_ fields l _ _ _

theorem commitApply_result (d : Dev) (at_ : CommitAt) (fields : Tab Nat) (l : List ArmEntry) (n : Nat) :
    (d.commitApply at_ fields l n).fld TCK.COMMIT_STATUS_RESULT = if (allGroups d at_ fields l).2.rejected == [] then 1 else 2 := by
  rw [(commitApply_digests d at_ fields l n).fld _ (by decide), statusPut_result]

theorem commitApply_frame (d : Dev) {at_ : CommitAt} (hs : at_.stopped = true) (fields : Tab Nat) (l : List ArmEntry) (n : Nat) :
    (d.commitApply at_ fields l n).fld TCK.COMMIT_FRAME_FRAME_NO = 0 := by
  rw [(commitApply_digests d at_ fields l n).fld _ (by decide), statusPut_frame _ hs]

/-- A capture of nothing is accepted. -/
theorem allGroups_empty (d : Dev) (at_ : CommitAt) : allGroups d at_ [] [] = (d, ⟨false, [], false⟩) :=
  grouped_idle at_ rfl _ (fun _ _ => rfl)

theorem commitApply_empty (d : Dev) (at_ : CommitAt) (n : Nat) : (d.commitApply at_ [] [] n).fld TCK.COMMIT_STATUS_RESULT = 1 ∧
    (d.commitApply at_ [] [] n).fld TCK.COMMIT_STATUS_REJECTED = 0 := by
  refine ⟨?_, ?_⟩
  · rw [commitApply_result, allGroups_empty]
    rfl
  · rw [(commitApply_digests d at_ [] [] n).fld _ (by decide), allGroups_empty, statusPut_rejected]

/-- Groups other than FRAME hold no MARGIN. -/
theorem margin_elsewhere (d : Dev) (v : Nat) : ∀ g ∈ [1, 2, 3, 4, 5, 8], d.groupChanges [(TCK.RELEASE_MARGIN.key, v)] g = [] :=
  fun _ hg => groupChanges_margin_other d v (fun h => by simp [h] at hg)

theorem allGroups_margin_rejects {d : Dev} {v : Nat} (at_ : CommitAt) (hv : v ≠ d.fld TCK.RELEASE_MARGIN) (hok : (withMargin d v).frameOk = false) :
    allGroups d at_ [(TCK.RELEASE_MARGIN.key, v)] [] = (d, ⟨false, [0], false⟩) := by
  rw [allGroups, grouped, commitGroups, List.foldl_cons, frameGroup_rejects at_ _ hv hok]
  exact grouped_idle at_ rfl _ (margin_elsewhere d v)

theorem allGroups_margin_applies {d : Dev} {v : Nat} {at_ : CommitAt} (hs : at_.stopped = true) (hv : v ≠ d.fld TCK.RELEASE_MARGIN)
    (hok : (withMargin d v).frameOk = true) : (planned (allGroups d at_ [(TCK.RELEASE_MARGIN.key, v)] [])).fld TCK.RELEASE_MARGIN = v % 2048 := by
  rw [allGroups, grouped, commitGroups, List.foldl_cons, frameGroup_applies _ hs hv hok]
  obtain ⟨hd, hp⟩ := grouped_still at_ _ (margin_elsewhere { withMargin d v with gate := { (withMargin d v).gate with margins := [] } } v)
    ⟨true, [], false⟩
  rw [grouped] at hd hp
  rw [planned, hp, if_neg (by decide), hd]
  exact Dev.fld_put_same d TCK.RELEASE_MARGIN v

theorem commitApply_margin_rejects {d : Dev} {v : Nat} (at_ : CommitAt) (n : Nat) (hv : v ≠ d.fld TCK.RELEASE_MARGIN)
    (hok : (withMargin d v).frameOk = false) :
    (d.commitApply at_ [(TCK.RELEASE_MARGIN.key, v)] [] n).fld TCK.RELEASE_MARGIN = d.fld TCK.RELEASE_MARGIN ∧
    (d.commitApply at_ [(TCK.RELEASE_MARGIN.key, v)] [] n).fld TCK.COMMIT_STATUS_RESULT = 2 ∧
    (d.commitApply at_ [(TCK.RELEASE_MARGIN.key, v)] [] n).isSet 66 = true := by
  have h := allGroups_margin_rejects at_ hv hok
  refine ⟨?_, ?_, commitApply_sets _ _ _ _ _ (by simp [h])⟩
  · rw [(commitApply_digests _ _ _ _ _).fld _ (by decide), statusPut_fld _ _ _ (by decide), h]
    rfl
  · rw [commitApply_result, h]
    rfl

theorem commitApply_margin_applies {d : Dev} {v : Nat} {at_ : CommitAt} (n : Nat) (hs : at_.stopped = true) (hv : v ≠ d.fld TCK.RELEASE_MARGIN)
    (hok : (withMargin d v).frameOk = true) : (d.commitApply at_ [(TCK.RELEASE_MARGIN.key, v)] [] n).fld TCK.RELEASE_MARGIN = v % 2048 := by
  rw [(commitApply_digests _ _ _ _ _).fld _ (by decide), statusPut_fld _ _ _ (by decide), allGroups_margin_applies hs hv hok]

end Sys2Proof.Proofs.Scope
end

section
namespace Sys2Proof.Proofs.Scope

open Sys2Proof.Machine Sys2Proof.Laws

/-! A write of COMMIT (R12, R48, R215). -/

/-- The arm list entries of the capture that waits. -/
def armsBefore (d : Dev) : List ArmEntry := (d.capture.map (·.arms)).getD []

/-- The device with a capture waiting and the staged arm list taken. -/
def taken (d : Dev) (c : Capture) : Dev :=
  ((({ d with capture := some c }.putArms []).flag WCH.ARM_STATUS_LIST_FULL false).flag WCH.ARM_STATUS_BAD_OP false).flag
    TCK.COMMIT_STATUS_PENDING true

theorem taken_fld (d : Dev) (c : Capture) {f : Fld}
    (h : f.key ∉ [WCH.ARM_COUNT_ENTRIES.key, WCH.ARM_STATUS_LIST_FULL.key, WCH.ARM_STATUS_BAD_OP.key, TCK.COMMIT_STATUS_PENDING.key]) :
    (taken d c).fld f = d.fld f := by
  simp only [List.mem_cons, List.not_mem_nil, or_false, not_or] at h
  obtain ⟨hcount, hfull, hbad, hpending⟩ := h
  rw [taken, Dev.fld_flag_other _ _ hpending, Dev.fld_flag_other _ _ hbad, Dev.fld_flag_other _ _ hfull, Dev.putArms, Dev.fld_put_other _ _ hcount]
  rfl

theorem taken_running (d : Dev) (c : Capture) : (taken d c).running = d.running := Dev.on_fld (taken_fld d c (by decide))

theorem taken_count (d : Dev) (c : Capture) : (taken d c).fld WCH.ARM_COUNT_ENTRIES = 0 := by
  rw [taken, Dev.fld_flag_other _ _ (by decide), Dev.fld_flag_other _ _ (by decide), Dev.fld_flag_other _ _ (by decide), Dev.putArms,
    Dev.fld_put_same]
  rfl

/-- A capture of a stopped tick unit applies at once (R215). -/
def atOnce (d : Dev) (c : Capture) : Dev :=
  { taken d c with capture := none }.commitApply ⟨0, true, false⟩ c.fields c.arms d.cmd.commitWait.length

/-- A commit write captures the staged copies and appends the staged arm list; on a stopped unit the capture applies at once. -/
theorem commitWrite_captures (d : Dev) : ∃ c : Capture, c.fields = d.staged ∧ c.cycle = d.now ∧ c.arms = armsBefore d ++ d.watch.staged ∧
    d.commitWrite = if d.running then taken d c else (atOnce d c).flag TCK.COMMIT_STATUS_PENDING false := by
  unfold Dev.commitWrite armsBefore
  cases d.capture with
  | none => exact ⟨⟨d.staged, [] ++ d.watch.staged, d.now, none⟩, rfl, rfl, rfl, by rw [← taken_running d]; rfl⟩
  | some b =>
    exact ⟨⟨d.staged, b.arms ++ d.watch.staged, d.now, if b.cycle < d.now then some (b.fields, b.arms.length, d.cmd.commitWait.length) else b.before⟩,
      rfl, rfl, rfl, by rw [← taken_running d]; rfl⟩

/-- A write of COMMIT while the tick unit runs. -/
theorem tckCommit_captures {s : State} (hd : s.dev.dead = false) (hr : s.dev.running = true) : Yields (exec .tckCommit s) (fun t =>
    (∃ c, t.dev.capture = some c ∧ c.fields = s.dev.staged ∧ c.cycle = s.dev.now ∧ c.arms = armsBefore s.dev ++ s.dev.watch.staged) ∧
    t.dev.watch.staged = [] ∧ t.dev.on TCK.COMMIT_STATUS_PENDING = true ∧ t.dev.fld WCH.ARM_COUNT_ENTRIES = 0) := by
  obtain ⟨c, hf, hc, ha, hw⟩ := commitWrite_captures s.dev
  rw [if_pos hr] at hw
  refine run_body hd (congrArg (fun d => d.answer .done) hw) ⟨⟨c, ?_, hf, hc, ha⟩, ?_, ?_, ?_⟩
  · rw [runOn_capture]
    rfl
  · rw [runOn_watch]
    rfl
  · rw [runOn_on _ _ (by decide), Dev.on_answer, taken, Dev.on_flag_same]
  · rw [runOn_fld _ _ (by decide), Dev.fld_answer, taken_count]

/-- Whether FRAME takes a MARGIN does not depend on the commit write. -/
theorem taken_frameOk (d : Dev) (c : Capture) (v : Nat) :
    (withMargin { taken d c with capture := none } v).frameOk = (d.put TCK.RELEASE_MARGIN v).frameOk := by
  refine frameOk_congr ?_ ?_ rfl rfl
  · rw [withMargin, Dev.fld_putStaged, Dev.fld_put_same, Dev.fld_put_same]
  · rw [withMargin, Dev.fld_putStaged, Dev.fld_put_other _ _ (by decide), Dev.fld_put_other _ _ (by decide)]
    exact taken_fld d c (by decide)

/-- What a capture of a MARGIN alone leaves on a stopped unit. -/
theorem atOnce_margin {d : Dev} {c : Capture} {v : Nat} (hf : c.fields = [(TCK.RELEASE_MARGIN.key, v)]) (ha : c.arms = [])
    (hv : v ≠ d.fld TCK.RELEASE_MARGIN) :
    ((d.put TCK.RELEASE_MARGIN v).frameOk = true → (atOnce d c).fld TCK.RELEASE_MARGIN = v % 2048) ∧
    ((d.put TCK.RELEASE_MARGIN v).frameOk = false → (atOnce d c).fld TCK.RELEASE_MARGIN = d.fld TCK.RELEASE_MARGIN ∧
      (atOnce d c).fld TCK.COMMIT_STATUS_RESULT = 2 ∧ (atOnce d c).isSet 66 = true) := by
  have hm : { taken d c with capture := none }.fld TCK.RELEASE_MARGIN = d.fld TCK.RELEASE_MARGIN := taken_fld d c (by decide)
  rw [atOnce, hf, ha]
  refine ⟨fun h => ?_, fun h => ?_⟩
  · exact commitApply_margin_applies _ rfl (hm ▸ hv) ((taken_frameOk d c v).trans h)
  · rw [← hm]
    exact commitApply_margin_rejects _ _ (hm ▸ hv) ((taken_frameOk d c v).trans h)

/-- A write of COMMIT while the tick unit is stopped: the device that the capture leaves, and its fields but PENDING. -/
theorem tckCommit_applies {s : State} (hd : s.dev.dead = false) (hr : s.dev.running = false) : ∃ c : Capture, c.fields = s.dev.staged ∧
    c.arms = armsBefore s.dev ++ s.dev.watch.staged ∧ Yields (exec .tckCommit s) (fun t => waiting t.dev = (none, []) ∧
      t.dev.on TCK.COMMIT_STATUS_PENDING = false ∧ t.dev.resp = .done ∧ (∀ n, t.dev.isSet n = (atOnce s.dev c).isSet n) ∧
      ∀ f : Fld, f.key ∉ TCK.COMMIT_STATUS_PENDING.key :: safeKeys → t.dev.fld f = (atOnce s.dev c).fld f) := by
  obtain ⟨c, hf, -, ha, hw⟩ := commitWrite_captures s.dev
  rw [hr, if_neg (by decide)] at hw
  refine ⟨c, hf, ha, run_body hd (congrArg (fun d => d.answer .done) hw) ⟨?_, ?_, by simp, fun n => by simp, fun f hk => ?_⟩⟩
  · have h : waiting (atOnce s.dev c) = (none, []) := waiting_commitApply _ _ _ _ _
    rw [← h, waiting, runOn_capture, runOn_watch]
    rfl
  · rw [runOn_on _ _ (by decide), Dev.on_answer, Dev.on_flag_same]
  · rw [runOn_fld _ _ (fun h => hk (List.mem_cons_of_mem _ h)), Dev.fld_answer]
    exact Dev.fld_flag_other _ _ (fun h => hk (h ▸ List.mem_cons_self))

/-- Settles O9: each clause on RUN by the case of `runStart` or `runStop` that it names, each clause on COMMIT by `commitWrite_captures`,
the stopped one by what follows the groups of the capture. -/
theorem tickUnitStartsCommitsAndStops : Obligations.TickUnitStartsCommitsAndStops := by
  intro s hz hd hm
  refine ⟨tickRunStart_starts hd, tickRunStart_tooLong hd hm, fun hr => stopping_yields hd hm (runStart_running hz hr),
    fun hr => stopping_yields hd hm (runStop_running hr), fun hr => ?_, fun hr => ?_, fun hr => ?_⟩
  · exact yields_imp (answer_yields hd hm (runStop_stopped hr)) (fun _ h => h.2)
  · refine yields_imp (tckCommit_captures hd hr) (fun t h => ?_)
    obtain ⟨⟨c, hc, hf, hn, ha⟩, hrest⟩ := h
    refine ⟨⟨c, hc, hf, hn, ha.trans ?_⟩, hrest⟩
    unfold armsBefore
    cases s.dev.capture <;> rfl
  · obtain ⟨c, hf, ha, hy⟩ := tckCommit_applies hd hr
    refine yields_imp hy (fun t h => ?_)
    obtain ⟨hwait, hpending, hresp, hset, hfld⟩ := h
    have harms (hnone : s.dev.capture = none) (hl : s.dev.watch.staged = []) : c.arms = [] := by rw [ha, armsBefore, hnone, hl]; rfl
    refine ⟨congrArg Prod.fst hwait, congrArg Prod.snd hwait, hpending, ?_, ?_, hresp, fun hnone hl hs => ?_, fun v hnone hl hs hlt hne => ?_⟩
    · rw [hfld _ (by decide)]
      exact commitApply_frame _ rfl _ _ _
    · rw [hfld _ (by decide), atOnce, commitApply_result]
      split
      · exact .inl rfl
      · exact .inr rfl
    · rw [hfld _ (by decide), hfld _ (by decide), atOnce, hf, hs, harms hnone hl]
      exact commitApply_empty _ _ _
    · have h := atOnce_margin (hf.trans hs) (harms hnone hl) hne
      rw [Nat.mod_eq_of_lt hlt] at h
      rw [hfld _ (by decide), hfld _ (by decide), hset]
      exact h

end Sys2Proof.Proofs.Scope
end

section
namespace Sys2Proof.Proofs.Scope

open Sys2Proof.Machine Sys2Proof.Laws

/-! Commands that give register fields their values and end done. -/

/-- The device with each field of a list given its value. -/
def putEach (d : Dev) (l : List (Fld × Nat)) : Dev := l.foldl (fun d p => d.put p.1 p.2) d

theorem putEach_other {f : Fld} : ∀ (l : List (Fld × Nat)) (d : Dev), f.key ∉ l.map (fun p => p.1.key) → (putEach d l).fld f = d.fld f
  | [], _, _ => rfl
  | p :: l, d, h => by
    simp only [List.map_cons, List.mem_cons, not_or] at h
    exact (putEach_other l (d.put p.1 p.2) h.2).trans (Dev.fld_put_other d p.2 h.1)

theorem putEach_value {l : List (Fld × Nat)} (hn : (l.map (fun p => p.1.key)).Nodup) {p : Fld × Nat} (hp : p ∈ l) (d : Dev) :
    (putEach d l).fld p.1 = p.2 % 2 ^ p.1.width := by
  induction l generalizing d with
  | nil => cases hp
  | cons q l ih =>
    rw [List.map_cons, List.nodup_cons] at hn
    rcases List.mem_cons.mp hp with rfl | hp
    · exact (putEach_other l _ hn.1).trans (Dev.fld_put_same d p.1 p.2)
    · exact ih hn.2 hp (d.put q.1 q.2)

/-- Nothing but the register table changes. -/
theorem putEach_regs : ∀ (l : List (Fld × Nat)) (d : Dev), { putEach d l with regs := d.regs } = d
  | [], _ => rfl
  | p :: l, d => congrArg (fun e : Dev => { e with regs := d.regs }) (putEach_regs l (d.put p.1 p.2))

/-- Fields at places of their own, none of which is of the safe state. -/
abbrev Apart (fs : List Fld) : Prop := (fs.map Fld.key).Nodup ∧ ∀ f ∈ fs, f.key ∉ safeKeys

/-- Each field of a list has its value as far as it is wide, the access ended done, and nothing else has changed. -/
def Assigns (l : List (Fld × Nat)) (s t : State) : Prop :=
  (∀ p ∈ l, t.dev.fld p.1 = p.2 % 2 ^ p.1.width) ∧ t.dev.resp = .done ∧ RegsOnly (l.map (fun p => p.1.key)) s t

/-- A command that only gives fields their values and ends done. -/
theorem writes_yields {s : State} {f : Mem → Dev → Dev} {l : List (Fld × Nat)} (hd : s.dev.dead = false) (hm : s.dev.memsys.writes = [])
    (hl : Apart (l.map Prod.fst)) (hf : f s.mem s.dev = (putEach s.dev l).answer .done) :
    Yields (run s f) (Assigns l s) := by
  obtain ⟨hn, hs⟩ := hl
  rw [List.map_map] at hn
  refine run_body hd hf ⟨fun p hp => ?_, by simp, runOn_regsOnly hm (fun g hg => ?_) ?_⟩
  · rw [runOn_fld _ _ (hs _ (List.mem_map_of_mem hp)), Dev.fld_answer, putEach_value hn hp]
  · rw [Dev.fld_answer, putEach_other l s.dev hg]
  · exact congrArg (fun e : Dev => { e with resp := s.dev.resp }) (putEach_regs l s.dev)

/-! The read indices and the lost counts of the logs (R72, R211, R429). -/

/-- A step of the read index is none exactly where the new place is the old one. -/
theorem rdStep_eq_zero_iff {n r old : Nat} (hr : r < n) (ho : old < n) : (r + n - old) % n = 0 ↔ r = old := by
  rcases Nat.lt_or_ge r old with h | h
  · rw [Nat.mod_eq_of_lt (by omega)]
    omega
  · rw [show r + n - old = r - old + n by omega, Nat.add_mod_right, Nat.mod_eq_of_lt (by omega)]
    omega

theorem logSize_pos (l : LogId) : 0 < logSize l := by cases l <;> decide

/-- Advancing to another place gives the read index that place and clears FULL. -/
theorem logAdvance_moves {d : Dev} {l : LogId} {v : Nat} (hrd : d.fld (logRd l) < logSize l) (hv : v % logSize l ≠ d.fld (logRd l)) :
    d.logAdvance l v = (putEach d [(logRd l, v % logSize l), (logFull l, 0)]).answer .done := by
  have hstep := mt (rdStep_eq_zero_iff (Nat.mod_lt v (logSize_pos l)) hrd).mp hv
  simp only [Dev.logAdvance, hstep, if_false]
  rfl

theorem logAdvance_stays {d : Dev} {l : LogId} {v : Nat} (hrd : d.fld (logRd l) < logSize l) (hv : v % logSize l = d.fld (logRd l)) :
    d.logAdvance l v = d.answer .done := by
  have hstep := (rdStep_eq_zero_iff (Nat.mod_lt v (logSize_pos l)) hrd).mpr hv
  simp only [Dev.logAdvance, hstep, if_true]

/-- The read index is as wide as the log's size. -/
theorem two_pow_logRd (l : LogId) : 2 ^ (logRd l).width = logSize l := by cases l <;> rfl

/-- The places of a log's read index and of FULL are apart, and so is LOST from the safe state's fields. -/
theorem log_apart (l : LogId) : Apart [logRd l, logFull l] ∧ Apart [logLost l] := by cases l <;> decide

/-- Settles O20: a step of the read index is 0 exactly where the place stays, and both commands give register fields their values alone. -/
theorem logReadIndexFreesRecords : Obligations.LogReadIndexFreesRecords := by
  intro s l v hd hm hrd
  obtain ⟨hindex, hlost⟩ := log_apart l
  refine ⟨fun hv => ?_, fun hv => answer_yields hd hm (logAdvance_stays hrd hv), ?_⟩
  · refine yields_imp (writes_yields (l := [(logRd l, v % logSize l), (logFull l, 0)]) hd hm hindex (logAdvance_moves hrd hv)) (fun t ht => ?_)
    obtain ⟨hval, hdone, honly⟩ := ht
    simp only [List.forall_mem_cons, two_pow_logRd, Nat.mod_mod, Nat.zero_mod] at hval
    obtain ⟨hplace, hfull, -⟩ := hval
    exact ⟨hplace, by simp [Dev.on, hfull], hdone, honly⟩
  · refine yields_imp (writes_yields (l := [(logLost l, 0)]) hd hm hlost rfl) (fun t ht => ?_)
    obtain ⟨hval, hdone, honly⟩ := ht
    exact ⟨(hval _ List.mem_cons_self).trans (Nat.zero_mod _), hdone, honly⟩

end Sys2Proof.Proofs.Scope
end

section
namespace Sys2Proof.Proofs.Scope

open Sys2Proof.Machine Sys2Proof.Laws

/-! Injection registers (R70, R357, R407, R408, R446, R474, R503, R528): what an admitted write gives values, and what a busy register does. -/

theorem at_reach {d : Dev} {die : Die} (h : d.reach die = true) (k : Dev → Dev) : d.at die k = k d := if_pos h

theorem atC_reach {d : Dev} (h : (d.reach .c0 || d.reach .c1) = true) (k : Dev → Dev) : d.atC k = k d := if_pos h

/-- A write that the register takes, and that only gives its fields their values. -/
theorem taken_yields {s : State} {f : Mem → Dev → Dev} {l : List (Fld × Nat)} {armed ok : Bool} {v : Nat} {x : Dev} (hd : s.dev.dead = false)
    (hm : s.dev.memsys.writes = []) (hl : Apart (l.map Prod.fst)) (h : injTaken armed v ok = true)
    (hf : f s.mem s.dev = if injTaken armed v ok then (putEach s.dev l).answer .done else x) :
    Yields (run s f) (Assigns l s) :=
  writes_yields hd hm hl (hf.trans (if_pos h))

/-- A write while ARM is 1 is discarded. -/
theorem busy_yields {s : State} {f : Mem → Dev → Dev} {armed ok : Bool} {v : Nat} {e : Dev} (hd : s.dev.dead = false)
    (hm : s.dev.memsys.writes = []) (h : armed = true) (hf : f s.mem s.dev = if injTaken armed v ok then e else s.dev.answer .discarded) :
    Yields (run s f) (fun t => t.dev.resp = .discarded ∧ RegsOnly [] s t) :=
  answer_yields hd hm (hf.trans (if_neg (by simp [injTaken, h])))

theorem putEach_append (d : Dev) (l m : List (Fld × Nat)) : putEach d (l ++ m) = putEach (putEach d l) m := List.foldl_append

theorem regsOnly_mono {K L : List Nat} {s t : State} (hkl : K ⊆ L) (h : RegsOnly K s t) : RegsOnly L s t := by
  obtain ⟨hregs, hrest⟩ := h
  exact ⟨fun f hf => hregs f (fun hk => hf (hkl hk)), hrest⟩

/-- The fields of a register whose write gives ARM its value only where it sets it. -/
def armLast (l : List (Fld × Nat)) (arm : Fld) (v : Nat) : List (Fld × Nat) := l ++ if bit v 31 then [(arm, 1)] else []

theorem apart_armLast {l : List (Fld × Nat)} {arm : Fld} (v : Nat) (h : Apart (l.map Prod.fst ++ [arm])) :
    Apart ((armLast l arm v).map Prod.fst) := by
  unfold armLast
  cases bit v 31 with
  | true => simpa using h
  | false =>
    obtain ⟨hn, hs⟩ := h
    rw [List.map_append] at hn
    rw [if_neg (by decide), List.append_nil]
    exact ⟨hn.of_append_left, fun f hf => hs f (List.mem_append_left _ hf)⟩

/-- Such a write where it is admitted, with a mode that waits where it sets ARM: `acts` is what a mode that does not wait does. -/
theorem armLast_yields {s : State} {f : Mem → Dev → Dev} {l : List (Fld × Nat)} {arm : Fld} {armed ok waits : Bool} {v : Nat} {acts x : Dev}
    (hd : s.dev.dead = false) (hm : s.dev.memsys.writes = []) (hl : Apart (l.map Prod.fst ++ [arm]))
    (h : (!armed && (!bit v 31 || waits)) = true) (hw : waits = true → ok = true ∧ acts = ((putEach s.dev l).answer .done).flag arm true)
    (hf : f s.mem s.dev = if injTaken armed v ok then (if !bit v 31 then (putEach s.dev l).answer .done else acts) else x) :
    Yields (run s f) (Assigns (armLast l arm v) s) := by
  refine writes_yields hd hm (apart_armLast v hl) (hf.trans ?_)
  unfold armLast
  cases hb : bit v 31 with
  | false =>
    have ht : injTaken armed v ok = true := by simpa [injTaken, hb] using h
    simp [ht]
  | true =>
    simp only [hb, Bool.not_true, Bool.false_or, Bool.and_eq_true] at h
    obtain ⟨harmed, hwaits⟩ := h
    obtain ⟨hok, hacts⟩ := hw hwaits
    simp only [injTaken, harmed, hok, hacts, Bool.or_true, Bool.and_self, if_true, Bool.not_true, Bool.false_eq_true, if_false]
    rw [putEach_append]
    rfl

theorem linkSt_fld {d e : Dev} {u : Nat} (hu : u < 4) (h : e.fld (FJL.P_STAT_STATE u) = d.fld (FJL.P_STAT_STATE u)) : e.linkSt u = d.linkSt u := by
  simp only [Dev.linkSt, hu, if_true, h]

theorem fjlInj_apart : ∀ u < 4, Apart [FJL.P_INJ_ARM u, FJL.P_INJ_MODE u] := by decide

theorem skmInj_apart : ∀ u < 4, Apart [SKM.U_INJ_ARM u, SKM.U_INJ_WATCH_ID u, SKM.U_INJ_MODE u] := by decide

/-- The fields that a write of FJL_P_INJ gives values. -/
def fjlFields (u v : Nat) : List (Fld × Nat) := [(FJL.P_INJ_ARM u, b2n (bit v 31)), (FJL.P_INJ_MODE u, v % 8)]

/-- An injection that is not armed in mode 3, or whose port is not ACTIVE, waits. -/
theorem lockInjection_waits {d : Dev} {u v : Nat} (hu : u < 4) (h : bit v 31 = false ∨ v % 8 ≠ 3 ∨ d.linkSt u ≠ 7) :
    (putEach d (fjlFields u v)).lockInjection u = putEach d (fjlFields u v) := by
  have harm : (putEach d (fjlFields u v)).on (FJL.P_INJ_ARM u) = bit v 31 := by
    rw [← Dev.on_flag_same d (FJL.P_INJ_ARM u) (bit v 31)]
    exact Dev.on_put_other _ _ (by simp [Fld.key, FJL.P_INJ_ARM, FJL.P_INJ_MODE])
  have hmode : (putEach d (fjlFields u v)).fld (FJL.P_INJ_MODE u) = v % 8 := by
    exact (Dev.fld_put_same _ (FJL.P_INJ_MODE u) _).trans (Nat.mod_mod v 8)
  have hstate : (putEach d (fjlFields u v)).linkSt u = d.linkSt u :=
    linkSt_fld hu (putEach_other _ d (by simp [fjlFields, Fld.key, FJL.P_INJ_ARM, FJL.P_INJ_MODE, FJL.P_STAT_STATE]; omega))
  unfold Dev.lockInjection Dev.fjlArmed
  rw [harm, hmode, hstate]
  refine if_neg ?_
  rcases h with h | h | h <;> simp [h]

/-- What an admitted write of an injection register does, as O24 says it. -/
def Arms (s : State) (e : Instr × Bool × List (Fld × Nat)) : Prop :=
  e.2.1 = true → Yields (exec e.1 s) (Assigns e.2.2 s)

/-- What a write of a busy injection register does, as O24 says it. -/
def Busy (s : State) (e : Instr × Bool) : Prop := e.2 = true → Yields (exec e.1 s) (fun t => t.dev.resp = .discarded ∧ RegsOnly [] s t)

section
variable {s : State} (u v : Nat) (hd : s.dev.dead = false) (hm : s.dev.memsys.writes = [])
include hd hm

/-- SKM_U_INJ has no check of ARM. -/
theorem skmUInj_arms (h : (decide (u < 4) && s.dev.reach (clusterDie u) && (!bit v 31 || v % 4 == 1 || v % 4 == 2)) = true) :
    Yields (exec (.skmUInj u v) s)
      (Assigns [(SKM.U_INJ_ARM u, b2n (bit v 31)), (SKM.U_INJ_WATCH_ID u, bitsAt v 27 16), (SKM.U_INJ_MODE u, v % 4)] s) := by
  simp only [Bool.and_eq_true, decide_eq_true_eq] at h
  obtain ⟨⟨hu, hr⟩, hv⟩ := h
  refine writes_yields hd hm (skmInj_apart u hu) ?_
  have hmode : (bit v 31 && (decide (v % 4 = 0) || decide (v % 4 = 3))) = false := by
    cases hb : bit v 31
    · rfl
    · have : v % 4 = 1 ∨ v % 4 = 2 := by simpa [hb] using hv
      rcases this with h | h <;> simp [h]
  simp only [hu, if_true, at_reach hr, Dev.skimInjWrite, hmode, Bool.false_eq_true, if_false]
  rfl

theorem wchSigInj_arms (h : (!bit v 31 || (!s.dev.on WCH.SIG_INJ_ARM && decide (1 ≤ v % 8) && decide (v % 8 ≤ 4))) = true) :
    Yields (exec (.wchSigInj v) s)
      (Assigns [(WCH.SIG_INJ_ARM, b2n (bit v 31)), (WCH.SIG_INJ_WATCH_ID, bitsAt v 27 16), (WCH.SIG_INJ_MODE, v % 8)] s) := by
  refine writes_yields hd hm (by simp only [List.map]; decide) ?_
  unfold Dev.sigInjWrite
  cases hb : bit v 31 with
  | false => rfl
  | true =>
    simp only [hb, Bool.not_true, Bool.false_or, Bool.and_eq_true, decide_eq_true_eq] at h
    obtain ⟨⟨harm, hlo⟩, hhi⟩ := h
    have hno : (s.dev.on WCH.SIG_INJ_ARM || decide (v % 8 = 0) || decide (4 < v % 8)) = false := by
      simp only [Bool.or_eq_false_iff, decide_eq_false_iff_not]
      exact ⟨⟨by simpa using harm, by omega⟩, by omega⟩
    simp only [if_true, hno, Bool.false_eq_true, if_false]
    rfl

/-- Mode 3 of FJL_P_INJ waits until its port is ACTIVE. -/
theorem fjlPInj_arms (h : (decide (u < 4) && s.dev.reach (clusterDie u) && !s.dev.on (FJL.P_INJ_ARM u) &&
      (!bit v 31 || v % 8 == 1 || v % 8 == 2 || v % 8 == 4 || (v % 8 == 3 && s.dev.linkSt u != 7))) = true) :
    Yields (exec (.fjlPInj u v) s) (Assigns (fjlFields u v) s) := by
  simp only [Bool.and_eq_true, decide_eq_true_eq] at h
  obtain ⟨⟨⟨hu, hr⟩, harm⟩, hv⟩ := h
  have htaken : injTaken (s.dev.on (FJL.P_INJ_ARM u)) v (decide (1 ≤ v % 8) && decide (v % 8 ≤ 4)) = true := by
    cases hb : bit v 31
    · simpa [injTaken, hb] using harm
    · have : v % 8 = 1 ∨ v % 8 = 2 ∨ v % 8 = 4 ∨ v % 8 = 3 := by simp [hb] at hv; omega
      simp only [injTaken, harm, Bool.true_and, Bool.or_eq_true, Bool.and_eq_true, decide_eq_true_eq]
      exact .inr (by omega)
  have hwaits : bit v 31 = false ∨ v % 8 ≠ 3 ∨ s.dev.linkSt u ≠ 7 := by
    by_contra hc
    simp only [not_or, not_not, Bool.not_eq_false] at hc
    obtain ⟨hb, h3, h7⟩ := hc
    simp [hb, h3, h7] at hv
  refine writes_yields hd hm (fjlInj_apart u hu) ?_
  simp only [hu, if_true, at_reach hr, Dev.fjlInjWrite, htaken]
  exact congrArg (fun d : Dev => d.answer .done) (lockInjection_waits hu hwaits)

/-- Every admitted write: one line for each register, in the order of `Claims.injections`. -/
theorem injections_arm : ∀ e ∈ Claims.injections s.dev u v, Arms s e := by
  simp only [Claims.injections, List.forall_mem_cons, List.not_mem_nil, false_imp_iff, implies_true, and_true]
  refine ⟨fun h => ?wch, fun h => skmUInj_arms u v hd hm h, fun h => wchSigInj_arms v hd hm h, fun h => ?mtx, fun h => ?swd, fun h => ?mem,
    fun h => fjlPInj_arms u v hd hm h, fun h => ?sgt, fun h => ?lck, fun h => ?mbx, fun h => ?wdg, fun h => ?sec, fun h => ?hln, fun h => ?twn,
    fun h => ?pwr, fun h => ?tim⟩
  case wch => exact taken_yields hd hm (by simp only [List.map]; decide) h rfl
  case swd => exact taken_yields hd hm (by simp only [List.map]; decide) (by simpa [injTaken, Bool.or_assoc] using h) rfl
  case sgt => exact taken_yields hd hm (by simp only [List.map]; decide) h rfl
  case hln => exact taken_yields hd hm (by simp only [List.map]; decide) h rfl
  case twn => exact taken_yields hd hm (by simp only [List.map]; decide) h rfl
  case mtx =>
    rw [Bool.and_assoc, Bool.and_eq_true] at h
    exact taken_yields hd hm (by simp only [List.map]; decide) h.2 (atC_reach h.1 _)
  case mem =>
    rw [Bool.and_assoc, Bool.and_eq_true] at h
    exact taken_yields hd hm (by simp only [List.map]; decide) h.2 (at_reach h.1 _)
  case lck =>
    refine yields_imp (taken_yields (l := [(LCK.INJ_MODE, bitsAt v 1 0), (LCK.INJ_PAIR, bitsAt v 11 8), (LCK.INJ_ARM, b2n (bit v 31))]) hd hm
      (by simp only [List.map]; decide) h rfl) (fun t ht => ?_)
    obtain ⟨hval, hdone, honly⟩ := ht
    exact ⟨fun p hp => hval p (by simp at hp ⊢; tauto), hdone, regsOnly_mono (by simp only [List.map]; decide) honly⟩
  case mbx =>
    refine armLast_yields hd hm (by simp only [List.map]; decide) h (fun hw => ?_) rfl
    have hmode : bitsAt v 1 0 = 2 := by simpa using hw
    simp [hmode, putEach]
  case wdg =>
    rw [Bool.and_assoc, Bool.and_eq_true, decide_eq_true_eq] at h
    refine armLast_yields (waits := bitsAt v 1 0 == 1 || bitsAt v 1 0 == 2) hd hm (by simp only [List.map]; decide) (by simpa [Bool.or_assoc] using h.2)
      (fun hw => ?_) (if_neg (Nat.not_lt.mpr h.1))
    have hmode : bitsAt v 1 0 = 1 ∨ bitsAt v 1 0 = 2 := by simpa using hw
    rcases hmode with hmode | hmode <;> simp [hmode, putEach]
  case sec =>
    refine armLast_yields (waits := bitsAt v 1 0 == 1 || bitsAt v 1 0 == 2) hd hm (by simp only [List.map]; decide) (by simpa [Bool.or_assoc] using h)
      (fun hw => ?_) rfl
    have hmode : bitsAt v 1 0 = 1 ∨ bitsAt v 1 0 = 2 := by simpa using hw
    rcases hmode with hmode | hmode <;> simp [hmode, putEach]
  case pwr =>
    refine armLast_yields hd hm (by simp only [List.map]; decide) h (fun hw => ?_) rfl
    obtain ⟨hmode, hpll⟩ : v % 4 = 2 ∧ bitsAt v 11 8 < 10 := by simpa using hw
    simp [hmode, hpll, putEach]
  case tim =>
    rw [Bool.and_assoc, Bool.and_eq_true] at h
    refine armLast_yields hd hm (by simp only [List.map]; decide) h.2 (fun hw => ?_) (at_reach h.1 _)
    have hmode : bitsAt v 1 0 = 3 := by simpa using hw
    simp [hmode, putEach]

/-- Every write of a register whose ARM is 1: one line for each register, in the order of `Claims.injectionsBusy`. -/
theorem injectionsBusy_discard : ∀ e ∈ Claims.injectionsBusy s.dev u v, Busy s e := by
  simp only [Claims.injectionsBusy, List.forall_mem_cons, List.not_mem_nil, false_imp_iff, implies_true, and_true]
  refine ⟨fun h => busy_yields hd hm h rfl, fun h => ?sig, fun h => ?mtx, fun h => busy_yields hd hm h rfl, fun h => ?mem, fun h => ?fjl,
    fun h => busy_yields hd hm h rfl, fun h => ?eth, fun h => busy_yields hd hm h rfl, fun h => busy_yields hd hm h rfl, fun h => ?wdg,
    fun h => busy_yields hd hm h rfl, fun h => busy_yields hd hm h rfl, fun h => busy_yields hd hm h rfl, fun h => busy_yields hd hm h rfl,
    fun h => ?tim⟩
  all_goals simp only [Bool.and_eq_true, decide_eq_true_eq] at h
  case sig =>
    obtain ⟨hb, harm⟩ := h
    exact answer_yields hd hm (by simp [Dev.sigInjWrite, hb, harm])
  case mtx => exact busy_yields hd hm h.2 (atC_reach h.1 _)
  case mem => exact busy_yields hd hm h.2 (at_reach h.1 _)
  case eth => exact busy_yields hd hm h.2 (at_reach h.1 _)
  case tim => exact busy_yields hd hm h.2 (at_reach h.1 _)
  case wdg => exact busy_yields hd hm h.2 (if_neg (Nat.not_lt.mpr h.1))
  case fjl =>
    obtain ⟨⟨hu, hr⟩, harm⟩ := h
    exact busy_yields hd hm harm ((if_pos hu).trans (at_reach hr _))

end

/-- Settles O24: each admitted write gives its fields their values, at once or with ARM last; each busy one is turned away by `injTaken`. -/
theorem injectionRegistersArm : Obligations.InjectionRegistersArm :=
  fun _ u v hd hm => ⟨injections_arm u v hd hm, injectionsBusy_discard u v hd hm⟩

end Sys2Proof.Proofs.Scope
end

section
namespace Sys2Proof.Proofs.Scope

open Sys2Proof.Machine Sys2Proof.Laws

/-! What an evaluation turns on: the watch, the descriptors, and ARM of WCH_INJ (R56 to R71). -/

/-- A watch, the descriptors, and WCH_INJ.ARM. -/
def seen (w : Nat) (d : Dev) : Watch × Tab Nat × Nat := (d.watchOf w, d.watch.desc, d.fld WCH.INJ_ARM)

variable {w : Nat}

theorem seen_watch_regs {d e : Dev} (hw : e.watch = d.watch) (hr : e.fld WCH.INJ_ARM = d.fld WCH.INJ_ARM) : seen w e = seen w d := by
  rw [seen, seen, watchOf_congr hw, hw, hr]

theorem watchOf_seen {d e : Dev} (h : seen w e = seen w d) : e.watchOf w = d.watchOf w := congrArg Prod.fst h

theorem seen_put (d : Dev) {f : Fld} (v : Nat) (h : WCH.INJ_ARM.key ≠ f.key) : seen w (d.put f v) = seen w d :=
  seen_watch_regs rfl (Dev.fld_put_other d v h)

theorem seen_flag (d : Dev) {f : Fld} (b : Bool) (h : WCH.INJ_ARM.key ≠ f.key) : seen w (d.flag f b) = seen w d := seen_put d _ h

theorem seen_count (d : Dev) {f : Fld} (n : Nat) (h : WCH.INJ_ARM.key ≠ f.key) : seen w (d.count f n) = seen w d := seen_put d _ h

theorem seen_raises {d e : Dev} (h : Raises d e) : seen w e = seen w d := seen_watch_regs h.watch (h.regs _ (by decide))

/-- A fold of steps that leave a part of the device alone leaves it alone. -/
theorem foldl_leaves {α β : Type} (part : Dev → β) (g : Dev → α → Dev) (hg : ∀ d a, part (g d a) = part d) (l : List α) (d : Dev) :
    part (l.foldl g d) = part d := by
  induction l generalizing d with
  | nil => rfl
  | cons a l ih => exact (ih (g d a)).trans (hg d a)

theorem ite_leaves {β : Type} (part : Dev → β) {c : Prop} [Decidable c] {e₁ e₂ : Dev} {x : β} (h₁ : part e₁ = x) (h₂ : part e₂ = x) :
    part (if c then e₁ else e₂) = x := by
  split
  · exact h₁
  · exact h₂

/-- What a watch holds is its own: its view after it is replaced. -/
theorem seen_putWatch (d : Dev) (x : Watch) : seen w (d.putWatch w x) = (x, (seen w d).2) := by
  rw [seen, watchOf_putWatch_same]
  rfl

/-! The end of a job (R56, R57). -/

theorem seen_dropOps (d : Dev) (o : OpOwner) : seen w (d.dropOps o) = seen w d :=
  ite_leaves (seen w) (seen_flag _ false (by decide)) rfl

theorem seen_dropStageDma (d : Dev) (o : OpOwner) : seen w (d.dropStageDma o) = seen w d := ite_leaves (seen w) rfl rfl

theorem seen_closeStage (d : Dev) (o : OpOwner) : seen w (d.closeStage o) = seen w d := seen_dropStageDma d o

/-- The ring of a watch at the end of its job `j`: the job leaves it, or stays for a late result. -/
def closedRing (d : Dev) (w : Nat) (j : Job) : List Job :=
  if j.posted && j.status != 2 && d.wdKind w != 8 then
    (d.watchOf w).ring.map (fun i => if i.frame = j.frame then { i with final := true } else i)
  else (d.watchOf w).ring.filter (fun i => i.frame != j.frame)

/-- Of the watch, the end of a job changes the ring alone. -/
theorem seen_closeJob (d : Dev) (j : Job) : seen w (d.closeJob w j) = ({ d.watchOf w with ring := closedRing d w j }, (seen w d).2) := by
  rw [← seen_putWatch]
  unfold Dev.closeJob
  refine ite_leaves (seen w) (?_ : seen w _ = _) ?_
  all_goals exact (seen_closeStage _ _).trans (ite_leaves (seen w) (seen_dropOps _ _) rfl)

/-! The verdict's record and the filter (R66 to R68, R71). -/

theorem seen_logPut (d : Dev) (r : List Nat) : seen w (d.logPut .verdict r).1 = seen w d := by
  unfold Dev.logPut
  split
  · exact seen_count d 1 (by decide)
  · exact (seen_flag _ _ (by decide)).trans (seen_put _ _ (by decide))

theorem seen_verdictRecord (d : Dev) (v k code : Nat) (inj late : Bool) (cov detail : Nat) :
    seen w (d.verdictRecord v k code inj late cov detail) = seen w d := by
  unfold Dev.verdictRecord Dev.logRec
  exact ite_leaves (seen w) ((seen_raises (raise_raises _ _ _)).trans (seen_logPut d _)) (seen_logPut d _)

theorem seen_trip (d : Dev) (v frame code : Nat) : seen w (d.trip v frame code) = seen w d := by
  refine (seen_raises (setSource_spec _ _ _ _).1).trans (ite_leaves (seen w) rfl ?_)
  refine (seen_put _ _ ?_).trans ((seen_put _ _ ?_).trans ((seen_put _ _ ?_).trans (seen_flag _ _ ?_)))
  all_goals
    simp only [Fld.key, WCH.INJ_ARM, WCH.INJ, WCH.GRP_FIRST_W_VALID, WCH.GRP_FIRST_W_CODE, WCH.GRP_FIRST_W_WATCH_ID, WCH.GRP_FIRST_F_FRAME_NO,
      WCH.GRP_FIRST_W, WCH.GRP_FIRST_F]
    omega

/-- The history of a watch of `n` positions with one more. -/
def histNext (x : Watch) (n code : Nat) : Nat := (2 * x.hist + (if code = 0 then 0 else 1)) % 2 ^ n

/-- The watch once its filter of `limit` in `n` has advanced with a code, `b` being whether it has tripped (R66, R67). -/
def filtered (x : Watch) (limit n code : Nat) (b : Bool) : Watch :=
  { x with
    hist := histNext x n code
    filtCnt := popcount n (histNext x n code)
    tripped := b
    state := if limit ≤ popcount n (histNext x n code) ∧ x.state = .running then .failed else x.state }

theorem seen_filterAdvance (d : Dev) (frame code : Nat) :
    ∃ b, seen w (d.filterAdvance w frame code) = (filtered (d.watchOf w) (d.wdK w) (d.wdN w) code b, (seen w d).2) := by
  have hput (x : Watch) : seen w ((d.putWatch w x).trip w frame code) = (x, (seen w d).2) := (seen_trip _ _ _ _).trans (seen_putWatch d x)
  unfold Dev.filterAdvance filtered
  dsimp only
  rw [← histNext]
  by_cases hk : d.wdK w ≤ popcount (d.wdN w) (histNext (d.watchOf w) (d.wdN w) code)
  · cases hs : (d.watchOf w).state
    case running => exact ⟨(d.watchOf w).tripped, by simp [hk, hput]⟩
    case retiring => exact ⟨true, by simp [hk, hput]⟩
    all_goals exact ⟨(d.watchOf w).tripped, by simp [hk, seen_putWatch]⟩
  · exact ⟨(d.watchOf w).tripped, by simp [hk, seen_putWatch]⟩

/-! What follows a verdict: PASS channels, the frame's report, table sets and plan check-ins (R45, R65, R99, R208). -/

theorem seen_putOut (d : Dev) (c : Nat) (o : OutCh) : seen w (d.putOut c o) = seen w d := rfl

/-- Of the watch, a PASS verdict changes whether it holds its channels. -/
theorem seen_passVerdict (d : Dev) (k code : Nat) : ∃ h b, seen w (d.passVerdict w k code) =
    ({ d.watchOf w with holds := h, release := b }, (seen w d).2) := by
  unfold Dev.passVerdict
  dsimp only
  split
  · split
    · split
      · exact ⟨(d.watchOf w).holds, (d.watchOf w).release, rfl⟩
      · exact ⟨(d.watchOf w).holds, true, seen_putWatch d _⟩
    · exact ⟨(d.watchOf w).holds, (d.watchOf w).release, rfl⟩
  · exact ⟨_, _, (foldl_leaves (seen w) _ (fun d c => seen_putOut d c _) _ _).trans (seen_putWatch d _)⟩

theorem seen_verdictEvent (k : Nat) (evs : List (Nat × Nat × Nat)) (low : Nat) (d : Dev) (sess : Nat) :
    seen w (d.verdictEvent k evs low sess) = seen w d := by
  unfold Dev.verdictEvent
  split
  · rfl
  · split
    · rfl
    · exact ite_leaves (seen w) (seen_raises (event_raises _ _ _ _)) rfl

theorem seen_frameReport (d : Dev) (k : Nat) : seen w (d.frameReport k) = seen w d := by
  refine ite_leaves (seen w) rfl ((foldl_leaves (seen w) _ (fun d n => seen_verdictEvent _ _ _ d n) _ _).trans ?_)
  exact (seen_put _ _ (by decide)).trans ((seen_put _ _ (by decide)).trans (seen_put _ _ (by decide)))

theorem seen_rebuildStatus (d : Dev) : seen w d.rebuildStatus = seen w d :=
  (seen_put _ _ (by decide)).trans ((seen_flag _ _ (by decide)).trans (seen_flag _ _ (by decide)))

theorem seen_startBuild (d : Dev) (v : Nat) (cur : Bool) : seen w (d.startBuild v cur) = seen w d := by
  unfold Dev.startBuild
  cases cur
  · exact ite_leaves (seen w) rfl rfl
  · exact ite_leaves (seen w) rfl rfl

theorem seen_startBuilds (d : Dev) : seen w d.startBuilds = seen w d := by
  refine (seen_rebuildStatus _).trans (ite_leaves (seen w) rfl ?_)
  refine (foldl_leaves (seen w) _ (fun d v => ite_leaves (seen w) (seen_startBuild d v false) rfl) _ _).trans ?_
  exact foldl_leaves (seen w) _ (fun d v => ite_leaves (seen w) (seen_startBuild d v true) rfl) _ _

theorem seen_freeFormer (d : Dev) : seen w d.freeFormer = seen w d := by
  unfold Dev.freeFormer
  split
  · rfl
  · exact ite_leaves (seen w) rfl (seen_startBuilds _)

theorem seen_checkIn (d : Dev) (v task : Nat) : seen w (d.checkIn v task) = seen w d := by
  unfold Dev.checkIn
  split
  · exact seen_count d 1 (by decide)
  · exact ite_leaves (seen w) (seen_count d 1 (by decide)) (ite_leaves (seen w) rfl rfl)

theorem seen_planTick (d : Dev) (j : Nat) : seen w (d.planTick j) = seen w d := by
  refine foldl_leaves (seen w) _ (fun d task => ite_leaves (seen w) rfl ?_) _ _
  exact (foldl_leaves (seen w) _ (fun d v => seen_checkIn d v task) _ _).trans rfl

theorem seen_planCheckins (d : Dev) : seen w d.planCheckins = seen w d :=
  ite_leaves (seen w) rfl (foldl_leaves (seen w) _ (fun d j => seen_planTick d j) _ _)

/-! The evaluation, and its end (R56). -/

theorem wd_desc {d e : Dev} (h : e.watch.desc = d.watch.desc) (v i : Nat) : e.wd v i = d.wd v i := by simp only [Dev.wd, h]

/-- The code that an evaluation records: WCH_INJ's where it forces it (R70). -/
def finalCode (d : Dev) (w k : Nat) (j : Job) : Nat := if d.forced w then d.fld WCH.INJ_CODE else (d.verdict w k j).1

/-- The device before an evaluation is recorded: the injection disarmed, an abort counted. -/
def disarmed (d : Dev) (w code : Nat) : Dev :=
  let d1 := if d.forced w then d.flag WCH.INJ_ARM false else d
  if code = 5 then d1.count TCK.RESTART_ABORTS 1 else d1

theorem seen_disarmed (d : Dev) (code : Nat) : seen w (disarmed d w code) =
    (d.watchOf w, d.watch.desc, if d.forced w then 0 else d.fld WCH.INJ_ARM) := by
  have h : seen w (if d.forced w then d.flag WCH.INJ_ARM false else d) =
      (d.watchOf w, d.watch.desc, if d.forced w then 0 else d.fld WCH.INJ_ARM) := by
    split
    · simp [seen, b2n]
    · rfl
  exact ite_leaves (seen w) ((seen_count _ 1 (by decide)).trans h) h

/-- The device once an evaluation is recorded and its job closed. -/
def recordedDev (d : Dev) (w k code cov : Nat) (inj : Bool) (j : Job) : Dev :=
  ((disarmed d w code).putWatch w (((disarmed d w code).watchOf w).record k code cov inj)).closeJob w j

theorem seen_recordedDev (d : Dev) (k code cov : Nat) (inj : Bool) (j : Job) : ∃ ring, seen w (recordedDev d w k code cov inj j) =
    ({ (d.watchOf w).record k code cov inj with ring := ring }, d.watch.desc, if d.forced w then 0 else d.fld WCH.INJ_ARM) := by
  have h := seen_disarmed (w := w) d code
  have hw : (disarmed d w code).watchOf w = d.watchOf w := congrArg Prod.fst h
  have hclose := seen_closeJob (w := w) ((disarmed d w code).putWatch w (((disarmed d w code).watchOf w).record k code cov inj)) j
  rw [watchOf_putWatch_same, seen_putWatch, hw, h] at hclose
  exact ⟨_, (congrArg (seen w) (by rw [recordedDev, hw])).trans hclose⟩

/-- What follows the filter: PASS channels, the report of the frame, and the table sets. -/
def reported (d : Dev) (w k code : Nat) : Dev := ((if d.wdPass w then d.passVerdict w k code else d).frameReport k).freeFormer

theorem seen_reported (d : Dev) (k code : Nat) : ∃ h b, seen w (reported d w k code) =
    ({ d.watchOf w with holds := h, release := b }, (seen w d).2) := by
  have hr (e : Dev) : seen w ((e.frameReport k).freeFormer) = seen w e := (seen_freeFormer _).trans (seen_frameReport e k)
  unfold reported
  rw [hr]
  split
  · exact seen_passVerdict d k code
  · exact ⟨(d.watchOf w).holds, (d.watchOf w).release, rfl⟩

/-- An evaluation is recorded, maybe logged, filtered and reported. -/
theorem evaluate_eq (d : Dev) (w k : Nat) (j : Job) : ∃ logged : Bool, ∃ detail, d.evaluate w k j =
    let code := finalCode d w k j
    let e := recordedDev d w k code (d.verdict w k j).2 (d.forced w) j
    reported ((if logged then e.verdictRecord w k code (d.forced w) false (d.verdict w k j).2 detail else e).filterAdvance w k code) w k code :=
  ⟨_, _, rfl⟩

/-- What an evaluation leaves of its watch: the record and the filter, beside the ring, and what a PASS watch holds; it disarms WCH_INJ. -/
theorem seen_evaluate (d : Dev) (k : Nat) (j : Job) : ∃ ring tripped holds release, seen w (d.evaluate w k j) =
    ({ filtered { (d.watchOf w).record k (finalCode d w k j) (d.verdict w k j).2 (d.forced w) with ring := ring } (d.wdK w) (d.wdN w)
        (finalCode d w k j) tripped with holds := holds, release := release },
      d.watch.desc, if d.forced w then 0 else d.fld WCH.INJ_ARM) := by
  obtain ⟨logged, detail, he⟩ := evaluate_eq d w k j
  dsimp only at he
  generalize finalCode d w k j = code at he ⊢
  obtain ⟨ring, hrec⟩ := seen_recordedDev (w := w) d k code (d.verdict w k j).2 (d.forced w) j
  generalize recordedDev d w k code (d.verdict w k j).2 (d.forced w) j = e at he hrec
  have hlog := ite_leaves (seen w) (c := logged = true)
    ((seen_verdictRecord e w k code (d.forced w) false (d.verdict w k j).2 detail).trans hrec) hrec
  generalize (if logged = true then _ else e) = e1 at he hlog
  obtain ⟨tripped, hfilt⟩ := seen_filterAdvance (w := w) e1 k code
  obtain ⟨holds, release, hrep⟩ := seen_reported (w := w) (e1.filterAdvance w k code) k code
  have hw1 : e1.watchOf w = _ := congrArg Prod.fst hlog
  have hdesc : e1.watch.desc = d.watch.desc := congrArg (fun x => x.2.1) hlog
  have hw2 : (e1.filterAdvance w k code).watchOf w = _ := congrArg Prod.fst hfilt
  have hk : e1.wdK w = d.wdK w := by simp only [Dev.wdK, wd_desc hdesc]
  have hn : e1.wdN w = d.wdN w := by simp only [Dev.wdN, wd_desc hdesc]
  refine ⟨ring, tripped, holds, release, ?_⟩
  rw [he, hrep, hw2, hfilt, hw1, hk, hn, hlog]

theorem livenessLimit_regs (d : Dev) (v k : Nat) : (d.livenessLimit v k).watch = d.watch ∧ ∀ f, (d.livenessLimit v k).fld f = d.fld f := by
  unfold Dev.livenessLimit
  dsimp only
  split
  · exact ⟨rfl, fun _ => rfl⟩
  · exact ⟨rfl, fun _ => rfl⟩

theorem forced_congr {d e : Dev} (h : ∀ f, e.fld f = d.fld f) (v : Nat) : e.forced v = d.forced v := by simp only [Dev.forced, Dev.on, h]

/-- A due evaluation of an open job, where no retirement ends the watch. -/
theorem evaluationFinal_due {d : Dev} {k : Nat} {j : Job} (hj : d.jobOf w k = some j) (hc : (d.watchOf w).state.checks = true) (hf : j.final = false)
    (he : d.evalPast w k = true) (hr : (((d.livenessLimit w k).evaluate w k j).watchOf w).retireAt = none) :
    d.evaluationFinal w k = ((d.livenessLimit w k).evaluate w k j).planCheckins := by
  have hr' : ((((d.livenessLimit w k).evaluate w k j).planCheckins).watchOf w).retireAt = none := by
    rwa [watchOf_seen (seen_planCheckins _)]
  simp only [Dev.evaluationFinal, hj, hc, hf, he, Bool.not_true, Bool.or_self, Bool.false_eq_true, if_false, hr', Bool.and_false]

/-- The final evaluation of a frame, as O12 says it. -/
theorem evaluationFinal_records {s : State} {k : Nat} {j : Job} (hd : s.dev.dead = false) (hj : s.dev.jobOf w k = some j)
    (hc : (s.dev.watchOf w).state.checks = true) (hf : j.final = false) (he : s.dev.evalPast w k = true) (hr : (s.dev.watchOf w).retireAt = none)
    {code : Nat} (hcode : code = if s.dev.forced w then s.dev.fld WCH.INJ_CODE else ((s.dev.livenessLimit w k).verdict w k j).1) {hist : Nat}
    (hhist : hist = (2 * (s.dev.watchOf w).hist + (if code = 0 then 0 else 1)) % 2 ^ s.dev.wdN w) :
    Yields (exec (.evaluationFinal w k) s) (fun t =>
      (t.dev.watchOf w).lastFrame = k ∧ (t.dev.watchOf w).lastVerdict = code ∧ (t.dev.watchOf w).lastCov = ((s.dev.livenessLimit w k).verdict w k j).2 ∧
      (t.dev.watchOf w).totalEval = satAdd 4294967295 (s.dev.watchOf w).totalEval 1 ∧
      (t.dev.watchOf w).hist = hist ∧ (t.dev.watchOf w).filtCnt = popcount (s.dev.wdN w) hist ∧
      (t.dev.watchOf w).state = (if s.dev.wdK w ≤ popcount (s.dev.wdN w) hist ∧ (s.dev.watchOf w).state = .running then .failed
        else (s.dev.watchOf w).state) ∧
      (s.dev.forced w = true → t.dev.on WCH.INJ_ARM = false)) := by
  obtain ⟨hwatch, hregs⟩ := livenessLimit_regs s.dev w k
  obtain ⟨ring, tripped, holds, release, hev⟩ := seen_evaluate (w := w) (s.dev.livenessLimit w k) k j
  have hcode' : finalCode (s.dev.livenessLimit w k) w k j = code := by rw [finalCode, forced_congr hregs, hregs, hcode]
  have hk : (s.dev.livenessLimit w k).wdK w = s.dev.wdK w := by simp only [Dev.wdK, wd_congr hwatch]
  have hn : (s.dev.livenessLimit w k).wdN w = s.dev.wdN w := by simp only [Dev.wdN, wd_congr hwatch]
  rw [hcode', watchOf_congr hwatch, forced_congr hregs, hk, hn] at hev
  have hx : ((s.dev.livenessLimit w k).evaluate w k j).watchOf w = _ := congrArg Prod.fst hev
  refine run_body hd (evaluationFinal_due hj hc hf he (by rw [hx]; exact hr)) ?_
  have hend := seen_planCheckins (w := w) ((s.dev.livenessLimit w k).evaluate w k j)
  subst hhist
  simp only [watchOf_runOn, watchOf_seen hend, hx]
  refine ⟨rfl, rfl, rfl, rfl, rfl, rfl, rfl, fun hforced => ?_⟩
  have harm : _ = if s.dev.forced w then 0 else _ := congrArg (fun x => x.2.2) (hend.trans hev)
  rw [if_pos hforced] at harm
  rw [runOn_on _ _ (by decide), Dev.on, show Dev.fld _ WCH.INJ_ARM = 0 from harm]
  rfl

/-! A late result (R56, R71). -/

/-- A record goes to the write index of a log that is not full. -/
theorem logRec_stores {d : Dev} {l : LogId} (r : List Nat) (h : d.on (logFull l) = false) :
    tabGet [] ((d.logRec l r).logOf l) (d.fld (logWr l)) = r := by
  simp only [Dev.logRec, Dev.logPut, h, Bool.false_eq_true, if_false]
  cases l <;> exact tabGet_set_same _ _ _ _

/-- A late result of a frame already final takes its job off the ring and leaves a record, flagged LATE. -/
theorem lateResult_final {d : Dev} {k code : Nat} {j : Job} (detail : Nat) (hj : d.jobOf w k = some j) (hf : j.final = true) (hc : code ≤ 6) :
    ∃ cov, d.lateResult w k code detail = (d.putWatch w { d.watchOf w with
      ring := (d.watchOf w).ring.filter (fun i => i.frame != k) }).verdictRecord w k code false true cov detail := by
  refine ⟨((d.verdictOf w k).map Prod.snd).getD (d.watchOf w).lastCov, ?_⟩
  simp only [Dev.lateResult, hj, hf, Nat.not_lt.mpr hc, Bool.not_true, Bool.false_or, decide_false, Bool.false_eq_true, if_false]
  cases d.verdictOf w k <;> rfl

/-- Settles O12: an evaluation leaves of its watch what `seen_evaluate` says; a late result leaves a ring without the job, and a record. -/
theorem evaluationsAreRecordedOnce : Obligations.EvaluationsAreRecordedOnce := by
  intro s w k j hd hj
  refine ⟨fun hc hf he hr code hcode hist hhist => evaluationFinal_records hd hj hc hf he hr hcode hhist, fun code detail hfin hcode => ?_⟩
  obtain ⟨cov, hlate⟩ := lateResult_final detail hj hfin hcode
  refine run_body hd hlate ?_
  rw [watchOf_runOn, watchOf_seen (seen_verdictRecord _ _ _ _ _ _ _ _), watchOf_putWatch_same]
  refine ⟨rfl, rfl, fun hfull => ?_⟩
  rw [Dev.logOf, runOn_watch]
  exact congrArg (fun r => r.getD 1 0) (logRec_stores (d := s.dev.putWatch w _) (l := .verdict) _ hfull)

end Sys2Proof.Proofs.Scope
end

section
namespace Sys2Proof.Proofs.Scope

open Sys2Proof.Machine Sys2Proof.Laws

/-! Answering a request changes the command engine, and what waits for the session elsewhere, and nothing else (R366, R367). -/

/-- The command engine aside, and what of boot, the twin and the array may wait for a session, the device is as before. -/
def Answered (d e : Dev) : Prop := ∃ c b t a, e = { d with cmd := c, boot := b, twin := t, arr := a }

theorem Answered.refl (d : Dev) : Answered d d := ⟨d.cmd, d.boot, d.twin, d.arr, rfl⟩

theorem Answered.trans {a b c : Dev} (h : Answered a b) (k : Answered b c) : Answered a c := by
  obtain ⟨_, _, _, _, rfl⟩ := h
  obtain ⟨_, _, _, _, rfl⟩ := k
  exact ⟨_, _, _, _, rfl⟩

theorem reply_answered (d : Dev) (sess reqId op st : Nat) (q p : List Byte) : Answered d (d.reply sess reqId op st q p) := by
  unfold Dev.reply
  split
  · exact .refl d
  · exact ⟨_, d.boot, d.twin, d.arr, rfl⟩

theorem event_answered (d : Dev) (n op : Nat) (p : List Byte) : Answered d (d.event n op p) := by
  unfold Dev.event
  split
  · exact .refl d
  · exact ⟨_, d.boot, d.twin, d.arr, rfl⟩

theorem dropSession_answered (d : Dev) (n : Nat) : Answered d (d.dropSession n) := ⟨_, _, _, _, rfl⟩

theorem seqLimit_answered (d : Dev) (n : Nat) : Answered d (d.seqLimit n) := by
  unfold Dev.seqLimit Dev.endSession
  split
  · exact .refl d
  · split
    · split
      · exact (event_answered d _ _ _).trans (dropSession_answered _ n)
      · exact .refl d
    · exact .refl d

/-- A command leaves one state, so what it yields separately it yields together. -/
theorem yields_and {o : Host.Outcome State Fault Refusal} {P Q : State → Prop} (hp : Yields o P) (hq : Yields o Q) :
    Yields o (fun t => P t ∧ Q t) := by
  obtain ⟨t, ht, hp⟩ := hp
  obtain ⟨t', ht', hq⟩ := hq
  obtain rfl := Host.Outcome.next.inj (ht.symm.trans ht')
  exact ⟨t, ht, hp, hq⟩

section
variable {s : State} {op : Nat} {r : Req} {x : Session} {P : State → Prop} {e : Dev}

/-- To show what an admitted request leaves where its operation ends with a status: the reply is sent, and the rest is shown of every device
that differs from the operation's in the command engine and boot alone. -/
theorem request_yields {st : Nat} {p : List Byte} (h : Claims.Admitted s op r x) (ho : requestOps.contains op = true)
    (hafter : ∀ d : Dev, d.afterReply op r.session = d)
    (hop : (Claims.entered s r x).operate op r.session r.reqId { x with lastAt := s.dev.now } r.payload = (.reply st p, e))
    (hp : ∀ e', Answered e e' → P (runOn s fun _ _ => e')) :
    Yields (run s fun _ d => d.request op r) (fun t =>
      (∀ y, e.session r.session = some y → Claims.Answers t r op st p (y.txSeq + 1)) ∧ P t) := by
  have hrun : s.dev.request op r = (e.reply r.session r.reqId op st r.payload p).seqLimit r.session := by
    rw [request_admitted h ho]
    simp only [Dev.runRequest, hop, hafter, ite_self]
  have hleft : Yields (run s fun _ d => d.request op r) P :=
    run_body h.1.1 hrun (hp _ ((reply_answered e _ _ _ _ _ _).trans (seqLimit_answered _ _)))
  exact yields_and (yields_imp (request_reports h ho hafter hop) (fun _ ht => ht.1)) hleft

/-- The same where the operation waits. -/
theorem request_waits (h : Claims.Admitted s op r x) (ho : requestOps.contains op = true)
    (hop : (Claims.entered s r x).operate op r.session r.reqId { x with lastAt := s.dev.now } r.payload = (.wait, e))
    (hp : ∀ e', Answered e e' → P (runOn s fun _ _ => e')) : Yields (run s fun _ d => d.request op r) P := by
  have hrun : s.dev.request op r = e.seqLimit r.session := by
    rw [request_admitted h ho]
    simp only [Dev.runRequest, hop]
  exact run_body h.1.1 hrun (hp _ (seqLimit_answered e r.session))

end

theorem Answered.watch {d e : Dev} (h : Answered d e) : e.watch = d.watch := by obtain ⟨_, _, _, _, rfl⟩ := h; rfl

theorem Answered.capture {d e : Dev} (h : Answered d e) : e.capture = d.capture := by obtain ⟨_, _, _, _, rfl⟩ := h; rfl

theorem Answered.snag {d e : Dev} (h : Answered d e) : e.snag = d.snag := by obtain ⟨_, _, _, _, rfl⟩ := h; rfl

theorem Answered.memsys {d e : Dev} (h : Answered d e) : e.memsys = d.memsys := by obtain ⟨_, _, _, _, rfl⟩ := h; rfl

theorem Answered.fld {d e : Dev} (h : Answered d e) (f : Fld) : e.fld f = d.fld f := by obtain ⟨_, _, _, _, rfl⟩ := h; rfl

section
variable {s : State} {op st : Nat} {r : Req} {x : Session} {P : State → Prop} {e : Dev} {p : List Byte}

/-- The reply is the session's next packet where the operation leaves the command engine alone. -/
theorem request_answers (h : Claims.Admitted s op r x) (ho : requestOps.contains op = true) (hafter : ∀ d : Dev, d.afterReply op r.session = d)
    (hop : (Claims.entered s r x).operate op r.session r.reqId { x with lastAt := s.dev.now } r.payload = (.reply st p, e))
    (hc : e.cmd = (Claims.entered s r x).cmd) (hp : ∀ e', Answered e e' → P (runOn s fun _ _ => e')) :
    Yields (run s fun _ d => d.request op r) (fun t => Claims.Answers t r op st p (x.txSeq + 1) ∧ P t) := by
  have hs : e.session r.session = some { x with lastAt := s.dev.now } :=
    (session_congr (congrArg Cmd.sessions hc) _).trans (Dev.session_withSession_same _ _ _)
  exact yields_imp (request_yields h ho hafter hop hp) (fun t ht => ⟨ht.1 { x with lastAt := s.dev.now } hs, ht.2⟩)

/-- The reply of an operation that changes neither registers nor memory. -/
theorem request_replies (h : Claims.Admitted s op r x) (ho : requestOps.contains op = true) (hafter : ∀ d : Dev, d.afterReply op r.session = d)
    (hop : (Claims.entered s r x).operate op r.session r.reqId { x with lastAt := s.dev.now } r.payload = (.reply st p, e))
    (hc : e.cmd = (Claims.entered s r x).cmd) (hr : e.regs = s.dev.regs) (hm : e.memsys = s.dev.memsys)
    (hp : ∀ e', Answered e e' → P (runOn s fun _ _ => e')) :
    Yields (run s fun _ d => d.request op r) (fun t => Claims.Replies s r x op st p t ∧ P t) := by
  obtain ⟨⟨-, hwrites, -⟩, -⟩ := id h
  refine yields_imp (request_answers (P := fun t => (RegsKept [] s.dev t.dev ∧ Outside s t) ∧ P t) h ho hafter hop hc
    (fun e' he => ⟨⟨fun f _ hf => ?_, runOn_outside ?_⟩, hp e' he⟩)) (fun t ht => ⟨⟨ht.1, ht.2.1⟩, ht.2.2⟩)
  · rw [runOn_fld _ _ hf, he.fld, Dev.fld_regs hr]
  · rw [he.memsys, hm, hwrites]

end

/-! Numbers in a payload. -/

theorem leNat_lt (bs : List Byte) : leNat bs < 256 ^ bs.length := by
  induction bs with
  | nil => exact Nat.one_pos
  | cons b bs ih =>
    have hb : b.toNat < 256 := b.isLt
    rw [List.length_cons, Nat.pow_succ, leNat]
    omega

theorem beAt_lt (bs : List Byte) (off n : Nat) : beAt bs off n < 256 ^ n := by
  refine lt_of_lt_of_le (leNat_lt _) (Nat.pow_le_pow_right (by decide) ?_)
  rw [List.length_reverse]
  exact List.length_take_le n _

/-! WATCH_DEFINE writes the 48 host words of a descriptor (R374). -/

/-- Of the device only descriptors, and how an access ended, differ. -/
def Described (d e : Dev) : Prop := ∃ desc resp, e = { d with watch := { d.watch with desc := desc }, resp := resp }

theorem descOpen_described {d e : Dev} (h : Described d e) (w : Nat) : e.descOpen w = d.descOpen w := by obtain ⟨_, _, rfl⟩ := h; rfl

theorem Described.trans {a b c : Dev} (h : Described a b) (k : Described b c) : Described a c := by
  obtain ⟨_, _, rfl⟩ := h
  obtain ⟨_, _, rfl⟩ := k
  exact ⟨_, _, rfl⟩

/-- A host word written while its watch is open. -/
theorem descWrite_open {d : Dev} {w j : Nat} (v : Nat) (hj : j < 48) (ho : d.descOpen w = true) : Described d (d.descWrite w j v) ∧
    ∀ u k, k < 64 → (d.descWrite w j v).wd u k = if u = w ∧ k = j then v % 4294967296 else d.wd u k := by
  simp only [Dev.descWrite, Nat.not_le.mpr hj, ho, if_false, if_true]
  refine ⟨⟨_, _, rfl⟩, fun u k hk => (tabGet_set _ _ _ _ _).trans ?_⟩
  have hplace : 64 * u + k = 64 * w + j ↔ u = w ∧ k = j := by omega
  simp only [hplace]
  rfl

/-- The first `n` host words written in order. -/
theorem descWrites_open {d : Dev} {w : Nat} (v : Nat → Nat) (ho : d.descOpen w = true) {n : Nat} (hn : n ≤ 48) :
    Described d ((List.range n).foldl (fun d j => d.descWrite w j (v j)) d) ∧
    ∀ u k, k < 64 → ((List.range n).foldl (fun d j => d.descWrite w j (v j)) d).wd u k =
      if u = w ∧ k < n then v k % 4294967296 else d.wd u k := by
  induction n with
  | zero => exact ⟨⟨d.watch.desc, d.resp, rfl⟩, fun u k _ => by simp⟩
  | succ n ih =>
    obtain ⟨hsame, hword⟩ := ih (by omega)
    rw [List.range_succ, List.foldl_append, List.foldl_cons, List.foldl_nil]
    obtain ⟨hsame', hword'⟩ := descWrite_open (v n) (show n < 48 by omega) ((descOpen_described hsame w).trans ho)
    refine ⟨hsame.trans hsame', fun u k hk => ?_⟩
    rw [hword' u k hk, hword u k hk]
    by_cases hkn : k = n
    · subst hkn
      simp
    · have : k < n + 1 ↔ k < n := by omega
      simp [hkn, this]

section
variable {s : State} {r : Req} {x : Session}

theorem opWatchDefine_one (d : Dev) {p : List Byte} (hl : p.length = 196) : d.opWatchDefine p 0 (p.length / 196) =
    if d.descOpen (beAt p 0 2) then (.reply 0 (beBytes 2 1), d.defineWatch p 0) else (.reply 0x0106 (beBytes 2 0), d) := by
  rw [hl]
  rfl

/-- WATCH_DEFINE of one watch that is open. -/
theorem watchDefine_writes (h : Claims.Admitted s 0x30 r x) (hl : r.payload.length = 196) (ho : s.dev.descOpen (beAt r.payload 0 2) = true) :
    Yields (exec (.watchDefine r) s) (fun t =>
      (∀ k, k < 48 → t.dev.wd (beAt r.payload 0 2) k = beAt r.payload (4 + 4 * k) 4) ∧
      (∀ w k, w ≠ beAt r.payload 0 2 → k < 48 → t.dev.wd w k = s.dev.wd w k) ∧ Claims.Replies s r x 0x30 0 (beBytes 2 1) t) := by
  have hopen : (Claims.entered s r x).descOpen (beAt r.payload 0 2) = true := ho
  obtain ⟨hsame, hword⟩ := descWrites_open (fun j => beAt r.payload (4 + 4 * j) 4) hopen (le_refl 48)
  have hdef : (Claims.entered s r x).defineWatch r.payload 0 =
      (List.range 48).foldl (fun d j => d.descWrite (beAt r.payload 0 2) j (beAt r.payload (4 + 4 * j) 4)) (Claims.entered s r x) := by
    simp only [Dev.defineWatch, Nat.mul_zero, Nat.zero_add]
  rw [← hdef] at hsame hword
  obtain ⟨desc, resp, he⟩ := hsame
  refine yields_imp (request_replies (P := fun t => ∀ u k, k < 64 → t.dev.wd u k = ((Claims.entered s r x).defineWatch r.payload 0).wd u k) h
    (by decide) (fun _ => rfl) ((opWatchDefine_one _ hl).trans (if_pos hopen)) (by rw [he]) (by rw [he]; rfl) (by rw [he]; rfl)
    (fun e' ha u k _ => ?_)) (fun t ht => ?_)
  · rw [wd_runOn, wd_congr ha.watch]
  · obtain ⟨hreply, hwd⟩ := ht
    refine ⟨fun k hk => ?_, fun w k hw hk => ?_, hreply⟩
    · rw [hwd _ k (by omega), hword _ k (by omega), if_pos ⟨rfl, hk⟩]
      exact Nat.mod_eq_of_lt (beAt_lt _ _ 4)
    · rw [hwd _ k (by omega), hword _ k (by omega), if_neg (fun hc => hw hc.1)]
      rfl

/-- WATCH_DEFINE of one watch that is not open. -/
theorem watchDefine_refuses (h : Claims.Admitted s 0x30 r x) (hl : r.payload.length = 196) (ho : s.dev.descOpen (beAt r.payload 0 2) = false) :
    Yields (exec (.watchDefine r) s) (fun t => Claims.Replies s r x 0x30 0x0106 (beBytes 2 0) t ∧ t.dev.watch = s.dev.watch) := by
  have hshut : ¬ (Claims.entered s r x).descOpen (beAt r.payload 0 2) = true := fun hc => absurd (ho.symm.trans hc) (by decide)
  exact request_replies h (by decide) (fun _ => rfl) ((opWatchDefine_one _ hl).trans (if_neg hshut)) rfl rfl rfl
    (fun e' ha => (runOn_watch _ _).trans ha.watch)

end

end Sys2Proof.Proofs.Scope
end

section
namespace Sys2Proof.Proofs.Scope

open Sys2Proof.Machine Sys2Proof.Laws

/-! ARM_LIST, COMMIT, the log requests and FAULT_CLEAR (R72, R368, R372, R374, R429). -/

/-- An entry with an operation of Table 02.15 joins a list that has room. -/
theorem armOpWrite_appends {d : Dev} {v : Nat} (hv : v < 256 ^ 4) (hop : v / 1073741824 = 1 ∨ v / 1073741824 = 2)
    (hroom : d.watch.staged.length < 256) :
    d.armOpWrite v = (d.putArms (d.watch.staged ++ [⟨decide (v / 1073741824 = 1), v % 4096⟩])).answer .done := by
  have hbits : bitsAt v 31 30 = v / 1073741824 := Nat.mod_eq_of_lt (show v / 1073741824 < 4 by omega)
  rcases hop with h | h <;> simp [Dev.armOpWrite, hbits, h, Nat.not_le.mpr hroom]

theorem opArmList_one (d : Dev) (n reqId : Nat) {p : List Byte} (hl : p.length = 8) (hf : beAt p 0 1 = 0) :
    d.opArmList n reqId p = (.reply 0 (beBytes 2 (d.armOpWrite (beAt p 4 4)).watch.staged.length), d.armOpWrite (beAt p 4 4)) := by
  simp [Dev.opArmList, hl, hf, bit, List.range_succ, Ans.ok]

/-- A commit write of a running unit, with no capture waiting, captures what is staged. -/
theorem commitWrite_running {d : Dev} (hr : d.running = true) (hc : d.capture = none) :
    d.commitWrite = taken d ⟨d.staged, d.watch.staged, d.now, none⟩ := by
  have hrun := (taken_running d ⟨d.staged, [] ++ d.watch.staged, d.now, none⟩).trans hr
  unfold Dev.commitWrite
  rw [hc]
  exact if_pos hrun

/-- A write of the read index gives it the place named, whether that is another one or not. -/
theorem logAdvance_rd {d : Dev} {l : LogId} (v : Nat) (hrd : d.fld (logRd l) < logSize l) : (d.logAdvance l v).fld (logRd l) = v % logSize l := by
  obtain ⟨hindex, -⟩ := log_apart l
  by_cases hv : v % logSize l = d.fld (logRd l)
  · rw [logAdvance_stays hrd hv, Dev.fld_answer, hv]
  · rw [logAdvance_moves hrd hv, Dev.fld_answer,
      putEach_value (p := (logRd l, v % logSize l)) (by simpa using hindex.1) List.mem_cons_self, two_pow_logRd, Nat.mod_mod]

/-- The read index after a request that reads a log. -/
theorem opLogRead_rd {d : Dev} {l : LogId} (p : List Byte) (hrd : d.fld (logRd l) < logSize l) : (d.opLogRead l p).2.fld (logRd l) =
    if bit (beAt p 2 1) 0 then (d.fld (logRd l) + min (beAt p 0 2) (d.logFill l)) % logSize l else d.fld (logRd l) := by
  unfold Dev.opLogRead
  generalize min (beAt p 0 2) (d.logFill l) = n
  dsimp only
  cases bit (beAt p 2 1) 0 with
  | false => rfl
  | true =>
    rcases Nat.eq_zero_or_pos n with rfl | hn
    · simp [Nat.mod_eq_of_lt hrd]
    · simp [hn, logAdvance_rd _ hrd]

theorem logAdvance_cmd (d : Dev) (l : LogId) (v : Nat) : (d.logAdvance l v).cmd = d.cmd := by
  unfold Dev.logAdvance
  dsimp only
  split <;> rfl

section
variable {s : State} {r : Req} {x : Session}

/-- ARM_LIST of one entry, without flags. -/
theorem armList_appends (h : Claims.Admitted s 0x32 r x) (hl : r.payload.length = 8) (hf : beAt r.payload 0 1 = 0)
    (hroom : s.dev.watch.staged.length < 256) (hop : beAt r.payload 4 4 / 1073741824 = 1 ∨ beAt r.payload 4 4 / 1073741824 = 2) :
    Yields (exec (.armList r) s) (fun t =>
      t.dev.watch.staged = s.dev.watch.staged ++ [⟨decide (beAt r.payload 4 4 / 1073741824 = 1), beAt r.payload 4 4 % 4096⟩] ∧
      Claims.Answers t r 0x32 0 (beBytes 2 (s.dev.watch.staged.length + 1)) (x.txSeq + 1)) := by
  have hlist := opArmList_one (Claims.entered s r x) r.session r.reqId hl hf
  rw [armOpWrite_appends (d := Claims.entered s r x) (beAt_lt r.payload 4 4) hop hroom] at hlist
  refine yields_imp (request_answers (P := fun t => t.dev.watch.staged = s.dev.watch.staged ++ _) h (by decide) (fun _ => rfl) hlist rfl
    (fun e' ha => ?_)) (fun t ht => ⟨ht.2, ?_⟩)
  · rw [runOn_watch, ha.watch]
    rfl
  · simpa [Dev.putArms, Claims.entered] using ht.1

/-- COMMIT of a running device with no capture waiting. -/
theorem commit_captures (h : Claims.Admitted s 0x14 r x) (hr : s.dev.running = true) (hc : s.dev.capture = none) :
    Yields (exec (.commit r) s) (fun t => t.dev.capture = some ⟨s.dev.staged, s.dev.watch.staged, s.dev.now, none⟩ ∧ t.dev.watch.staged = [] ∧
      t.dev.on TCK.COMMIT_STATUS_PENDING = true) := by
  refine request_waits h (by decide) (congrArg (fun e => (Ans.wait, e)) (commitWrite_running hr hc)) (fun e' ha => ⟨?_, ?_, ?_⟩)
  · rw [runOn_capture, ha.capture]
    rfl
  · rw [runOn_watch, ha.watch]
    rfl
  · rw [runOn_on _ _ (by decide), Dev.on_fld (ha.fld _), taken, Dev.on_flag_same]

/-- A request that reads a log reports its oldest records, and moves the read index past them with ADVANCE. -/
theorem logRead_reports {op : Nat} {l : LogId} (h : Claims.Admitted s op r x) (ho : requestOps.contains op = true)
    (hafter : ∀ d : Dev, d.afterReply op r.session = d) (hkey : (logRd l).key ∉ safeKeys)
    (hop : ∀ d : Dev, ∀ y, d.operate op r.session r.reqId y r.payload = d.opLogRead l r.payload) (hrd : s.dev.fld (logRd l) < logSize l)
    {n : Nat} (hn : n = min (beAt r.payload 0 2) (s.dev.logFill l)) :
    Yields (run s fun _ d => d.request op r) (fun t =>
      Claims.Answers t r op 0 ((List.range n).flatMap (fun i => (List.range 4).flatMap (fun j =>
        beBytes 4 ((tabGet [] (s.dev.logOf l) ((s.dev.fld (logRd l) + i) % logSize l)).getD j 0)))) (x.txSeq + 1) ∧
      t.dev.fld (logRd l) = (if bit (beAt r.payload 2 1) 0 then (s.dev.fld (logRd l) + n) % logSize l else s.dev.fld (logRd l))) := by
  subst hn
  have hcmd : ((Claims.entered s r x).opLogRead l r.payload).2.cmd = (Claims.entered s r x).cmd := by
    unfold Dev.opLogRead
    dsimp only
    split
    · exact logAdvance_cmd _ _ _
    · rfl
  have hlog : (Claims.entered s r x).logOf l = s.dev.logOf l := by cases l <;> rfl
  refine request_answers h ho hafter (e := ((Claims.entered s r x).opLogRead l r.payload).2) ((hop _ _).trans ?_) hcmd (fun e' ha => ?_)
  · rw [← hlog]
    rfl
  · rw [runOn_fld _ _ hkey, ha.fld]
    exact opLogRead_rd (d := Claims.entered s r x) r.payload hrd

/-- FAULT_CLEAR of one source answers what the clear of that source does. -/
theorem opFaultClear_one (d : Dev) (n : Nat) : d.opFaultClear false [] [n] =
    (.reply (if (d.clearSource 18 n).1 == 1 then 0x010A else 0) (beBytes 1 (d.clearSource 18 n).1), (d.clearSource 18 n).2) := rfl

theorem clearSource_unset {d : Dev} (mid : Nat) {n : Nat} (h : d.isSet n = false) : d.clearSource mid n = (2, d) := by
  simp [Dev.clearSource, h]

/-- FAULT_CLEAR of one source, as its operation. -/
theorem operate_faultClear (d : Dev) (y : Session) (hl : r.payload.length = 2) :
    d.operate 0x61 r.session r.reqId y r.payload = d.opFaultClear false [] [beAt r.payload 0 2] := by
  have h : (List.range (r.payload.length / 2)).map (fun i => beAt r.payload (2 * i) 2) = [beAt r.payload 0 2] := by rw [hl]; rfl
  exact congrArg (d.opFaultClear false []) h

theorem faultClear_notSet (h : Claims.Admitted s 0x61 r x) (hl : r.payload.length = 2) (hs : s.dev.isSet (beAt r.payload 0 2) = false) :
    Yields (exec (.faultClear r) s) (Claims.Replies s r x 0x61 0 (beBytes 1 2)) := by
  have hop := (operate_faultClear (Claims.entered s r x) { x with lastAt := s.dev.now } hl).trans (opFaultClear_one _ _)
  rw [clearSource_unset (d := Claims.entered s r x) 18 hs] at hop
  exact yields_imp (request_replies (P := fun _ => True) h (by decide) (fun _ => rfl) hop rfl rfl rfl (fun _ _ => trivial)) (fun _ ht => ht.1)

theorem faultClear_clears (h : Claims.Admitted s 0x61 r x) (hl : r.payload.length = 2) (hs : s.dev.isSet (beAt r.payload 0 2) = true)
    (hc : s.dev.causeNow (beAt r.payload 0 2) = false) (hf : s.dev.freshSource (beAt r.payload 0 2) = false) :
    Yields (exec (.faultClear r) s) (fun t => t.dev.isSet (beAt r.payload 0 2) = false) := by
  have hop := (operate_faultClear (Claims.entered s r x) { x with lastAt := s.dev.now } hl).trans (opFaultClear_one _ _)
  have hclear := clearSource_clears (Claims.entered s r x) 18 hs hc hf
  refine yields_imp (request_yields h (by decide) (fun _ => rfl) hop (fun e' ha => ?_)) (fun _ ht => ht.2)
  rw [isSet_runOn, isSet_congr (congrArg Snag.set ha.snag), hclear]

end

/-- Settles O53: each request runs its operation, and its reply leaves what the operation did. -/
theorem watchAndLogRequestsAct : Obligations.WatchAndLogRequestsAct := by
  intro s r x
  refine ⟨fun h hl => ⟨watchDefine_writes h hl, watchDefine_refuses h hl⟩, fun h hl hf hroom hop => armList_appends h hl hf hroom hop,
    fun h hr hc => commit_captures h hr hc, ?_, fun h hl n hn => ?_⟩
  · simp only [List.forall_mem_cons, List.not_mem_nil, false_imp_iff, implies_true, and_true]
    exact ⟨fun h hrd n hn => logRead_reports h (by decide) (fun _ => rfl) (by decide) (fun _ _ => rfl) hrd hn,
      fun h hrd n hn => logRead_reports h (by decide) (fun _ => rfl) (by decide) (fun _ _ => rfl) hrd hn⟩
  · subst hn
    exact ⟨faultClear_notSet h hl, faultClear_clears h hl⟩

end Sys2Proof.Proofs.Scope
end

section
namespace Sys2Proof.Proofs.Scope

open Sys2Proof.Machine Sys2Proof.Laws

/-! Slots, trials, the token challenge and fuses (R457, R458, R467). -/

theorem bit_eq_testBit (v i : Nat) : bit v i = v.testBit i := by
  rw [Nat.testBit_eq_decide_div_mod_eq]
  rfl

theorem discard_fails (d : Dev) : d.discard.resp = .discarded ∧ d.discard.isSet 0 = true ∧ d.discard.boot = d.boot :=
  ⟨rfl, raise_s_set d (by decide), (raise_raises d .s 0).boot⟩

/-- The fields that a command leaves alone, from those that its body leaves alone. -/
theorem runOn_regsKept {s : State} {f : Mem → Dev → Dev} {keys : List Nat}
    (h : ∀ g : Fld, g.key ∉ keys → (f s.mem s.dev).fld g = s.dev.fld g) : RegsKept keys s.dev (runOn s f).dev :=
  fun g hg hs => (runOn_fld s f hs).trans (h g hg)

/-- Of registers a command gives the fields of a list their values alone. -/
theorem runOn_assigns {s : State} {f : Mem → Dev → Dev} {l : List (Fld × Nat)} (hl : Apart (l.map Prod.fst))
    (hf : (f s.mem s.dev).regs = (putEach s.dev l).regs) :
    (∀ p ∈ l, (runOn s f).dev.fld p.1 = p.2 % 2 ^ p.1.width) ∧ RegsKept (l.map (fun p => p.1.key)) s.dev (runOn s f).dev := by
  obtain ⟨hn, hs⟩ := hl
  rw [List.map_map] at hn
  refine ⟨fun p hp => ?_, runOn_regsKept (fun g hg => ?_)⟩
  · rw [runOn_fld _ _ (hs _ (List.mem_map_of_mem hp)), Dev.fld_regs hf, putEach_value hn hp]
  · rw [Dev.fld_regs hf, putEach_other l s.dev hg]

/-- NEXT and TRIAL, with their values (R474). -/
def bootSel (next : Nat) (trial : Bool) : List (Fld × Nat) := [(SEC.BOOT_SEL_NEXT, next), (SEC.BOOT_SEL_TRIAL, b2n trial)]

theorem bootSel_apart (next : Nat) (trial : Bool) : Apart ((bootSel next trial).map Prod.fst) :=
  (by decide : Apart [SEC.BOOT_SEL_NEXT, SEC.BOOT_SEL_TRIAL])

theorem putEach_bootSel (d : Dev) (next : Nat) (trial : Bool) :
    putEach d (bootSel next trial) = (d.put SEC.BOOT_SEL_NEXT next).flag SEC.BOOT_SEL_TRIAL trial := rfl

theorem revertTrial_regs (d : Dev) : d.revertTrial.regs = (putEach d (bootSel d.boot.previous false)).regs := by
  rw [putEach_bootSel]
  rfl

theorem bootSelWrite_trusted (d : Dev) {mid : Nat} (v : Nat) (h : trusted mid = true) :
    (d.bootSelWrite mid v).regs = (putEach d (bootSel (bitsAt v 0 0) (bit v 8))).regs ∧ (d.bootSelWrite mid v).resp = .done := by
  rw [Dev.bootSelWrite, if_pos h, putEach_bootSel]
  exact ⟨rfl, rfl⟩

theorem bootSelWrite_other (d : Dev) {mid : Nat} (v : Nat) (h : trusted mid = false) : d.bootSelWrite mid v = d.answer .error :=
  if_neg (h ▸ Bool.false_ne_true)

/-- What a command that gives NEXT and TRIAL their values leaves of them. -/
theorem runOn_bootSel {s : State} {f : Mem → Dev → Dev} {next : Nat} {trial : Bool}
    (hf : (f s.mem s.dev).regs = (putEach s.dev (bootSel next trial)).regs) :
    (runOn s f).dev.fld SEC.BOOT_SEL_NEXT = next % 2 ∧ (runOn s f).dev.on SEC.BOOT_SEL_TRIAL = trial ∧
    RegsKept [SEC.BOOT_SEL_NEXT.key, SEC.BOOT_SEL_TRIAL.key] s.dev (runOn s f).dev := by
  obtain ⟨hval, hkept⟩ := runOn_assigns (bootSel_apart next trial) hf
  refine ⟨hval (SEC.BOOT_SEL_NEXT, next) List.mem_cons_self, ?_, hkept⟩
  rw [Dev.on, hval (SEC.BOOT_SEL_TRIAL, b2n trial) (List.mem_cons_of_mem _ List.mem_cons_self)]
  cases trial <;> rfl

/-- Words of the DRBG are drawn one after the other (R455). -/
theorem drbgWords_eq (n : Nat) : ∀ d : Dev,
    d.drbgWords n = ((List.range n).map (fun i => Config.drbg (d.drbg + i) % 4294967296), { d with drbg := d.drbg + n }) := by
  induction n with
  | zero => exact fun _ => rfl
  | succ n ih =>
    intro d
    simp only [Dev.drbgWords, ih, List.range_succ_eq_map, List.map_cons, List.map_map, Function.comp_def, Nat.add_zero, Nat.succ_eq_add_one,
      Nat.add_assoc, Nat.add_comm 1]

/-- The words of a new challenge, each with its field. -/
def challengeWords (d : Dev) : List (Fld × Nat) := (List.range 8).map (fun i => (SEC.TOKEN_CHAL_CHAL i, Config.drbg (d.drbg + i) % 2 ^ 32))

theorem putEach_drbg (l : List (Fld × Nat)) (n : Nat) : ∀ d : Dev, putEach { d with drbg := n } l = { putEach d l with drbg := n } := by
  induction l with
  | nil => exact fun _ => rfl
  | cons p l ih => exact fun d => ih (d.put p.1 p.2)

theorem answer_drbg_regs (d : Dev) (n : Nat) (r : Resp) : (({ d with drbg := n } : Dev).answer r).regs = d.regs := rfl

theorem newChal_eq (d : Dev) : d.newChal = { putEach d (challengeWords d) with drbg := d.drbg + 8 } := by
  rw [← putEach_drbg]
  unfold Dev.newChal
  rw [drbgWords_eq]
  rfl

theorem two_pow_chal (i : Nat) : 2 ^ (SEC.TOKEN_CHAL_CHAL i).width = 2 ^ 32 := rfl

theorem challengeWords_apart (d : Dev) : Apart ((challengeWords d).map Prod.fst) := by
  have h : (challengeWords d).map Prod.fst = (List.range 8).map SEC.TOKEN_CHAL_CHAL := rfl
  rw [h]
  decide

/-- A new challenge for a trusted master (R467). -/
theorem newChal_trusted {s : State} {mid : Nat} (hd : s.dev.dead = false) (ht : trusted mid = true) :
    Yields (exec (.newChal mid) s) (fun t =>
      (∀ i, i < 8 → t.dev.fld (SEC.TOKEN_CHAL_CHAL i) = Config.drbg (s.dev.drbg + i) % 2 ^ 32) ∧ t.dev.drbg = s.dev.drbg + 8 ∧
      t.dev.resp = .done ∧ RegsKept ((List.range 8).map (fun i => (SEC.TOKEN_CHAL_CHAL i).key)) s.dev t.dev) := by
  have hf : (if trusted mid = true then s.dev.newChal.answer .done else s.dev.answer .error) =
      ({ putEach s.dev (challengeWords s.dev) with drbg := s.dev.drbg + 8 } : Dev).answer .done := by rw [if_pos ht, newChal_eq]
  refine run_body hd hf ?_
  obtain ⟨hval, hkept⟩ := runOn_assigns (s := s) (challengeWords_apart s.dev)
    (f := fun _ _ => ({ putEach s.dev (challengeWords s.dev) with drbg := s.dev.drbg + 8 } : Dev).answer .done) (answer_drbg_regs _ _ _)
  rw [challengeWords, List.map_map] at hkept
  refine ⟨fun i hi => ?_, runOn_drbg _ _, by simp, hkept⟩
  have hword := hval _ (List.mem_map_of_mem (List.mem_range.mpr hi))
  rwa [two_pow_chal, Nat.mod_mod] at hword

/-- What ARB_ADVANCE does (R458). -/
abbrev arbCommand (ok : Bool) (mid : Nat) (d : Dev) : Dev := if trusted mid then d.arbWrite ok else d.answer .error

/-- A blow that reads back blows every bit below the running step, in both copies. -/
theorem arbAdvance_blows {d : Dev} (h : d.fusedStep < min (d.fld SEC.ARB_FW_STEP) 64) {i : Nat} (hi : i < min (d.fld SEC.ARB_FW_STEP) 64) :
    bit (d.arbAdvance true).boot.fuses.arb.1 i = true ∧ bit (d.arbAdvance true).boot.fuses.arb.2 i = true := by
  have hor (a : Nat) : bit (a ||| (2 ^ min (d.fld SEC.ARB_FW_STEP) 64 - 1)) i = true := by
    rw [bit_eq_testBit, Nat.testBit_or, Nat.testBit_two_pow_sub_one]
    simp [hi]
  simp only [Dev.arbAdvance, h, if_true, Dev.put_boot]
  exact ⟨hor _, hor _⟩

theorem arbAdvance_fails {d : Dev} (h : d.fusedStep < min (d.fld SEC.ARB_FW_STEP) 64) : d.arbAdvance false = d.raise .s 522 := by
  simp only [Dev.arbAdvance, h, if_true, Bool.false_eq_true, if_false]

/-! The rebuilds of table sets that an entropy test starts and stops (R95, R455). -/

/-- Keys of SKM_REBUILD that follow the table sets. -/
abbrev rebuildKeys : List Nat := [SKM.REBUILD_NEXT_READY.key, SKM.REBUILD_INVALID.key, SKM.REBUILD_PROGRESS.key]

theorem fld_rebuildStatus (d : Dev) {g : Fld} (h : g.key ∉ rebuildKeys) : d.rebuildStatus.fld g = d.fld g := by
  simp only [List.mem_cons, List.not_mem_nil, or_false, not_or] at h
  obtain ⟨hready, hinvalid, hprogress⟩ := h
  exact (Dev.fld_put_other _ _ hprogress).trans ((Dev.fld_flag_other _ _ hinvalid).trans (Dev.fld_flag_other _ _ hready))

/-- Registers and the Snag unit. -/
def regsAndSnag (d : Dev) : Tab Nat × Snag := (d.regs, d.snag)

theorem regsAndSnag_startBuild (d : Dev) (w : Nat) (cur : Bool) : regsAndSnag (d.startBuild w cur) = regsAndSnag d := by
  unfold Dev.startBuild
  cases cur
  · exact ite_leaves regsAndSnag rfl rfl
  · exact ite_leaves regsAndSnag rfl rfl

/-- Starting builds changes SKM_REBUILD alone of registers, and nothing of the Snag unit. -/
theorem startBuilds_kept (d : Dev) : (∀ g : Fld, g.key ∉ rebuildKeys → d.startBuilds.fld g = d.fld g) ∧ d.startBuilds.snag = d.snag := by
  have hbuilt : ∃ e, d.startBuilds = e.rebuildStatus ∧ regsAndSnag e = regsAndSnag d := by
    refine ⟨_, rfl, ite_leaves regsAndSnag rfl ?_⟩
    refine (foldl_leaves regsAndSnag _ (fun e w => ite_leaves regsAndSnag (regsAndSnag_startBuild e w false) rfl) _ _).trans ?_
    exact foldl_leaves regsAndSnag _ (fun e w => ite_leaves regsAndSnag (regsAndSnag_startBuild e w true) rfl) _ _
  obtain ⟨e, he, hkept⟩ := hbuilt
  rw [he]
  exact ⟨fun g hg => (fld_rebuildStatus e hg).trans (Dev.fld_regs (congrArg Prod.fst hkept) g), congrArg Prod.snd hkept⟩

/-- No set of a watch is being built. -/
def Unbuilding (d : Dev) (v : Nat) : Prop := (d.curSet v).status ≠ 1 ∧ (d.nextSet v).status ≠ 1

/-- The builds of one watch stop. -/
def stopBuild (d : Dev) (w : Nat) : Dev :=
  let d1 := if (d.curSet w).status = 1 then (d.dropOps (.build w)).putCur w .none else d
  if (d1.nextSet w).status = 1 then (d1.dropOps (.build w)).putNext w .none else d1

theorem stopBuilds_eq (d : Dev) : d.stopBuilds = d.linWatches.foldl stopBuild d := rfl

theorem dropOps_kept (d : Dev) (o : OpOwner) : (d.dropOps o).skim = d.skim ∧ (d.dropOps o).snag = d.snag ∧
    ∀ g : Fld, g.key ≠ MTX.STAT_SUSPENDED.key → (d.dropOps o).fld g = d.fld g := by
  refine ⟨ite_leaves Dev.skim rfl rfl, ite_leaves Dev.snag rfl rfl, fun g hg => ite_leaves (fun e => e.fld g) ?_ rfl⟩
  exact Dev.fld_flag_other _ false hg

/-- Stopping the builds of a watch changes MTX_STAT.SUSPENDED alone of registers, and nothing of the Snag unit. -/
theorem stopBuild_kept (d : Dev) (w : Nat) : (stopBuild d w).snag = d.snag ∧
    ∀ g : Fld, g.key ≠ MTX.STAT_SUSPENDED.key → (stopBuild d w).fld g = d.fld g := by
  obtain ⟨-, hsnag, hfld⟩ := dropOps_kept d (.build w)
  unfold stopBuild
  dsimp only
  generalize hd1 : (if (d.curSet w).status = 1 then (d.dropOps (.build w)).putCur w .none else d) = d1
  have hsnag1 : d1.snag = d.snag := hd1 ▸ ite_leaves Dev.snag hsnag rfl
  have hfld1 (g : Fld) (hg : g.key ≠ MTX.STAT_SUSPENDED.key) : d1.fld g = d.fld g := hd1 ▸ ite_leaves (fun e => e.fld g) (hfld g hg) rfl
  obtain ⟨-, hsnag2, hfld2⟩ := dropOps_kept d1 (.build w)
  exact ⟨ite_leaves Dev.snag (hsnag2.trans hsnag1) hsnag1,
    fun g hg => ite_leaves (fun e => e.fld g) ((hfld2 g hg).trans (hfld1 g hg)) (hfld1 g hg)⟩

theorem stopBuilds_kept (d : Dev) : d.stopBuilds.snag = d.snag ∧
    ∀ g : Fld, g.key ≠ MTX.STAT_SUSPENDED.key → d.stopBuilds.fld g = d.fld g :=
  ⟨foldl_leaves Dev.snag stopBuild (fun d w => (stopBuild_kept d w).1) _ d,
    fun g hg => foldl_leaves (fun e => e.fld g) stopBuild (fun d w => (stopBuild_kept d w).2 g hg) _ d⟩

theorem curSet_dropPutCur (d : Dev) (w v : Nat) (o : OpOwner) (x : TableSet) :
    ((d.dropOps o).putCur w x).curSet v = if v = w then x else d.curSet v := by
  split
  · subst v
    exact curSet_putCur_same ..
  · exact (curSet_putCur_other _ _ ‹_›).trans (curSet_congr (dropOps_kept d o).1 v)

theorem nextSet_dropPutNext (d : Dev) (w v : Nat) (o : OpOwner) (x : TableSet) :
    ((d.dropOps o).putNext w x).nextSet v = if v = w then x else d.nextSet v := by
  split
  · subst v
    exact nextSet_putNext_same ..
  · exact (nextSet_putNext_other _ _ ‹_›).trans (nextSet_congr (dropOps_kept d o).1 v)

/-- A set of the watch that is being built becomes empty; every other set stays. -/
theorem sets_stopBuild (d : Dev) (w v : Nat) :
    (stopBuild d w).curSet v = (if v = w ∧ (d.curSet w).status = 1 then .none else d.curSet v) ∧
    (stopBuild d w).nextSet v = (if v = w ∧ (d.nextSet w).status = 1 then .none else d.nextSet v) := by
  have hcur : (stopBuild d w).curSet v = (if (d.curSet w).status = 1 then (d.dropOps (.build w)).putCur w .none else d).curSet v :=
    ite_leaves (fun e => e.curSet v) (curSet_congr (dropOps_kept _ _).1 v) rfl
  have hnext (u : Nat) : (if (d.curSet w).status = 1 then (d.dropOps (.build w)).putCur w .none else d).nextSet u = d.nextSet u :=
    ite_leaves (fun e => e.nextSet u) (nextSet_congr (dropOps_kept _ _).1 u) rfl
  refine ⟨hcur.trans ?_, ?_⟩
  · by_cases h : (d.curSet w).status = 1
    · simp only [h, if_true, and_true, curSet_dropPutCur]
    · simp only [h, if_false, and_false]
  · unfold stopBuild
    dsimp only
    rw [hnext]
    by_cases h : (d.nextSet w).status = 1
    · simp only [h, if_true, and_true, nextSet_dropPutNext, hnext]
    · simp only [h, if_false, and_false, hnext]

theorem emptied_status {x : TableSet} {c : Prop} [Decidable c] (h : ¬ c → x.status ≠ 1) : (if c then TableSet.none else x).status ≠ 1 := by
  split
  · decide
  · exact h ‹_›

theorem stopBuild_unbuilding {d : Dev} {w v : Nat} (h : v = w ∨ Unbuilding d v) : Unbuilding (stopBuild d w) v := by
  obtain ⟨hcur, hnext⟩ := sets_stopBuild d w v
  rw [Unbuilding, hcur, hnext]
  rcases h with rfl | ⟨hc, hn⟩
  · exact ⟨emptied_status (fun h hs => h ⟨rfl, hs⟩), emptied_status (fun h hs => h ⟨rfl, hs⟩)⟩
  · exact ⟨emptied_status (fun _ => hc), emptied_status (fun _ => hn)⟩

theorem foldl_stopBuild_unbuilding {v : Nat} (l : List Nat) : ∀ d, v ∈ l ∨ Unbuilding d v → Unbuilding (l.foldl stopBuild d) v := by
  induction l with
  | nil => exact fun d h => h.resolve_left List.not_mem_nil
  | cons w l ih =>
    refine fun d h => ih _ ?_
    rcases h with h | h
    · rcases List.mem_cons.mp h with h | h
      · exact .inr (stopBuild_unbuilding (.inl h))
      · exact .inl h
    · exact .inr (stopBuild_unbuilding (.inr h))

theorem stopBuilds_unbuilding {d : Dev} {v : Nat} (h : v ∈ d.linWatches) : Unbuilding d.stopBuilds v :=
  foldl_stopBuild_unbuilding _ d (.inl h)

theorem linWatches_congr {d e : Dev} (h : e.watch = d.watch) : e.linWatches = d.linWatches := by
  simp only [Dev.linWatches, Dev.activeWatches, Dev.wdKind, Dev.wd, h]

/-- A test that passes, with no injection armed for it. -/
theorem entropyTest_passes {d : Dev} (hi : (d.on SEC.INJ_ARM && d.fld SEC.INJ_MODE == 2) = false) :
    d.entropyTest true = ((d.flag SEC.STATE_ENTROPY_OK true).cause 518 false).startBuilds := by
  simp only [Dev.entropyTest, hi, Bool.not_false, Bool.and_self, if_true, Bool.false_eq_true, if_false]

/-- A test that fails, with no injection armed for it. -/
theorem entropyTest_fails {d : Dev} (hi : (d.on SEC.INJ_ARM && d.fld SEC.INJ_MODE == 2) = false) :
    d.entropyTest false = (((d.flag SEC.STATE_ENTROPY_OK false).raise .s 518).cause 518 true).stopBuilds := by
  simp only [Dev.entropyTest, Dev.raise, hi, Bool.false_and, Bool.false_eq_true, if_false]

theorem entropyTest_passed {s : State} (hd : s.dev.dead = false) (hi : (s.dev.on SEC.INJ_ARM && s.dev.fld SEC.INJ_MODE == 2) = false) :
    Yields (exec (.entropyHealthTest true) s) (fun t =>
      t.dev.on SEC.STATE_ENTROPY_OK = true ∧ tabGet false t.dev.snag.cause 518 = false ∧
      RegsKept [SEC.STATE_ENTROPY_OK.key, SKM.REBUILD_NEXT_READY.key, SKM.REBUILD_INVALID.key, SKM.REBUILD_PROGRESS.key] s.dev t.dev) := by
  obtain ⟨hregs, hsnag⟩ := startBuilds_kept ((s.dev.flag SEC.STATE_ENTROPY_OK true).cause 518 false)
  refine run_body hd (entropyTest_passes hi) ⟨?_, ?_, runOn_regsKept (fun g hg => ?_)⟩
  · rw [runOn_on _ _ (by decide), Dev.on_fld (hregs _ (by decide)), Dev.on_cause, Dev.on_flag_same]
  · rw [runOn_snag_cause, hsnag, cause_same]
  · rw [List.mem_cons, not_or] at hg
    exact (hregs g hg.2).trans (Dev.fld_flag_other _ true hg.1)

theorem entropyTest_failed {s : State} (hd : s.dev.dead = false) (hi : (s.dev.on SEC.INJ_ARM && s.dev.fld SEC.INJ_MODE == 2) = false) :
    Yields (exec (.entropyHealthTest false) s) (fun t =>
      t.dev.on SEC.STATE_ENTROPY_OK = false ∧ t.dev.isSet 518 = true ∧ tabGet false t.dev.snag.cause 518 = true ∧
      (∀ w ∈ s.dev.linWatches, (t.dev.curSet w).status ≠ 1 ∧ (t.dev.nextSet w).status ≠ 1) ∧
      RegsKept (SEC.STATE_ENTROPY_OK.key :: MTX.STAT_SUSPENDED.key :: Claims.sourceKeys) s.dev t.dev) := by
  have hr := raise_raises (s.dev.flag SEC.STATE_ENTROPY_OK false) .s 518
  obtain ⟨hsnag, hregs⟩ := stopBuilds_kept (((s.dev.flag SEC.STATE_ENTROPY_OK false).raise .s 518).cause 518 true)
  refine run_body hd (entropyTest_fails hi) ⟨?_, ?_, ?_, fun w hw => ?_, runOn_regsKept (fun g hg => ?_)⟩
  · rw [runOn_on _ _ (by decide), Dev.on_fld (hregs _ (by decide)), Dev.on_cause, hr.on (by decide), Dev.on_flag_same]
  · rw [isSet_runOn, isSet_congr (congrArg Snag.set hsnag), isSet_cause]
    exact raise_s_set _ (by decide)
  · rw [runOn_snag_cause, hsnag, cause_same]
  · rw [curSet_runOn, nextSet_runOn]
    exact stopBuilds_unbuilding (linWatches_congr (d := s.dev) hr.watch ▸ hw)
  · simp only [List.mem_cons, not_or] at hg
    obtain ⟨hok, hsuspended, hsources⟩ := hg
    exact (hregs g hsuspended).trans ((hr.regs g (by simpa [raiseKeys, Claims.sourceKeys] using hsources)).trans
      (Dev.fld_flag_other _ false hok))

/-- Settles O42: each command does what the equation of its operation says; an entropy test starts or stops the builds besides. -/
theorem slotsTokensFusesAndEntropy : Obligations.SlotsTokensFusesAndEntropy := by
  intro s mid v hd hm
  refine ⟨fun ht => ?_, fun hopen hhalt hlate => ?_, fun ht => ?_, fun ht hmaint hstep => ⟨?_, ?_⟩, fun ht hmaint ok => ?_,
    fun hi => ⟨entropyTest_passed hd hi, entropyTest_failed hd hi⟩, fun ht ok => ⟨?_, ?_, ?_⟩⟩
  · obtain ⟨hregs, hdone⟩ := bootSelWrite_trusted s.dev v ht
    obtain ⟨hnext, htrial, hkept⟩ := runOn_bootSel (s := s) (f := fun _ d => d.bootSelWrite mid v) hregs
    exact ⟨_, run_alive hd _, hnext.trans (by simp [bitsAt]), htrial, (runOn_resp _ _).trans hdone, hkept⟩
  · have hf : (if (s.dev.trialOpen && s.dev.boot.haltAt.isNone && s.dev.trialLate) = true then s.dev.revertTrial else s.dev) = s.dev.revertTrial :=
      if_pos (by simp [hopen, hhalt, hlate])
    obtain ⟨hnext, htrial, hkept⟩ := runOn_bootSel (s := s) (f := fun _ _ => s.dev.revertTrial) (revertTrial_regs s.dev)
    exact run_body hd hf ⟨hnext, htrial, congrArg Boot.revertDue (runOn_boot _ _), hkept⟩
  · exact newChal_trusted hd ht
  · have hf : arbCommand true mid s.dev = (s.dev.arbAdvance true).answer .done := (if_pos ht).trans (if_pos hmaint)
    refine run_body hd hf ⟨fun i hi => ?_, by simp⟩
    rw [runOn_boot]
    exact arbAdvance_blows hstep hi
  · have hf : arbCommand false mid s.dev = (s.dev.raise .s 522).answer .done :=
      (if_pos ht).trans ((if_pos hmaint).trans (by rw [arbAdvance_fails hstep]))
    refine run_body hd hf ⟨?_, ?_⟩
    · rw [isSet_runOn]
      exact raise_s_set s.dev (by decide)
    · rw [runOn_boot]
      exact congrArg Boot.fuses (raise_raises s.dev .s 522).boot
  · have hf : arbCommand ok mid s.dev = s.dev.discard := (if_pos ht).trans (if_neg (by simp [hmaint]))
    obtain ⟨hresp, hset, hboot⟩ := discard_fails s.dev
    exact run_body hd hf ⟨(runOn_resp _ _).trans hresp, (isSet_runOn _ _ _).trans hset, congrArg Boot.fuses ((runOn_boot _ _).trans hboot)⟩
  · exact answer_yields hd hm (bootSelWrite_other s.dev v ht)
  · exact answer_yields hd hm (if_neg (ht ▸ Bool.false_ne_true))
  · exact answer_yields hd hm (if_neg (ht ▸ Bool.false_ne_true))

end Sys2Proof.Proofs.Scope
end

section
namespace Sys2Proof.Proofs.Scope

open Sys2Proof.Machine Sys2Proof.Laws

/-! A detection on any die (R415, R417). -/

theorem raise_holds {d : Dev} {y : Die} {n : Nat} (hn : srcExists n = true) (hb : Claims.Beats d y) : Claims.Held (d.raise y n) y n := by
  cases y
  case s => exact raise_s_set d hn
  all_goals exact raiseInj_held d (by decide) 0 false hn hb

theorem held_congr {d e : Dev} {y : Die} {n : Nat} (hs : e.snag.set = d.snag.set) (hh : e.snag.held = d.snag.held) (h : Claims.Held d y n) :
    Claims.Held e y n := by
  cases y
  case s => exact (isSet_congr hs n).trans h
  all_goals exact (congrArg (tabGet false · _) hh).trans h

theorem held_runOn {s : State} {f : Mem → Dev → Dev} {y : Die} {n : Nat} (h : Claims.Held (f s.mem s.dev) y n) :
    Claims.Held (runOn s f).dev y n := held_congr (runOn_snag_set s f) (runOn_snag_held s f) h

theorem beats_congr {d e : Dev} {y : Die} (h : ∀ i, e.on (hbOkFld i) = d.on (hbOkFld i)) (hb : Claims.Beats d y) : Claims.Beats e y := by
  cases y
  case s => trivial
  all_goals exact (h _).trans hb

theorem beats_flag {d : Dev} {y : Die} {f : Fld} (b : Bool) (hf : f.key ∉ safeKeys) (h : Claims.Beats d y) : Claims.Beats (d.flag f b) y :=
  beats_congr (fun i => Dev.on_flag_other d b (fun hk : (hbOkFld i).key = f.key => hf (hk ▸ die_keys.2.1))) h

/-! What a record that a Skim unit takes leaves alone (R90, R91, R105, R192, R208). -/

/-- The links, the bytes that the Skim units have taken, and the Snag unit. -/
def intake (d : Dev) : Tab LinkPort × Tab Nat × Snag := (d.links, d.skim.bytes, d.snag)

theorem intake_checkIn (d : Dev) (w task : Nat) : intake (d.checkIn w task) = intake d := by
  unfold Dev.checkIn
  split
  · rfl
  · exact ite_leaves intake rfl (ite_leaves intake rfl rfl)

theorem intake_planTick (d : Dev) (j : Nat) : intake (d.planTick j) = intake d := by
  refine foldl_leaves intake _ (fun d task => ite_leaves intake rfl ?_) _ _
  exact (foldl_leaves intake _ (fun d w => intake_checkIn d w task) _ _).trans rfl

theorem intake_planCheckins (d : Dev) : intake d.planCheckins = intake d :=
  ite_leaves intake rfl (foldl_leaves intake _ intake_planTick _ _)

theorem intake_dropOps (d : Dev) (o : OpOwner) : intake (d.dropOps o) = intake d := ite_leaves intake rfl rfl

theorem intake_dropStageDma (d : Dev) (o : OpOwner) : intake (d.dropStageDma o) = intake d := ite_leaves intake rfl rfl

theorem intake_spend (d : Dev) (o : OpOwner) (clk : Nat) : intake (d.spend o clk) = intake d := by cases o <;> rfl

theorem intake_charge (d : Dev) (q : ArrQueue) (o : ArrOp) (clk : Nat) : intake (d.charge q o clk) = intake d := by
  unfold Dev.charge
  cases q
  all_goals
    refine ite_leaves intake (intake_spend _ _ _) ?_
    split <;> rfl

theorem intake_wasteAttempt (d : Dev) (o : OpOwner) : intake (d.wasteAttempt o) = intake d := by
  have h : intake d.chargeRunning = intake d := by
    unfold Dev.chargeRunning
    split
    · rfl
    · exact intake_charge d _ _ _
  exact h

theorem intake_takeRecord (d : Dev) (w : Nat) (j : Job) (r : LinkRecord) (sound : Bool) : intake (d.takeRecord w j r sound) = intake d :=
  ite_leaves intake rfl (ite_leaves intake rfl (ite_leaves intake rfl rfl))

theorem takeRecord_regs (d : Dev) (w : Nat) (j : Job) (r : LinkRecord) (sound : Bool) : (d.takeRecord w j r sound).regs = d.regs :=
  ite_leaves Dev.regs rfl (ite_leaves Dev.regs rfl (ite_leaves Dev.regs rfl rfl))

theorem intake_decideUnit (d : Dev) (w : Nat) (x : TableSet) (recs : List Rec) (k c : Nat) : intake (d.decideUnit w x recs k c) = intake d := by
  unfold Dev.decideUnit
  split
  · rfl
  · have hinj : intake (if d.skimInjected (d.wdPort w) w = true then d.flag (SKM.U_INJ_ARM (d.wdPort w)) false else d) = intake d :=
      ite_leaves intake rfl rfl
    refine Eq.trans (show intake (Dev.putJob _ w _) = intake _ from rfl) ?_
    exact ite_leaves intake hinj hinj

theorem intake_linAdvance (d : Dev) (w k : Nat) : intake (d.linAdvance w k) = intake d := by
  have hdecided (c : Prop) [Decidable c] (l : List Nat) (x : TableSet) (recs : List Rec) :
      intake (if c then l.foldl (fun d u => d.decideUnit w x recs k u) d else d) = intake d :=
    ite_leaves intake (foldl_leaves intake _ (fun d u => intake_decideUnit d w x recs k u) l d) rfl
  unfold Dev.linAdvance
  split
  · rfl
  · dsimp only
    split
    · exact hdecided _ _ _ _
    · exact ite_leaves intake (hdecided _ _ _ _) (ite_leaves intake (hdecided _ _ _ _) (hdecided _ _ _ _))

theorem intake_stnAdvance (d : Dev) (w k : Nat) : intake (d.stnAdvance w k) = intake d := by
  unfold Dev.stnAdvance
  split
  · rfl
  · exact ite_leaves intake rfl rfl

theorem intake_afterRecord (d : Dev) (w k : Nat) : intake (d.afterRecord w k) = intake d := by
  unfold Dev.afterRecord
  split
  · exact intake_linAdvance d w k
  · exact ite_leaves intake rfl (intake_stnAdvance d w k)
  · rfl

/-- Keys of the counts of SRAM errors and of the record of the first uncorrectable one (Table 07.12). -/
abbrev errorKeys : List Nat :=
  [MEM.SRAM_CNT_CE.key, MEM.SRAM_CNT_UE.key, MEM.UE_INFO_VALID.key, MEM.UE_INFO_MEMORY.key, MEM.UE_INFO_UNIT.key, MEM.UE_INFO_MID.key,
    MEM.UE_ADDR_LO_ADDR.key, MEM.UE_ADDR_HI_ADDR.key]

theorem hbOk_apart (i : Nat) : (hbOkFld i).key ∉ raiseKeys ∧ (hbOkFld i).key ∉ errorKeys := by
  unfold hbOkFld
  split
  · decide
  · split <;> decide

/-- Free values drawn change their count alone. -/
theorem drawN_dev (n : Nat) : ∀ d : Dev, (d.drawN n).2 = { d with free := d.free + n } := by
  induction n with
  | zero => exact fun _ => rfl
  | succ n ih =>
    intro d
    simp only [Dev.drawN, Dev.draw, ih, Nat.add_assoc, Nat.add_comm 1]

/-- Links, Skim units and heartbeats are as before. -/
structure Undisturbed (d e : Dev) : Prop where
  links : e.links = d.links
  skim : e.skim = d.skim
  beats : ∀ i, e.on (hbOkFld i) = d.on (hbOkFld i)

theorem Undisturbed.refl (d : Dev) : Undisturbed d d := ⟨rfl, rfl, fun _ => rfl⟩

theorem Undisturbed.raise {d e : Dev} (h : Undisturbed d e) (y : Die) (n : Nat) : Undisturbed d (e.raise y n) := by
  have hr := raise_raises e y n
  exact ⟨hr.links.trans h.links, hr.skim.trans h.skim, fun i => (hr.on (hbOk_apart i).1).trans (h.beats i)⟩

theorem Undisturbed.put {d e : Dev} (h : Undisturbed d e) (f : Fld) (v : Nat) (hf : f.key ∈ errorKeys) : Undisturbed d (e.put f v) :=
  ⟨h.links, h.skim, fun i => (Dev.on_put_other e v (fun hk : (hbOkFld i).key = f.key => (hbOk_apart i).2 (hk ▸ hf))).trans (h.beats i)⟩

theorem Undisturbed.ueInfo {d e : Dev} (h : Undisturbed d e) (memory unit mid a : Nat) : Undisturbed d (e.ueInfo memory unit mid a) := by
  unfold Dev.ueInfo
  split
  · exact h
  · exact (((((h.put _ _ (by decide)).put _ _ (by decide)).put _ _ (by decide)).put _ _ (by decide)).put _ _ (by decide)).put _ _ (by decide)

/-- A read of the link buffer counts and reports its errors, and no more (R224, R227, R281). -/
theorem linkRead_undisturbed (d : Dev) (p : Nat) (read : Check) : Undisturbed d (d.linkRead p read) := by
  cases read
  case sound => exact .refl d
  case single => exact ((Undisturbed.refl d).put MEM.SRAM_CNT_CE _ (by decide)).raise _ _
  case double =>
    have hdraw : Undisturbed d (d.drawN 2).2 := by
      rw [drawN_dev]
      exact ⟨rfl, rfl, fun _ => rfl⟩
    exact ((hdraw.put MEM.SRAM_CNT_UE _ (by decide)).ueInfo _ _ _ _).raise _ _

/-- An uncorrectable entry of the table buffer abandons the attempt of an open job that has no result yet (R192, R195). -/
theorem intake_tableRead_double (d : Dev) (p w k : Nat) :
    intake (d.tableRead p w k .double) = intake (d.raise (clusterDie p) 73) := by
  have hdrop (e : Dev) (o : OpOwner) : intake (((e.wasteAttempt o).dropOps o).dropStageDma o) = intake e :=
    (intake_dropStageDma _ _).trans ((intake_dropOps _ _).trans (intake_wasteAttempt e o))
  -- Evaluated as far as the open job decides, the read is the choice between keeping the result and giving up the attempt.
  conv_lhs =>
    arg 1
    whnf
  generalize d.raise (clusterDie p) 73 = e
  split
  · rfl
  · exact ite_leaves intake rfl (ite_leaves intake (hdrop e _) (hdrop e _))

/-- A read of the table buffer leaves links and bytes alone; an uncorrectable one is held as source 73 (R108, R224). -/
theorem tableRead_kept (d : Dev) (p w k : Nat) (table : Check) :
    (d.tableRead p w k table).links = d.links ∧ (d.tableRead p w k table).skim.bytes = d.skim.bytes ∧
    (table = .double → Claims.Beats d (clusterDie p) → Claims.Held (d.tableRead p w k table) (clusterDie p) 73) := by
  cases table
  case sound => exact ⟨rfl, rfl, fun h => absurd h (by decide)⟩
  case single =>
    have hr := raise_raises (d.count MEM.SRAM_CNT_CE 1) (clusterDie p) 80
    exact ⟨hr.links, congrArg Skim.bytes hr.skim, fun h => absurd h (by decide)⟩
  case double =>
    have hr := raise_raises d (clusterDie p) 73
    have hi := intake_tableRead_double d p w k
    have hsnag : (d.tableRead p w k .double).snag = (d.raise (clusterDie p) 73).snag := congrArg (fun x => x.2.2) hi
    exact ⟨(congrArg Prod.fst hi).trans hr.links, (congrArg (fun x => x.2.1) hi).trans (congrArg Skim.bytes hr.skim),
      fun _ hb => held_congr (congrArg Snag.set hsnag) (congrArg Snag.held hsnag) (raise_holds (by decide) hb)⟩

/-! A record that need not wait (R90, R103, R265). -/

/-- The device once a record has left the link buffer and its bytes are counted. -/
def unbuffered (d : Dev) (p vc : Nat) (r : LinkRecord) : Dev :=
  let d1 := d.putLink p ({ d.link p with deliver := (d.link p).deliver.erase r }.free vc r.payload.length)
  { d1 with skim := { d1.skim with bytes := tabUpd 0 d1.skim.bytes p (· + r.payload.length) } }

theorem unbuffered_takes (d : Dev) (p vc : Nat) (r : LinkRecord) : ((unbuffered d p vc r).link p).deliver = (d.link p).deliver.erase r ∧
    tabGet 0 (unbuffered d p vc r).skim.bytes p = tabGet 0 d.skim.bytes p + r.payload.length :=
  ⟨congrArg LinkPort.deliver (link_putLink_same d p _), tabGet_set_same _ _ _ _⟩

/-- The rest of the Skim unit's work on a record whose job is open. -/
def checkedRecord (d e : Dev) (p w k : Nat) (j : Job) (r : LinkRecord) (read table : Check) : Dev :=
  let e1 := e.takeRecord w j r (read != .double)
  (((if d.wdKind w = 0 then e1.tableRead p w k table else e1).afterRecord w k).planCheckins).readied d

theorem checkedRecord_kept (d e : Dev) (p w k : Nat) (j : Job) (r : LinkRecord) (read table : Check) :
    (checkedRecord d e p w k j r read table).links = e.links ∧ (checkedRecord d e p w k j r read table).skim.bytes = e.skim.bytes ∧
    (table = .double → d.wdKind w = 0 → Claims.Beats e (clusterDie p) →
      Claims.Held (checkedRecord d e p w k j r read table) (clusterDie p) 73) := by
  have htake := intake_takeRecord e w j r (read != .double)
  have hbeats : Claims.Beats e (clusterDie p) → Claims.Beats (e.takeRecord w j r (read != .double)) (clusterDie p) :=
    beats_congr (fun i => Dev.on_fld (Dev.fld_regs (takeRecord_regs ..) _))
  unfold checkedRecord
  dsimp only
  generalize e.takeRecord w j r (read != .double) = e1 at htake hbeats ⊢
  obtain ⟨hlinks, hbytes, hheld⟩ := tableRead_kept e1 p w k table
  have hrest (x : Dev) : intake (((x.afterRecord w k).planCheckins).readied d) = intake x :=
    (intake_planCheckins _).trans (intake_afterRecord x w k)
  have hread : (if d.wdKind w = 0 then e1.tableRead p w k table else e1).links = e1.links ∧
      (if d.wdKind w = 0 then e1.tableRead p w k table else e1).skim.bytes = e1.skim.bytes := by
    split
    · exact ⟨hlinks, hbytes⟩
    · exact ⟨rfl, rfl⟩
  refine ⟨?_, ?_, fun htable hkind hb => ?_⟩
  · exact (congrArg Prod.fst (hrest _)).trans (hread.1.trans (congrArg Prod.fst htake))
  · exact (congrArg (fun x => x.2.1) (hrest _)).trans (hread.2.trans (congrArg (fun x => x.2.1) htake))
  · rw [if_pos hkind]
    have hsnag : (((e1.tableRead p w k table).afterRecord w k).planCheckins.readied d).snag = (e1.tableRead p w k table).snag :=
      congrArg (fun x => x.2.2) (hrest _)
    exact held_congr (congrArg Snag.set hsnag) (congrArg Snag.held hsnag) (hheld htable (hbeats hb))

/-- A record need not wait for its job or for the tables of its job (R103, R265). -/
def Proceeds (d : Dev) (r : LinkRecord) : Prop :=
  (d.openJob r.watch r.frame = none ∧ ((d.jobOf r.watch r.frame).isSome = true ∨ framePrecedes r.frame d.frame = true)) ∨
    (∃ j, d.openJob r.watch r.frame = some j ∧ (d.wdKind r.watch ≠ 0 ∨ (d.jobTable r.watch j).status ≠ 2 ∨ d.linForm r.watch = 2 ∨
      (d.jobIn r.watch r.frame).tablesLoaded = true))

/-- A record that need not wait leaves the link buffer; with an open job the unit works on it. -/
theorem skimRecord_takes {d : Dev} {p vc : Nat} {r : LinkRecord} (read table : Check)
    (hr : (d.link p).deliver.find? (fun x => x.vc == vc) = some r)
    (hgo : Proceeds d r) :
    d.skimRecord p vc read table = match d.openJob r.watch r.frame with
      | none => (unbuffered d p vc r).linkRead p read
      | some j => checkedRecord d ((unbuffered d p vc r).linkRead p read) p r.watch r.frame j r read table := by
  unfold Dev.skimRecord
  simp only [hr]
  rcases hgo with ⟨hj, hlate⟩ | ⟨j, hj, hready⟩
  · have hgoes : ((d.jobOf r.watch r.frame).isNone && !framePrecedes r.frame d.frame) = false := by
      rcases hlate with h | h <;> simp [h, Option.isNone_eq_false_iff.mpr]
    simp only [hj, hgoes, Bool.false_eq_true, if_false]
    rfl
  · have hgoes : (d.wdKind r.watch == 0 && (d.jobTable r.watch j).status == 2 && d.linForm r.watch != 2 &&
        !(d.jobIn r.watch r.frame).tablesLoaded) = false := by
      rcases hready with h | h | h | h <;> simp [h]
    simp only [hj, hgoes, Bool.false_eq_true, if_false]
    rfl

/-- A record that need not wait leaves the link buffer and has its bytes counted; a table entry of its job that reads with an error is held as
source 73. -/
theorem skimRecord_kept {d : Dev} {p vc : Nat} {r : LinkRecord} (read table : Check)
    (hr : (d.link p).deliver.find? (fun x => x.vc == vc) = some r)
    (hgo : Proceeds d r) :
    ((d.skimRecord p vc read table).link p).deliver = (d.link p).deliver.erase r ∧
    tabGet 0 (d.skimRecord p vc read table).skim.bytes p = tabGet 0 d.skim.bytes p + r.payload.length ∧
    (table = .double → d.wdKind r.watch = 0 → (d.openJob r.watch r.frame).isSome = true → Claims.Beats d (clusterDie p) →
      Claims.Held (d.skimRecord p vc read table) (clusterDie p) 73) := by
  obtain ⟨hdeliver, hcount⟩ := unbuffered_takes d p vc r
  have hread := linkRead_undisturbed (unbuffered d p vc r) p read
  rw [skimRecord_takes read table hr hgo]
  generalize (unbuffered d p vc r).linkRead p read = e at hread
  have hbytes := congrArg Skim.bytes hread.skim
  split
  · exact ⟨by rw [link_congr hread.links, hdeliver], by rw [hbytes, hcount], fun _ _ h => absurd h (by simp [*])⟩
  · rename_i j _
    obtain ⟨hlinks', hbytes', hheld⟩ := checkedRecord_kept d e p r.watch r.frame j r read table
    refine ⟨by rw [link_congr (hlinks'.trans hread.links), hdeliver], by rw [hbytes', hbytes, hcount], fun htable hkind _ hb => ?_⟩
    exact hheld htable hkind (beats_congr hread.beats hb)

theorem skimRecord_processed {s : State} {p vc : Nat} {r : LinkRecord} (hd : s.dev.dead = false) (hp : p < 4)
    (hreach : s.dev.reach (clusterDie p) = true) (hr : (s.dev.link p).deliver.find? (fun x => x.vc == vc) = some r)
    (hgo : Proceeds s.dev r) (reads : SkimReads) :
    Yields (exec (.skimRecordProcess p vc reads) s) (fun t => (t.dev.link p).deliver = (s.dev.link p).deliver.erase r ∧
      tabGet 0 t.dev.skim.bytes p = tabGet 0 s.dev.skim.bytes p + r.payload.length ∧
      (reads.table = .double → s.dev.wdKind r.watch = 0 → (s.dev.openJob r.watch r.frame).isSome = true → Claims.Beats s.dev (clusterDie p) →
        Claims.Held t.dev (clusterDie p) 73)) := by
  obtain ⟨hdeliver, hbytes, hheld⟩ := skimRecord_kept reads.data reads.table hr hgo
  refine run_body hd (e := s.dev.skimRecord p vc reads.data reads.table) (if_pos (by simp [hp, hreach])) ⟨?_, ?_, fun htable hkind hopen hb => ?_⟩
  · rw [link_runOn, hdeliver]
  · rw [runOn_skim, hbytes]
  · exact held_runOn (hheld htable hkind hopen hb)

/-! Known-answer tests, overruns and rekeys (R98, R100, R102). -/

theorem clusterDie_cases {u : Nat} : clusterDie u = .c0 ∨ clusterDie u = .c1 := by
  unfold clusterDie
  split
  · exact .inl rfl
  · exact .inr rfl

/-- KAT_FAIL of a unit is no field of the safe state, of the sources or of SKM_REBUILD. -/
theorem katFail_apart {u : Nat} (h : u < 4) :
    (SKM.U_STAT_KAT_FAIL u).key ∉ safeKeys ∧ (SKM.U_STAT_KAT_FAIL u).key ∉ raiseKeys ∧ (SKM.U_STAT_KAT_FAIL u).key ∉ rebuildKeys := by
  interval_cases u <;> decide

theorem rebuildStatus_skim (d : Dev) : d.rebuildStatus.skim = d.skim := rfl

theorem rebuildStatus_snag (d : Dev) : d.rebuildStatus.snag = d.snag := rfl

/-- The device as a known-answer test is kept. -/
def katKept (d : Dev) (u : Nat) (pass : Bool) : Dev :=
  { d with skim := { d.skim with kat := tabSet false d.skim.kat u pass } }.flag (SKM.U_STAT_KAT_FAIL u) (!pass)

theorem knownAnswer_eq {d : Dev} {u : Nat} (pass : Bool) (hu : u < 4) (ho : d.skimOn u = true) (hb : d.nextBuilt = true) :
    d.knownAnswer u pass = (if pass then katKept d u pass else (katKept d u pass).raise (clusterDie u) 70).rebuildStatus :=
  if_pos (by simp [hu, ho, hb])

theorem knownAnswer_kept {s : State} {u : Nat} (pass : Bool) (hd : s.dev.dead = false) (hu : u < 4) (ho : s.dev.skimOn u = true)
    (hb : s.dev.nextBuilt = true) : Yields (exec (.knownAnswerTest u pass) s) (fun t =>
      tabGet false t.dev.skim.kat u = pass ∧ t.dev.on (SKM.U_STAT_KAT_FAIL u) = !pass ∧
      (pass = false → Claims.Beats s.dev (clusterDie u) → Claims.Held t.dev (clusterDie u) 70)) := by
  obtain ⟨hsafe, hraise, hrebuild⟩ := katFail_apart hu
  have hkat : tabGet false (katKept s.dev u pass).skim.kat u = pass := tabGet_set_same _ _ _ _
  have hflag : (katKept s.dev u pass).on (SKM.U_STAT_KAT_FAIL u) = !pass := Dev.on_flag_same _ _ _
  have hr := raise_raises (katKept s.dev u pass) (clusterDie u) 70
  refine run_body hd (knownAnswer_eq pass hu ho hb) ⟨?_, ?_, fun hpass hbeat => held_runOn ?_⟩
  · rw [runOn_skim, rebuildStatus_skim]
    split
    · exact hkat
    · rwa [hr.skim]
  · rw [runOn_on _ _ hsafe, Dev.on_fld (fld_rebuildStatus _ hrebuild)]
    split
    · exact hflag
    · rwa [hr.on hraise]
  · subst hpass
    have hbeat' : Claims.Beats (katKept s.dev u false) (clusterDie u) := beats_flag _ hsafe hbeat
    exact raise_holds (by decide) hbeat'

theorem epochOverrun_held {s : State} (hd : s.dev.dead = false) (ho : s.dev.skim.epochOpen = true) (hn : s.dev.on SKM.REBUILD_OVERRUN = false)
    (ht : s.dev.skim.swapAt + 2 * msCycles s.dev.tEff ≤ s.dev.now) (hf : s.dev.nextBuilt = false ∨ s.dev.katPassed = false) :
    Yields (exec .skmEpochOverrun s) (fun t => t.dev.on SKM.REBUILD_OVERRUN = true ∧ (Claims.Beats s.dev .c0 → Claims.Held t.dev .c0 72)) := by
  have hwait : (s.dev.nextBuilt && s.dev.katPassed) = false := by
    rcases hf with h | h <;> simp [h]
  have hr := raise_raises (s.dev.flag SKM.REBUILD_OVERRUN true) .c0 72
  refine run_body hd (e := (s.dev.flag SKM.REBUILD_OVERRUN true).raise .c0 72) (if_pos (by simp [ho, hn, ht, hwait])) ⟨?_, fun hb => held_runOn ?_⟩
  · rw [runOn_on _ _ (by decide), hr.on (by decide), Dev.on_flag_same]
  · exact raise_holds (by decide) (beats_flag true (by decide) hb)

theorem rekeyWrite_eq (d : Dev) (v : Nat) :
    d.rekeyWrite v = { d with skim := { d.skim with rekey := decide (v % 2 = 1) || d.skim.rekey }, resp := .done } := by
  unfold Dev.rekeyWrite
  by_cases h : v % 2 = 1 <;> simp [h, Dev.answer]

theorem rekey_remembered {s : State} (v : Nat) (hd : s.dev.dead = false) (hm : s.dev.memsys.writes = [])
    (hr : s.dev.reach .c0 = true ∨ s.dev.reach .c1 = true) : Yields (exec (.skmRekey v) s) (fun t =>
      t.dev.skim.rekey = (decide (v % 2 = 1) || s.dev.skim.rekey) ∧ t.dev.resp = .done ∧
      Frame [] (fun d => { d with resp := .idle, skim := { d.skim with rekey := false } }) s t) := by
  have hreach : (s.dev.reach .c0 || s.dev.reach .c1) = true := by simpa using hr
  refine run_body hd ((atC_reach hreach _).trans (rekeyWrite_eq s.dev v)) ⟨?_, by simp, ?_⟩
  · rw [runOn_skim]
  · exact runOn_frame (fun _ _ => rfl) hm (fun _ _ => rfl) rfl rfl

end Sys2Proof.Proofs.Scope
end

section
namespace Sys2Proof.Proofs.Scope

open Sys2Proof.Machine Sys2Proof.Laws

/-! Signal checks, windows and liveness (R110, R115, R141). -/

theorem sortBy_eq_nil {α : Type} (key : α → Nat) {l : List α} : sortBy key l = [] ↔ l = [] := by
  refine ⟨fun h => ?_, fun h => by rw [h]; rfl⟩
  rcases List.eq_nil_or_concat l with hl | ⟨l', x, rfl⟩
  · exact hl
  · have hins (x : α) (m : List α) : insertBy key x m ≠ [] := by
      cases m with
      | nil => exact List.cons_ne_nil _ _
      | cons y m =>
        unfold insertBy
        split <;> exact List.cons_ne_nil _ _
    rw [sortBy, List.concat_eq_append, List.foldl_append] at h
    exact absurd h (hins _ _)

/-- A failure recorded: the job is failed, and no more of it than the detail changes. -/
theorem fail_kept (j : Job) (x : Nat) : (j.fail x).failed = true ∧ (j.fail x).frame = j.frame ∧ (j.fail x).status = j.status ∧
    (j.fail x).checked = j.checked := by
  unfold Job.fail
  split
  · exact ⟨‹_›, rfl, rfl, rfl⟩
  · exact ⟨rfl, rfl, rfl, rfl⟩

theorem jobOf_openJob {d : Dev} {w k : Nat} {j : Job} (h : d.openJob w k = some j) :
    d.jobOf w k = some j ∧ j.posted = true ∧ j.final = false := by
  obtain ⟨hj, hp⟩ := Option.filter_eq_some_iff.mp h
  simp only [Bool.and_eq_true, Bool.not_eq_true'] at hp
  exact ⟨hj, hp.1.1, hp.1.2⟩

theorem frame_jobOf {d : Dev} {w k : Nat} {j : Job} (h : d.jobOf w k = some j) : j.frame = k := by
  simpa using List.find?_some h

/-- A job that takes the place of its frame's is the job of the frame. -/
theorem jobOf_putJob {d : Dev} {w k : Nat} {j : Job} (h : d.jobOf w k = some j) {i : Job} (hi : i.frame = k) :
    (d.putJob w i).jobOf w k = some i := by
  have hsame : ((fun x : Job => x.frame == k) ∘ fun x => if x.frame = i.frame then i else x) = fun x : Job => x.frame == k := by
    funext x
    dsimp only [Function.comp_apply]
    split
    · rw [‹x.frame = i.frame›]
    · rfl
  have hj := frame_jobOf h
  rw [Dev.jobOf, Dev.putJob, watchOf_putWatch_same, List.find?_map, hsame, ← Dev.jobOf, h]
  simp [hj, hi]

/-- The failures of an evaluation, first one first (R143). -/
def failOrder (d : Dev) (w : Nat) (fs : List (Nat × Nat × Nat)) : List (Nat × Nat × Nat) :=
  if d.wdKind w = 5 then sortBy (fun f => f.2.2) fs else sortBy failKey fs

theorem failOrder_eq_nil (d : Dev) (w : Nat) {fs : List (Nat × Nat × Nat)} : failOrder d w fs = [] ↔ fs = [] := by
  unfold failOrder
  split <;> exact sortBy_eq_nil _

/-- A job done, with its units and its first failure. -/
def doneJob (j : Job) (checked : Nat) (missing : Bool) : List (Nat × Nat × Nat) → Job
  | [] => { j with status := 2, checked := checked, incomplete := missing }
  | f :: _ => ({ j with status := 2, checked := checked, incomplete := missing } : Job).fail (sigDetail f)

theorem doneJob_spec (j : Job) (n : Nat) (missing : Bool) (fs : List (Nat × Nat × Nat)) : (doneJob j n missing fs).frame = j.frame ∧
    (doneJob j n missing fs).status = 2 ∧ (doneJob j n missing fs).checked = n ∧ (doneJob j n missing fs).failed = (j.failed || !(fs == [])) := by
  cases fs with
  | nil => exact ⟨rfl, rfl, rfl, (Bool.or_false _).symm⟩
  | cons f fs =>
    obtain ⟨hfailed, hframe, hstatus, hchecked⟩ := fail_kept { j with status := 2, checked := n, incomplete := missing } (sigDetail f)
    exact ⟨hframe, hstatus, hchecked, hfailed.trans (Bool.or_true _).symm⟩

/-- A check that is due gives the job its result. -/
theorem signalCheck_due {d : Dev} {w k : Nat} {j : Job} (hj : d.openJob w k = some j) (hs : j.status ≠ 2) (hlo : 2 ≤ d.wdKind w)
    (hhi : d.wdKind w ≤ 5) (hw : d.wdKind w = 5 ∨ (d.frameStart k + d.len) / 16 ≤ d.sig.blocks) :
    ∃ sig, d.signalCheck w k = ({ d with sig := sig } : Dev).putJob w
      (doneJob j (d.signalResult w k).2.1 (d.signalResult w k).2.2 (failOrder d w (d.signalResult w k).1)) := by
  have hgo : (decide (j.status = 2) || decide (d.wdKind w < 2) || decide (5 < d.wdKind w) ||
      (d.wdKind w != 5 && decide (d.sig.blocks < (d.frameStart k + d.len) / 16))) = false := by
    rcases hw with h | h <;> simp [hs, Nat.not_lt.mpr hlo, Nat.not_lt.mpr hhi, h]
  unfold Dev.signalCheck
  simp only [hj, hgo, Bool.false_eq_true, if_false]
  refine ⟨_, congrArg (Dev.putJob _ w) ?_⟩
  unfold failOrder
  cases (if d.wdKind w = 5 then sortBy (fun f => f.2.2) (d.signalResult w k).1 else sortBy failKey (d.signalResult w k).1) <;> rfl

theorem jobOf_runOn (s : State) (f : Mem → Dev → Dev) (w k : Nat) : (runOn s f).dev.jobOf w k = (f s.mem s.dev).jobOf w k := by
  simp only [Dev.jobOf, watchOf_runOn]

theorem signalCheck_finishes {s : State} {w k : Nat} {j : Job} (hd : s.dev.dead = false) (hc : s.dev.checks = true)
    (hj : s.dev.openJob w k = some j) (hs : j.status ≠ 2) (hlo : 2 ≤ s.dev.wdKind w) (hhi : s.dev.wdKind w ≤ 5)
    (hw : s.dev.wdKind w = 5 ∨ (s.dev.frameStart k + s.dev.len) / 16 ≤ s.dev.sig.blocks) :
    Yields (exec (.signalCheckResult w k) s) (fun t => ∃ i, t.dev.jobOf w k = some i ∧ i.status = 2 ∧
      i.checked = (s.dev.signalResult w k).2.1 ∧ i.failed = (j.failed || !((s.dev.signalResult w k).1 == []))) := by
  obtain ⟨hjob, -, -⟩ := jobOf_openJob hj
  obtain ⟨sig, hdue⟩ := signalCheck_due hj hs hlo hhi hw
  refine run_body hd ((if_pos hc).trans hdue) ?_
  generalize hr : s.dev.signalResult w k = r
  obtain ⟨hframe, hstatus, hchecked, hfailed⟩ := doneJob_spec j r.2.1 r.2.2 (failOrder s.dev w r.1)
  refine ⟨_, ?_, hstatus, hchecked, hfailed.trans ?_⟩
  · rw [jobOf_runOn]
    exact jobOf_putJob (d := { s.dev with sig := sig }) hjob (hframe.trans (frame_jobOf hjob))
  · rw [Bool.eq_iff_iff.mpr (by simp [failOrder_eq_nil] : (failOrder s.dev w r.1 == []) = true ↔ (r.1 == []) = true)]

/-- The next block of windows is evaluated, and not again. -/
theorem windowEvaluation_counts {s : State} (hd : s.dev.dead = false) (hc : s.dev.checks = true) (hr : s.dev.running = true) :
    Yields (exec (.windowEvaluation s.dev.sig.blocks) s) (fun t => t.dev.sig.blocks = s.dev.sig.blocks + 1) := by
  have hgo : (s.dev.running && decide (s.dev.sig.blocks = s.dev.sig.blocks)) = true := by simp [hr]
  exact run_body hd ((if_pos hc).trans (if_pos hgo)) (by rw [runOn_sig])

@[simp] theorem jobIn_putJobIn_same (d : Dev) (w k : Nat) (x : JobIn) : (d.putJobIn w k x).jobIn w k = x := tabGet_set_same ..

theorem livenessLimit_fails {s : State} {w k : Nat} (hd : s.dev.dead = false) (hc : s.dev.checks = true)
    (ho : (s.dev.openJob w k).isSome = true) (hk : s.dev.wdKind w = 8) (hp : s.dev.livePast w k = true) (ha : (s.dev.jobIn w k).arrivals = 0)
    (hf : (s.dev.jobIn w k).fail = none) : Yields (exec (.livenessLimit w k) s) (fun t => (t.dev.jobIn w k).fail = some (15, 0)) := by
  obtain ⟨j, hj⟩ := Option.isSome_iff_exists.mp ho
  obtain ⟨hjob, hposted, hfinal⟩ := jobOf_openJob hj
  have hlimit : s.dev.livenessLimit w k = s.dev.putJobIn w k { s.dev.jobIn w k with fail := some (15, 0) } :=
    if_pos (by simp [hjob, hposted, hfinal, hk, hp, ha, hf])
  refine run_body hd ((if_pos hc).trans hlimit) ?_
  rw [jobIn_runOn, jobIn_putJobIn_same]

end Sys2Proof.Proofs.Scope
end

section
namespace Sys2Proof.Proofs.Scope

open Sys2Proof.Machine Sys2Proof.Laws

/-! Stencils at their send point (R201, R204, R206). -/

theorem sendRecord_plan (d : Dev) (p kind vc watch frame slot fmt offset arg : Nat) (payload : List Byte) :
    (d.sendRecord p kind vc watch frame slot fmt offset arg payload).plan = d.plan := ite_leaves Dev.plan rfl rfl

theorem sendStencil_plan (d : Dev) (w k : Nat) : (d.sendStencil w k).plan = d.plan := by
  unfold Dev.sendStencil
  split
  · rfl
  · exact foldl_leaves Dev.plan _ (fun d i => sendRecord_plan ..) _ _

theorem frameReport_plan (d : Dev) (k : Nat) : (d.frameReport k).plan = d.plan := by
  have hevent (evs : List (Nat × Nat × Nat)) (low : Nat) (d : Dev) (n : Nat) : (Dev.verdictEvent k evs low d n).plan = d.plan := by
    unfold Dev.verdictEvent
    split
    · rfl
    · split
      · rfl
      · exact ite_leaves Dev.plan (event_raises _ _ _ _).plan rfl
  exact ite_leaves Dev.plan rfl (foldl_leaves Dev.plan _ (fun d n => hevent _ _ d n) _ _)

/-- The device once a stencil is put off to the next tick, and its job dropped. -/
def putOff (d : Dev) (w : Nat) (i : StnInst) : Dev :=
  let k := frameAdd d.frame 4294967295
  let x := d.watchOf w
  let d1 := (d.putWatch w { x with ring := x.ring.filter (fun y => y.frame != k) }).dropOps (.job w k)
  let d2 := (d1.closeStage (.job w k)).putJobIn w k .empty
  ((d2.putStn w (some ⟨frameAdd d.frame 1, i.count + 1, false, false⟩)).count TCK.STN_STAT_DEFERRED 1).frameReport k

theorem putOff_stnInst (d : Dev) (w : Nat) (i : StnInst) :
    (putOff d w i).stnInst w = some ⟨frameAdd d.frame 1, i.count + 1, false, false⟩ :=
  (stnInst_congr (frameReport_plan _ _) w).trans (stnInst_putStn_same ..)

theorem watchOf_put_instance (d : Dev) (w k v : Nat) (x : JobIn) (y : Option StnInst) (c : Fld) :
    (((d.putJobIn w k x).putStn w y).count c 1).watchOf v = d.watchOf v := rfl

theorem putOff_jobOf (d : Dev) (w : Nat) (i : StnInst) : (putOff d w i).jobOf w (frameAdd d.frame 4294967295) = none := by
  have hwatch : (putOff d w i).watchOf w =
      { d.watchOf w with ring := (d.watchOf w).ring.filter (fun y => y.frame != frameAdd d.frame 4294967295) } := by
    rw [putOff, watchOf_seen (seen_frameReport _ _), watchOf_put_instance, watchOf_seen (seen_closeStage _ _), watchOf_seen (seen_dropOps _ _),
      watchOf_putWatch_same]
  rw [Dev.jobOf, hwatch, List.find?_eq_none]
  intro j hj
  simpa using (List.mem_filter.mp hj).2

/-- A stencil that is due and not preceded is decided. -/
theorem stencilPoint_decides {d : Dev} {w : Nat} {i : StnInst} (hi : d.stnInst w = some i) (hd : d.sendDue w = true)
    (hw : d.stnWaits d.frame w = false) (ht : i.tick = d.frame) (hs : i.sent = false) : d.stencilPoint w =
      if i.forced || d.projectedOver (d.stnDemand d.frame w ++ [w]) d.plan.waste == [] then
        (d.putStn w (some { i with sent := true })).sendStencil w (frameAdd d.frame 4294967295)
      else putOff d w i := by
  have hgo : (i.tick != d.frame || i.sent || !d.sendDue w || d.stnWaits d.frame w) = false := by simp [ht, hs, hd, hw]
  unfold Dev.stencilPoint
  simp only [hi, hgo, Bool.false_eq_true, if_false]
  rfl

theorem stencil_sentOrDeferred {s : State} {w : Nat} {i : StnInst} (hdead : s.dev.dead = false) (hi : s.dev.stnInst w = some i)
    (hd : s.dev.sendDue w = true) (hw : s.dev.stnWaits s.dev.frame w = false) (ht : i.tick = s.dev.frame) (hs : i.sent = false) :
    ((i.forced || s.dev.projectedOver (s.dev.stnDemand s.dev.frame w ++ [w]) s.dev.plan.waste == []) = true →
      Yields (exec (.stencilSendPoint w) s) (fun t => t.dev.stnInst w = some { i with sent := true })) ∧
    ((i.forced || s.dev.projectedOver (s.dev.stnDemand s.dev.frame w ++ [w]) s.dev.plan.waste == []) = false →
      Yields (exec (.stencilSendPoint w) s) (fun t => t.dev.stnInst w = some ⟨frameAdd s.dev.frame 1, i.count + 1, false, false⟩ ∧
        t.dev.jobOf w (frameAdd s.dev.frame 4294967295) = none)) := by
  have hpoint := stencilPoint_decides hi hd hw ht hs
  refine ⟨fun hfits => run_body hdead (hpoint.trans (if_pos hfits)) ?_,
    fun hover => run_body hdead (hpoint.trans (if_neg (hover ▸ Bool.false_ne_true))) ⟨?_, ?_⟩⟩
  · rw [stnInst_runOn, stnInst_congr (sendStencil_plan _ _ _), stnInst_putStn_same]
  · rw [stnInst_runOn, putOff_stnInst]
  · rw [jobOf_runOn, putOff_jobOf]

/-! Stage windows (R207 to R209). -/

theorem windowOpen_opens {s : State} {w j : Nat} (hd : s.dev.dead = false) (hw : w < 256) (hdue : s.dev.winDue w j = true)
    (hopen : s.dev.openPast w j = true) (hclose : s.dev.closePast w j = false) (hnone : s.dev.winInst w = none) :
    Yields (exec (.stageWindowOpen w j) s) (fun t => t.dev.winInst w = some ⟨j, 0, 0, false⟩) := by
  have hgo : (decide (w < 256) && s.dev.winDue w j && s.dev.openPast w j && !s.dev.closePast w j) = true := by simp [hw, hdue, hopen, hclose]
  have hshut : s.dev.windowClose w = s.dev := by simp only [Dev.windowClose, hnone]
  have hbody : s.dev.windowOpen w j = s.dev.putWin w (some ⟨j, 0, 0, false⟩) := by
    simp only [Dev.windowOpen, hgo, hshut, hnone, if_true, Option.isNone_none]
  refine run_body hd hbody ?_
  rw [winInst_runOn, winInst_putWin_same]

/-- The window and the task that a write of SWD_CHECKIN names. -/
theorem checkin_operand {w task : Nat} (hw : w < 256) (ht : task < 32) :
    bitsAt (65536 * w + task) 23 16 = w ∧ (65536 * w + task) % 32 = task := by
  constructor
  · show (65536 * w + task) / 2 ^ 16 % 2 ^ 8 = w
    omega
  · omega

/-- A check-in is taken from the window's own source, and counted as of a wrong source otherwise. -/
theorem checkinWrite_eq {d : Dev} {mid w task : Nat} (hw : w < 256) (ht : task < 32) (hs : d.splitMaster mid = false)
    (ha : d.access mid .s = true) : d.checkinWrite mid (65536 * w + task) =
      (if d.fld (SWD.CFG_SRC w) = 0 ∧ d.fld (SWD.CFG_MID w) = mid then d.checkIn w task else d.count SWD.STAT_BADSRC 1).answer .done := by
  obtain ⟨hwindow, htask⟩ := checkin_operand hw ht
  simp only [Dev.checkinWrite, hwindow, htask, hs, ha, Bool.not_true, Bool.or_self, Bool.false_eq_true, if_false, Bool.and_eq_true,
    decide_eq_true_eq]

/-- A check-in that only counts. -/
theorem count_yields {s : State} {f : Mem → Dev → Dev} {c : Fld} (hd : s.dev.dead = false) (hm : s.dev.memsys.writes = [])
    (hf : f s.mem s.dev = (s.dev.count c 1).answer .done) : Yields (run s f) (fun t => t.dev.resp = .done ∧ RegsOnly [c.key] s t) := by
  refine run_body hd hf ⟨by simp, runOn_regsOnly hm (fun g hg => ?_) rfl⟩
  exact s.dev.fld_count_other 1 (by simpa using hg)

theorem checkIn_closed {d : Dev} {w : Nat} {x : WinInst} (task : Nat) (hx : d.winInst w = some x) (hc : d.closePast w x.frame = true) :
    d.checkIn w task = d.count SWD.STAT_STRAY 1 := by
  simp only [Dev.checkIn, hx, hc, if_true]

/-- A check-in of an open window, with no injection armed. -/
theorem checkIn_open {d : Dev} {w : Nat} {x : WinInst} (task : Nat) (hx : d.winInst w = some x) (hc : d.closePast w x.frame = false)
    (ha : d.on SWD.INJ_ARM = false) : d.checkIn w task = d.putWin w (some { x with
      done := Nat.lor x.done (2 ^ task),
      dup := if bit x.done task || !bit (d.fld (SWD.EXPECT_EXPECT w)) task then Nat.lor x.dup (2 ^ task) else x.dup }) := by
  have harmed (mode : Nat) : d.swdArmed w task mode = false := by simp only [Dev.swdArmed, ha, Bool.false_and]
  simp only [Dev.checkIn, hx, hc, harmed, Bool.false_and, Bool.or_false, Bool.false_eq_true, if_false]

theorem checkin_answers {s : State} {mid w task : Nat} (hd : s.dev.dead = false) (hm : s.dev.memsys.writes = []) (hw : w < 256)
    (hs : s.dev.splitMaster mid = false) (ha : s.dev.access mid .s = true) (ht : task < 32) :
    (s.dev.fld (SWD.CFG_SRC w) = 0 → s.dev.fld (SWD.CFG_MID w) = mid → s.dev.on SWD.INJ_ARM = false → ∀ x, s.dev.winInst w = some x →
      (s.dev.closePast w x.frame = true → Yields (exec (.swdCheckin mid (65536 * w + task)) s) (fun t =>
        t.dev.resp = .done ∧ RegsOnly [SWD.STAT_STRAY.key] s t)) ∧
      (s.dev.closePast w x.frame = false → Yields (exec (.swdCheckin mid (65536 * w + task)) s) (fun t =>
        t.dev.winInst w = some { x with
          done := Nat.lor x.done (2 ^ task),
          dup := if bit x.done task || !bit (s.dev.fld (SWD.EXPECT_EXPECT w)) task then Nat.lor x.dup (2 ^ task) else x.dup } ∧
        t.dev.resp = .done))) ∧
    (s.dev.fld (SWD.CFG_SRC w) ≠ 0 ∨ s.dev.fld (SWD.CFG_MID w) ≠ mid → Yields (exec (.swdCheckin mid (65536 * w + task)) s) (fun t =>
      t.dev.resp = .done ∧ RegsOnly [SWD.STAT_BADSRC.key] s t)) := by
  have hwrite := checkinWrite_eq hw ht hs ha
  refine ⟨fun hsrc hmid harm x hx => ⟨fun hc => ?_, fun hc => ?_⟩, fun hother => ?_⟩
  · rw [if_pos ⟨hsrc, hmid⟩, checkIn_closed task hx hc] at hwrite
    exact count_yields hd hm hwrite
  · rw [if_pos ⟨hsrc, hmid⟩, checkIn_open task hx hc harm] at hwrite
    refine run_body hd hwrite ⟨?_, by simp⟩
    rw [winInst_runOn, winInst_answer, winInst_putWin_same]
  · rw [if_neg (not_and_or.mpr hother)] at hwrite
    exact count_yields hd hm hwrite

/-- The registers of the windows lie apart from those of the safe state and of the sources. -/
theorem windowRegs_apart : ∀ k ∈ safeKeys ++ raiseKeys, k < 32 * SWD.CFG 0 ∨ 32 * SWD.CFG 256 ≤ k := by decide

theorem lastMiss_apart {w : Nat} (hw : w < 256) : (SWD.LAST_MISS_MISSING w).key ∉ safeKeys ∧ (SWD.LAST_MISS_MISSING w).key ∉ raiseKeys ∧
    (SWD.LAST_MISS_MISSING w).key ≠ (SWD.LAST_DUP_DUPLICATE w).key := by
  have hkey : (SWD.LAST_MISS_MISSING w).key = 32 * (0x01021014 + 32 * w) := rfl
  have hdup : (SWD.LAST_DUP_DUPLICATE w).key = 32 * (0x01021018 + 32 * w) := rfl
  have hin (h : (SWD.LAST_MISS_MISSING w).key ∈ safeKeys ++ raiseKeys) : False := by
    have hout := windowRegs_apart _ h
    simp only [SWD.CFG] at hout
    omega
  exact ⟨fun h => hin (List.mem_append_left _ h), fun h => hin (List.mem_append_right _ h), by omega⟩

/-- Every window has its source (Table 13.1). -/
theorem windowSource_exists {w : Nat} (hw : w < 256) : srcExists (96 + w) = true := by
  have hrange : (⟨96, 351, 2, 0⟩ : SrcRange) ∈ srcRanges1 := by decide
  rw [srcExists, srcInfo, if_pos (by omega), List.find?_isSome]
  refine ⟨_, hrange, ?_⟩
  simp only [Bool.and_eq_true, decide_eq_true_eq]
  omega

theorem winInst_logRec (d : Dev) (r : List Nat) (w : Nat) : (d.logRec .event r).winInst w = d.winInst w := by
  have hput : (d.logPut .event r).1.winInst w = d.winInst w := by
    unfold Dev.logPut
    split <;> rfl
  exact ite_leaves (fun e => e.winInst w) ((winInst_congr (raise_raises _ _ _).plan w).trans hput) hput

/-- The device once a window has closed with tasks missing or checked in twice, before its source is set (R209). -/
def closedFaulty (d : Dev) (w missing : Nat) (x : WinInst) : Dev :=
  ((((d.putWin w none).logRec .event [x.frame, w + 256 * b2n x.injected, missing, x.dup]).put (SWD.LAST_F_FRAME_NO w) x.frame).put
    (SWD.LAST_MISS_MISSING w) missing).put (SWD.LAST_DUP_DUPLICATE w) x.dup

theorem closedFaulty_winInst (d : Dev) (w missing : Nat) (x : WinInst) : (closedFaulty d w missing x).winInst w = none :=
  (winInst_logRec _ _ w).trans (winInst_putWin_same ..)

theorem closedFaulty_missing (d : Dev) {w : Nat} (hw : w < 256) (missing : Nat) (x : WinInst) :
    (closedFaulty d w missing x).fld (SWD.LAST_MISS_MISSING w) = missing % 2 ^ 32 :=
  (Dev.fld_put_other _ _ (lastMiss_apart hw).2.2).trans (Dev.fld_put_same _ _ _)

theorem windowClose_due {d : Dev} {w : Nat} {x : WinInst} {missing : Nat} (hx : d.winInst w = some x) (hc : d.closePast w x.frame = true)
    (hi : x.injected = false) (hmissing : missing = d.fld (SWD.EXPECT_EXPECT w) - Nat.land (d.fld (SWD.EXPECT_EXPECT w)) x.done) :
    d.windowClose w = if missing = 0 ∧ x.dup = 0 then (d.putWin w none).cause (96 + w) false
      else (closedFaulty d w missing x).raiseCause .s (96 + w) := by
  subst hmissing
  simp only [Dev.windowClose, hx, hc, hi, Bool.not_true, Bool.false_eq_true, if_false, closedFaulty, Bool.and_eq_true, decide_eq_true_eq]

theorem windowClose_closes {s : State} {w : Nat} {x : WinInst} {missing : Nat} (hd : s.dev.dead = false) (hw : w < 256)
    (hx : s.dev.winInst w = some x) (hc : s.dev.closePast w x.frame = true) (hi : x.injected = false)
    (hmissing : missing = s.dev.fld (SWD.EXPECT_EXPECT w) - Nat.land (s.dev.fld (SWD.EXPECT_EXPECT w)) x.done) :
    Yields (exec (.stageWindowClose w) s) (fun t =>
      t.dev.winInst w = none ∧ (missing = 0 ∧ x.dup = 0 → tabGet false t.dev.snag.cause (96 + w) = false) ∧
      (missing ≠ 0 ∨ x.dup ≠ 0 → t.dev.isSet (96 + w) = true ∧ tabGet false t.dev.snag.cause (96 + w) = true ∧
        t.dev.fld (SWD.LAST_MISS_MISSING w) = missing % 2 ^ 32)) := by
  have hclose := windowClose_due hx hc hi hmissing
  obtain ⟨hsafe, hraise, -⟩ := lastMiss_apart hw
  by_cases hsound : missing = 0 ∧ x.dup = 0
  · rw [if_pos hsound] at hclose
    refine run_body hd hclose ⟨?_, fun _ => ?_, fun h => absurd hsound (not_and_or.mpr h)⟩
    · rw [winInst_runOn, winInst_cause, winInst_putWin_same]
    · rw [runOn_snag_cause, cause_same]
  · rw [if_neg hsound] at hclose
    have hr := raise_raises (closedFaulty s.dev w missing x) .s (96 + w)
    refine run_body hd hclose ⟨?_, fun h => absurd h hsound, fun _ => ⟨?_, ?_, ?_⟩⟩
    · rw [winInst_runOn, Dev.raiseCause, winInst_cause, winInst_congr hr.plan, closedFaulty_winInst]
    · rw [isSet_runOn, Dev.raiseCause, isSet_cause, raise_s_set _ (windowSource_exists hw)]
    · rw [runOn_snag_cause, Dev.raiseCause, cause_same]
    · rw [runOn_fld _ _ hsafe, Dev.raiseCause, Dev.fld_cause, hr.regs _ hraise, closedFaulty_missing _ hw]

/-- Settles O26: each command comes to the case of its operation that the clause names, and the rest of the operation keeps what it claims. -/
theorem checksStencilsAndWindowsAdvance : Obligations.ChecksStencilsAndWindowsAdvance := by
  intro s hd hm
  refine ⟨fun p vc r hp hreach hr hgo reads => ?_, fun u pass hu ho hb => knownAnswer_kept pass hd hu ho hb,
    fun ho hn ht hf => epochOverrun_held hd ho hn ht hf, fun v hreach => rekey_remembered v hd hm hreach,
    fun hc => ⟨fun w k j hj hs hlo hhi hw => signalCheck_finishes hd hc hj hs hlo hhi hw, fun hrun => windowEvaluation_counts hd hc hrun,
      fun w k ho hk hp ha hf => livenessLimit_fails hd hc ho hk hp ha hf⟩,
    fun w i hi hdue hwait ht hs others ho => ?_,
    fun w hw => ⟨fun j hdue hopen hclose hnone => windowOpen_opens hd hw hdue hopen hclose hnone,
      fun mid task hs ha ht => checkin_answers hd hm hw hs ha ht,
      fun x hx hc hi missing hmissing => windowClose_closes hd hw hx hc hi hmissing⟩⟩
  · exact skimRecord_processed hd hp hreach hr hgo reads
  · subst ho
    exact stencil_sentOrDeferred hd hi hdue hwait ht hs

end Sys2Proof.Proofs.Scope
end

section
/-!
PROOF. What the work around an operation of the array leaves alone (R159, R169, R192 to R197, R208): restarting what an aborted operation worked
for, and closing the stage of one that is complete, change counters and the records of jobs, tables and windows; they start no operation, set
STAT.SUSPENDED never, write no tensor, and clear no source.
-/

namespace Sys2Proof.Proofs.Scope

open Sys2Proof.Machine Sys2Proof.Laws

/-- The fields with a key outside `K`, the sources in force, the tensors, and an idle sequencer with nothing suspended are as before. -/
structure Keeps (K : List Nat) (d e : Dev) : Prop where
  regs : ∀ f : Fld, f.key ∉ K → e.fld f = d.fld f
  set : ∀ n, d.isSet n = true → e.isSet n = true
  held : ∀ k, tabGet false d.snag.held k = true → tabGet false e.snag.held k = true
  idle : d.arr.running = none → e.arr.running = none
  unsuspended : d.on MTX.STAT_SUSPENDED = false → e.on MTX.STAT_SUSPENDED = false
  tensors : e.arr.tensors = d.arr.tensors

variable {K L : List Nat} {d e : Dev}

theorem Keeps.same (hr : e.regs = d.regs) (hs : e.snag = d.snag) (hi : d.arr.running = none → e.arr.running = none)
    (ht : e.arr.tensors = d.arr.tensors) : Keeps K d e :=
  ⟨fun f _ => Dev.fld_regs hr f, fun n hn => by rw [Dev.isSet, hs]; exact hn, fun k hk => by rw [hs]; exact hk, hi,
    fun h => (Dev.on_fld (Dev.fld_regs hr _)).trans h, ht⟩

theorem Keeps.refl (d : Dev) : Keeps K d d := .same rfl rfl (fun h => h) rfl

theorem Keeps.trans {a b c : Dev} (h : Keeps K a b) (k : Keeps K b c) : Keeps K a c :=
  ⟨fun f hf => (k.regs f hf).trans (h.regs f hf), fun n hn => k.set n (h.set n hn), fun n hn => k.held n (h.held n hn),
    fun hi => k.idle (h.idle hi), fun hu => k.unsuspended (h.unsuspended hu), k.tensors.trans h.tensors⟩

theorem Keeps.mono (h : Keeps K d e) (hl : K ⊆ L) : Keeps L d e :=
  ⟨fun f hf => h.regs f (fun hk => hf (hl hk)), h.set, h.held, h.idle, h.unsuspended, h.tensors⟩

theorem Keeps.on (h : Keeps K d e) {f : Fld} (hf : f.key ∉ K) : e.on f = d.on f := Dev.on_fld (h.regs f hf)

theorem Keeps.ite {e₁ e₂ : Dev} {c : Prop} [Decidable c] (h₁ : Keeps K d e₁) (h₂ : Keeps K d e₂) : Keeps K d (if c then e₁ else e₂) := by
  split
  · exact h₁
  · exact h₂

theorem Keeps.foldl {α : Type} (g : Dev → α → Dev) (hg : ∀ d a, Keeps K d (g d a)) (l : List α) : ∀ d, Keeps K d (l.foldl g d) := by
  induction l with
  | nil => exact Keeps.refl
  | cons a l ih => exact fun d => (hg d a).trans (ih _)

/-- A field of `K` but STAT.SUSPENDED may take any value. -/
theorem Keeps.put (h : Keeps K d e) (f : Fld) (v : Nat) (hf : f.key ∈ K) (hs : MTX.STAT_SUSPENDED.key ≠ f.key) : Keeps K d (e.put f v) :=
  h.trans ⟨fun _ hg => e.fld_put_other v (fun hk => hg (hk ▸ hf)), fun _ h => h, fun _ h => h, fun h => h,
    fun hu => (e.on_put_other v hs).trans hu, rfl⟩

theorem Keeps.raise (h : Keeps K d e) (y : Die) (n : Nat) (hk : raiseKeys ⊆ K) : Keeps K d (e.raise y n) :=
  have hr := raise_raises e y n
  h.trans ⟨fun f hf => hr.regs f (fun hm => hf (hk hm)), hr.set, hr.held, fun hi => (congrArg Arr.running hr.arr).trans hi,
    fun hu => (hr.on (by decide)).trans hu, congrArg Arr.tensors hr.arr⟩

theorem Keeps.holds (h : Keeps K d e) {y : Die} {n : Nat} (hd : Claims.Held d y n) : Claims.Held e y n := by
  cases y
  case s => exact h.set n hd
  all_goals exact h.held _ hd

/-- Keys of the fields that restarting an owner, or closing its stage, may change. -/
abbrev ownerKeys : List Nat :=
  raiseKeys ++ rebuildKeys ++ [TCK.WASTE_CLK.key, TCK.RESTART_RESTARTS.key, MTX.STAT_SUSPENDED.key, SWD.STAT_STRAY.key, WCH.SIG_INJ_ARM.key] ++
    (List.range 4).flatMap (fun u => [(SKM.U_INJ_ARM u).key, (SKM.U_FAILS_FAILS u).key])

theorem unit_keys {u : Nat} (h : u < 4) : ((SKM.U_INJ_ARM u).key ∈ ownerKeys ∧ MTX.STAT_SUSPENDED.key ≠ (SKM.U_INJ_ARM u).key) ∧
    (SKM.U_FAILS_FAILS u).key ∈ ownerKeys ∧ MTX.STAT_SUSPENDED.key ≠ (SKM.U_FAILS_FAILS u).key := by
  interval_cases u <;> decide

theorem wdPort_lt (d : Dev) (w : Nat) : d.wdPort w < 4 := Nat.mod_lt _ (by norm_num)

/-! What a fault of the owner leaves alone. -/

theorem keeps_spend (d : Dev) (o : OpOwner) (clk : Nat) : Keeps K d (d.spend o clk) := by
  cases o
  all_goals exact .same rfl rfl (fun h => h) rfl

theorem keeps_charge (d : Dev) (q : ArrQueue) (o : ArrOp) (clk : Nat) : Keeps K d (d.charge q o clk) := by
  have hqueue : ∀ d1 : Dev, Keeps K d d1 → Keeps K d (if !o.aborted then d1.spend o.owner clk
      else match o.owner with
        | .build _ => d1
        | .selfTest _ => d1
        | _ => { d1 with plan := { d1.plan with waste := d1.plan.waste + clk } }) := by
    intro d1 h
    refine .ite (h.trans (keeps_spend d1 _ _)) ?_
    split
    · exact h
    · exact h
    · exact h.trans (.same rfl rfl (fun h => h) rfl)
  cases q
  all_goals exact hqueue _ (.same rfl rfl (fun h => h) rfl)

theorem keeps_chargeRunning (d : Dev) : Keeps K d d.chargeRunning := by
  unfold Dev.chargeRunning
  split
  · exact .refl d
  next q o hr =>
    have h := keeps_charge (K := K) d q o (d.uncharged o)
    exact ⟨h.regs, h.set, h.held, fun hn => absurd (hr.symm.trans hn) (by simp), h.unsuspended, h.tensors⟩

theorem keeps_wasteAttempt (d : Dev) (o : OpOwner) : Keeps ownerKeys d (d.wasteAttempt o) := by
  unfold Dev.wasteAttempt
  refine Keeps.put ?_ TCK.WASTE_CLK _ (by decide) (by decide)
  exact (keeps_chargeRunning d).trans (.same rfl rfl (fun h => h) rfl)

theorem Keeps.resting (h : Keeps ownerKeys d e) : Keeps ownerKeys d (e.flag MTX.STAT_SUSPENDED false) :=
  h.trans ⟨fun f hf => Dev.fld_flag_other e false (fun hk => hf (hk ▸ by decide)), fun _ h => h, fun _ h => h, fun h => h,
    fun _ => Dev.on_flag_same _ _ _, rfl⟩

theorem keeps_dropOps (d : Dev) (o : OpOwner) : Keeps ownerKeys d (d.dropOps o) := by
  have hrun : d.arr.running = none → d.arr.running.map (fun r => if r.2.owner = o then (r.1, { r.2 with aborted := true }) else r) = none :=
    fun h => by rw [h]; rfl
  unfold Dev.dropOps
  exact .ite (Keeps.resting (.same rfl rfl hrun rfl)) (.same rfl rfl hrun rfl)

theorem keeps_dropStageDma (d : Dev) (o : OpOwner) : Keeps K d (d.dropStageDma o) :=
  .ite (.same rfl rfl (fun h => h) rfl) (.same rfl rfl (fun h => h) rfl)

theorem keeps_abandon (d : Dev) (o : OpOwner) : Keeps ownerKeys d (((d.wasteAttempt o).dropOps o).dropStageDma o) :=
  ((keeps_wasteAttempt d o).trans (keeps_dropOps _ o)).trans (keeps_dropStageDma _ o)

theorem keeps_putJob (d : Dev) (w : Nat) (j : Job) : Keeps K d (d.putJob w j) := .same rfl rfl (fun h => h) rfl

theorem keeps_decideUnit (d : Dev) (w : Nat) (x : TableSet) (recs : List Rec) (k c : Nat) : Keeps ownerKeys d (d.decideUnit w x recs k c) := by
  obtain ⟨⟨harm, harm'⟩, hfails, hfails'⟩ := unit_keys (wdPort_lt d w)
  have hcounted (e : Dev) (h : Keeps ownerKeys d e) (y : Skim) (p : Prop) [Decidable p] (j : Job) :
      Keeps ownerKeys d ((if p then ({ e with skim := y } : Dev).count (SKM.U_FAILS_FAILS (d.wdPort w)) 1 else { e with skim := y }).putJob w j) := by
    have hchecked : Keeps ownerKeys d { e with skim := y } := h.trans (.same rfl rfl (fun h => h) rfl)
    exact (Keeps.ite (hchecked.put _ _ hfails hfails') hchecked).trans (keeps_putJob _ _ _)
  unfold Dev.decideUnit
  split
  · exact .refl d
  · exact hcounted _ (.ite ((Keeps.refl d).put _ _ harm harm') (.refl d)) _ _ _

theorem keeps_linAdvance (d : Dev) (w k : Nat) : Keeps ownerKeys d (d.linAdvance w k) := by
  have hdecided (c : Prop) [Decidable c] (l : List Nat) (x : TableSet) (recs : List Rec) :
      Keeps ownerKeys d (if c then l.foldl (fun d u => d.decideUnit w x recs k u) d else d) :=
    .ite (.foldl _ (fun d u => keeps_decideUnit d w x recs k u) l d) (.refl d)
  unfold Dev.linAdvance
  split
  · exact .refl d
  · dsimp only
    split
    · exact hdecided _ _ _ _
    · exact .ite ((hdecided _ _ _ _).trans (keeps_putJob _ _ _))
        (.ite ((hdecided _ _ _ _).trans (keeps_putJob _ _ _)) (hdecided _ _ _ _))

theorem keeps_stnAdvance (d : Dev) (w k : Nat) : Keeps K d (d.stnAdvance w k) := by
  unfold Dev.stnAdvance
  split
  · exact .refl d
  · exact .ite (.refl d) (.same rfl rfl (fun h => h) rfl)

theorem keeps_afterRecord (d : Dev) (w k : Nat) : Keeps ownerKeys d (d.afterRecord w k) := by
  unfold Dev.afterRecord
  split
  · exact keeps_linAdvance d w k
  · exact .ite (.refl d) (keeps_stnAdvance d w k)
  · exact .refl d

theorem keeps_jobFault (d : Dev) (w k : Nat) : Keeps ownerKeys d (d.jobFault w k) := by
  unfold Dev.jobFault
  refine Keeps.trans ?_ (keeps_afterRecord _ w k)
  show Keeps ownerKeys d (match d.openJob w k with
    | none => d
    | some j => _)
  split
  · exact .refl d
  · refine .ite (.refl d) ?_
    have h := keeps_abandon d (.job w k)
    refine .ite ?_ (h.trans (keeps_putJob _ _ _))
    exact ((h.trans (keeps_putJob _ _ _)).put TCK.RESTART_RESTARTS _ (by decide) (by decide)).trans (.same rfl rfl (fun h => h) rfl)

theorem keeps_startBuild (d : Dev) (w : Nat) (cur : Bool) : Keeps K d (d.startBuild w cur) := by
  unfold Dev.startBuild
  cases cur
  all_goals exact .ite (.same rfl rfl (fun h => h) rfl) (.same rfl rfl (fun h => h) rfl)

theorem keeps_rebuildStatus (d : Dev) : Keeps ownerKeys d d.rebuildStatus :=
  (((Keeps.refl d).put _ _ (by decide) (by decide)).put _ _ (by decide) (by decide)).put _ _ (by decide) (by decide)

theorem keeps_startBuilds (d : Dev) : Keeps ownerKeys d d.startBuilds := by
  refine Keeps.trans (.ite (.refl d) ?_) (keeps_rebuildStatus _)
  refine Keeps.trans ?_ (.foldl _ (fun e w => .ite (keeps_startBuild e w false) (.refl e)) _ _)
  exact .foldl _ (fun e w => .ite (keeps_startBuild e w true) (.refl e)) _ _

theorem keeps_putBuilt (d : Dev) (w : Nat) (cur : Bool) (x : TableSet) : Keeps K d (d.putBuilt w cur x) := by
  cases cur
  all_goals exact .same rfl rfl (fun h => h) rfl

theorem keeps_buildFault (d : Dev) (w : Nat) : Keeps ownerKeys d (d.buildFault w) := by
  unfold Dev.buildFault
  split
  · exact .refl d
  · have h := keeps_dropOps d (.build w)
    exact .ite ((h.trans (keeps_putBuilt _ _ _ _)).trans (keeps_startBuilds _))
      ((h.trans (keeps_putBuilt _ _ _ _)).trans (.same rfl rfl (fun h => h) rfl))

theorem keeps_closeStage (d : Dev) (o : OpOwner) : Keeps K d (d.closeStage o) :=
  (keeps_dropStageDma d o).trans (.same rfl rfl (fun h => h) rfl)

/-- Restarting what an aborted operation worked for. -/
theorem keeps_ownerFault (d : Dev) (o : OpOwner) : Keeps ownerKeys d (d.ownerFault o) := by
  cases o with
  | job w k => exact keeps_jobFault d w k
  | build w => exact keeps_buildFault d w
  | selfTest seg => exact keeps_dropOps d _
  | fallback slot k =>
    have h := keeps_abandon d (.fallback slot k)
    exact .ite (h.trans (.same rfl rfl (fun h => h) rfl)) (h.trans (keeps_closeStage _ _))

end Sys2Proof.Proofs.Scope
end

section
/-!
PROOF. What errors that reads of memory show leave alone (R224 to R228, R243, R244): they count, are held and raised, and have a page scheduled for
retirement; nothing is stored.
-/

namespace Sys2Proof.Proofs.Scope

open Sys2Proof.Machine Sys2Proof.Laws

/-- Keys of the fields that an error which a read shows may change. -/
abbrev readKeys : List Nat :=
  raiseKeys ++ errorKeys ++ [MEM.DRAM_CE_CE.key, MEM.DRAM_UE_UE.key, MEM.INJ_ARM.key] ++
    (List.range 64).flatMap (fun n => [(MEM.RETIRE_PAGE_VALID n).key, (MEM.RETIRE_PAGE_CAUSE n).key, (MEM.RETIRE_PAGE_PPN n).key])

/-- The device without what an error of a read may change. -/
def unread (d : Dev) : Dev :=
  let b := bare d
  { b with memsys := { b.memsys with rows := [], retires := [], retired := 0, injected := none } }

/-- An update that an error of a read may make. -/
structure Reads (d e : Dev) : Prop where
  regs : ∀ f : Fld, f.key ∉ readKeys → e.fld f = d.fld f
  unread : unread e = unread d
  set : ∀ n, d.isSet n = true → e.isSet n = true
  held : ∀ k, tabGet false d.snag.held k = true → tabGet false e.snag.held k = true
  unarmed : d.on MEM.INJ_ARM = false → e.on MEM.INJ_ARM = false

variable {d e : Dev}

theorem Reads.refl (d : Dev) : Reads d d := ⟨fun _ _ => rfl, rfl, fun _ h => h, fun _ h => h, fun h => h⟩

theorem Reads.trans {a b c : Dev} (h : Reads a b) (k : Reads b c) : Reads a c :=
  ⟨fun f hf => (k.regs f hf).trans (h.regs f hf), k.unread.trans h.unread, fun n hn => k.set n (h.set n hn), fun n hn => k.held n (h.held n hn),
    fun hu => k.unarmed (h.unarmed hu)⟩

theorem Reads.ite {e₁ e₂ : Dev} {c : Prop} [Decidable c] (h₁ : Reads d e₁) (h₂ : Reads d e₂) : Reads d (if c then e₁ else e₂) := by
  split
  · exact h₁
  · exact h₂

theorem Reads.foldl {α : Type} (g : Dev → α → Dev) (hg : ∀ d a, Reads d (g d a)) (l : List α) : ∀ d, Reads d (l.foldl g d) := by
  induction l with
  | nil => exact Reads.refl
  | cons a l ih => exact fun d => (hg d a).trans (ih _)

theorem Reads.put (h : Reads d e) (f : Fld) (v : Nat) (hf : f.key ∈ readKeys) (hi : MEM.INJ_ARM.key ≠ f.key) : Reads d (e.put f v) :=
  h.trans ⟨fun _ hg => e.fld_put_other v (fun hk => hg (hk ▸ hf)), rfl, fun _ h => h, fun _ h => h, fun hu => (e.on_put_other v hi).trans hu⟩

theorem Reads.raise (h : Reads d e) (y : Die) (n : Nat) : Reads d (e.raise y n) :=
  have hr := raise_raises e y n
  have hb : Sys2Proof.Proofs.Scope.unread (e.raise y n) = Sys2Proof.Proofs.Scope.unread e := by simp only [Scope.unread, hr.bare]
  h.trans ⟨fun f hf => hr.regs f (fun hm => hf (by simp only [readKeys, List.append_assoc]; exact List.mem_append_left _ hm)), hb,
    hr.set, hr.held, fun hu => (hr.on (by decide)).trans hu⟩

/-- The rows, and the pages that await retirement. -/
theorem Reads.rows (h : Reads d e) (rows : Tab Nat) (retires : List Retire) (retired : Nat) :
    Reads d { e with memsys := { e.memsys with rows := rows, retires := retires, retired := retired } } :=
  h.trans ⟨fun _ _ => rfl, rfl, fun _ h => h, fun _ h => h, fun h => h⟩

theorem Reads.arr (h : Reads d e) : e.arr = d.arr := by have := congrArg (fun x : Dev => x.arr) h.unread; exact this
theorem Reads.watch (h : Reads d e) : e.watch = d.watch := by have := congrArg (fun x : Dev => x.watch) h.unread; exact this
theorem Reads.skim (h : Reads d e) : e.skim = d.skim := by have := congrArg (fun x : Dev => x.skim) h.unread; exact this
theorem Reads.now (h : Reads d e) : e.now = d.now := by have := congrArg (fun x : Dev => x.now) h.unread; exact this
theorem Reads.rings (h : Reads d e) : e.memsys.rings = d.memsys.rings := by have := congrArg (fun x : Dev => x.memsys.rings) h.unread; exact this
theorem Reads.writes (h : Reads d e) : e.memsys.writes = d.memsys.writes := by have := congrArg (fun x : Dev => x.memsys.writes) h.unread; exact this

theorem Reads.on (h : Reads d e) {f : Fld} (hf : f.key ∉ readKeys) : e.on f = d.on f := Dev.on_fld (h.regs f hf)

/-- The fields of an entry of the log of retired pages are among those of a read's errors. -/
theorem retirePage_keys {n : Nat} (h : n < 64) :
    ((MEM.RETIRE_PAGE_VALID n).key ∈ readKeys ∧ (MEM.RETIRE_PAGE_CAUSE n).key ∈ readKeys ∧ (MEM.RETIRE_PAGE_PPN n).key ∈ readKeys) ∧
    MEM.INJ_ARM.key ≠ (MEM.RETIRE_PAGE_VALID n).key ∧ MEM.INJ_ARM.key ≠ (MEM.RETIRE_PAGE_CAUSE n).key ∧
    MEM.INJ_ARM.key ≠ (MEM.RETIRE_PAGE_PPN n).key := by
  refine ⟨?_, ?_⟩
  · have hm : ∀ k ∈ [(MEM.RETIRE_PAGE_VALID n).key, (MEM.RETIRE_PAGE_CAUSE n).key, (MEM.RETIRE_PAGE_PPN n).key], k ∈ readKeys := fun k hk =>
      List.mem_append_right _ (List.mem_flatMap.mpr ⟨n, List.mem_range.mpr h, hk⟩)
    exact ⟨hm _ (by simp), hm _ (by simp), hm _ (by simp)⟩
  · simp only [Fld.key, MEM.INJ_ARM, MEM.RETIRE_PAGE_VALID, MEM.RETIRE_PAGE_CAUSE, MEM.RETIRE_PAGE_PPN, MEM.INJ, MEM.RETIRE_PAGE]
    omega

theorem reads_schedulePage (d : Dev) (page cause : Nat) : Reads d (d.schedulePage page cause) := by
  unfold Dev.schedulePage
  refine .ite (.refl d) ?_
  have h := (Reads.refl d).rows d.memsys.rows (d.memsys.retires ++ [⟨page, cause, d.memsys.retired, false, 0⟩]) (d.memsys.retired + 1)
  dsimp only
  split
  next hn =>
    obtain ⟨⟨hv, hc, hp⟩, hv', hc', hp'⟩ := retirePage_keys hn
    exact ((h.put _ _ hv hv').put _ _ hc hc').put _ _ hp hp'
  · exact h

theorem reads_rowError (d : Dev) (a : Nat) : Reads d (d.rowError a) := by
  have h := fun t => (Reads.refl d).rows t d.memsys.retires d.memsys.retired
  exact .ite ((h _).trans (reads_schedulePage _ _ _)) (h _)

theorem Reads.ueInfo (h : Reads d e) (memory unit mid a : Nat) : Reads d (e.ueInfo memory unit mid a) := by
  have hput (x : Dev) (f : Fld) (v : Nat) (hf : f.key ∈ errorKeys) : Reads x (x.put f v) :=
    (Reads.refl x).put f v (by simp only [readKeys, List.mem_append, hf, or_true, true_or]) (fun hk => absurd (hk ▸ hf) (by decide))
  unfold Dev.ueInfo
  refine .ite h (h.trans ?_)
  refine (((((hput _ _ _ ?_).trans (hput _ _ _ ?_)).trans (hput _ _ _ ?_)).trans (hput _ _ _ ?_)).trans (hput _ _ _ ?_)).trans (hput _ _ _ ?_)
  all_goals decide

/-- A corrected read. -/
theorem reads_correctedRead (d : Dev) (a : Nat) : Reads d (d.correctedRead a) := by
  unfold Dev.correctedRead
  exact .ite ((((Reads.refl d).put MEM.DRAM_CE_CE _ (by decide) (by decide)).raise .x 82).trans (reads_rowError _ a))
    (((Reads.refl d).put MEM.SRAM_CNT_CE _ (by decide) (by decide)).raise _ 80)

/-- An uncorrectable read. -/
theorem reads_badRead (mid : Nat) (d : Dev) (a : Nat) : Reads d (Dev.badRead mid d a) := by
  unfold Dev.badRead
  refine .ite ?_ ?_
  · exact ((((Reads.refl d).put MEM.DRAM_UE_UE _ (by decide) (by decide)).ueInfo 6 0 mid a).raise .x 83).trans (reads_schedulePage _ _ _)
  · exact (((Reads.refl d).put MEM.SRAM_CNT_UE _ (by decide) (by decide)).ueInfo _ _ _ _).raise _ 81

theorem reads_memInjSeen (d : Dev) : Reads d d.memInjSeen := by
  refine ⟨fun f hf => Dev.fld_flag_other d (f := MEM.INJ_ARM) false (fun hk => hf (hk ▸ ?_)), rfl, fun _ h => h, fun _ h => h, fun _ => ?_⟩
  · decide
  · exact Dev.on_flag_same d MEM.INJ_ARM false

theorem reads_readMem (d : Dev) (m : Mem) (mid : Nat) (ranges : List (Nat × Nat)) : Reads d (d.readMem m mid ranges).1 := by
  have h := (Reads.foldl Dev.correctedRead reads_correctedRead
    ((m.marked .single ranges).filter (fun a => !(m.marked .double ranges).contains a)) d).trans
    (.foldl _ (reads_badRead mid) (m.marked .double ranges) _)
  exact .ite (h.trans (reads_memInjSeen _)) h

/-- Nothing that reads as bad: no uncorrectable error. -/
theorem readMem_sound (d : Dev) {m : Mem} (mid : Nat) {ranges : List (Nat × Nat)} (h : m.marked .double ranges = []) :
    (d.readMem m mid ranges).2 = false := by
  simp [Dev.readMem, h]

/-- What a read leaves alone, of the work of the array. -/
theorem Reads.keeps (h : Reads d e) : Keeps readKeys d e :=
  ⟨h.regs, h.set, h.held, fun hi => (congrArg Arr.running h.arr).trans hi, fun hu => (h.on (by decide)).trans hu, congrArg Arr.tensors h.arr⟩

theorem ueInfo_held (d : Dev) (memory unit mid a : Nat) : (d.ueInfo memory unit mid a).on MEM.UE_INFO_VALID = true := by
  unfold Dev.ueInfo
  split
  · assumption
  · rw [Dev.on_put_other _ _ (by decide), Dev.on_put_other _ _ (by decide), Dev.on_put_other _ _ (by decide), Dev.on_put_other _ _ (by decide),
      Dev.on_put_other _ _ (by decide)]
    exact Dev.on_flag_same _ _ _

theorem schedulePage_ueInfo (d : Dev) (page cause : Nat) : (d.schedulePage page cause).on MEM.UE_INFO_VALID = d.on MEM.UE_INFO_VALID := by
  have hapart (n : Nat) : MEM.UE_INFO_VALID.key ≠ (MEM.RETIRE_PAGE_VALID n).key ∧ MEM.UE_INFO_VALID.key ≠ (MEM.RETIRE_PAGE_CAUSE n).key ∧
      MEM.UE_INFO_VALID.key ≠ (MEM.RETIRE_PAGE_PPN n).key := by
    simp only [Fld.key, MEM.UE_INFO_VALID, MEM.RETIRE_PAGE_VALID, MEM.RETIRE_PAGE_CAUSE, MEM.RETIRE_PAGE_PPN, MEM.UE_INFO, MEM.RETIRE_PAGE]
    omega
  obtain ⟨hv, hc, hp⟩ := hapart d.memsys.retired
  refine ite_leaves (fun e => e.on MEM.UE_INFO_VALID) rfl (ite_leaves (fun e => e.on MEM.UE_INFO_VALID) ?_ rfl)
  exact (Dev.on_put_other _ _ hp).trans ((Dev.on_put_other _ _ hc).trans (Dev.on_flag_other _ _ hv))

/-- The first uncorrectable error is held (Table 07.12). -/
theorem badRead_holds (mid : Nat) (d : Dev) (a : Nat) : (Dev.badRead mid d a).on MEM.UE_INFO_VALID = true := by
  unfold Dev.badRead
  dsimp only
  split
  · rw [schedulePage_ueInfo, (raise_raises _ _ _).on (by decide)]
    exact ueInfo_held _ _ _ _ _
  · exact ((raise_raises _ _ _).on (by decide)).trans (ueInfo_held _ _ _ _ _)

end Sys2Proof.Proofs.Scope
end

section
/-!
PROOF. What the end of a stage and the check-ins of the plan leave alone (R132, R136, R202, R208, R307), and what an operation that leaves the
array leaves behind (R160, R169).
-/

namespace Sys2Proof.Proofs.Scope

open Sys2Proof.Machine Sys2Proof.Laws

variable {K : List Nat}

/-- Keys of the fields that the end of a stage may change. -/
abbrev stageKeys : List Nat := ownerKeys ++ readKeys

theorem ownerKeys_stage : ownerKeys ⊆ stageKeys := fun _ h => List.mem_append_left _ h

theorem readKeys_stage : readKeys ⊆ stageKeys := fun _ h => List.mem_append_right _ h

theorem keeps_buildDone (d : Dev) (m : Mem) (w : Nat) : Keeps stageKeys d (d.buildDone m w) := by
  unfold Dev.buildDone
  split
  · exact .refl d
  · have h := (reads_readMem d m (10 + d.wdPort w)
      ((d.model (d.wdModel w)).weightRanges (d.layerWeights w).1 (d.layerWeights w).2)).keeps.mono readKeys_stage
    exact .ite (h.trans ((keeps_buildFault _ w).mono ownerKeys_stage))
      ((h.trans (keeps_putBuilt _ w _ _)).trans ((keeps_startBuilds _).mono ownerKeys_stage))

theorem keeps_sigDisarm (d : Dev) : Keeps ownerKeys d d.sigDisarm := by
  unfold Dev.sigDisarm
  exact (Keeps.refl d).put WCH.SIG_INJ_ARM _ (by decide) (by decide)

theorem keeps_nlsResult (d : Dev) (w k : Nat) (j : Job) : Keeps ownerKeys d (d.nlsResult w k j) := by
  unfold Dev.nlsResult
  exact Keeps.trans (.ite (keeps_sigDisarm d) (.refl d)) (keeps_putJob _ _ _)

theorem keeps_drawN (d : Dev) (n : Nat) : Keeps K d (d.drawN n).2 := by
  rw [drawN_dev]
  exact .same rfl rfl (fun h => h) rfl

theorem keeps_shdResult (d : Dev) (m : Mem) (w k : Nat) (j : Job) : Keeps ownerKeys d (d.shdResult m w k j) := by
  have hresults (t : Tab Nat) (ms : Tab Model) : Keeps ownerKeys d { d with arr := { d.arr with shadow := t, models := ms } } :=
    .same rfl rfl (fun h => h) rfl
  have hdrawn (e : Dev) (c : Prop) [Decidable c] (n : Nat) : Keeps ownerKeys e (if c then e.drawN n else ([], e)).2 := by
    split
    · exact keeps_drawN e n
    · exact .refl e
  unfold Dev.shdResult
  refine .ite ((hresults _ _).trans (keeps_putJob _ _ _)) ?_
  exact (((hresults _ _).trans (.ite (keeps_sigDisarm _) (.refl _))).trans (hdrawn _ _ _)).trans (keeps_putJob _ _ _)

theorem keeps_stageDone (d : Dev) (m : Mem) (o : OpOwner) : Keeps stageKeys d (d.stageDone m o) := by
  cases o with
  | build w => exact keeps_buildDone d m w
  | selfTest seg => exact .refl d
  | fallback slot k => exact .same rfl rfl (fun h => h) rfl
  | job w k =>
    unfold Dev.stageDone
    dsimp only
    split
    · exact .refl d
    · refine .ite (.refl d) (Keeps.mono ?_ ownerKeys_stage)
      split
      · exact keeps_nlsResult d w k _
      · exact keeps_shdResult d m w k _
      · exact keeps_putJob _ _ _

theorem keeps_checkIn (d : Dev) (w task : Nat) : Keeps ownerKeys d (d.checkIn w task) := by
  have hstray : Keeps ownerKeys d (d.count SWD.STAT_STRAY 1) := (Keeps.refl d).put SWD.STAT_STRAY _ (by decide) (by decide)
  unfold Dev.checkIn
  split
  · exact hstray
  · exact .ite hstray (.ite (.same rfl rfl (fun h => h) rfl) (.same rfl rfl (fun h => h) rfl))

theorem keeps_planTick (d : Dev) (j : Nat) : Keeps ownerKeys d (d.planTick j) := by
  refine .foldl _ (fun d task => .ite (.refl d) ?_) _ _
  refine Keeps.trans ?_ (.foldl _ (fun d w => keeps_checkIn d w task) _ _)
  exact .same rfl rfl (fun h => h) rfl

theorem keeps_planCheckins (d : Dev) : Keeps ownerKeys d d.planCheckins := .ite (.refl d) (.foldl _ keeps_planTick _ _)

theorem keeps_nextReady (d : Dev) (o : OpOwner) : Keeps K d (d.nextReady o) := .same rfl rfl (fun h => h) rfl

/-- What follows a complete operation: the end of its stage, or the next operation of it, and the check-ins of the plan. -/
theorem keeps_completed (d : Dev) (m : Mem) (o : ArrOp) :
    Keeps stageKeys d (if o.last then (d.stageDone m o.owner).closeStage o.owner else d.nextReady o.owner).planCheckins :=
  Keeps.trans (.ite ((keeps_stageDone d m o.owner).trans (keeps_closeStage _ _)) (keeps_nextReady d o.owner))
    ((keeps_planCheckins _).mono ownerKeys_stage)

/-- The tiles that stay in memory change the tensors and the count of free values alone. -/
theorem keepTiles_cases (d : Dev) (m : Mem) (o : ArrOp) (n : Nat) :
    ∃ t k, d.keepTiles m o n = { d with arr := { d.arr with tensors := t }, free := k } := by
  unfold Dev.keepTiles
  split
  · exact ⟨_, _, rfl⟩
  · split
    · exact ⟨_, _, rfl⟩
    · exact ⟨_, _, rfl⟩

theorem stopRunning_stops (d : Dev) : d.stopRunning.arr.running = none ∧ d.stopRunning.on MTX.STAT_BUSY = false ∧ d.stopRunning.snag = d.snag ∧
    d.stopRunning.arr.tensors = d.arr.tensors ∧ ∀ f : Fld, f.key ≠ MTX.STAT_BUSY.key → d.stopRunning.fld f = d.fld f :=
  ⟨rfl, Dev.on_flag_same _ _ _, rfl, rfl, fun _ hf => Dev.fld_flag_other _ _ hf⟩

/-- An operation that is taken off the array: it runs no longer, and what it leaves behind sets no source back. -/
structure Stops (d e : Dev) : Prop where
  idle : e.arr.running = none
  free : e.on MTX.STAT_BUSY = false
  holds : ∀ y n, Claims.Held d y n → Claims.Held e y n
  on : ∀ f : Fld, f.key ∉ ownerKeys → f.key ≠ MTX.STAT_BUSY.key → e.on f = d.on f

theorem stops_stopRunning (d : Dev) (q : ArrQueue) (o : ArrOp) : Stops d (d.chargeTiles q o).stopRunning := by
  have h := keeps_charge (K := ownerKeys) d q o (o.clk * o.done / max 1 o.tiles - o.charged)
  obtain ⟨hidle, hbusy, hsnag, _, hregs⟩ := stopRunning_stops (d.chargeTiles q o)
  exact ⟨hidle, hbusy, fun y n hd => held_congr (congrArg Snag.set hsnag) (congrArg Snag.held hsnag) (h.holds hd),
    fun f hf hb => (Dev.on_fld (hregs f hb)).trans (h.on hf)⟩

theorem Stops.keepTiles {d e : Dev} (h : Stops d e) (m : Mem) (o : ArrOp) (n : Nat) : Stops d (e.keepTiles m o n) := by
  obtain ⟨t, k, hk⟩ := keepTiles_cases e m o n
  rw [hk]
  exact ⟨h.idle, h.free, h.holds, h.on⟩

theorem Stops.keeps {d e x : Dev} (h : Stops d e) (hk : Keeps ownerKeys e x) : Stops d x :=
  ⟨hk.idle h.idle, (hk.on (by decide)).trans h.free, fun y n hd => hk.holds (h.holds y n hd), fun f hf hb => (hk.on hf).trans (h.on f hf hb)⟩

/-- An aborted operation (R160, R169). -/
theorem stops_abortOp (d : Dev) (m : Mem) (q : ArrQueue) (o : ArrOp) : Stops d (d.abortOp m q o) := by
  have h := (stops_stopRunning d q o).keepTiles m o o.done
  unfold Dev.abortOp
  refine Stops.keeps ?_ (keeps_ownerFault _ o.owner)
  exact ⟨h.idle, h.free, h.holds, h.on⟩

end Sys2Proof.Proofs.Scope
end

section
/-!
PROOF. The issue of operations (R156, R159, R186, R192, R234, R240).
-/

namespace Sys2Proof.Proofs.Scope

open Sys2Proof.Machine Sys2Proof.Laws

/-- An operation as it starts on device `d`. -/
def started (d : Dev) (o : ArrOp) : ArrOp := { o with clk := d.clocksOf o, since := d.now }

/-- Clocks of an operation follow from the descriptors of the watches, the models, the count of engines and the slots of the self-test. -/
theorem clocksOf_congr {d e : Dev} (hw : e.watch = d.watch) (hm : e.arr.models = d.arr.models) (he : e.fld MTX.INFO_ENGINES = d.fld MTX.INFO_ENGINES)
    (hs : e.fld HLN.ST_CTRL_SLOT_CLK = d.fld HLN.ST_CTRL_SLOT_CLK) (o : ArrOp) : e.clocksOf o = d.clocksOf o := by
  have hproject (w : Nat) : e.projectClocks w = d.projectClocks w := by
    have hword (k : Nat) : e.wdKindWord w k = d.wdKindWord w k := wd_congr hw w _
    have hform : e.linForm w = d.linForm w ∧ e.linFloat w = d.linFloat w ∧ e.linP w = d.linP w ∧ e.linM w = d.linM w ∧ e.linK w = d.linK w := by
      simp only [Dev.linForm, Dev.linFloat, Dev.linP, Dev.linM, Dev.linK, hword, and_self]
    have hlayer : e.layerOf w = d.layerOf w := by simp only [Dev.layerOf, Dev.model, Dev.wdModel, Dev.wdLayer, Dev.wd, hw, hm]
    obtain ⟨hform, hfloat, hp, hrows, hcols⟩ := hform
    unfold Dev.projectClocks Dev.engines
    rw [hform, hfloat, hp, hrows, hcols, hlayer, he]
  unfold Dev.clocksOf
  cases o.owner with
  | build w => exact hproject w
  | selfTest seg => exact hs
  | job w k => simp only [Dev.engines, he]
  | fallback slot k => simp only [Dev.engines, he]

theorem startOp_regs (d : Dev) (q : ArrQueue) (o : ArrOp) : (d.startOp q o).on MTX.STAT_BUSY = true ∧
    (d.startOp q o).fld MTX.TAG_TAG = o.desc.getD 15 0 % 2 ^ MTX.TAG_TAG.width ∧
    (d.startOp q o).on MTX.STAT_SUSPENDED = d.on MTX.STAT_SUSPENDED := by
  unfold Dev.startOp
  refine ⟨?_, Dev.fld_put_same _ _ _, ?_⟩
  · rw [Dev.on_put_other _ _ (by decide), Dev.on_put_other _ _ (by decide), Dev.on_put_other _ _ (by decide)]
    exact Dev.on_flag_same _ _ _
  · rw [Dev.on_put_other _ _ (by decide), Dev.on_put_other _ _ (by decide), Dev.on_put_other _ _ (by decide), Dev.on_flag_other _ _ (by decide)]
    rfl

/-- The device as a suspended operation goes on. -/
def resumed (d : Dev) : Dev := ({ d with arr := { d.arr with suspended := none, bgClk := d.arr.bgClk + 256 } }).flag MTX.STAT_SUSPENDED false

theorem resumed_fld (d : Dev) {f : Fld} (hf : f.key ≠ MTX.STAT_SUSPENDED.key) : (resumed d).fld f = d.fld f := d.fld_put_other _ hf

/-- Keys of the fields that hold the first translation fault (Table 07.12). -/
abbrev faultKeys : List Nat :=
  [MEM.XF_INFO_VALID.key, MEM.XF_INFO_CAUSE.key, MEM.XF_INFO_MID.key, MEM.XF_INFO_WRITE.key, MEM.XF_HANDLE_HANDLE.key, MEM.XF_OFFSET_OFFSET.key]

/-- What a translation fault leaves: it is held where none is, and source 84 is raised. -/
theorem xlateFault_eq (d : Dev) (cause mid handle off : Nat) (write : Bool) : ∃ e : Dev, d.xlateFault cause mid handle off write = e.raise .x 84 ∧
    e.arr = d.arr ∧ (∀ f : Fld, f.key ∉ faultKeys → e.fld f = d.fld f) ∧ e.on MEM.XF_INFO_VALID = true ∧
    (d.on MEM.XF_INFO_VALID = false → e.fld MEM.XF_INFO_CAUSE = cause % 2 ^ MEM.XF_INFO_CAUSE.width ∧
      e.fld MEM.XF_HANDLE_HANDLE = handle % 2 ^ 32 ∧ e.fld MEM.XF_OFFSET_OFFSET = off % 2 ^ 32) := by
  refine ⟨_, rfl, ?_⟩
  split
  next h => exact ⟨rfl, fun _ _ => rfl, h, fun hn => by simp [h] at hn⟩
  next h =>
    refine ⟨rfl, fun f hf => ?_, ?_, fun _ => ⟨?_, ?_, Dev.fld_put_same _ _ _⟩⟩
    · simp only [faultKeys, List.mem_cons, List.not_mem_nil, or_false, not_or] at hf
      obtain ⟨hv, hc, hm, hw, hh, ho⟩ := hf
      rw [Dev.fld_put_other _ _ ho, Dev.fld_put_other _ _ hh, Dev.fld_flag_other _ _ hw, Dev.fld_put_other _ _ hm, Dev.fld_put_other _ _ hc,
        Dev.fld_flag_other _ _ hv]
    · rw [Dev.on_put_other _ _ (by decide), Dev.on_put_other _ _ (by decide), Dev.on_flag_other _ _ (by decide), Dev.on_put_other _ _ (by decide),
        Dev.on_put_other _ _ (by decide)]
      exact Dev.on_flag_same _ _ _
    · rw [Dev.fld_put_other _ _ (by decide), Dev.fld_put_other _ _ (by decide), Dev.fld_flag_other _ _ (by decide), Dev.fld_put_other _ _ (by decide)]
      exact Dev.fld_put_same _ _ _
    · rw [Dev.fld_put_other _ _ (by decide)]
      exact Dev.fld_put_same _ _ _

/-! What a command of a free array whose checks run does. -/

section Cases

variable {d : Dev} {o : ArrOp} (m : Mem) (agree : Bool) (hr : d.arr.running = none) (hc : d.checks = true)

include hr hc

theorem issue_faulted (ho : d.nextPlan = some o) (f : Nat × Nat × Nat) : d.issue m (some f) agree = d.issueFault o f := by
  simp [Dev.issue, hr, hc, ho]

theorem issue_planned (ho : d.nextPlan = some o) (hf : d.operandFault m o = none) : d.issue m none agree = d.issuePlan m o := by
  simp [Dev.issue, hr, hc, ho, hf]

variable (fault : Option (Nat × Nat × Nat)) (hn : d.nextPlan = none) (hb : d.bgAllowed = true)

include hn hb

theorem issue_resumes (hs : d.arr.suspended = some o) : d.issue m fault agree =
    if agree then (resumed d).startOp .background o else ((resumed d).raise .c0 78).ownerFault o.owner := by
  simp [Dev.issue, hr, hc, hn, hb, hs, resumed]

theorem issue_begins {rest : List ArrOp} (hs : d.arr.suspended = none) (hq : d.arr.background = o :: rest) :
    d.issue m fault agree = ({ d with arr := { d.arr with background := rest } }).startOp .background o := by
  simp [Dev.issue, hr, hc, hn, hb, hs, hq]

end Cases

section Free

variable {s : State} (hd : s.dev.dead = false) (hr : s.dev.arr.running = none) (hc : s.dev.checks = true)

include hd hr hc

/-- The PLAN operation issues. -/
theorem issue_plan {o : ArrOp} (ho : s.dev.nextPlan = some o) (agree : Bool) (hf : s.dev.operandFault s.mem o = none)
    (hw : s.mem.marked .double (s.dev.opWeights o) = []) :
    Yields (exec (.arrayOperationIssue none agree) s) (fun t =>
      t.dev.arr.running = some (.plan, started s.dev o) ∧ t.dev.arr.plan = s.dev.arr.plan.erase o ∧
      t.dev.on MTX.STAT_BUSY = true ∧ t.dev.fld MTX.TAG_TAG = o.desc.getD 15 0 % 2 ^ MTX.TAG_TAG.width) := by
  have hread := reads_readMem { s.dev with free := s.dev.free + 1 } s.mem (Config.free s.dev.free % 32) (s.dev.opWeights o)
  have hsound := readMem_sound { s.dev with free := s.dev.free + 1 } (Config.free s.dev.free % 32) hw
  generalize hp : ({ s.dev with free := s.dev.free + 1 } : Dev).readMem s.mem (Config.free s.dev.free % 32) (s.dev.opWeights o) = p at hread hsound
  obtain ⟨e, bad⟩ := p
  dsimp only at hread hsound
  subst hsound
  have harr : e.arr = s.dev.arr := hread.arr
  have hmodels : e.arr.models = s.dev.arr.models := congrArg Arr.models harr
  have hplan : e.arr.plan.erase o = s.dev.arr.plan.erase o := congrArg (fun a : Arr => a.plan.erase o) harr
  /- What the operation starts on differs from the device in the marks of a read, the queue and the inputs of a run alone. -/
  obtain ⟨x, hx, hxp, hxw, hxm, hxn, hxr⟩ : ∃ x : Dev, s.dev.issuePlan s.mem o = x.startOp .plan o ∧ x.arr.plan = s.dev.arr.plan.erase o ∧
      x.watch = s.dev.watch ∧ x.arr.models = s.dev.arr.models ∧ x.now = s.dev.now ∧ x.regs = e.regs := by
    simp only [Dev.issuePlan, Dev.draw, hp, Bool.false_eq_true, if_false]
    refine ⟨_, rfl, ?_⟩
    split
    · obtain ⟨t, n, hl⟩ := loadInputs_cases { e with arr := { e.arr with
        maxLat := max e.arr.maxLat ((s.dev.now - o.readyAt.getD (s.dev.readySince o)) * s.dev.fld HLN.FREQ_CUR_MHZ / 600),
        stage := if o.last then none else some o.owner, plan := e.arr.plan.erase o } } o.owner
      rw [hl]
      exact ⟨hplan, hread.watch, hmodels, hread.now, rfl⟩
    · exact ⟨hplan, hread.watch, hmodels, hread.now, rfl⟩
  have hfld (f : Fld) (hk : f.key ∉ readKeys) : x.fld f = s.dev.fld f := (Dev.fld_regs hxr f).trans (hread.regs f hk)
  obtain ⟨hbusy, htag, -⟩ := startOp_regs x .plan o
  refine run_body hd (e := x.startOp .plan o) ?_ ⟨?_, ?_, ?_, ?_⟩
  · exact (issue_planned _ _ hr hc ho hf).trans hx
  · rw [runOn_arr]
    show some (ArrQueue.plan, started x o) = _
    rw [started, started, clocksOf_congr hxw hxm (hfld _ (by decide)) (hfld _ (by decide)), hxn]
  · rw [runOn_arr]
    exact hxp
  · exact (runOn_on s _ (by decide)).trans hbusy
  · exact (runOn_fld s _ (by decide)).trans htag

/-- A translation fault keeps the operation off (Table 07.9). -/
theorem issue_fault {o : ArrOp} (ho : s.dev.nextPlan = some o) (agree : Bool) (c h off : Nat) :
    Yields (exec (.arrayOperationIssue (some (c, h, off)) agree) s) (fun t =>
      t.dev.arr.running = none ∧ t.dev.on MEM.XF_INFO_VALID = true ∧ (Claims.Beats s.dev .x → Claims.Held t.dev .x 84) ∧
      (s.dev.on MEM.XF_INFO_VALID = false → t.dev.fld MEM.XF_INFO_CAUSE = c % 2 ^ MEM.XF_INFO_CAUSE.width ∧
        t.dev.fld MEM.XF_HANDLE_HANDLE = h % 2 ^ 32 ∧ t.dev.fld MEM.XF_OFFSET_OFFSET = off % 2 ^ 32)) := by
  obtain ⟨e, he, harr, hregs, hvalid, hfirst⟩ := xlateFault_eq { s.dev with free := s.dev.free + 1 } c (Config.free s.dev.free % 32) h off false
  have hbeats (hbeat : Claims.Beats s.dev .x) : Claims.Beats e .x :=
    beats_congr (d := s.dev) (fun i => Dev.on_fld (hregs _ (fun hk => (by decide : ∀ k ∈ faultKeys, k ∉ safeKeys) _ hk die_keys.2.1))) hbeat
  have hk : Keeps ownerKeys e ((e.raise .x 84).ownerFault o.owner) :=
    ((Keeps.refl _).raise .x 84 (fun _ h => by simp only [ownerKeys, List.mem_append, h, true_or])).trans (keeps_ownerFault _ _)
  have hfld (f : Fld) (hf : f.key ∉ ownerKeys) (hs : f.key ∉ safeKeys) :
      (runOn s (fun _ _ => (e.raise .x 84).ownerFault o.owner)).dev.fld f = e.fld f := (runOn_fld s _ hs).trans (hk.regs f hf)
  refine run_body hd (e := (e.raise .x 84).ownerFault o.owner) ?_ ⟨?_, ?_, fun hbeat => held_runOn ?_, fun hn => ?_⟩
  · rw [issue_faulted _ _ hr hc ho, ← he]
    rfl
  · rw [runOn_arr]
    exact hk.idle ((congrArg Arr.running harr).trans hr)
  · exact (Dev.on_fld (hfld _ (by decide) (by decide))).trans hvalid
  · exact (keeps_ownerFault _ _).holds (raise_holds (by decide) (hbeats hbeat))
  · obtain ⟨hcause, hhandle, hoff⟩ := hfirst hn
    exact ⟨(hfld _ (by decide) (by decide)).trans hcause, (hfld _ (by decide) (by decide)).trans hhandle, (hfld _ (by decide) (by decide)).trans hoff⟩

/-- A BACKGROUND operation starts. -/
theorem issue_background {o : ArrOp} {rest : List ArrOp} (hn : s.dev.nextPlan = none) (hb : s.dev.bgAllowed = true) (fault : Option (Nat × Nat × Nat))
    (agree : Bool) (hs : s.dev.arr.suspended = none) (hq : s.dev.arr.background = o :: rest) :
    Yields (exec (.arrayOperationIssue fault agree) s) (fun t => t.dev.arr.running = some (.background, started s.dev o) ∧
      t.dev.arr.background = rest ∧ t.dev.on MTX.STAT_BUSY = true) := by
  refine run_body hd (e := ({ s.dev with arr := { s.dev.arr with background := rest } } : Dev).startOp .background o)
    (issue_begins _ _ hr hc _ hn hb hs hq) ⟨?_, ?_, ?_⟩
  · rw [runOn_arr]
    rfl
  · rw [runOn_arr]
    rfl
  · exact (runOn_on s _ (by decide)).trans (startOp_regs _ _ _).1

/-- A suspended operation goes on where its progress records agree (R240). -/
theorem issue_suspended {o : ArrOp} (hn : s.dev.nextPlan = none) (hb : s.dev.bgAllowed = true) (fault : Option (Nat × Nat × Nat))
    (agree : Bool) (hs : s.dev.arr.suspended = some o) : Yields (exec (.arrayOperationIssue fault agree) s) (fun t =>
      t.dev.on MTX.STAT_SUSPENDED = false ∧ (agree = true → t.dev.arr.running = some (.background, started s.dev o)) ∧
      (agree = false → t.dev.arr.running = none ∧ (Claims.Beats s.dev .c0 → Claims.Held t.dev .c0 78))) := by
  have hoff : (resumed s.dev).on MTX.STAT_SUSPENDED = false := Dev.on_flag_same _ _ _
  have hbeats (hbeat : Claims.Beats s.dev .c0) : Claims.Beats (resumed s.dev) .c0 :=
    beats_congr (fun i => Dev.on_fld (resumed_fld _ (fun hk => (by decide : MTX.STAT_SUSPENDED.key ∉ safeKeys) (hk ▸ die_keys.2.1)))) hbeat
  have hclk : (resumed s.dev).clocksOf o = s.dev.clocksOf o :=
    clocksOf_congr (d := s.dev) (e := resumed s.dev) rfl rfl (resumed_fld _ (by decide)) (resumed_fld _ (by decide)) o
  refine run_body hd (issue_resumes _ agree hr hc _ hn hb hs) ?_
  cases agree
  case true =>
    refine ⟨(runOn_on s _ (by decide)).trans ((startOp_regs _ _ o).2.2.trans hoff), fun _ => ?_, fun h => by simp at h⟩
    rw [runOn_arr]
    show some (ArrQueue.background, started (resumed s.dev) o) = _
    rw [started, hclk]
    rfl
  case false =>
    have hk : Keeps ownerKeys (resumed s.dev) (((resumed s.dev).raise .c0 78).ownerFault o.owner) :=
      ((Keeps.refl _).raise .c0 78 (fun _ h => by simp only [ownerKeys, List.mem_append, h, true_or])).trans (keeps_ownerFault _ _)
    refine ⟨(runOn_on s _ (by decide)).trans (hk.unsuspended hoff), fun h => by simp at h, fun _ => ⟨?_, fun hbeat => held_runOn ?_⟩⟩
    · rw [runOn_arr]
      exact hk.idle hr
    · exact (keeps_ownerFault _ _).holds (raise_holds (by decide) (hbeats hbeat))

end Free

end Sys2Proof.Proofs.Scope
end

section
/-!
PROOF. Tiles (R157 to R160, R167 to R169, R240) and complete operations (R165, R168).
-/

namespace Sys2Proof.Proofs.Scope

open Sys2Proof.Machine Sys2Proof.Laws

/-- What a tile's reads leave alone. -/
theorem tileRead_kept (d : Dev) (o : OpOwner) (read : TileRead) (f : Fld) (hf : f.key ∉ readKeys) : (d.tileRead o read).fld f = d.fld f := by
  have hentry (e : Dev) (x : Option Nat) : (e.entryBad o x).regs = e.regs := by
    unfold Dev.entryBad
    split <;> rfl
  cases read with
  | sound => rfl
  | corrected a => exact (reads_correctedRead d a).regs f hf
  | uncorrectable a x => exact (Dev.fld_regs (hentry _ x) f).trans ((reads_badRead _ { d with free := d.free + 1 } a).regs f hf)

/-- An uncorrectable read of a tile is held where none is held before. -/
theorem tileRead_holds (d : Dev) (o : OpOwner) (a : Nat) (x : Option Nat) : (d.tileRead o (.uncorrectable a x)).on MEM.UE_INFO_VALID = true := by
  have hentry (e : Dev) : (e.entryBad o x).on MEM.UE_INFO_VALID = e.on MEM.UE_INFO_VALID := by
    unfold Dev.entryBad
    split <;> rfl
  exact (hentry _).trans (badRead_holds _ _ _)

section Cases

variable {d : Dev} {q : ArrQueue} {o : ArrOp} (m : Mem) (agree : Bool) (hr : d.arr.running = some (q, o)) (hi : d.on MTX.INJ_ARM = false)
  (hn : o.done < o.tiles)

include hr hi hn

/-- A good tile counts. -/
theorem tile_counts (ha : o.aborted = false) (hq : q = .plan ∨ d.nextPlan = none ∨ o.done + 1 = o.tiles) :
    d.tile m true agree .sound = { d with arr := { d.arr with running := some (q, { o with done := o.done + 1 }) } } := by
  have hstay : (decide (q = .background) && decide (o.done + 1 < o.tiles) && (d.nextPlan).isSome) = false := by
    rcases hq with rfl | hp | he
    · rfl
    · simp [hp]
    · simp [he]
  simp [Dev.tile, hr, Nat.not_le.mpr hn, Dev.mtxArmed, hi, tileBad, ha, Dev.tileRead, hstay]

/-- A BACKGROUND operation gives way to a PLAN one (R159). -/
theorem tile_preempts (ha : o.aborted = false) (hq : q = .background) (hp : (d.nextPlan).isSome = true) (hl : o.done + 1 < o.tiles) :
    d.tile m true agree .sound = d.preempt { o with done := o.done + 1 } agree := by
  simp [Dev.tile, hr, Nat.not_le.mpr hn, Dev.mtxArmed, hi, tileBad, ha, Dev.tileRead, hq, hp, hl]

/-- A tile that fails takes its operation off the array. -/
theorem tile_fails {phys : Nat} (read : TileRead) (hphys : phys = match o.owner with
      | .selfTest seg => seg / 64
      | _ => d.tileEngine o.done) :
    d.tile m false agree read = if o.aborted
      then ((((d.tileRead o.owner read).raise (clusterDie (phys / 5)) 76).suspectEngine phys).chargeTiles q o).stopRunning.keepTiles m o o.done
      else (((d.tileRead o.owner read).raise (clusterDie (phys / 5)) 76).suspectEngine phys).abortOp m q o := by
  cases ho : o.owner
  all_goals
    simp only [ho] at hphys
    simp [Dev.tile, hr, ho, Nat.not_le.mpr hn, Dev.mtxArmed, hi, hphys]

/-- So does a read that is uncorrectable. -/
theorem tile_reads_bad (a : Nat) (entry : Option Nat) : d.tile m true agree (.uncorrectable a entry) = if o.aborted
      then ((d.tileRead o.owner (.uncorrectable a entry)).chargeTiles q o).stopRunning.keepTiles m o o.done
      else (d.tileRead o.owner (.uncorrectable a entry)).abortOp m q o := by
  simp [Dev.tile, hr, Nat.not_le.mpr hn, Dev.mtxArmed, hi, tileBad]

end Cases

theorem suspectEngine_snag (d : Dev) (phys : Nat) : (d.suspectEngine phys).snag = d.snag := ite_leaves Dev.snag rfl rfl

/-- Taken off the array, whether its owner dropped it before or not. -/
theorem stops_off (d : Dev) (m : Mem) (q : ArrQueue) (o : ArrOp) :
    Stops d (if o.aborted then (d.chargeTiles q o).stopRunning.keepTiles m o o.done else d.abortOp m q o) := by
  split
  · exact (stops_stopRunning d q o).keepTiles m o o.done
  · exact stops_abortOp d m q o

/-- A heartbeat is no field that a read changes. -/
theorem hbOk_read (i : Nat) : (hbOkFld i).key ∉ readKeys := by
  unfold hbOkFld
  split
  · decide
  · split <;> decide

/-- The device as an operation has given way at a tile boundary. -/
def preempted (d : Dev) (o : ArrOp) : Dev :=
  let d1 := (d.chargeTiles .background o).stopRunning
  { d1 with arr := { d1.arr with suspended := some { o with charged := max o.charged (o.clk * o.done / max 1 o.tiles) },
                                 preempts := d1.arr.preempts + 1 } }.flag MTX.STAT_SUSPENDED true

theorem preempt_eq (d : Dev) (o : ArrOp) (agree : Bool) :
    d.preempt o agree = if agree then preempted d o else ((preempted d o).raise .c0 78).ownerFault o.owner := rfl

theorem preempted_fld (d : Dev) (o : ArrOp) {f : Fld} (hb : f.key ≠ MTX.STAT_BUSY.key) (hs : f.key ≠ MTX.STAT_SUSPENDED.key) :
    (preempted d o).fld f = d.fld f := by
  have hcharge := (keeps_charge (K := []) d .background o (o.clk * o.done / max 1 o.tiles - o.charged)).regs f (by simp)
  obtain ⟨_, _, _, _, hstop⟩ := stopRunning_stops (d.chargeTiles .background o)
  exact (Dev.fld_put_other _ _ hs).trans ((hstop f hb).trans hcharge)

section Running

variable {s : State} {q : ArrQueue} {o : ArrOp} (hd : s.dev.dead = false) (hr : s.dev.arr.running = some (q, o)) (hi : s.dev.on MTX.INJ_ARM = false)

include hd hr

/-- No operation issues on an array that is not free. -/
theorem issue_busy (hm : s.dev.memsys.writes = []) (fault : Option (Nat × Nat × Nat)) (agree : Bool) :
    Yields (exec (.arrayOperationIssue fault agree) s) (fun t => RegsOnly [] s t) := by
  refine run_body hd (e := s.dev) (by simp [Dev.issue, hr]) (runOn_regsOnly hm (fun _ _ => rfl) rfl)

section Tile

variable (hn : o.done < o.tiles)

include hi hn

theorem tile_sound (hm : s.dev.memsys.writes = []) (agree : Bool) (ha : o.aborted = false)
    (hq : q = .plan ∨ s.dev.nextPlan = none ∨ o.done + 1 = o.tiles) : Yields (exec (.tileBoundary true ⟨agree, .sound⟩) s) (fun t =>
      t.dev.arr.running = some (q, { o with done := o.done + 1 }) ∧
      Frame [] (fun d => { d with arr := { d.arr with running := none } }) s t) := by
  refine run_body hd (tile_counts s.mem agree hr hi hn ha hq) ⟨?_, ?_⟩
  · rw [runOn_arr]
  · exact runOn_frame (fun _ _ => rfl) hm (fun _ _ => rfl) rfl rfl

theorem tile_gives_way (agree : Bool) (ha : o.aborted = false) (hq : q = .background) (hp : (s.dev.nextPlan).isSome = true)
    (hl : o.done + 1 < o.tiles) : Yields (exec (.tileBoundary true ⟨agree, .sound⟩) s) (fun t => t.dev.arr.running = none ∧
      (agree = true → t.dev.on MTX.STAT_SUSPENDED = true ∧ ∃ x, t.dev.arr.suspended = some x ∧ x.owner = o.owner ∧ x.done = o.done + 1) ∧
      (agree = false → Claims.Beats s.dev .c0 → Claims.Held t.dev .c0 78)) := by
  refine run_body hd ((tile_preempts s.mem agree hr hi hn ha hq hp hl).trans (preempt_eq _ _ _)) ?_
  have hidle : (preempted s.dev { o with done := o.done + 1 }).arr.running = none := rfl
  have hon : (preempted s.dev { o with done := o.done + 1 }).on MTX.STAT_SUSPENDED = true := Dev.on_flag_same _ _ _
  have hfld := fun f hb hs => preempted_fld s.dev { o with done := o.done + 1 } (f := f) hb hs
  have hsus : ∃ x, (preempted s.dev { o with done := o.done + 1 }).arr.suspended = some x ∧ x.owner = o.owner ∧ x.done = o.done + 1 :=
    ⟨_, rfl, rfl, rfl⟩
  generalize preempted s.dev { o with done := o.done + 1 } = e at *
  cases agree
  case true =>
    refine ⟨?_, fun _ => ⟨(runOn_on s _ (by decide)).trans hon, ?_⟩, fun h => by simp at h⟩
    all_goals rw [runOn_arr]; assumption
  case false =>
    have hk : Keeps ownerKeys e ((e.raise .c0 78).ownerFault o.owner) :=
      ((Keeps.refl _).raise .c0 78 (fun _ h => by simp only [ownerKeys, List.mem_append, h, true_or])).trans (keeps_ownerFault _ _)
    refine ⟨?_, fun h => by simp at h, fun _ hbeat => held_runOn ?_⟩
    · rw [runOn_arr]
      exact hk.idle hidle
    · have hbeats : Claims.Beats e .c0 := beats_congr (fun i => Dev.on_fld (hfld _
        (fun hk => (by decide : MTX.STAT_BUSY.key ∉ safeKeys) (hk ▸ die_keys.2.1))
        (fun hk => (by decide : MTX.STAT_SUSPENDED.key ∉ safeKeys) (hk ▸ die_keys.2.1)))) hbeat
      exact (keeps_ownerFault _ _).holds (raise_holds (by decide) hbeats)

theorem tile_off (agree : Bool) (read : TileRead) {phys : Nat} (hphys : phys = match o.owner with
      | .selfTest seg => seg / 64
      | _ => s.dev.tileEngine o.done) :
    Yields (exec (.tileBoundary false ⟨agree, read⟩) s) (fun t => t.dev.arr.running = none ∧ t.dev.on MTX.STAT_BUSY = false ∧
      (Claims.Beats s.dev (clusterDie (phys / 5)) → Claims.Held t.dev (clusterDie (phys / 5)) 76)) := by
  have hstop := stops_off (((s.dev.tileRead o.owner read).raise (clusterDie (phys / 5)) 76).suspectEngine phys) s.mem q o
  refine run_body hd (tile_fails s.mem agree hr hi hn read hphys) ⟨?_, (runOn_on s _ (by decide)).trans hstop.free, fun hbeat => held_runOn ?_⟩
  · rw [runOn_arr]
    exact hstop.idle
  · have hbeat1 : Claims.Beats (s.dev.tileRead o.owner read) (clusterDie (phys / 5)) :=
      beats_congr (fun i => Dev.on_fld (tileRead_kept _ _ _ _ (hbOk_read i))) hbeat
    have hraised := raise_holds (n := 76) (by decide) hbeat1
    have hsnag := suspectEngine_snag ((s.dev.tileRead o.owner read).raise (clusterDie (phys / 5)) 76) phys
    exact hstop.holds _ _ (held_congr (congrArg Snag.set hsnag) (congrArg Snag.held hsnag) hraised)

theorem tile_misread (agree : Bool) (a : Nat) (entry : Option Nat) : Yields (exec (.tileBoundary true ⟨agree, .uncorrectable a entry⟩) s) (fun t =>
      t.dev.arr.running = none ∧ t.dev.on MTX.STAT_BUSY = false ∧ t.dev.on MEM.UE_INFO_VALID = true) := by
  have hstop := stops_off (s.dev.tileRead o.owner (.uncorrectable a entry)) s.mem q o
  refine run_body hd (tile_reads_bad s.mem agree hr hi hn a entry) ⟨?_, (runOn_on s _ (by decide)).trans hstop.free, ?_⟩
  · rw [runOn_arr]
    exact hstop.idle
  · exact (runOn_on s _ (by decide)).trans ((hstop.on _ (by decide) (by decide)).trans (tileRead_holds _ _ _ _))

end Tile

end Running

end Sys2Proof.Proofs.Scope
end

section
/-!
PROOF. Complete operations (R165, R168).
-/

namespace Sys2Proof.Proofs.Scope

open Sys2Proof.Machine Sys2Proof.Laws

theorem bits_zero {n : Nat} (h : n % 16 = 0) {i : Nat} (hi : i < 4) : bit n i = false := by
  unfold bit
  interval_cases i <;> simp <;> omega

/-- Exceptions accumulate (R168). -/
def excSet (d : Dev) (exc : Nat) (f : Fld) (i : Nat) : Dev := if bit exc i then (d.flag f true).stampBit f 0 else d

theorem excSet_same (d : Dev) (exc : Nat) (f : Fld) (i : Nat) : (excSet d exc f i).on f = (d.on f || bit exc i) := by
  unfold excSet
  split
  next h => exact (Dev.on_flag_same d f true).trans (by simp [h])
  next h => simp [h]

theorem excSet_other (d : Dev) (exc : Nat) {f g : Fld} (i : Nat) (h : g.key ≠ f.key) : (excSet d exc f i).on g = d.on g := by
  unfold excSet
  split
  · exact Dev.on_flag_other d true h
  · rfl

/-- The exceptions of a complete operation, and the tag of the first that sets one. -/
def excNoted (d : Dev) (o : ArrOp) (exc : Nat) : Dev :=
  if exc % 16 = 0 then d
  else
    let d1 := excSet (excSet (excSet (excSet d exc MTX.EXC_SAT 3) exc MTX.EXC_OVF 2) exc MTX.EXC_INV 1) exc MTX.EXC_NONFINITE 0
    if d.fld MTX.EXC_SAT + d.fld MTX.EXC_OVF + d.fld MTX.EXC_INV + d.fld MTX.EXC_NONFINITE = 0 then d1.put MTX.EXC_TAG_TAG (o.desc.getD 15 0) else d1

/-- The exceptions, as they stand in MTX_EXC. -/
abbrev Accumulates (d e : Dev) (exc : Nat) : Prop :=
  e.on MTX.EXC_SAT = (d.on MTX.EXC_SAT || bit exc 3) ∧ e.on MTX.EXC_OVF = (d.on MTX.EXC_OVF || bit exc 2) ∧
  e.on MTX.EXC_INV = (d.on MTX.EXC_INV || bit exc 1) ∧ e.on MTX.EXC_NONFINITE = (d.on MTX.EXC_NONFINITE || bit exc 0)

theorem excSets_accumulate (d : Dev) (exc : Nat) :
    Accumulates d (excSet (excSet (excSet (excSet d exc MTX.EXC_SAT 3) exc MTX.EXC_OVF 2) exc MTX.EXC_INV 1) exc MTX.EXC_NONFINITE 0) exc := by
  refine ⟨?_, ?_, ?_, ?_⟩
  · rw [excSet_other _ _ _ (by decide), excSet_other _ _ _ (by decide), excSet_other _ _ _ (by decide), excSet_same]
  · rw [excSet_other _ _ _ (by decide), excSet_other _ _ _ (by decide), excSet_same, excSet_other _ _ _ (by decide)]
  · rw [excSet_other _ _ _ (by decide), excSet_same, excSet_other _ _ _ (by decide), excSet_other _ _ _ (by decide)]
  · rw [excSet_same, excSet_other _ _ _ (by decide), excSet_other _ _ _ (by decide), excSet_other _ _ _ (by decide)]

theorem excNoted_accumulates (d : Dev) (o : ArrOp) (exc : Nat) : Accumulates d (excNoted d o exc) exc := by
  unfold excNoted
  split
  next h => simp [Accumulates, bits_zero h]
  · have h := excSets_accumulate d exc
    dsimp only
    split
    · obtain ⟨hs, ho, hi, hn⟩ := h
      exact ⟨(Dev.on_put_other _ _ (by decide)).trans hs, (Dev.on_put_other _ _ (by decide)).trans ho, (Dev.on_put_other _ _ (by decide)).trans hi,
        (Dev.on_put_other _ _ (by decide)).trans hn⟩
    · exact h

/-- Noting exceptions leaves the sequencer and STAT alone. -/
theorem excNoted_kept (d : Dev) (o : ArrOp) (exc : Nat) : (excNoted d o exc).arr = d.arr ∧
    (excNoted d o exc).on MTX.STAT_BUSY = d.on MTX.STAT_BUSY := by
  have harr (e : Dev) (f : Fld) (i : Nat) : (excSet e exc f i).arr = e.arr := ite_leaves Dev.arr rfl rfl
  have hsets : (excSet (excSet (excSet (excSet d exc MTX.EXC_SAT 3) exc MTX.EXC_OVF 2) exc MTX.EXC_INV 1) exc MTX.EXC_NONFINITE 0).on MTX.STAT_BUSY =
      d.on MTX.STAT_BUSY := by
    rw [excSet_other _ _ _ (by decide), excSet_other _ _ _ (by decide), excSet_other _ _ _ (by decide), excSet_other _ _ _ (by decide)]
  refine ⟨ite_leaves Dev.arr rfl (ite_leaves Dev.arr ?_ ?_),
    ite_leaves (Dev.on · MTX.STAT_BUSY) rfl (ite_leaves (Dev.on · MTX.STAT_BUSY) ?_ hsets)⟩
  · simp only [Dev.put_arr, harr]
  · simp only [harr]
  · exact (Dev.on_put_other _ _ (by decide)).trans hsets

/-- The device as a complete operation leaves the array: its output is in the tensors, its exceptions are noted. -/
def finished (d : Dev) (m : Mem) (q : ArrQueue) (o : ArrOp) (exc : Nat) : Dev :=
  let r := d.opEffect m o
  let d1 := (d.charge q o (o.clk - o.charged)).stopRunning
  excNoted { d1 with arr := { d1.arr with tensors := r.tensors }, free := d1.free + r.draws } o (exc ||| r.exc)

theorem finished_leaves (d : Dev) (m : Mem) (q : ArrQueue) (o : ArrOp) (exc : Nat) : (finished d m q o exc).arr.running = none ∧
    (finished d m q o exc).on MTX.STAT_BUSY = false ∧ (finished d m q o exc).arr.tensors = (d.opEffect m o).tensors ∧
    Accumulates d (finished d m q o exc) (exc ||| (d.opEffect m o).exc) := by
  have hcharge := keeps_charge (K := []) d q o (o.clk - o.charged)
  obtain ⟨hidle, hbusy, _, _, hregs⟩ := stopRunning_stops (d.charge q o (o.clk - o.charged))
  have hfld (f : Fld) (hf : f.key ≠ MTX.STAT_BUSY.key) : (d.charge q o (o.clk - o.charged)).stopRunning.on f = d.on f :=
    Dev.on_fld ((hregs f hf).trans (hcharge.regs f (by simp)))
  unfold finished
  dsimp only
  generalize (d.charge q o (o.clk - o.charged)).stopRunning = x at *
  have hkept := excNoted_kept { x with arr := { x.arr with tensors := (d.opEffect m o).tensors }, free := x.free + (d.opEffect m o).draws } o
    (exc ||| (d.opEffect m o).exc)
  have hexc := excNoted_accumulates { x with arr := { x.arr with tensors := (d.opEffect m o).tensors }, free := x.free + (d.opEffect m o).draws } o
    (exc ||| (d.opEffect m o).exc)
  generalize excNoted { x with arr := { x.arr with tensors := (d.opEffect m o).tensors }, free := x.free + (d.opEffect m o).draws } o
    (exc ||| (d.opEffect m o).exc) = y at *
  obtain ⟨harr, hon⟩ := hkept
  refine ⟨(congrArg Arr.running harr).trans hidle, hon.trans hbusy, congrArg Arr.tensors harr, ?_⟩
  obtain ⟨hs, ho, hi, hn⟩ := hexc
  exact ⟨hs.trans (congrArg (· || _) (hfld _ (by decide))), ho.trans (congrArg (· || _) (hfld _ (by decide))),
    hi.trans (congrArg (· || _) (hfld _ (by decide))), hn.trans (congrArg (· || _) (hfld _ (by decide)))⟩

section Cases

variable {d : Dev} {q : ArrQueue} {o : ArrOp} (m : Mem) (exc : Nat) (hr : d.arr.running = some (q, o)) (hi : d.on MTX.INJ_ARM = false)
  (hn : o.tiles ≤ o.done) (ha : o.aborted = false)

include hr hi hn ha

/-- Signatures and vector datapaths that agree. -/
theorem complete_agrees : ∃ e : Dev, (e = finished d m q o exc ∨ e = (finished d m q o exc).raise .c0 79) ∧
    d.complete m true true exc = (if o.last then (e.stageDone m o.owner).closeStage o.owner else e.nextReady o.owner).planCheckins := by
  refine ⟨if (bit (exc ||| (d.opEffect m o).exc) 1 || bit (exc ||| (d.opEffect m o).exc) 2) && d.ownerIsModel o.owner
    then (finished d m q o exc).raise .c0 79 else finished d m q o exc, ?_, ?_⟩
  · split <;> simp
  · have h3 : d.mtxArmed 3 = false := by simp [Dev.mtxArmed, hi]
    have h2 : d.mtxArmed 2 = false := by simp [Dev.mtxArmed, hi]
    have hlt : decide (o.done < o.tiles) = false := by simpa using hn
    simp only [Dev.complete, hr, hlt, h2, h3, ha, Bool.and_false, Bool.false_and, Bool.or_false, Bool.not_true, Bool.false_eq_true, if_false]
    rfl

/-- Signatures that differ. -/
theorem complete_differs (vec : Bool) : d.complete m false vec exc = (d.raise .c1 78).abortOp m q { o with done := o.tiles } := by
  simp [Dev.complete, hr, Nat.not_lt.mpr hn, ha, Dev.mtxArmed, hi]

/-- Vector datapaths that differ. -/
theorem complete_vector (hg : opGemm o.desc = false) (h32 : opCode o.desc ≠ 32) (h48 : opCode o.desc ≠ 48) :
    d.complete m true false exc = (d.raise .c0 77).abortOp m q { o with done := o.tiles } := by
  simp [Dev.complete, hr, Nat.not_lt.mpr hn, ha, Dev.mtxArmed, hi, hg, h32, h48]

end Cases

section Complete

variable {s : State} {q : ArrQueue} {o : ArrOp} (hd : s.dev.dead = false) (hr : s.dev.arr.running = some (q, o)) (hi : s.dev.on MTX.INJ_ARM = false)
  (hn : o.tiles ≤ o.done) (ha : o.aborted = false) (exc : Nat)

include hd hr hi hn ha

theorem complete_leaves : Yields (exec (.arrayOperationComplete true true exc) s) (fun t =>
      t.dev.arr.running = none ∧ t.dev.on MTX.STAT_BUSY = false ∧ t.dev.arr.tensors = (s.dev.opEffect s.mem o).tensors ∧
      Accumulates s.dev t.dev (exc ||| (s.dev.opEffect s.mem o).exc)) := by
  obtain ⟨e, he, heq⟩ := complete_agrees s.mem exc hr hi hn ha
  have hleaves := finished_leaves s.dev s.mem q o exc
  have hraised : Keeps raiseKeys (finished s.dev s.mem q o exc) e := by
    rcases he with rfl | rfl
    · exact .refl _
    · exact (Keeps.refl _).raise .c0 79 (fun _ h => h)
  have hk : Keeps stageKeys (finished s.dev s.mem q o exc) _ :=
    (hraised.mono (fun _ h => by simp only [ownerKeys, List.mem_append, h, true_or])).trans (keeps_completed e s.mem o)
  obtain ⟨hidle, hbusy, htensors, hs, ho, hv, hf⟩ := hleaves
  have hon (f : Fld) (hf : f.key ∉ stageKeys) (hs : f.key ∉ safeKeys) := (runOn_on s (fun _ _ => _) hs).trans (hk.on hf)
  refine run_body hd heq ⟨?_, (hon _ (by decide) (by decide)).trans hbusy, ?_, (hon _ (by decide) (by decide)).trans hs,
    (hon _ (by decide) (by decide)).trans ho, (hon _ (by decide) (by decide)).trans hv, (hon _ (by decide) (by decide)).trans hf⟩
  · rw [runOn_arr]
    exact hk.idle hidle
  · rw [runOn_arr]
    exact hk.tensors.trans htensors

end Complete

/-- An operation taken off with a source of die `y`. -/
theorem abort_held {s : State} (hd : s.dev.dead = false) {q : ArrQueue} {f : Mem → Dev → Dev} {y : Die} {n : Nat} (o1 : ArrOp) (hn : srcExists n = true)
    (hf : f s.mem s.dev = (s.dev.raise y n).abortOp s.mem q o1) :
    Yields (run s f) (fun t => t.dev.arr.running = none ∧ (Claims.Beats s.dev y → Claims.Held t.dev y n)) := by
  have hstop := stops_abortOp (s.dev.raise y n) s.mem q o1
  refine run_body hd hf ⟨?_, fun hbeat => held_runOn (hstop.holds _ _ (raise_holds hn hbeat))⟩
  rw [runOn_arr]
  exact hstop.idle

end Sys2Proof.Proofs.Scope
end

section
/-!
PROOF. Posts and ends of transfers (R235 to R238, R242, R243).
-/

namespace Sys2Proof.Proofs.Scope

open Sys2Proof.Machine Sys2Proof.Laws

/-! Posts. -/

@[simp] theorem ring_putRing (d : Dev) (e : Nat) (q : ArrQueue) (l : List DmaDesc) : (d.putRing e q l).ring e q = l := tabGet_set_same _ _ _ _

theorem ring_congr {d x : Dev} (h : x.memsys.rings = d.memsys.rings) (e : Nat) (q : ArrQueue) : x.ring e q = d.ring e q := by
  simp only [Dev.ring, h]

theorem ring_runOn (s : State) (f : Mem → Dev → Dev) (e : Nat) (q : ArrQueue) : (runOn s f).dev.ring e q = (f s.mem s.dev).ring e q :=
  ring_congr (by rw [runOn_memsys]) e q

/-- A post that the ring takes. -/
theorem dmaPost_takes {d : Dev} {mid e : Nat} {q : ArrQueue} (words : List Nat) (he : e < 4) (hr : d.reach (clusterDie e) = true)
    (hq : if q = ArrQueue.plan then mid < 10 else mid < 2) (ha : d.access mid (clusterDie e) = true) (hs : d.splitMaster mid = false)
    (hl : (d.ring e q).length < 256) :
    (d.dmaPost mid e q words).ring e q = d.ring e q ++ [dmaOf mid (d.ctxOwner (dmaCtx (words.getD 1 0) (words.getD 3 0)) q) words] ∧
    (d.dmaPost mid e q words).resp = .done ∧ (d.dmaPost mid e q words).regs = d.regs ∧
    (d.dmaPost mid e q words).memsys.writes = d.memsys.writes := by
  unfold Dev.dmaPost
  dsimp only
  rw [if_neg (by simp only [hr, ha, hs, decide_eq_true hq, decide_eq_false (Nat.not_le.mpr he), decide_eq_false (Nat.not_le.mpr hl)]; decide)]
  have hput := ring_putRing d e q (d.ring e q ++ [dmaOf mid (d.ctxOwner (dmaCtx (words.getD 1 0) (words.getD 3 0)) q) words])
  split
  · split
    · exact ⟨hput, rfl, rfl, rfl⟩
    · exact ⟨hput, rfl, rfl, rfl⟩
  · exact ⟨hput, rfl, rfl, rfl⟩

/-- A post that it does not take. -/
theorem dmaPost_fails {d : Dev} {mid e : Nat} {q : ArrQueue} (words : List Nat) (h : 256 ≤ (d.ring e q).length ∨ d.splitMaster mid = true ∨
    d.access mid (clusterDie e) = false ∨ 10 ≤ mid ∨ (q = ArrQueue.background ∧ 2 ≤ mid)) : d.dmaPost mid e q words = d.answer .error := by
  unfold Dev.dmaPost
  refine if_pos ?_
  simp only [Bool.or_eq_true, Bool.not_eq_true', decide_eq_true_eq]
  rcases h with h | h | h | h | ⟨rfl, h⟩
  · exact .inr h
  · exact .inl (.inr h)
  · exact .inl (.inl (.inl (.inr h)))
  · refine .inl (.inl (.inr ?_))
    split <;> simp <;> omega
  · exact .inl (.inl (.inr (by simp; omega)))

/-! What the work of a transfer leaves of the rings, the queued writes and the registers of its engine. -/

theorem memsys_decideUnit (d : Dev) (w : Nat) (x : TableSet) (recs : List Rec) (k c : Nat) : (d.decideUnit w x recs k c).memsys = d.memsys := by
  unfold Dev.decideUnit
  split
  · rfl
  · have hinj : (if d.skimInjected (d.wdPort w) w = true then d.flag (SKM.U_INJ_ARM (d.wdPort w)) false else d).memsys = d.memsys :=
      ite_leaves Dev.memsys rfl rfl
    exact ite_leaves Dev.memsys hinj hinj

theorem memsys_linAdvance (d : Dev) (w k : Nat) : (d.linAdvance w k).memsys = d.memsys := by
  have hdecided (c : Prop) [Decidable c] (l : List Nat) (x : TableSet) (recs : List Rec) :
      (if c then l.foldl (fun d u => d.decideUnit w x recs k u) d else d).memsys = d.memsys :=
    ite_leaves Dev.memsys (foldl_leaves Dev.memsys _ (fun d u => memsys_decideUnit d w x recs k u) l d) rfl
  unfold Dev.linAdvance
  split
  · rfl
  · dsimp only
    split
    · exact hdecided _ _ _ _
    · exact ite_leaves Dev.memsys (hdecided _ _ _ _) (ite_leaves Dev.memsys (hdecided _ _ _ _) (hdecided _ _ _ _))

theorem memsys_afterRecord (d : Dev) (w k : Nat) : (d.afterRecord w k).memsys = d.memsys := by
  unfold Dev.afterRecord
  split
  · exact memsys_linAdvance d w k
  · refine ite_leaves Dev.memsys rfl ?_
    unfold Dev.stnAdvance
    split
    · rfl
    · exact ite_leaves Dev.memsys rfl rfl
  · rfl

theorem memsys_planCheckins (d : Dev) : d.planCheckins.memsys = d.memsys := by
  have hcheckIn (d : Dev) (w task : Nat) : (d.checkIn w task).memsys = d.memsys := by
    unfold Dev.checkIn
    split
    · rfl
    · exact ite_leaves Dev.memsys rfl (ite_leaves Dev.memsys rfl rfl)
  have htick (d : Dev) (j : Nat) : (d.planTick j).memsys = d.memsys := by
    refine foldl_leaves Dev.memsys _ (fun d task => ite_leaves Dev.memsys rfl ?_) _ _
    exact (foldl_leaves Dev.memsys _ (fun d w => hcheckIn d w task) _ _).trans rfl
  exact ite_leaves Dev.memsys rfl (foldl_leaves Dev.memsys _ htick _ _)

/-- The rings and the queued writes. -/
def queues (d : Dev) : Tab (List DmaDesc) × List MemWrite := (d.memsys.rings, d.memsys.writes)

theorem queues_memsys {d e : Dev} (h : e.memsys = d.memsys) : queues e = queues d := by simp only [queues, h]

/-- A transfer that moved leaves the rings and the writes queued, and of registers those that an owner's work changes. -/
theorem dmaServed_done (d : Dev) (e : Nat) (q : ArrQueue) (x : DmaDesc) (o : OpOwner) :
    queues (d.dmaServed e q x o 0) = queues d ∧ ∀ f : Fld, f.key ∉ ownerKeys → (d.dmaServed e q x o 0).fld f = d.fld f := by
  have htables (a : Dev) : queues (a.tablesIn o) = queues a ∧ ∀ f : Fld, f.key ∉ ownerKeys → (a.tablesIn o).fld f = a.fld f := by
    unfold Dev.tablesIn
    split
    · dsimp only
      split
      · exact ⟨queues_memsys (memsys_afterRecord _ _ _), (keeps_afterRecord _ _ _).regs⟩
      · exact ⟨rfl, fun _ _ => rfl⟩
    · exact ⟨rfl, fun _ _ => rfl⟩
  unfold Dev.dmaServed
  dsimp only
  split
  · exact ⟨rfl, fun _ _ => rfl⟩
  · rw [if_neg (by simp)]
    cases q with
    | plan => exact ⟨(htables _).1, (htables _).2⟩
    | background => exact ⟨rfl, fun _ _ => rfl⟩

theorem lastStatus_apart {e : Nat} (h : e < 4) : (MEM.DMA_STAT_LAST_STATUS e).key ∉ ownerKeys ∧ (MEM.DMA_STAT_LAST_STATUS e).key ∉ safeKeys := by
  interval_cases e <;> decide

/-- The end of a descriptor that moved, or was dropped: the check-ins of the plan, and the operations that it made ready. -/
theorem ended_leaves (d old : Dev) : queues (d.planCheckins.readied old) = queues d ∧
    ∀ f : Fld, f.key ∉ ownerKeys → (d.planCheckins.readied old).fld f = d.fld f :=
  ⟨queues_memsys (memsys_planCheckins d), (keeps_planCheckins d).regs⟩

end Sys2Proof.Proofs.Scope
end

section
/-!
PROOF. Transfers (R224 to R226, R233 to R237).
-/

namespace Sys2Proof.Proofs.Scope

open Sys2Proof.Machine Sys2Proof.Laws

/-- The memory that a transfer reads: what earlier descriptors of its ring overwrote may read old, and failing cells are marked. -/
def readAs (d : Dev) (m : Mem) (e : Nat) (q : ArrQueue) (x : DmaDesc) (errors : List ReadErr) : Mem :=
  (m.putAll (d.earlyRead (ringKey e q) x).1.reverse).putAll (errorMarks m errors)

/-- The device as the transfer begins. -/
def begun (d : Dev) (e : Nat) (q : ArrQueue) (x : DmaDesc) : Dev := ((d.earlyRead (ringKey e q) x).2.cacheNow e).2

/-- What the transfer translates with. -/
def envOf (d : Dev) (m : Mem) (e : Nat) (q : ArrQueue) (x : DmaDesc) (errors : List ReadErr) : XltEnv :=
  ⟨x.poster, readAs d m e q x errors, lineBad (readAs d m e q x errors), ((d.earlyRead (ringKey e q) x).2.cacheNow e).1⟩

/-- MEM_INJ is armed for a translation fault of this engine. -/
def faultArmed (d : Dev) (e : Nat) : Bool := d.on MEM.INJ_ARM && d.fld MEM.INJ_MODE == 5 && d.fld MEM.INJ_CLUSTER == e

/-- The bytes that move, and the fault that ends the move. -/
def moved (d : Dev) (env : XltEnv) (e : Nat) (x : DmaDesc) (limit : Option Nat) : List (Nat × Nat) × Option DmaFault :=
  let u := if d.dmaHbm env x then 64 else 1
  if faultArmed d e then ([], some ⟨5, x.src, x.srcOff, false, 0⟩)
  else d.moveUnits env x u ((x.units u).take ((limit.map (· * (64 / u))).getD (x.units u).length))

/-- The writes of the bytes that have moved. -/
def landing (m : Mem) (pairs : List (Nat × Nat)) : List MemWrite :=
  pairs.map (fun p => ⟨p.2, m.byte p.1, if lineBad m p.1 then .double else .sound⟩)

/-- What a transfer overwrites is noted for later descriptors of its ring, and its lines count. -/
def noted (d : Dev) (undo : Tab (List MemWrite)) (lines : Tab Nat) : Dev := { d with memsys := { d.memsys with undo := undo, lines := lines } }

/-- The bytes moved are written. -/
def stored (d : Dev) (m : Mem) (env : XltEnv) (e : Nat) (q : ArrQueue) (x : DmaDesc) (errors : List ReadErr) (pairs : List (Nat × Nat)) : Dev :=
  let read := (pairs.map (fun p => readUnit p.1)).dedup
  let met := (errorMarks m errors).filter (fun w => read.contains (readUnit w.addr))
  let old := (landing env.mem pairs).map (fun w => (⟨w.addr, m.byte w.addr, m.checkAt w.addr⟩ : MemWrite))
  let d1 := ((d.walked env e x).store met).store (landing env.mem pairs)
  noted d1 (tabUpd [] d1.memsys.undo (ringKey e q) (fun l => (if x.fence then [] else l) ++ old))
    (if q = ArrQueue.plan then tabUpd 0 d1.memsys.lines e (· + cdiv pairs.length 64) else d1.memsys.lines)

/-- The bytes moved are written, and what their reads show is counted. -/
def landed (d : Dev) (m : Mem) (env : XltEnv) (e : Nat) (q : ArrQueue) (x : DmaDesc) (errors : List ReadErr) (pairs : List (Nat × Nat)) : Dev × Bool :=
  let read := (pairs.map (fun p => readUnit p.1)).dedup
  let met := (errorMarks m errors).filter (fun w => read.contains (readUnit w.addr))
  let r := ((stored d m env e q x errors pairs).retries read errors).readMem env.mem (10 + e) (pairs.map (fun p => (p.1, 1)))
  (r.1.injectWrite e ((m.putAll met).putAll (landing env.mem pairs)) (pairs.map Prod.snd), r.2)

/-- A fault ends the transfer. -/
def faulted (d : Dev) (e : Nat) (f : DmaFault) (inj : Bool) : Dev :=
  let d1 := d.xlateFault f.cause (10 + e) f.handle f.off f.write
  let d2 := if f.cause = 8 then (d1.ueInfo 7 0 (10 + e) f.addr).raise .x 83 else d1
  if inj then d2.memInjSeen else d2

/-- A transfer, in these terms. -/
theorem transfer_eq (d : Dev) (m : Mem) (e : Nat) (q : ArrQueue) (x : DmaDesc) (errors : List ReadErr) (limit : Option Nat) :
    d.transfer m e q x errors limit =
      if (begun d e q x).dmaHbm (envOf d m e q x errors) x && !(begun d e q x).reach .x then ⟨begun d e q x, 0, false⟩
      else if (begun d e q x).dmaInvalid (envOf d m e q x errors) x then ⟨(begun d e q x).raise .x 85, 3, true⟩
      else match (moved (begun d e q x) (envOf d m e q x errors) e x limit).2 with
        | some f => ⟨faulted (landed (begun d e q x) m (envOf d m e q x errors) e q x errors
            (moved (begun d e q x) (envOf d m e q x errors) e x limit).1).1 e f (faultArmed (begun d e q x) e), 2, true⟩
        | none => ⟨(landed (begun d e q x) m (envOf d m e q x errors) e q x errors
            (moved (begun d e q x) (envOf d m e q x errors) e x limit).1).1,
            if (landed (begun d e q x) m (envOf d m e q x errors) e q x errors
              (moved (begun d e q x) (envOf d m e q x errors) e x limit).1).2 then 1 else 0, true⟩ := by
  unfold Dev.transfer begun envOf readAs
  dsimp only
  generalize d.earlyRead (ringKey e q) x = p
  obtain ⟨early, d0⟩ := p
  dsimp only
  generalize d0.cacheNow e = p
  obtain ⟨cache, d1⟩ := p
  dsimp only
  refine if_congr Iff.rfl rfl ?_
  refine if_congr Iff.rfl rfl ?_
  unfold moved faultArmed
  dsimp only
  generalize (if (d1.on MEM.INJ_ARM && d1.fld MEM.INJ_MODE == 5 && d1.fld MEM.INJ_CLUSTER == e) = true
    then (([] : List (Nat × Nat)), some (⟨5, x.src, x.srcOff, false, 0⟩ : DmaFault)) else _) = p
  obtain ⟨pairs, fault⟩ := p
  cases fault
  · dsimp only [landed, stored, noted, landing]
    rfl
  · dsimp only [landed, stored, noted, landing, faulted]

/-! The rings stay as a transfer runs. -/

/-- The rings of a device. -/
def rings (d : Dev) : Tab (List DmaDesc) := d.memsys.rings

theorem begun_dev (d : Dev) (e : Nat) (q : ArrQueue) (x : DmaDesc) : ∃ n, begun d e q x = { d with free := n } := by
  have hdrawn (a : Dev) (n : Nat) : ∃ k, (a.drawN n).2 = { a with free := k } := ⟨_, drawN_dev n a⟩
  obtain ⟨n, hn⟩ : ∃ n, (d.earlyRead (ringKey e q) x).2 = { d with free := n } := hdrawn d _
  obtain ⟨k, hk⟩ : ∃ k, ((d.earlyRead (ringKey e q) x).2.cacheNow e).2 = { (d.earlyRead (ringKey e q) x).2 with free := k } := hdrawn _ _
  exact ⟨k, hk.trans (by rw [hn])⟩

theorem rings_raise (d : Dev) (y : Die) (n : Nat) : rings (d.raise y n) = rings d := congrArg MemSys.rings (raise_raises d y n).memsys

theorem rings_walked (d : Dev) (env : XltEnv) (e : Nat) (x : DmaDesc) : rings (d.walked env e x) = rings d :=
  (Reads.foldl Dev.correctedRead reads_correctedRead _ _).rings

theorem rings_retries (d : Dev) (read : List Nat) (errors : List ReadErr) : rings (d.retries read errors) = rings d := by
  refine foldl_leaves rings _ (fun d a => ?_) _ _
  cases a with
  | corrected b => rfl
  | uncorrectable b => rfl
  | retried b lane => exact ite_leaves rings rfl rfl

theorem rings_injectWrite (d : Dev) (e : Nat) (m : Mem) (dst : List Nat) : rings (d.injectWrite e m dst) = rings d := by
  refine ite_leaves rings rfl ?_
  dsimp only
  split <;> rfl

theorem rings_stored (d : Dev) (m : Mem) (env : XltEnv) (e : Nat) (q : ArrQueue) (x : DmaDesc) (errors : List ReadErr) (pairs : List (Nat × Nat)) :
    rings (stored d m env e q x errors pairs) = rings d := by
  have hnoted (a : Dev) (u : Tab (List MemWrite)) (l : Tab Nat) : rings (noted a u l) = rings a := rfl
  have hstore (a : Dev) (w : List MemWrite) : rings (a.store w) = rings a := rfl
  rw [stored, hnoted, hstore, hstore, rings_walked]

theorem rings_landed (d : Dev) (m : Mem) (env : XltEnv) (e : Nat) (q : ArrQueue) (x : DmaDesc) (errors : List ReadErr) (pairs : List (Nat × Nat)) :
    rings (landed d m env e q x errors pairs).1 = rings d :=
  (rings_injectWrite _ _ _ _).trans ((reads_readMem _ _ _ _).rings.trans ((rings_retries _ _ _).trans (rings_stored d m env e q x errors pairs)))

theorem rings_faulted (d : Dev) (e : Nat) (f : DmaFault) (inj : Bool) : rings (faulted d e f inj) = rings d := by
  have hfault : rings (d.xlateFault f.cause (10 + e) f.handle f.off f.write) = rings d := by
    unfold Dev.xlateFault
    exact (rings_raise _ _ _).trans (ite_leaves rings rfl rfl)
  have hheld (a : Dev) (n k : Nat) : rings (a.ueInfo 7 0 n k) = rings a := ite_leaves rings rfl rfl
  have hwalk : rings (if f.cause = 8 then ((d.xlateFault f.cause (10 + e) f.handle f.off f.write).ueInfo 7 0 (10 + e) f.addr).raise .x 83
      else d.xlateFault f.cause (10 + e) f.handle f.off f.write) = rings d :=
    ite_leaves rings ((rings_raise _ _ _).trans ((hheld _ _ _).trans hfault)) hfault
  exact ite_leaves rings hwalk hwalk

/-- A transfer leaves every ring alone, and it ends where its engine reaches the X-die. -/
theorem transfer_rings (d : Dev) (m : Mem) (e : Nat) (q : ArrQueue) (x : DmaDesc) (errors : List ReadErr) (limit : Option Nat) :
    rings (d.transfer m e q x errors limit).dev = rings d ∧ (d.reach .x = true → (d.transfer m e q x errors limit).ended = true) := by
  obtain ⟨n, hn⟩ := begun_dev d e q x
  have hrings : rings (begun d e q x) = rings d := by rw [hn]; rfl
  have hreach : (begun d e q x).reach .x = d.reach .x := by rw [hn]; rfl
  rw [transfer_eq]
  generalize begun d e q x = d1 at *
  split
  next h => exact ⟨hrings, fun hr => by simp [hreach, hr] at h⟩
  · split
    · exact ⟨(rings_raise _ _ _).trans hrings, fun _ => rfl⟩
    · split
      · exact ⟨(rings_faulted _ _ _ _).trans ((rings_landed _ _ _ _ _ _ _ _).trans hrings), fun _ => rfl⟩
      · exact ⟨(rings_landed _ _ _ _ _ _ _ _).trans hrings, fun _ => rfl⟩

/-! What a transfer translates depends on neither the rings nor the count of free values. -/

theorem xlate_rings (d : Dev) (r : Tab (List DmaDesc)) (m : Mem) (bad : Nat → Bool) (cache : List XltEntry) (poster h off : Nat) (w : Bool) :
    Dev.xlate { d with memsys := { d.memsys with rings := r } } m bad cache poster h off w = d.xlate m bad cache poster h off w := rfl

theorem moveUnits_rings (d : Dev) (r : Tab (List DmaDesc)) (env : XltEnv) (x : DmaDesc) (u : Nat) (l : List (Nat × Nat)) :
    Dev.moveUnits { d with memsys := { d.memsys with rings := r } } env x u l = d.moveUnits env x u l := by
  induction l with
  | nil => rfl
  | cons p l ih =>
    obtain ⟨so, dst⟩ := p
    have hfault (h o : Nat) (w : Bool) : Dev.unitFault { d with memsys := { d.memsys with rings := r } } env h o u w = d.unitFault env h o u w := rfl
    simp only [Dev.moveUnits, ih, hfault, xlate_rings]

end Sys2Proof.Proofs.Scope
end

section
/-!
PROOF. The end of a descriptor (R237, R242): what a valid transfer moves, and how a dropped one ends.
-/

namespace Sys2Proof.Proofs.Scope

open Sys2Proof.Machine Sys2Proof.Laws

/-! Memory under a list of writes. -/

/-- Writes to places of their own: each place holds its byte. -/
theorem byte_putAll_mem (ws : List MemWrite) : ∀ m : Mem, (ws.map MemWrite.addr).Nodup → ∀ w ∈ ws, (m.putAll ws).byte w.addr = w.byte := by
  induction ws with
  | nil => simp
  | cons w ws ih =>
    intro m hn x hx
    rw [List.map_cons, List.nodup_cons] at hn
    obtain ⟨hfirst, hrest⟩ := hn
    rcases List.mem_cons.mp hx with rfl | hx
    · have hother : ∀ y ∈ ws, y.addr ≠ x.addr := fun y hy hk => hfirst (hk ▸ List.mem_map_of_mem hy)
      exact (Mem.byte_putAll_other ws (m.put x) hother).trans (Mem.byte_put_same m x)
    · exact ih (m.put w) hrest x hx

/-- An entry of a canonical table is what its key reads as. -/
theorem tabGet_mem {α : Type} (z : α) {t : Tab α} (h : tabSorted t = true) {e : Nat × α} (he : e ∈ t) : tabGet z t e.1 = e.2 := by
  induction t with
  | nil => simp at he
  | cons a t ih =>
    rcases List.mem_cons.mp he with rfl | he
    · simp [tabGet]
    · have hlt := tabSorted_lt h e he
      rw [tabGet, if_neg (by omega)]
      exact ih (tabSorted_tail h) he

/-- Bytes that no bad line holds read without an uncorrectable error. -/
theorem marked_sound {m : Mem} (hw : Memory.wf m = true) {l : List Nat} (h : ∀ a ∈ l, lineBad m a = false) :
    m.marked .double (l.map (fun a => (a, 1))) = [] := by
  have hsorted : tabSorted m.check = true := by
    simp only [Memory.wf, tabWf, Bool.and_eq_true] at hw
    exact hw.2.1
  have hnone : ∀ k ∈ m.check, ¬(k.2 = Check.double ∧ ∃ a ∈ l, readUnit a ≤ readUnit k.1 ∧ readUnit k.1 < a + 1) := by
    rintro k hk ⟨hd, a, ha, hlo, hhi⟩
    have hbad : m.bad k.1 = true := by simp [Mem.bad, Mem.checkAt, tabGet_mem .sound hsorted hk, hd]
    have hline := h a ha
    unfold lineBad at hline
    unfold readUnit at hlo hhi
    by_cases hA : a < hbmSize
    · rw [if_pos hA] at hlo hline
      by_cases hK : k.1 < hbmSize
      · rw [if_pos hK] at hlo hhi
        have hsame : k.1 = a / 64 * 64 + k.1 % 64 := by omega
        simp only [badRange, List.any_eq_false, List.mem_range] at hline
        exact hline (k.1 % 64) (Nat.mod_lt _ (by norm_num)) (hsame ▸ hbad)
      · rw [if_neg hK] at hlo hhi
        omega
    · rw [if_neg hA] at hlo hline
      by_cases hK : k.1 < hbmSize
      · rw [if_pos hK] at hlo hhi
        omega
      · rw [if_neg hK] at hlo hhi
        rw [show a = k.1 by omega, hbad] at hline
        simp at hline
  unfold Mem.marked
  rw [List.dedup_eq_nil, List.filterMap_eq_nil_iff]
  intro k hk
  have := hnone k hk
  refine if_neg ?_
  simp only [Bool.and_eq_true, beq_iff_eq, List.any_map, List.any_eq_true, Function.comp, decide_eq_true_eq, bne_iff_ne]
  rintro ⟨hd, a, ha, ⟨_, hlo⟩, hhi⟩
  exact this ⟨hd, a, ha, hlo, hhi⟩

/-- The walks of a transfer queue no write and arm no injection. -/
theorem walked_kept (d : Dev) (env : XltEnv) (e : Nat) (x : DmaDesc) : (d.walked env e x).memsys.writes = d.memsys.writes ∧
    (d.on MEM.INJ_ARM = false → (d.walked env e x).on MEM.INJ_ARM = false) := by
  obtain ⟨c, hread⟩ : ∃ c, Reads { d with memsys := { d.memsys with xlt := c } } (d.walked env e x) := ⟨_, Reads.foldl _ reads_correctedRead _ _⟩
  exact ⟨hread.writes, fun h => hread.unarmed h⟩

theorem injectWrite_unarmed {d : Dev} (h : d.on MEM.INJ_ARM = false) (e : Nat) (m : Mem) (dst : List Nat) : d.injectWrite e m dst = d :=
  if_pos (by simp [h])

/-- Without errors and an armed injection, the bytes that move are all that is written. -/
theorem landed_valid {d : Dev} {m : Mem} (env : XltEnv) (e : Nat) (q : ArrQueue) (x : DmaDesc) (pairs : List (Nat × Nat))
    (hi : d.on MEM.INJ_ARM = false) (hs : env.mem.marked .double (pairs.map (fun p => (p.1, 1))) = []) :
    (landed d m env e q x [] pairs).1.memsys.writes = d.memsys.writes ++ landing env.mem pairs ∧ (landed d m env e q x [] pairs).2 = false := by
  obtain ⟨hwrites, hunarmed⟩ := walked_kept d env e x
  have hreads := fun a : Dev => reads_readMem a env.mem (10 + e) (pairs.map (fun p => (p.1, 1)))
  have hstored : (stored d m env e q x [] pairs).memsys.writes = d.memsys.writes ++ landing env.mem pairs := by
    have hnoted (a : Dev) (u : Tab (List MemWrite)) (l : Tab Nat) : (noted a u l).memsys.writes = a.memsys.writes := rfl
    simp only [stored, hnoted, Dev.store_writes, hwrites, errorMarks, List.flatMap_nil, List.filter_nil, List.append_nil]
  have hstored' : (stored d m env e q x [] pairs).on MEM.INJ_ARM = false := by
    have hnoted (a : Dev) (u : Tab (List MemWrite)) (l : Tab Nat) : (noted a u l).on MEM.INJ_ARM = a.on MEM.INJ_ARM := rfl
    have hstore (a : Dev) (w : List MemWrite) : (a.store w).on MEM.INJ_ARM = a.on MEM.INJ_ARM := rfl
    rw [stored, hnoted, hstore, hstore, hunarmed hi]
  unfold landed
  simp only [Dev.retries, List.foldl_nil]
  generalize stored d m env e q x [] pairs = y at *
  refine ⟨?_, readMem_sound _ _ hs⟩
  rw [injectWrite_unarmed ((hreads y).unarmed hstored'), (hreads y).writes, hstored]

section Valid

variable {d : Dev} {m : Mem} {e u : Nat} {q : ArrQueue} {x : DmaDesc} {pairs : List (Nat × Nat)}

/-- What a transfer without early reads and cache entries begins with. -/
theorem begun_fresh (he : x.fence = true ∨ tabGet [] d.memsys.undo (ringKey e q) = []) (hc : ∀ y ∈ d.memsys.xlt, y.unit ≠ e) :
    begun d e q x = d ∧ envOf d m e q x [] = ⟨x.poster, m, lineBad m, []⟩ := by
  have hearly : d.earlyRead (ringKey e q) x = ([], d) := by
    have hl : (if x.fence = true then [] else tabGet [] d.memsys.undo (ringKey e q)) = [] := by
      split
      · rfl
      · exact he.resolve_left ‹_›
    simp [Dev.earlyRead, hl, Dev.drawN]
  have hcache : d.cacheNow e = ([], d) := by
    have hl : d.memsys.xlt.filter (fun y => y.unit == e) = [] := List.filter_eq_nil_iff.mpr (fun y hy => by simpa using hc y hy)
    simp [Dev.cacheNow, hl, Dev.drawN]
  exact ⟨by simp only [begun, hearly, hcache], by simp only [envOf, readAs, hearly, hcache]; rfl⟩

/-- A valid transfer that meets no error moves its bytes, with status 0. -/
theorem transfer_valid (hw : Memory.wf m = true) (hr : d.reach .x = true) (hu : u = if d.dmaHbm ⟨x.poster, m, lineBad m, []⟩ x then 64 else 1)
    (hi : d.on MEM.INJ_ARM = false) (he : x.fence = true ∨ tabGet [] d.memsys.undo (ringKey e q) = []) (hc : ∀ y ∈ d.memsys.xlt, y.unit ≠ e)
    (hv : d.dmaInvalid ⟨x.poster, m, lineBad m, []⟩ x = false) (hm : d.moveUnits ⟨x.poster, m, lineBad m, []⟩ x u (x.units u) = (pairs, none))
    (hb : ∀ p ∈ pairs, lineBad m p.1 = false) :
    (d.transfer m e q x [] none).status = 0 ∧ (d.transfer m e q x [] none).ended = true ∧
    (d.transfer m e q x [] none).dev.memsys.writes = d.memsys.writes ++ landing m pairs := by
  obtain ⟨hbegun, henv⟩ := begun_fresh (m := m) he hc
  have harm : faultArmed d e = false := by simp [faultArmed, hi]
  have hmoved : moved d ⟨x.poster, m, lineBad m, []⟩ e x none = (pairs, none) := by
    unfold moved
    dsimp only
    rw [harm, ← hu]
    simpa using hm
  rw [transfer_eq, hbegun, henv, hr, hv, hmoved]
  simp only [Bool.not_true, Bool.and_false, Bool.false_eq_true, if_false]
  have hsound : m.marked .double (pairs.map (fun p => (p.1, 1))) = [] := by
    have := marked_sound hw (l := pairs.map Prod.fst) (by simpa using hb)
    rwa [List.map_map] at this
  obtain ⟨hwrites, hread⟩ := landed_valid (m := m) ⟨x.poster, m, lineBad m, []⟩ e q x pairs hi hsound
  exact ⟨if_neg (by simp [hread]), trivial, hwrites⟩

end Valid

/-! The oldest descriptor of a ring ends. -/

/-- What the last descriptor of a ring leaves of the bytes that it has overwritten: nothing. -/
def cleared (z : Dev) (e : Nat) (q : ArrQueue) (rest : List DmaDesc) : Dev :=
  if rest == [] then { z with memsys := { z.memsys with undo := tabErase z.memsys.undo (ringKey e q) } } else z

theorem queues_cleared (z : Dev) (e : Nat) (q : ArrQueue) (rest : List DmaDesc) : queues (cleared z e q rest) = queues z := ite_leaves queues rfl rfl

section Complete

variable {s : State} {e : Nat} {q : ArrQueue} {x : DmaDesc} {rest : List DmaDesc} (hd : s.dev.dead = false) (he : e < 4)
  (hc : s.dev.reach (clusterDie e) = true) (hx : s.dev.reach .x = true) (hr : s.dev.ring e q = x :: rest)

/-- The end of a dropped descriptor. -/
theorem dmaComplete_dropped {d : Dev} (m : Mem) (hr : d.ring e q = x :: rest) (hdrop : x.dropped = true) (errors : List ReadErr) :
    ∃ limit v, ∀ z, z = (({ d with free := v } : Dev).putRing e q rest).transfer m e q x errors limit → z.ended = true →
      d.dmaComplete m e q errors = (((cleared z.dev e q rest).put (MEM.DMA_STAT_LAST_STATUS e) 4).planCheckins).readied d := by
  refine ⟨some (Config.free d.free % (x.rows * cdiv x.rowBytes 64 + 1)), d.free + 1, fun z hz hend => ?_⟩
  simp only [Dev.dmaComplete, hr, hdrop, if_true, Dev.draw, ← hz, hend, Bool.not_true, Bool.false_eq_true, if_false]
  cases x.owner <;> rfl

/-- The end of one that was not dropped. -/
theorem dmaComplete_moved {d : Dev} (m : Mem) (hr : d.ring e q = x :: rest) (hdrop : x.dropped = false) (errors : List ReadErr) {z : DmaEnd}
    (hz : (d.putRing e q rest).transfer m e q x errors none = z) (hend : z.ended = true) :
    d.dmaComplete m e q errors = ((match x.owner with
      | some o => ((cleared z.dev e q rest).put (MEM.DMA_STAT_LAST_STATUS e) z.status).dmaServed e q x o z.status
      | none => (cleared z.dev e q rest).put (MEM.DMA_STAT_LAST_STATUS e) z.status).planCheckins).readied d := by
  simp only [Dev.dmaComplete, hr, hdrop, Bool.false_eq_true, if_false, hz, hend, Bool.not_true]
  cases x.owner <;> rfl

include hd he hc hx hr

/-- A descriptor that was dropped ends with status 4 (Table 07.12). -/
theorem dropped_ends (hdrop : x.dropped = true) (errors : List ReadErr) : Yields (exec (.dmaDescriptorComplete e q errors) s) (fun t =>
    t.dev.ring e q = rest ∧ t.dev.fld (MEM.DMA_STAT_LAST_STATUS e) = 4) := by
  obtain ⟨howner, hsafe⟩ := lastStatus_apart he
  obtain ⟨limit, v, hcomplete⟩ := dmaComplete_dropped s.mem hr hdrop errors
  obtain ⟨hrings, hended⟩ := transfer_rings (({ s.dev with free := v } : Dev).putRing e q rest) s.mem e q x errors limit
  have hends := hcomplete _ rfl (hended hx)
  generalize (({ s.dev with free := v } : Dev).putRing e q rest).transfer s.mem e q x errors limit = z at *
  obtain ⟨hqueues, hregs⟩ := ended_leaves ((cleared z.dev e q rest).put (MEM.DMA_STAT_LAST_STATUS e) 4) s.dev
  refine run_body hd ((if_pos (by simp [he, hc])).trans hends) ⟨?_, ?_⟩
  · rw [ring_runOn]
    have hring : rings z.dev = rings (s.dev.putRing e q rest) := hrings
    exact (ring_congr ((congrArg Prod.fst (hqueues.trans (queues_cleared z.dev e q rest))).trans hring) e q).trans (ring_putRing _ _ _ _)
  · exact (runOn_fld s _ hsafe).trans ((hregs _ howner).trans (Dev.fld_put_same _ _ _))

/-- A valid transfer that meets no error ends with status 0 and moves its bytes. -/
theorem valid_ends (hw : Memory.wf s.mem = true) (hm : s.dev.memsys.writes = []) {env : XltEnv} {u : Nat} {pairs : List (Nat × Nat)}
    (henv : env = ⟨x.poster, s.mem, lineBad s.mem, []⟩) (hu : u = if s.dev.dmaHbm env x then 64 else 1) (hdrop : x.dropped = false)
    (hi : s.dev.on MEM.INJ_ARM = false) (hearly : x.fence = true ∨ tabGet [] s.dev.memsys.undo (ringKey e q) = [])
    (hcache : ∀ y ∈ s.dev.memsys.xlt, y.unit ≠ e) (hv : s.dev.dmaInvalid env x = false)
    (hmove : s.dev.moveUnits env x u (x.units u) = (pairs, none)) (hb : ∀ p, p ∈ pairs → lineBad s.mem p.1 = false)
    (hn : (pairs.map (·.2)).Nodup) : Yields (exec (.dmaDescriptorComplete e q []) s) (fun t =>
      t.dev.ring e q = rest ∧ t.dev.fld (MEM.DMA_STAT_LAST_STATUS e) = 0 ∧ (∀ p, p ∈ pairs → t.mem.byte p.2 = s.mem.byte p.1) ∧
      ∀ a, a ∉ pairs.map (·.2) → t.mem.byte a = s.mem.byte a) := by
  subst henv
  obtain ⟨howner, hsafe⟩ := lastStatus_apart he
  obtain ⟨hstatus, hended, hwrites⟩ := transfer_valid (d := s.dev.putRing e q rest) hw hx hu hi hearly hcache hv
    ((moveUnits_rings s.dev _ _ x u _).trans hmove) hb
  obtain ⟨hrings, -⟩ := transfer_rings (s.dev.putRing e q rest) s.mem e q x [] none
  have hcomplete := dmaComplete_moved s.mem hr hdrop [] (z := (s.dev.putRing e q rest).transfer s.mem e q x [] none) rfl hended
  generalize (s.dev.putRing e q rest).transfer s.mem e q x [] none = z at *
  rw [hstatus] at hcomplete
  /- The owner's account, the check-ins and the operations made ready leave rings, writes and the status alone. -/
  obtain ⟨y, hy, hq, hf⟩ : ∃ y, s.dev.dmaComplete s.mem e q [] = y ∧ queues y = queues z.dev ∧ y.fld (MEM.DMA_STAT_LAST_STATUS e) = 0 := by
    have hput := (Dev.fld_put_same (cleared z.dev e q rest) (MEM.DMA_STAT_LAST_STATUS e) 0)
    refine ⟨_, hcomplete, ?_⟩
    split
    next o _ =>
      obtain ⟨hserved, hregs⟩ := dmaServed_done ((cleared z.dev e q rest).put (MEM.DMA_STAT_LAST_STATUS e) 0) e q x o
      obtain ⟨hqueues, hregs'⟩ := ended_leaves (((cleared z.dev e q rest).put (MEM.DMA_STAT_LAST_STATUS e) 0).dmaServed e q x o 0) s.dev
      exact ⟨hqueues.trans (hserved.trans (queues_cleared z.dev e q rest)), (hregs' _ howner).trans ((hregs _ howner).trans hput)⟩
    next =>
      obtain ⟨hqueues, hregs'⟩ := ended_leaves ((cleared z.dev e q rest).put (MEM.DMA_STAT_LAST_STATUS e) 0) s.dev
      exact ⟨hqueues.trans (queues_cleared z.dev e q rest), (hregs' _ howner).trans hput⟩
  have hempty : (s.dev.putRing e q rest).memsys.writes = [] := hm
  have hwritten : y.memsys.writes = landing s.mem pairs := (congrArg Prod.snd hq).trans (hwrites.trans (by rw [hempty]; rfl))
  have haddrs : (landing s.mem pairs).map MemWrite.addr = pairs.map (·.2) := by simp [landing]
  refine run_body hd ((if_pos (by simp [he, hc])).trans hy) ⟨?_, (runOn_fld s _ hsafe).trans hf, fun p hp => ?_, fun a ha => ?_⟩
  · rw [ring_runOn]
    exact (ring_congr ((congrArg Prod.fst hq).trans hrings) e q).trans (ring_putRing _ _ _ _)
  · rw [runOn_mem, hwritten]
    exact byte_putAll_mem _ s.mem (haddrs ▸ hn) ⟨p.2, s.mem.byte p.1, _⟩ (List.mem_map_of_mem hp)
  · rw [runOn_mem, hwritten]
    refine Mem.byte_putAll_other _ _ (fun w hw hk => ha ?_)
    rw [← haddrs, ← hk]
    exact List.mem_map_of_mem hw

end Complete

end Sys2Proof.Proofs.Scope
end

section
/-!
PROOF. Pages that have been retired (R245, R246), and the commands of the translation caches and of the held errors (R234, R250).
-/

namespace Sys2Proof.Proofs.Scope

open Sys2Proof.Machine Sys2Proof.Laws

theorem memWrites_addr {w : MemWrite} (bs : List Byte) : ∀ {a : Nat}, w ∈ memWrites a bs → a ≤ w.addr ∧ w.addr < a + bs.length := by
  induction bs with
  | nil => intro a hw; simp [memWrites] at hw
  | cons b bs ih =>
    intro a hw
    rw [memWrites] at hw
    rcases List.mem_cons.mp hw with rfl | hw
    · simp
    · have := ih hw
      simp only [List.length_cons]
      omega

theorem leBytes_length (n v : Nat) : (leBytes n v).length = n := by
  induction n generalizing v with
  | zero => rfl
  | succ n ih => simp [leBytes, ih]

theorem putAll_append (m : Mem) (a b : List MemWrite) : m.putAll (a ++ b) = (m.putAll a).putAll b := List.foldl_append

/-- A page is copied to its spare; beside it only entries of page tables change. -/
theorem copied_byte (m : Mem) (page spare : Nat) {a : Nat} (ha : ∀ p ∈ pteOf m page, a < p.2 ∨ p.2 + 8 ≤ a) :
    (a / 65536 = spare → (m.putAll (pageCopy m page spare ++ pteWrites m page spare)).byte a = m.byte (page * 65536 + a % 65536)) ∧
    (a / 65536 ≠ spare → (m.putAll (pageCopy m page spare ++ pteWrites m page spare)).byte a = m.byte a) := by
  have htables : ∀ w ∈ pteWrites m page spare, w.addr ≠ a := by
    intro w hw hk
    obtain ⟨p, hp, hw⟩ := List.mem_flatMap.mp hw
    have := memWrites_addr _ hw
    rw [leBytes_length] at this
    have := ha p hp
    omega
  rw [putAll_append, Mem.byte_putAll_other _ _ htables]
  have haddrs : (pageCopy m page spare).map MemWrite.addr = (List.range 65536).map (fun i => spare * 65536 + i) := by
    simp only [pageCopy, List.map_map]
    rfl
  constructor
  · intro h
    have hn : ((pageCopy m page spare).map MemWrite.addr).Nodup := by
      rw [haddrs]
      exact List.nodup_range.map (fun i j hij => by simpa using hij)
    have hw : (⟨spare * 65536 + a % 65536, m.byte (page * 65536 + a % 65536), m.checkAt (page * 65536 + a % 65536)⟩ : MemWrite) ∈
        pageCopy m page spare :=
      List.mem_map.mpr ⟨a % 65536, List.mem_range.mpr (Nat.mod_lt _ (by norm_num)), rfl⟩
    have hbyte := byte_putAll_mem _ m hn _ hw
    rwa [show (⟨spare * 65536 + a % 65536, m.byte (page * 65536 + a % 65536), m.checkAt (page * 65536 + a % 65536)⟩ : MemWrite).addr = a by
      simp only; omega] at hbyte
  · intro h
    refine Mem.byte_putAll_other _ _ (fun w hw hk => h ?_)
    obtain ⟨i, hi, rfl⟩ := List.mem_map.mp hw
    rw [List.mem_range] at hi
    simp only at hk
    omega

theorem spareCause_kept (d : Dev) : d.spareCause.memsys = d.memsys ∧ d.spareCause.fld MEM.SPARE_USED = d.fld MEM.SPARE_USED := by
  have hraise := raise_raises d .x 87
  refine ⟨ite_leaves Dev.memsys hraise.memsys rfl, ite_leaves (Dev.fld · MEM.SPARE_USED) (hraise.regs _ (by decide)) rfl⟩

/-- The counts of spare pages, and the place of the spare in the log of retired pages. -/
theorem spareUsed_counts (d : Dev) (n v : Nat) : ((if n < 64 then (d.flag (MEM.RETIRE_SPARE_DONE n) true).put (MEM.RETIRE_SPARE_PPN n) v else d).fld
    MEM.SPARE_USED) = d.fld MEM.SPARE_USED := by
  have hapart : MEM.SPARE_USED.key ≠ (MEM.RETIRE_SPARE_DONE n).key ∧ MEM.SPARE_USED.key ≠ (MEM.RETIRE_SPARE_PPN n).key := by
    simp only [Fld.key, MEM.SPARE_USED, MEM.RETIRE_SPARE_DONE, MEM.RETIRE_SPARE_PPN, MEM.SPARE, MEM.RETIRE_SPARE]
    omega
  obtain ⟨hd, hp⟩ := hapart
  exact ite_leaves (Dev.fld · MEM.SPARE_USED) ((Dev.fld_put_other _ _ hp).trans (Dev.fld_flag_other _ _ hd)) rfl

/-- What a command leaves beyond the registers: what its body left, with no write queued. -/
theorem beyond_runOn (s : State) (f : Mem → Dev → Dev) :
    Dev.beyond (runOn s f).dev = { Dev.beyond (f s.mem s.dev) with memsys := { (f s.mem s.dev).memsys with writes := [] } } := by
  have h := beyond_memsys (f s.mem s.dev).settle { (f s.mem s.dev).settle.memsys with writes := [] }
  rw [settle_beyond, settle_memsys] at h
  rw [← h, ← settle_memsys]
  rfl

section Commands

variable {s : State} (hd : s.dev.dead = false) (hm : s.dev.memsys.writes = [])

include hd hm

theorem page_retires {page : Nat} {r : Retire} (hr : s.dev.memsys.retires.find? (fun r => r.started && r.page == page) = some r) :
    Yields (exec (.memPageRetired page) s) (fun t =>
      t.dev.memsys.retires = s.dev.memsys.retires.filter (fun x => x.page != page) ∧
      tabGet r.spare t.dev.memsys.standIn r.spare = s.dev.homePage page ∧
      t.dev.fld MEM.SPARE_USED = (s.dev.fld MEM.SPARE_USED + 1) % 2 ^ MEM.SPARE_USED.width ∧
      ∀ a, (∀ p ∈ pteOf s.mem page, a < p.2 ∨ p.2 + 8 ≤ a) →
        (a / 65536 = r.spare → t.mem.byte a = s.mem.byte (page * 65536 + a % 65536)) ∧ (a / 65536 ≠ r.spare → t.mem.byte a = s.mem.byte a)) := by
  obtain ⟨e, he, hretires, hstand, hused, hwrites⟩ : ∃ e : Dev, s.dev.pageRetired s.mem page = e ∧
      e.memsys.retires = s.dev.memsys.retires.filter (fun x => x.page != page) ∧
      e.memsys.standIn = tabSet r.spare s.dev.memsys.standIn r.spare (s.dev.homePage page) ∧
      e.fld MEM.SPARE_USED = (s.dev.fld MEM.SPARE_USED + 1) % 2 ^ MEM.SPARE_USED.width ∧
      e.memsys.writes = pageCopy s.mem page r.spare ++ pteWrites s.mem page r.spare := by
    have hafter (x : Dev) (v : Nat) : ((((x.put MEM.SPARE_USED v).put MEM.SPARE_FREE (1024 - v)).raise .x 86).spareCause).memsys = x.memsys ∧
        ((((x.put MEM.SPARE_USED v).put MEM.SPARE_FREE (1024 - v)).raise .x 86).spareCause).fld MEM.SPARE_USED = v % 2 ^ MEM.SPARE_USED.width := by
      obtain ⟨hmem, hfld⟩ := spareCause_kept (((x.put MEM.SPARE_USED v).put MEM.SPARE_FREE (1024 - v)).raise .x 86)
      have hraise := raise_raises ((x.put MEM.SPARE_USED v).put MEM.SPARE_FREE (1024 - v)) .x 86
      exact ⟨hmem.trans hraise.memsys, hfld.trans ((hraise.regs _ (by decide)).trans
        ((Dev.fld_put_other _ _ (by decide)).trans (Dev.fld_put_same _ _ _)))⟩
    unfold Dev.pageRetired
    rw [hr]
    refine ⟨_, rfl, ?_⟩
    dsimp only
    rw [(hafter _ _).1, (hafter _ _).2, spareUsed_counts]
    have hentry (x : Dev) : (if r.entry < 64
      then (x.flag (MEM.RETIRE_SPARE_DONE r.entry) true).put (MEM.RETIRE_SPARE_PPN r.entry) r.spare else x).memsys = x.memsys :=
      ite_leaves Dev.memsys rfl rfl
    rw [hentry]
    refine ⟨rfl, rfl, rfl, ?_⟩
    simp [hm]
  refine run_body hd he ⟨?_, ?_, (runOn_fld s _ (by decide)).trans hused, fun a ha => ?_⟩
  · rw [runOn_memsys]
    exact hretires
  · rw [runOn_memsys]
    show tabGet r.spare e.memsys.standIn r.spare = _
    rw [hstand, tabGet_set_same]
  · rw [runOn_mem, hwrites]
    exact copied_byte s.mem page r.spare ha

/-- MEM_XLT_INV starts an invalidation. -/
theorem invalidation_starts (hr : s.dev.reach .x = true) (v : Nat) : Yields (exec (.memXltInv v) s) (fun t =>
    t.dev.on MEM.XLT_INV_BUSY = true ∧ t.dev.on MEM.XLT_INV_ALL = bit v 16 ∧ t.dev.fld MEM.XLT_INV_CTX = v % 8192 ∧
    RegsOnly [MEM.XLT_INV_BUSY.key, MEM.XLT_INV_ALL.key, MEM.XLT_INV_CTX.key] s t) := by
  have hassigns := writes_yields (f := fun _ d => d.at .x (fun d => d.xltInvWrite v))
    (l := [(MEM.XLT_INV_BUSY, 1), (MEM.XLT_INV_ALL, b2n (bit v 16)), (MEM.XLT_INV_CTX, v % 8192)]) hd hm (by simp only [List.map]; decide)
    (at_reach hr _)
  refine yields_imp hassigns (fun t ht => ?_)
  obtain ⟨hvalues, -, hregs⟩ := ht
  have hbusy : t.dev.fld MEM.XLT_INV_BUSY = 1 := hvalues (MEM.XLT_INV_BUSY, 1) (by simp)
  have hall : t.dev.fld MEM.XLT_INV_ALL = b2n (bit v 16) % 2 := hvalues (MEM.XLT_INV_ALL, b2n (bit v 16)) (by simp)
  have hctx : t.dev.fld MEM.XLT_INV_CTX = v % 8192 % 8192 := hvalues (MEM.XLT_INV_CTX, v % 8192) (by simp)
  refine ⟨by simp [Dev.on, hbusy], ?_, by omega, hregs⟩
  simp only [Dev.on, hall]
  cases bit v 16 <;> rfl

/-- MEM_ERR_CLR clears what it names. -/
theorem errors_clear (hr : s.dev.reach .x = true) (v : Nat) : Yields (exec (.memErrClr v) s) (fun t =>
    t.dev.on MEM.UE_INFO_VALID = (s.dev.on MEM.UE_INFO_VALID && !bit v 0) ∧ t.dev.on MEM.XF_INFO_VALID = (s.dev.on MEM.XF_INFO_VALID && !bit v 1) ∧
    RegsOnly [MEM.UE_INFO_VALID.key, MEM.XF_INFO_VALID.key] s t) := by
  have hclear (d : Dev) (b : Bool) (f : Fld) : (if b then d.flag f false else d).on f = (d.on f && !b) := by
    cases b
    · simp
    · simp
  have hother (d : Dev) (b : Bool) {f g : Fld} (h : g.key ≠ f.key) : (if b then d.flag f false else d).fld g = d.fld g :=
    ite_leaves (Dev.fld · g) (Dev.fld_flag_other d false h) rfl
  refine run_body hd (at_reach hr _) ⟨(runOn_on s _ (by decide)).trans ?_, (runOn_on s _ (by decide)).trans ?_, runOn_regsOnly hm (fun g hg => ?_) ?_⟩
  · exact (Dev.on_fld (hother _ _ (by decide))).trans (hclear _ _ _)
  · exact (hclear _ _ _).trans (congrArg (· && _) (Dev.on_fld (hother _ _ (by decide))))
  · simp only [List.mem_cons, List.not_mem_nil, or_false, not_or] at hg
    exact (hother _ _ hg.2).trans (hother _ _ hg.1)
  · unfold Dev.memErrClr
    cases bit v 0 <;> cases bit v 1 <;> rfl

/-- An invalidation that is not under way ends nothing. -/
theorem invalidation_idle (hb : s.dev.on MEM.XLT_INV_BUSY = false) : Yields (exec .xltInvalidateDone s) (fun t => RegsOnly [] s t) :=
  run_body hd (e := s.dev) (if_neg (by simp [hb])) (runOn_regsOnly hm (fun _ _ => rfl) rfl)

/-- The end of an invalidation removes the entries that it names. -/
theorem invalidation_ends (hb : s.dev.on MEM.XLT_INV_BUSY = true) : Yields (exec .xltInvalidateDone s) (fun t =>
    t.dev.on MEM.XLT_INV_BUSY = false ∧
    t.dev.memsys.xlt = s.dev.memsys.xlt.filter (fun y => !s.dev.on MEM.XLT_INV_ALL && y.ctx != s.dev.fld MEM.XLT_INV_CTX) ∧
    Frame [MEM.XLT_INV_BUSY.key] (fun d => { d with resp := .idle, memsys := { d.memsys with xlt := [] } }) s t) := by
  refine run_body hd (if_pos hb) ⟨(runOn_on s _ (by decide)).trans (Dev.on_flag_same _ _ _), ?_, fun g hg hs => ?_, ?_, runOn_outside hm⟩
  · rw [runOn_memsys]
    rfl
  · exact (runOn_fld s _ hs).trans (Dev.fld_flag_other _ _ (by simpa using hg))
  · rw [beyond_runOn]
    simp only [Dev.beyond, hm]
    rfl

end Commands

end Sys2Proof.Proofs.Scope
end

section
/-!
PROOF. The statement on the array's operations and transfers.
-/

namespace Sys2Proof.Proofs.Scope

open Sys2Proof.Machine Sys2Proof.Laws

/-- A post to a ring with room appends its descriptor. -/
theorem post_appends {s : State} (hd : s.dev.dead = false) (hm : s.dev.memsys.writes = []) {mid e : Nat} {q : ArrQueue} (words : List Nat) (he : e < 4)
    (hr : s.dev.reach (clusterDie e) = true) (hq : if q = ArrQueue.plan then mid < 10 else mid < 2) (ha : s.dev.access mid (clusterDie e) = true)
    (hs : s.dev.splitMaster mid = false) (hl : (s.dev.ring e q).length < 256) : Yields (exec (.dmaDescriptorPost mid e q words) s) (fun t =>
      t.dev.ring e q = s.dev.ring e q ++ [dmaOf mid (s.dev.ctxOwner (dmaCtx (words.getD 1 0) (words.getD 3 0)) q) words] ∧
      t.dev.resp = .done ∧ RegsKept [] s.dev t.dev ∧ Outside s t) := by
  obtain ⟨hring, hresp, hregs, hwrites⟩ := dmaPost_takes words he hr hq ha hs hl
  refine run_yields hd ⟨(ring_runOn s _ e q).trans hring, (runOn_resp s _).trans hresp, fun g _ hg => (runOn_fld s _ hg).trans (Dev.fld_regs hregs g),
    runOn_outside (hwrites.trans hm)⟩

/-- Settles O27: the issue, the tiles and the end of operations, then posts and transfers, retired pages and the commands of the MEM block. -/
theorem arrayOperationsAndTransfersEnd : Obligations.ArrayOperationsAndTransfersEnd := by
  unfold Obligations.ArrayOperationsAndTransfersEnd
  intro s hd hkept
  obtain ⟨hw, hm⟩ := hkept
  refine ⟨fun hr hc => ⟨fun o ho agree => ⟨?_, ?_⟩, fun hn hb fault agree => ⟨?_, ?_⟩⟩, fun q o hr hi => ⟨?_, fun hn agree => ⟨?_, ?_, ?_, ?_⟩,
    fun hn ha exc => ⟨?_, ?_, ?_⟩⟩, fun mid e q words he hr => ⟨?_, ?_⟩, fun e q x rest he hc hx hr => ⟨?_, ?_⟩, fun page r hr => page_retires hd hm hr,
    fun hr v => ⟨invalidation_starts hd hm hr v, errors_clear hd hm hr v⟩, invalidation_ends hd hm, invalidation_idle hd hm⟩
  · exact issue_plan hd hr hc ho agree
  · exact issue_fault hd hr hc ho agree
  · exact fun o rest hs hq => issue_background hd hr hc hn hb fault agree hs hq
  · exact fun o hs => issue_suspended hd hr hc hn hb fault agree hs
  · exact fun fault agree => issue_busy hd hr hm fault agree
  · exact fun ha hq => tile_sound hd hr hi hn hm agree ha hq
  · exact fun ha hq hp hl => tile_gives_way hd hr hi hn agree ha hq hp hl
  · exact fun read phys hphys => tile_off hd hr hi hn agree read hphys
  · exact fun a entry => tile_misread hd hr hi hn agree a entry
  · refine yields_imp (complete_leaves hd hr hi hn ha exc) (fun t ht => ?_)
    obtain ⟨hidle, hfree, htensors, hexc⟩ := ht
    exact ⟨hidle, hfree, htensors, fun flags hf => hf ▸ hexc⟩
  · exact fun vec => abort_held hd { o with done := o.tiles } (by decide) (complete_differs s.mem exc hr hi hn ha vec)
  · exact fun hg h32 h48 => abort_held hd { o with done := o.tiles } (by decide) (complete_vector s.mem exc hr hi hn ha hg h32 h48)
  · exact fun hq ha hs hl => post_appends hd hm words he hr hq ha hs hl
  · exact fun h => answer_yields hd hm (dmaPost_fails words h)
  · exact fun hdrop errors => dropped_ends hd he hc hx hr hdrop errors
  · exact fun env u pairs henv hu hdrop hi hearly hcache hv hmove hb hn => valid_ends hd he hc hx hr hw hm henv hu hdrop hi hearly hcache hv hmove hb hn

end Sys2Proof.Proofs.Scope
end

section
/-!
PROOF. What a request leaves open: sessions stay, with their window, and number few packets, however many sources a request sets (R363, R377).
-/

namespace Sys2Proof.Proofs.Scope

open Sys2Proof.Machine Sys2Proof.Laws

/-- The open sessions stay open with the window they have, and none sends more than `k` packets. -/
def Speaks (k : Nat) (d e : Dev) : Prop :=
  ∀ n x, d.session n = some x → ∃ y, e.session n = some y ∧ y.rxHigh = x.rxHigh ∧ y.txSeq ≤ x.txSeq + k

theorem Speaks.same {d e : Dev} (h : e.cmd.sessions = d.cmd.sessions) : Speaks 0 d e := fun n x hx =>
  ⟨x, (session_congr h n).trans hx, rfl, Nat.le_refl _⟩

theorem Speaks.refl (d : Dev) : Speaks 0 d d := .same rfl

theorem Speaks.mono {j k : Nat} {d e : Dev} (h : Speaks j d e) (hk : j ≤ k) : Speaks k d e := fun n x hx =>
  have ⟨y, hy, hr, ht⟩ := h n x hx
  ⟨y, hy, hr, by omega⟩

theorem Speaks.trans {j k : Nat} {a b c : Dev} (h : Speaks j a b) (g : Speaks k b c) : Speaks (j + k) a c := fun n x hx => by
  obtain ⟨y, hy, hr, ht⟩ := h n x hx
  obtain ⟨z, hz, hr', ht'⟩ := g n y hy
  exact ⟨z, hz, hr'.trans hr, by omega⟩

theorem Speaks.ite {k : Nat} {d e₁ e₂ : Dev} {c : Prop} [Decidable c] (h₁ : Speaks k d e₁) (h₂ : Speaks k d e₂) :
    Speaks k d (if c then e₁ else e₂) := by
  split
  · exact h₁
  · exact h₂

theorem Speaks.foldl {α : Type} {k : Nat} (g : Dev → α → Dev) (hg : ∀ d a, Speaks k d (g d a)) (l : List α) :
    ∀ d, Speaks (l.length * k) d (l.foldl g d) := by
  induction l with
  | nil => exact fun d => Nat.zero_mul k ▸ .refl d
  | cons a l ih => exact fun d => ((hg d a).trans (ih (g d a))).mono (by rw [List.length_cons, Nat.succ_mul]; omega)

theorem event_speaks (d : Dev) (sess op : Nat) (p : List Byte) : Speaks 1 d (d.event sess op p) := by
  unfold Dev.event
  split
  · exact (Speaks.refl d).mono (by omega)
  next y hy =>
    intro n x hx
    rw [session_post]
    by_cases hn : n = sess
    · subst hn
      cases Option.some.inj (hx.symm.trans hy)
      exact ⟨_, Dev.session_withSession_same _ _ _, rfl, Nat.le_refl _⟩
    · exact ⟨x, (Dev.session_withSession_other d _ hn).trans hx, rfl, Nat.le_succ _⟩

theorem faultEventTo_speaks (n sev : Nat) (d : Dev) (sess : Nat) : Speaks 1 d (Dev.faultEventTo n sev d sess) := by
  have hstay : Speaks 1 d d := (Speaks.refl d).mono (by omega)
  unfold Dev.faultEventTo
  split
  · exact hstay
  · refine .ite ?_ hstay
    dsimp only
    split
    · exact (Speaks.same rfl).mono (by omega)
    · exact event_speaks _ _ _ _

theorem markSet_speaks (d : Dev) (n : Nat) (inj : Bool) : Speaks 0 d (d.markSet n inj) := .ite (.same rfl) (.same rfl)

theorem faultRecord_speaks (d : Dev) (n flags detail : Nat) : Speaks 0 d (d.faultRecord n flags detail).1 := by
  unfold Dev.faultRecord Dev.logPut
  split
  · exact .same rfl
  · exact .same rfl

theorem noteSet_speaks (d : Dev) (n detail : Nat) (inj : Bool) : Speaks 8 d (d.noteSet n detail inj).1 := by
  have hrec := faultRecord_speaks d n (b2n inj) detail
  unfold Dev.noteSet
  generalize d.faultRecord n (b2n inj) detail = p at hrec
  obtain ⟨e, dropped⟩ := p
  dsimp only at hrec ⊢
  have hplaced : ∀ g : Snag, Speaks 0 d (if dropped then e else { e with snag := g }) := fun g =>
    .ite hrec (hrec.trans (.same rfl))
  specialize hplaced { e.snag with
    newRecs := e.snag.newRecs ++ [d.fld SNG.LOG_WR_WR], log := sortRecords e.snag.log (e.snag.newRecs ++ [d.fld SNG.LOG_WR_WR]) }
  generalize (if dropped = true then e else _) = e' at hplaced ⊢
  have hirq : Speaks 0 d { e' with snag := { e'.snag with irq := true } } := hplaced.trans (.same rfl)
  exact (hirq.trans (.foldl _ (faultEventTo_speaks n (d.sev n)) sessionNumbers _)).mono (by decide)

theorem ladderStep2_speaks (d : Dev) (cause unit : Nat) : Speaks 0 d (d.ladderStep2 cause unit) := by
  unfold Dev.ladderStep2
  refine .ite (.ite (.same rfl) (.same rfl)) ?_
  dsimp only
  split
  · exact .same rfl
  · exact .ite (.same rfl) (.same rfl)

theorem setOne_speaks (d : Dev) (n detail : Nat) (inj : Bool) : Speaks 8 d (d.setOne n detail inj).1 := by
  unfold Dev.setOne
  split
  · exact (Speaks.refl d).mono (by omega)
  split
  · exact (Speaks.same rfl).mono (by omega)
  · have hmark : Speaks 0 d ((d.stampSource n).markSet n inj) := (Speaks.same rfl).trans (markSet_speaks (d.stampSource n) n inj)
    dsimp only
    generalize (d.stampSource n).markSet n inj = e at hmark
    have hnote : Speaks 8 e (if sevNote ≤ d.sev n then e.noteSet n detail inj else (e, false)).1 := by
      split
      · exact noteSet_speaks e n detail inj
      · exact (Speaks.refl e).mono (by omega)
    exact ((hmark.trans hnote).trans (.ite (ladderStep2_speaks _ _ _) (.refl _))).mono (by omega)

/-- Setting a source tells each session at most once of it, and at most once that the fault log is full. -/
theorem raise_s_speaks (d : Dev) (n : Nat) : Speaks 16 d (d.raise .s n) := by
  have hset := setOne_speaks d n 0 false
  show Speaks 16 d (d.setSource n 0 false)
  unfold Dev.setSource
  generalize d.setOne n 0 false = p at hset
  exact (hset.trans (.ite (setOne_speaks _ _ _ _) ((Speaks.refl _).mono (by omega)))).mono (by omega)

/-- The parts that neither a source, nor a plan, nor a digest changes. -/
structure Follows (k : Nat) (d e : Dev) : Prop where
  arr : e.arr = d.arr
  memsys : e.memsys = d.memsys
  boot : e.boot = d.boot
  stages : e.cmd.stages = d.cmd.stages
  speaks : Speaks k d e

section
variable {k : Nat} {d e : Dev}

theorem Follows.refl (d : Dev) : Follows 0 d d := ⟨rfl, rfl, rfl, rfl, .refl d⟩

theorem Follows.trans {j : Nat} {a b c : Dev} (h : Follows j a b) (g : Follows k b c) : Follows (j + k) a c :=
  ⟨g.arr.trans h.arr, g.memsys.trans h.memsys, g.boot.trans h.boot, g.stages.trans h.stages, h.speaks.trans g.speaks⟩

theorem Follows.mono {j : Nat} (h : Follows j d e) (hk : j ≤ k) : Follows k d e := ⟨h.arr, h.memsys, h.boot, h.stages, h.speaks.mono hk⟩

theorem Follows.ite {e₁ e₂ : Dev} {c : Prop} [Decidable c] (h₁ : Follows k d e₁) (h₂ : Follows k d e₂) : Follows k d (if c then e₁ else e₂) := by
  split
  · exact h₁
  · exact h₂

theorem Follows.foldl {α : Type} (g : Dev → α → Dev) (hg : ∀ d a, Follows k d (g d a)) (l : List α) :
    ∀ d, Follows (l.length * k) d (l.foldl g d) := by
  induction l with
  | nil => exact fun d => Nat.zero_mul k ▸ .refl d
  | cons a l ih => exact fun d => ((hg d a).trans (ih (g d a))).mono (by rw [List.length_cons, Nat.succ_mul]; omega)

/-- A step that tells nobody. -/
theorem Follows.quiet {x : Dev} (h : Follows k d e) (g : Follows 0 e x) : Follows k d x := h.trans g

theorem put_follows (d : Dev) (f : Fld) (v : Nat) : Follows 0 d (d.put f v) := ⟨rfl, rfl, rfl, rfl, .same rfl⟩

theorem cause_follows (d : Dev) (n : Nat) (b : Bool) : Follows 0 d (d.cause n b) := ⟨rfl, rfl, rfl, rfl, .same rfl⟩

theorem raise_follows (d : Dev) (n : Nat) : Follows 16 d (d.raise .s n) :=
  have h := raise_raises d .s n
  ⟨h.arr, h.memsys, h.boot, h.cmd_stages, raise_s_speaks d n⟩

end

/-! A verification, a plan and a digest. -/

theorem verifyStaged_follows (d : Dev) (kind : Nat) (c : List Byte) : Follows 16 d (d.verifyStaged kind c).2 := by
  unfold Dev.verifyStaged
  dsimp only
  have harm : ∀ p : Prop, ∀ [Decidable p], Follows 0 d (if p then d.flag SEC.INJ_ARM false else d) := fun _ _ => .ite (put_follows d _ _) (.refl d)
  exact .ite ((harm _).mono (by omega)) ((harm _).trans (raise_follows _ 520))

/-- A verification that succeeds tells nobody. -/
theorem verifyStaged_silent (d : Dev) {kind : Nat} {c : List Byte} (h : (d.verifyStaged kind c).1 = 0) : (d.verifyStaged kind c).2.cmd = d.cmd := by
  unfold Dev.verifyStaged at h ⊢
  dsimp only at h ⊢
  rw [if_pos h]
  split <;> rfl

/-- One that fails sets its source (R451). -/
theorem verifyStaged_set (d : Dev) {kind : Nat} {c : List Byte} (h : (d.verifyStaged kind c).1 ≠ 0) : (d.verifyStaged kind c).2.isSet 520 = true := by
  unfold Dev.verifyStaged at h ⊢
  dsimp only at h ⊢
  rw [if_neg h]
  exact raise_s_set _ (by decide)

theorem planCovs_follows (d : Dev) (c : Tab (Option Nat)) : Follows 0 d (d.planCovs c) := by
  unfold Dev.planCovs
  refine (Follows.foldl (k := 0) _ (fun d w => ?_) d.planWatches d).mono (Nat.le_refl _)
  exact ⟨rfl, rfl, rfl, rfl, .same rfl⟩

theorem skimCycles_follows (d : Dev) (g : Nat → Nat) : Follows 0 d ([0, 1, 2, 3].foldl (fun x u => x.put (TCK.PLAN_SKIM_CYC u) (g u)) d) :=
  Follows.foldl (k := 0) _ (fun d u => put_follows d (TCK.PLAN_SKIM_CYC u) (g u)) [0, 1, 2, 3] d

theorem plan_follows (d : Dev) (p : Plan) : Follows 0 d { d with plan := p } := ⟨rfl, rfl, rfl, rfl, .same rfl⟩

theorem buildPlan_follows (d : Dev) : Follows 16 d d.buildPlan := by
  have hends : ∀ (c : Bool) (e : Dev), Follows 0 d e → Follows 16 d (if c then (e.raise .s 64).cause 64 true else e.cause 64 false) := fun c e he =>
    .ite ((he.trans (raise_follows e 64)).quiet (cause_follows _ _ _) |>.mono (by omega)) ((he.quiet (cause_follows _ _ _)).mono (by omega))
  refine hends _ _ ?_
  exact ((((((plan_follows d _).quiet (planCovs_follows _ _)).quiet (put_follows _ _ _)).quiet (put_follows _ _ _)).quiet
    (put_follows _ _ _)).quiet (put_follows _ _ _)).quiet ((put_follows _ _ _).quiet (skimCycles_follows _ _))

theorem replan_follows (d : Dev) : Follows 16 d d.replan := by
  refine .ite (Follows.mono (j := 0) ?_ (by omega)) (buildPlan_follows d)
  exact (plan_follows d _).quiet (put_follows _ _ _)

theorem event_follows (d : Dev) (n op : Nat) (p : List Byte) : Follows 1 d (d.event n op p) :=
  have h := event_raises d n op p
  ⟨h.arr, h.memsys, h.boot, h.cmd_stages, event_speaks d n op p⟩

theorem twinEvent_follows (d : Dev) (code : Nat) : Follows 8 d (d.twinEvent code) := by
  refine Follows.foldl (k := 1) _ (fun d n => ?_) sessionNumbers d
  have hstay : Follows 1 d d := (Follows.refl d).mono (by omega)
  split
  · exact hstay
  · exact .ite (event_follows _ _ _ _) hstay

theorem twinCause_follows (d : Dev) (n : Nat) (b : Bool) :
    Follows 16 d (if b then (if tabGet false d.snag.cause n then d else (d.raise .s n).cause n true) else d.cause n false) :=
  .ite (.ite ((Follows.refl d).mono (by omega)) ((raise_follows d n).quiet (cause_follows _ _ _))) ((cause_follows d n false).mono (by omega))

theorem twinRefresh_follows (d : Dev) : Follows 56 d d.twinRefresh := by
  have hput := put_follows d TWN.STAT_STATE d.twinState
  have hstay := hput.mono (k := 8) (by omega)
  have hcauses : ∀ e : Dev, Follows 48 e e.twinCauses := fun e =>
    ((twinCause_follows e 672 _).trans (twinCause_follows _ 677 _)).trans (twinCause_follows _ 678 _)
  exact (Follows.ite hstay (.ite (hput.trans (twinEvent_follows _ 2)) (.ite (hput.trans (twinEvent_follows _ 1)) hstay))).trans (hcauses _)

theorem contents_follows (d : Dev) (c : List Nat) : Follows 0 d { d with twin := { d.twin with contents := c } } := ⟨rfl, rfl, rfl, rfl, .same rfl⟩

theorem configDigest_follows (d : Dev) : Follows 56 d d.configDigest := by
  have h := (contents_follows d d.twinContents).trans (twinRefresh_follows _)
  exact h.mono (Nat.le_refl _)

end Sys2Proof.Proofs.Scope
end

section
/-!
PROOF. The answer to a request whose session has room: it is sent, and the session stays, with all that the request did (R363, R367).
-/

namespace Sys2Proof.Proofs.Scope

open Sys2Proof.Machine Sys2Proof.Laws

/-- Nothing but the sessions and the queue of messages has changed. -/
def Said (d e : Dev) : Prop := ∃ ss box, e = { d with cmd := { d.cmd with sessions := ss, outbox := box } }

theorem Said.refl (d : Dev) : Said d d := ⟨_, _, rfl⟩

theorem Said.trans {a b c : Dev} (h : Said a b) (g : Said b c) : Said a c := by
  obtain ⟨_, _, rfl⟩ := h
  obtain ⟨_, _, rfl⟩ := g
  exact ⟨_, _, rfl⟩

section
variable {d e : Dev}

theorem Said.stages (h : Said d e) : e.cmd.stages = d.cmd.stages := by obtain ⟨_, _, rfl⟩ := h; rfl

theorem Said.arr (h : Said d e) : e.arr = d.arr := by obtain ⟨_, _, rfl⟩ := h; rfl

theorem Said.boot (h : Said d e) : e.boot = d.boot := by obtain ⟨_, _, rfl⟩ := h; rfl

theorem Said.memsys (h : Said d e) : e.memsys = d.memsys := by obtain ⟨_, _, rfl⟩ := h; rfl

theorem Said.isSet (h : Said d e) (n : Nat) : e.isSet n = d.isSet n := by obtain ⟨_, _, rfl⟩ := h; rfl

theorem Said.fld (h : Said d e) (f : Fld) : e.fld f = d.fld f := by obtain ⟨_, _, rfl⟩ := h; rfl

end

theorem withSession_said (d : Dev) (n : Nat) (x : Option Session) : Said d (d.withSession n x) := ⟨_, _, rfl⟩

theorem event_said (d : Dev) (n op : Nat) (p : List Byte) : Said d (d.event n op p) := by
  unfold Dev.event
  split
  · exact .refl d
  · exact ⟨_, _, rfl⟩

theorem reply_said (d : Dev) (sess reqId op st : Nat) (q p : List Byte) : Said d (d.reply sess reqId op st q p) := by
  unfold Dev.reply
  split
  · exact .refl d
  · exact ⟨_, _, rfl⟩

/-- A reply numbers its packets in its session. -/
theorem reply_session {d : Dev} {sess : Nat} {y : Session} (reqId op st : Nat) (q p : List Byte) (h : d.session sess = some y) :
    ∃ z, (d.reply sess reqId op st q p).session sess = some z ∧ z.rxHigh = y.rxHigh ∧ z.txSeq = y.txSeq + packetsOf p.length := by
  unfold Dev.reply
  simp only [h, session_post]
  exact ⟨_, Dev.session_withSession_same _ _ _, rfl, rfl⟩

/-- A session whose numbers are not used up stays (R363). -/
theorem seqLimit_below {d : Dev} {n : Nat} {y : Session} (h : d.session n = some y) (hr : y.rxHigh < 281474976710656)
    (ht : y.txSeq < 281474976710656) : d.seqLimit n = d := by
  unfold Dev.seqLimit
  rw [h]
  exact if_neg (by simp only [Bool.or_eq_true, decide_eq_true_eq]; omega)

theorem packetsOf_small {n : Nat} (h : n ≤ 1344) : packetsOf n = 1 := by
  unfold packetsOf
  omega

section
variable {s : State} {r : Req} {x : Session} {op st : Nat} {p : List Byte} {e : Dev} {P : State → Prop}

/-- The session of a request is open while the request is carried out. -/
theorem entered_session (s : State) (r : Req) (x : Session) : (Claims.entered s r x).session r.session = some { x with lastAt := s.dev.now } :=
  Dev.session_withSession_same _ _ _

/-- A request that is answered and does nothing else. -/
theorem request_declined (h : Claims.Admitted s op r x) (ho : requestOps.contains op = true) (hafter : ∀ d : Dev, d.afterReply op r.session = d)
    (hop : (Claims.entered s r x).operate op r.session r.reqId { x with lastAt := s.dev.now } r.payload = (.reply st p, Claims.entered s r x)) :
    Yields (run s fun _ d => d.request op r) (Claims.Replies s r x op st p) :=
  yields_imp (request_replies (P := fun _ => True) h ho hafter hop rfl rfl rfl (fun _ _ => trivial)) (fun _ ht => ht.1)

/-- A request that ends in a reply of one packet, in a session with room for it. -/
theorem reply_yields {y : Session} (hd : s.dev.dead = false) (hne : op ≠ 14)
    (hrun : s.dev.request op r = (e.reply r.session r.reqId op st r.payload p).seqLimit r.session) (hy : e.session r.session = some y)
    (hr : y.rxHigh < 281474976710656) (ht : y.txSeq + 1 < 281474976710656) (hl : p.length ≤ 1344)
    (hp : ∀ e', Said e e' → P (runOn s fun _ _ => e')) :
    Yields (run s fun _ d => d.request op r) (fun t => Claims.Answers t r op st p (y.txSeq + 1) ∧ P t) := by
  obtain ⟨z, hz, hzr, hzt⟩ := reply_session r.reqId op st r.payload p hy
  obtain ⟨m, hm, hmsg⟩ := reply_some r.reqId op st r.payload p hy
  rw [packetsOf_small hl] at hzt
  rw [seqLimit_below hz (by omega) (by omega)] at hrun
  have hop : m.opcode ≠ 14 := by
    obtain ⟨-, hopc, -⟩ := hmsg
    exact hopc ▸ hne
  exact run_body hd hrun ⟨⟨m, runOn_message s _ hm hop, hmsg⟩, hp _ (reply_said _ _ _ _ _ _ _)⟩

/-- The answer of a request that leaves the device `e`: it has the next number where the request itself sent nothing. -/
def Told (s : State) (r : Req) (x : Session) (e : Dev) (op st : Nat) (p : List Byte) (t : State) : Prop :=
  (∃ q, Claims.Answers t r op st p q) ∧ (e.cmd.sessions = (Claims.entered s r x).cmd.sessions → Claims.Answers t r op st p (x.txSeq + 1))

variable (hx : x.rxHigh < 281474976710656) (ht : x.txSeq + 64 < 281474976710656)
include hx ht

/-- The session while a request is answered. -/
theorem session_speaking (hs : Speaks 16 (Claims.entered s r x) e) : ∃ y, e.session r.session = some y ∧ y.rxHigh < 281474976710656 ∧
    y.txSeq + 1 < 281474976710656 ∧ (e.cmd.sessions = (Claims.entered s r x).cmd.sessions → y.txSeq = x.txSeq) := by
  obtain ⟨y, hy, hyr, hyt⟩ := hs _ _ (entered_session s r x)
  dsimp only at hyr hyt
  refine ⟨y, hy, by omega, by omega, fun hc => ?_⟩
  rw [session_congr hc, entered_session] at hy
  have hseq := congrArg Session.txSeq (Option.some.inj hy)
  exact hseq.symm

/-- A request that is answered at once. -/
theorem request_says (h : Claims.Admitted s op r x) (ho : requestOps.contains op = true) (hafter : ∀ d : Dev, d.afterReply op r.session = d)
    (hop : (Claims.entered s r x).operate op r.session r.reqId { x with lastAt := s.dev.now } r.payload = (.reply st p, e))
    (hs : Speaks 16 (Claims.entered s r x) e) (hl : p.length ≤ 1344) (hp : ∀ e', Said e e' → P (runOn s fun _ _ => e')) :
    Yields (run s fun _ d => d.request op r) (fun t => Told s r x e op st p t ∧ P t) := by
  obtain ⟨y, hy, hyr, hyt, hsame⟩ := session_speaking hx ht hs
  have hne : op ≠ 14 := by
    rintro rfl
    exact absurd ho (by decide)
  refine yields_imp (reply_yields h.1.1 hne ?_ hy hyr hyt hl hp) (fun t hu => ⟨⟨⟨_, hu.1⟩, fun hc => hsame hc ▸ hu.1⟩, hu.2⟩)
  rw [request_admitted h ho]
  simp only [Dev.runRequest, hop, hafter, ite_self]

/-- A request that stays pending. -/
theorem request_pends (h : Claims.Admitted s op r x) (ho : requestOps.contains op = true) (hpair : op ≠ 0x92)
    (hop : (Claims.entered s r x).operate op r.session r.reqId { x with lastAt := s.dev.now } r.payload = (.pending, e))
    (hs : Speaks 16 (Claims.entered s r x) e) (hp : ∀ e', Said e e' → P (runOn s fun _ _ => e')) :
    Yields (run s fun _ d => d.request op r) (fun t => Told s r x e op 1 [] t ∧ P t) := by
  obtain ⟨y, hy, hyr, hyt, hsame⟩ := session_speaking hx ht hs
  have hne : op ≠ 14 := by
    rintro rfl
    exact absurd ho (by decide)
  have hwait := Dev.session_withSession_same e r.session (some { y with ops := y.ops ++ [⟨r.reqId, op, none⟩] })
  have hrun : s.dev.request op r = ((e.withSession r.session (some { y with ops := y.ops ++ [⟨r.reqId, op, none⟩] })).reply r.session r.reqId op 1
      r.payload []).seqLimit r.session := by
    rw [request_admitted h ho]
    simp only [Dev.runRequest, hop, Dev.leavePending, hy, if_neg hpair]
  refine yields_imp (reply_yields h.1.1 hne hrun hwait hyr hyt (Nat.zero_le _) (fun e' he => hp e' ((withSession_said _ _ _).trans he)))
    (fun t hu => ⟨⟨⟨_, hu.1⟩, fun hc => hsame hc ▸ hu.1⟩, hu.2⟩)

end

end Sys2Proof.Proofs.Scope
end

section
/-!
PROOF. The image stages: IMG_OPEN, IMG_CHUNK and IMG_CLOSE (R374).
-/

namespace Sys2Proof.Proofs.Scope

open Sys2Proof.Machine Sys2Proof.Laws

section
variable {d : Dev} {n i : Nat} {p : List Byte} {g : Stage}

theorem beBytes_length (n v : Nat) : (beBytes n v).length = n := by rw [beBytes, List.length_reverse, leBytes_length]

/-- A device with a stage put in its place. -/
def staging (d : Dev) (i : Nat) (g : Option Stage) : Dev := { d with cmd := { d.cmd with stages := tabSet none d.cmd.stages i g } }

@[simp] theorem stage_staging (d : Dev) (i : Nat) (g : Option Stage) : tabGet none (staging d i g).cmd.stages i = g := tabGet_set_same _ _ _ _

theorem freeStage_eq (d : Dev) (i : Nat) : d.freeStage i = staging d i none := rfl

theorem staging_speaks (d : Dev) (i : Nat) (g : Option Stage) : Speaks 16 d (staging d i g) := (Speaks.same rfl).mono (by omega)

/-- The lowest stage that is free is the one that IMG_OPEN takes. -/
theorem lowestFree_find (hi : i < 4) (hn : tabGet none d.cmd.stages i = none) (hlow : ∀ k, k < i → tabGet none d.cmd.stages k ≠ none) :
    (List.range 4).find? (fun i => (tabGet none d.cmd.stages i).isNone) = some i := by
  rw [List.find?_range_eq_some]
  refine ⟨by rw [hn]; rfl, List.mem_range.mpr hi, fun k hk => ?_⟩
  cases hg : tabGet none d.cmd.stages k with
  | none => exact absurd hg (hlow k hk)
  | some _ => rfl

theorem opImgOpen_takes (hi : i < 4) (hn : tabGet none d.cmd.stages i = none) (hlow : ∀ k, k < i → tabGet none d.cmd.stages k ≠ none)
    (hheld : ∀ k, k < 4 → ∀ g, tabGet none d.cmd.stages k = some g → g.session ≠ n)
    (hroom : if beAt p 0 1 = 3 then beAt p 8 8 ≤ 8192 else cdiv (beAt p 8 8) 65536 ≤ d.freePages) :
    d.opImgOpen n p = (.ok (beBytes 1 i ++ [0] ++ beBytes 2 1280), staging d i (some ⟨n, beAt p 0 1, beAt p 8 8, []⟩)) := by
  unfold Dev.opImgOpen
  simp only [lowestFree_find hi hn hlow, hroom, decide_true, Bool.not_true, Bool.or_false]
  refine if_neg (fun hany => ?_)
  obtain ⟨k, hk, hg⟩ := List.any_eq_true.mp hany
  split at hg
  next g hgk => exact hheld k (List.mem_range.mp hk) g hgk (beq_iff_eq.mp hg)
  · exact absurd hg Bool.false_ne_true

/-- The lines of a stage that a chunk of whole lines fills. -/
def filled (t : Tab (List Byte)) (base : Nat) (data : List Byte) (n : Nat) : Tab (List Byte) :=
  (List.range n).foldl (fun t i => tabSet [] t (base + i) (slice data (64 * i) 64)) t

theorem filled_get (t : Tab (List Byte)) (base : Nat) (data : List Byte) {n k : Nat} (hk : k < n) :
    tabGet [] (filled t base data n) (base + k) = slice data (64 * k) 64 := by
  induction n with
  | zero => omega
  | succ n ih =>
    have hstep : filled t base data (n + 1) = tabSet [] (filled t base data n) (base + n) (slice data (64 * n) 64) := by
      simp only [filled, List.range_succ, List.foldl_append, List.foldl_cons, List.foldl_nil]
    rw [hstep]
    by_cases h : k = n
    · rw [h, tabGet_set_same]
    · rw [tabGet_set_other _ _ _ (by omega)]
      exact ih (by omega)

theorem slice_drop (p : List Byte) (m a n : Nat) : slice (p.drop m) a n = slice p (m + a) n := by simp only [slice, List.drop_drop]

theorem opImgChunk_fills (hg : tabGet none d.cmd.stages (beAt p 0 1) = some g) (hs : g.session = n) (hl : p.length = 1292)
    (hfit : beAt p 4 8 + 1280 ≤ g.size) : d.opImgChunk n p = (.ok [], staging d (beAt p 0 1)
      (some { g with chunks := filled g.chunks (beAt p 4 8 / 64) (p.drop 12) 20 })) := by
  have hlen : (p.drop 12).length = 1280 := by rw [List.length_drop, hl]
  unfold Dev.opImgChunk
  simp only [hg, hs, hlen, bne_self_eq_false, Bool.false_and, Bool.false_eq_true, if_false, if_neg (Nat.not_lt.mpr hfit)]
  rfl

theorem opImgClose_frees (hg : tabGet none d.cmd.stages (beAt p 0 1) = some g) (hs : g.session = n) :
    d.opImgClose n p = (.ok [], staging d (beAt p 0 1) none) := by
  unfold Dev.opImgClose
  simp only [hg, hs, if_true]
  rfl

end

section
variable {s : State} {r : Req} {x : Session} {i : Nat}

/-- IMG_OPEN gives the lowest free stage. -/
theorem imgOpen_opens (h : Claims.Admitted s 0x80 r x) (hi : i < 4) (hn : tabGet none s.dev.cmd.stages i = none)
    (hlow : ∀ k, k < i → tabGet none s.dev.cmd.stages k ≠ none)
    (hheld : ∀ k, k < 4 → ∀ g, tabGet none s.dev.cmd.stages k = some g → g.session ≠ r.session)
    (hroom : if beAt r.payload 0 1 = 3 then beAt r.payload 8 8 ≤ 8192 else cdiv (beAt r.payload 8 8) 65536 ≤ s.dev.freePages) :
    Yields (exec (.imgOpen r) s) (fun t => Claims.Answers t r 0x80 0 (beBytes 1 i ++ [0] ++ beBytes 2 1280) (x.txSeq + 1) ∧
      (x.rxHigh < 281474976710656 → x.txSeq + 64 < 281474976710656 →
        tabGet none t.dev.cmd.stages i = some ⟨r.session, beAt r.payload 0 1, beAt r.payload 8 8, []⟩)) := by
  have hop : (Claims.entered s r x).operate 0x80 r.session r.reqId { x with lastAt := s.dev.now } r.payload =
      (.reply 0 (beBytes 1 i ++ [0] ++ beBytes 2 1280),
        staging (Claims.entered s r x) i (some ⟨r.session, beAt r.payload 0 1, beAt r.payload 8 8, []⟩)) :=
    opImgOpen_takes hi hn hlow hheld hroom
  refine yields_and (yields_imp (request_yields (P := fun _ => True) h (by decide) (fun _ => rfl) hop (fun _ _ => trivial)) (fun t ht => ?_)) ?_
  · have hsame : (staging (Claims.entered s r x) i (some ⟨r.session, beAt r.payload 0 1, beAt r.payload 8 8, []⟩)).session r.session =
        some { x with lastAt := s.dev.now } := entered_session s r x
    exact ht.1 { x with lastAt := s.dev.now } hsame
  · by_cases hb : x.rxHigh < 281474976710656 ∧ x.txSeq + 64 < 281474976710656
    · obtain ⟨hx, ht⟩ := hb
      refine yields_imp (request_says (P := fun t => tabGet none t.dev.cmd.stages i = some ⟨r.session, beAt r.payload 0 1, beAt r.payload 8 8, []⟩)
        hx ht h (by decide) (fun _ => rfl) hop (staging_speaks _ _ _) (by simp [beBytes_length]) (fun e' he => ?_)) (fun t hu _ _ => hu.2)
      rw [runOn_cmd_stages, he.stages, stage_staging]
    · exact ⟨_, run_alive h.1.1 _, fun h1 h2 => absurd ⟨h1, h2⟩ hb⟩

variable {g : Stage} (hi : i = beAt r.payload 0 1) (hg : tabGet none s.dev.cmd.stages i = some g) (hs : g.session = r.session)
  (hx : x.rxHigh < 281474976710656) (ht : x.txSeq + 64 < 281474976710656)
include hi hg hs hx ht

/-- IMG_CHUNK puts its bytes into the stage. -/
theorem imgChunk_fills (h : Claims.Admitted s 0x81 r x) (hl : r.payload.length = 1292) (hfit : beAt r.payload 4 8 + 1280 ≤ g.size) :
    Yields (exec (.imgChunk r) s) (fun t => Claims.Answers t r 0x81 0 [] (x.txSeq + 1) ∧
      ∃ g', tabGet none t.dev.cmd.stages i = some g' ∧ g'.size = g.size ∧
        ∀ k, k < 20 → tabGet [] g'.chunks (beAt r.payload 4 8 / 64 + k) = slice r.payload (12 + 64 * k) 64) := by
  subst hi
  refine yields_imp (request_says hx ht h (by decide) (fun _ => rfl) (opImgChunk_fills (d := Claims.entered s r x) hg hs hl hfit)
    (staging_speaks _ _ _) (Nat.zero_le _) (P := fun t => ∃ g', tabGet none t.dev.cmd.stages (beAt r.payload 0 1) = some g' ∧ g'.size = g.size ∧
      ∀ k, k < 20 → tabGet [] g'.chunks (beAt r.payload 4 8 / 64 + k) = slice r.payload (12 + 64 * k) 64) (fun e' he => ?_))
    (fun t hu => ⟨hu.1.2 rfl, hu.2⟩)
  refine ⟨{ g with chunks := filled g.chunks (beAt r.payload 4 8 / 64) (r.payload.drop 12) 20 }, ?_, rfl,
    fun k hk => (filled_get _ _ _ hk).trans (slice_drop _ _ _ _)⟩
  rw [runOn_cmd_stages, he.stages, stage_staging]

/-- IMG_CLOSE frees the stage. -/
theorem imgClose_frees (h : Claims.Admitted s 0x82 r x) :
    Yields (exec (.imgClose r) s) (fun t => tabGet none t.dev.cmd.stages i = none ∧ Claims.Replies s r x 0x82 0 [] t) := by
  subst hi
  have hop := opImgClose_frees (d := Claims.entered s r x) hg hs
  obtain ⟨⟨hd, hw, -⟩, -⟩ := id h
  refine yields_imp (request_says (P := fun t => tabGet none t.dev.cmd.stages (beAt r.payload 0 1) = none ∧ RegsKept [] s.dev t.dev ∧ Outside s t)
    hx ht h (by decide) (fun _ => rfl) hop (staging_speaks _ _ _) (Nat.zero_le _) (fun e' he => ⟨?_, fun f _ hf => ?_, runOn_outside ?_⟩))
    (fun t hu => ⟨hu.2.1, hu.1.2 rfl, hu.2.2⟩)
  · rw [runOn_cmd_stages, he.stages, stage_staging]
  · rw [runOn_fld _ _ hf, he.fld]
    rfl
  · exact he.memsys ▸ hw

end

end Sys2Proof.Proofs.Scope
end

section
/-!
PROOF. The requests that take a staged image: MODEL_LOAD, FW_INSTALL and TOPCOAT_INSTALL (R176, R374, R459).
-/

namespace Sys2Proof.Proofs.Scope

open Sys2Proof.Machine Sys2Proof.Laws

/-- The stage of an image is freed, whatever becomes of the image. -/
theorem withImage_frees {d : Dev} {n i kind : Nat} {g : Stage} (hg : tabGet none d.cmd.stages i = some g) (hs : g.session = n) (hk : g.kind = kind)
    (f : Dev → List Byte → Ans × Dev) : d.withImage n i kind f = ((f d g.image).1, (f d g.image).2.freeStage i) := by
  have hstage : d.stageOf n i kind = some g := by
    unfold Dev.stageOf
    simp only [hg, hs, hk, decide_true, Bool.and_self, if_true]
  unfold Dev.withImage
  rw [hstage]

/-! MODEL_LOAD. -/

/-- A load begins: an image that has passed gets its entry, and the job waits for its end. -/
def begunLoad (d : Dev) (p : List Byte) (job : LoadJob) : Dev :=
  let e := if job.status = 0 then d.installEntry (mId p) (d.modelEntry p) else d
  { e with arr := { e.arr with loads := e.arr.loads ++ [job] } }

/-- The job of a load, with the outcome of its verification. -/
def loadJob (n reqId : Nat) (v : Nat × Dev) (p : List Byte) : LoadJob :=
  let status := if v.1 = 0 then v.2.loadStatus p else 1
  ⟨n, reqId, mId p, status, if status = 0 then mBytes p 5 else []⟩

theorem installEntry_rest (d : Dev) (id : Nat) (m : Model) : (d.installEntry id m).arr.loads = d.arr.loads ∧ (d.installEntry id m).cmd = d.cmd ∧
    (d.installEntry id m).snag = d.snag := by
  unfold Dev.installEntry
  dsimp only
  split <;> exact ⟨rfl, rfl, rfl⟩

theorem begunLoad_rest (d : Dev) (p : List Byte) (job : LoadJob) : (begunLoad d p job).arr.loads = d.arr.loads ++ [job] ∧
    (begunLoad d p job).cmd = d.cmd ∧ (begunLoad d p job).snag = d.snag := by
  obtain ⟨hl, hc, hs⟩ := installEntry_rest d (mId p) (d.modelEntry p)
  unfold begunLoad
  dsimp only
  split
  · exact ⟨congrArg (· ++ [job]) hl, hc, hs⟩
  · exact ⟨rfl, rfl, rfl⟩

/-- The entry of an image that has passed is LOADING. -/
theorem begunLoad_model (d : Dev) (p : List Byte) {job : LoadJob} (h : job.status = 0) : ((begunLoad d p job).model (mId p)).state = 1 := by
  unfold begunLoad
  dsimp only
  rw [if_pos h]
  have hm : (d.installEntry (mId p) (d.modelEntry p)).model (mId p) = d.modelEntry p := model_putModel_same _ _ _
  exact (congrArg Model.state hm).trans rfl

theorem opModelLoad_begins {d : Dev} {n reqId : Nat} {p : List Byte} {g : Stage} (hg : tabGet none d.cmd.stages (beAt p 0 1) = some g)
    (hs : g.session = n) (hk : g.kind = 0) : d.opModelLoad n reqId p = (.pending,
      (begunLoad (d.verifyStaged 0 g.image).2 (imgPayload g.image) (loadJob n reqId (d.verifyStaged 0 g.image) (imgPayload g.image))).freeStage
        (beAt p 0 1)) := by
  unfold Dev.opModelLoad
  rw [withImage_frees hg hs hk]
  generalize d.verifyStaged 0 g.image = v
  obtain ⟨c, e⟩ := v
  refine congrArg (fun e : Dev => (Ans.pending, e.freeStage (beAt p 0 1))) ?_
  simp only [begunLoad, loadJob]
  split <;> simp_all

/-! Installs. -/

/-- The bytes that an image may have in the flash. -/
def flashSize (topcoat : Bool) : Nat := if topcoat then 1048576 else 8388608

/-- The kind of image that an install takes. -/
def installKind (topcoat : Bool) : Nat := if topcoat then 2 else 1

theorem installKind_size (topcoat : Bool) : (if installKind topcoat = 2 then 1048576 else 8388608) = flashSize topcoat := by cases topcoat <;> rfl

theorem installKind_topcoat (topcoat : Bool) : (installKind topcoat == 2) = topcoat := by cases topcoat <;> rfl

section
variable {d : Dev} {n reqId slot : Nat} {topcoat : Bool} {c : List Byte}

theorem startInstall_long (h : flashSize topcoat < c.length) : d.startInstall n reqId slot topcoat c = (.refuse 0x010B, d) := if_pos h

theorem startInstall_refused (hl : c.length ≤ flashSize topcoat) (hv : (d.verifyStaged (installKind topcoat) c).1 ≠ 0) :
    d.startInstall n reqId slot topcoat c = (.refuse (imgStatus (d.verifyStaged (installKind topcoat) c).1),
      (d.verifyStaged (installKind topcoat) c).2) :=
  (if_neg (Nat.not_lt.mpr hl)).trans (if_pos (bne_iff_ne.mpr hv))

/-- An install that begins waits for its end. -/
def begunInstall (d : Dev) (i : Install) : Dev := { d with boot := { d.boot with installs := d.boot.installs ++ [i] } }

theorem startInstall_begins (hl : c.length ≤ flashSize topcoat) (hv : (d.verifyStaged (installKind topcoat) c).1 = 0) :
    d.startInstall n reqId slot topcoat c = (.pending,
      begunInstall (d.verifyStaged (installKind topcoat) c).2 ⟨n, reqId, slot, topcoat, c⟩) :=
  (if_neg (Nat.not_lt.mpr hl)).trans (if_neg (fun h => bne_iff_ne.mp h hv))

end

section
variable {s : State} {r : Req} {x : Session} {i : Nat} {g : Stage}
  (hi : i = beAt r.payload 0 1) (hg : tabGet none s.dev.cmd.stages i = some g) (hs : g.session = r.session)
  (hx : x.rxHigh < 281474976710656) (ht : x.txSeq + 64 < 281474976710656)
include hi hg hs hx ht

/-- MODEL_LOAD stays pending, with the status that its end will report. -/
theorem modelLoad_begins (h : Claims.Admitted s 0x38 r x) (hk : g.kind = 0) (v : Nat × Dev) (p : List Byte)
    (hv : v = (Claims.entered s r x).verifyStaged 0 g.image) (hp : p = imgPayload g.image) (status : Nat)
    (hst : status = (if v.1 = 0 then v.2.loadStatus p else 1)) : Yields (exec (.modelLoad r) s) (fun t =>
      tabGet none t.dev.cmd.stages i = none ∧ (∃ q, Claims.Answers t r 0x38 1 [] q) ∧ (v.1 ≠ 0 → t.dev.isSet 520 = true) ∧
      t.dev.arr.loads = s.dev.arr.loads ++ [⟨r.session, r.reqId, mId p, status, if status = 0 then mBytes p 5 else []⟩] ∧
      (status = 0 → (t.dev.model (mId p)).state = 1)) := by
  subst hi
  have hop := opModelLoad_begins (d := Claims.entered s r x) (reqId := r.reqId) hg hs hk
  have hfollow := verifyStaged_follows (Claims.entered s r x) 0 g.image
  have hset : v.1 ≠ 0 → v.2.isSet 520 = true := hv ▸ verifyStaged_set (Claims.entered s r x)
  rw [← hv, ← hp] at hop
  rw [← hv] at hfollow
  have hjob : loadJob r.session r.reqId v p = ⟨r.session, r.reqId, mId p, status, if status = 0 then mBytes p 5 else []⟩ := by
    rw [hst]
    rfl
  obtain ⟨hloads, hcmd, hsnag⟩ := begunLoad_rest v.2 p (loadJob r.session r.reqId v p)
  rw [hjob] at hop hloads hcmd hsnag
  generalize he : begunLoad v.2 p _ = e at hop hloads hcmd hsnag
  have hspeaks : Speaks 16 (Claims.entered s r x) (e.freeStage (beAt r.payload 0 1)) :=
    hfollow.speaks.trans (.same (congrArg Cmd.sessions hcmd))
  refine yields_imp (request_pends hx ht h (by decide) (by decide) hop hspeaks (P := fun t => tabGet none t.dev.cmd.stages (beAt r.payload 0 1) = none ∧
    (v.1 ≠ 0 → t.dev.isSet 520 = true) ∧
    t.dev.arr.loads = s.dev.arr.loads ++ [⟨r.session, r.reqId, mId p, status, if status = 0 then mBytes p 5 else []⟩] ∧
    (status = 0 → (t.dev.model (mId p)).state = 1)) (fun e' he' => ⟨?_, fun hbad => ?_, ?_, fun hgood => ?_⟩))
    (fun t hu => ⟨hu.2.1, hu.1.1, hu.2.2⟩)
  · rw [runOn_cmd_stages, he'.stages, freeStage_eq, stage_staging]
  · rw [isSet_runOn, he'.isSet]
    exact (isSet_congr (congrArg Snag.set hsnag) 520).trans (hset hbad)
  · rw [runOn_arr, he'.arr]
    exact hloads.trans (congrArg (· ++ _) (congrArg Arr.loads hfollow.arr))
  · rw [model_runOn, model_congr he'.arr]
    have hentry : (e.model (mId p)).state = 1 := he ▸ begunLoad_model v.2 p hgood
    exact hentry

omit hi hg hs in
/-- What a request to install does with its image, which is verified and fits, or is refused. -/
theorem install_begins {op slot : Nat} {topcoat : Bool} (h : Claims.Admitted s op r x) (ho : requestOps.contains op = true)
    (hpair : op ≠ 0x92) (hafter : ∀ d : Dev, d.afterReply op r.session = d)
    (hop : (Claims.entered s r x).operate op r.session r.reqId { x with lastAt := s.dev.now } r.payload =
      (((Claims.entered s r x).startInstall r.session r.reqId slot topcoat g.image).1,
        ((Claims.entered s r x).startInstall r.session r.reqId slot topcoat g.image).2.freeStage i)) :
    Yields (run s fun _ d => d.request op r) (fun t => tabGet none t.dev.cmd.stages i = none ∧
      Claims.InstallBegins s r x op (installKind topcoat) slot g.image t) := by
  have hfollow := verifyStaged_follows (Claims.entered s r x) (installKind topcoat) g.image
  simp only [Claims.InstallBegins, installKind_size, installKind_topcoat, forall_eq]
  have hfreed : ∀ (e : Dev) {e'}, Said (e.freeStage i) e' → tabGet none (runOn s fun _ _ => e').dev.cmd.stages i = none := fun e e' he => by
    rw [runOn_cmd_stages, he.stages, freeStage_eq, stage_staging]
  have hboot : ∀ (e : Dev) {e'}, Said (e.freeStage i) e' → (runOn s fun _ _ => e').dev.boot = e.boot := fun e e' he => by
    rw [runOn_boot, he.boot]
    rfl
  by_cases hl : g.image.length ≤ flashSize topcoat
  · by_cases hv : ((Claims.entered s r x).verifyStaged (installKind topcoat) g.image).1 = 0
    · rw [startInstall_begins hl hv] at hop
      have hsilent := congrArg Cmd.sessions (verifyStaged_silent (Claims.entered s r x) hv)
      generalize (Claims.entered s r x).verifyStaged (installKind topcoat) g.image = v at *
      refine yields_imp (request_pends hx ht h ho hpair hop hfollow.speaks (P := fun t => tabGet none t.dev.cmd.stages i = none ∧
        t.dev.boot.installs = s.dev.boot.installs ++ [⟨r.session, r.reqId, slot, topcoat, g.image⟩])
        (fun e' he => ⟨hfreed _ he, ?_⟩)) (fun t hu => ⟨hu.2.1, fun hn => absurd hl (Nat.not_le.mpr hn),
          fun _ => ⟨fun hn => absurd hv hn, fun _ => ⟨hu.2.2, hu.1.2 hsilent⟩⟩⟩)
      rw [hboot _ he]
      exact congrArg (fun b : Boot => b.installs ++ [_]) hfollow.boot
    · rw [startInstall_refused hl hv] at hop
      have hset := verifyStaged_set (Claims.entered s r x) hv
      generalize (Claims.entered s r x).verifyStaged (installKind topcoat) g.image = v at *
      refine yields_imp (request_says hx ht h ho hafter hop hfollow.speaks (Nat.zero_le _) (P := fun t => tabGet none t.dev.cmd.stages i = none ∧
        t.dev.isSet 520 = true ∧ t.dev.boot.installs = s.dev.boot.installs)
        (fun e' he => ⟨hfreed _ he, ?_, ?_⟩)) (fun t hu => ⟨hu.2.1, fun hn => absurd hl (Nat.not_le.mpr hn),
          fun _ => ⟨fun _ => ⟨hu.2.2.1, hu.2.2.2, hu.1.1⟩, fun hn => absurd hn hv⟩⟩)
      · rw [isSet_runOn, he.isSet]
        exact hset
      · rw [hboot _ he, hfollow.boot]
        rfl
  · rw [startInstall_long (Nat.not_le.mp hl)] at hop
    refine yields_imp (request_says hx ht h ho hafter hop (staging_speaks _ _ _) (Nat.zero_le _) (P := fun t =>
      tabGet none t.dev.cmd.stages i = none ∧ t.dev.boot.installs = s.dev.boot.installs) (fun e' he => ⟨hfreed _ he, ?_⟩))
      (fun t hu => ⟨hu.2.1, fun _ => ⟨hu.1.2 rfl, hu.2.2⟩, fun hn => absurd hn hl⟩)
    rw [hboot _ he]
    rfl

/-- FW_INSTALL writes the slot that does not run. -/
theorem fwInstall_begins (h : Claims.Admitted s 0x83 r x) (hk : g.kind = 1) : Yields (exec (.fwInstall r) s) (fun t =>
    tabGet none t.dev.cmd.stages i = none ∧ Claims.InstallBegins s r x 0x83 1 (1 - s.dev.fld SEC.BOOT_STAT_SLOT) g.image t) := by
  subst hi
  exact install_begins (topcoat := false) hx ht h (by decide) (by decide) (fun _ => rfl)
    (withImage_frees (d := Claims.entered s r x) hg hs hk
      (fun d c => d.startInstall r.session r.reqId (1 - d.fld SEC.BOOT_STAT_SLOT) false c))

/-- TOPCOAT_INSTALL writes a slot that does not hold the Topcoat in force. -/
theorem topcoatInstall_begins (h : Claims.Admitted s 0x84 r x) (hk : g.kind = 2) (hf : s.dev.tcInForce (beAt r.payload 1 1) = false) :
    Yields (exec (.topcoatInstall r) s) (fun t =>
      tabGet none t.dev.cmd.stages i = none ∧ Claims.InstallBegins s r x 0x84 2 (beAt r.payload 1 1) g.image t) := by
  subst hi
  refine install_begins (topcoat := true) hx ht h (by decide) (by decide) (fun _ => rfl) ?_
  have hno : ¬ (Claims.entered s r x).tcInForce (beAt r.payload 1 1) = true := by
    show ¬ s.dev.tcInForce (beAt r.payload 1 1) = true
    rw [hf]
    exact Bool.false_ne_true
  exact (if_neg hno).trans (withImage_frees (d := Claims.entered s r x) hg hs hk _)

end

/-- The Topcoat in force is not written over. -/
theorem topcoatInstall_inForce {s : State} {r : Req} {x : Session} (h : Claims.Admitted s 0x84 r x) (hf : s.dev.tcInForce (beAt r.payload 1 1) = true) :
    Yields (exec (.topcoatInstall r) s) (Claims.Replies s r x 0x84 0x0106 (beBytes 2 0)) := by
  have hop : (Claims.entered s r x).operate 0x84 r.session r.reqId { x with lastAt := s.dev.now } r.payload =
      (.reply 0x0106 (beBytes 2 0), Claims.entered s r x) := if_pos hf
  exact request_declined h (by decide) (fun _ => rfl) hop

end Sys2Proof.Proofs.Scope
end

section
/-!
PROOF. MODEL_UNLOAD and HPPR (R177, R229, R247).
-/

namespace Sys2Proof.Proofs.Scope

open Sys2Proof.Machine Sys2Proof.Laws

/-! The end of a session leaves the models and the memory. -/

theorem seqLimit_models (d : Dev) (n : Nat) : (d.seqLimit n).arr.models = d.arr.models ∧ (d.seqLimit n).memsys = d.memsys := by
  have hend : (d.endSession n 2).arr.models = d.arr.models ∧ (d.endSession n 2).memsys = d.memsys := by
    have h := event_said d n 15 (beBytes 1 2 ++ [0, 0, 0])
    unfold Dev.endSession
    split
    · have hm := congrArg Arr.models h.arr
      exact ⟨hm, h.memsys⟩
    · exact ⟨rfl, rfl⟩
  unfold Dev.seqLimit
  split
  · exact ⟨rfl, rfl⟩
  · split
    · exact hend
    · exact ⟨rfl, rfl⟩

/-- The context of a model is written last, so it is what the write says (R229). -/
theorem context_written (s : State) (e : Dev) (id : Nat) (ws : List MemWrite) (open_ : Bool)
    (h : e.memsys.writes = ws ++ [⟨ctxRecord (modelCtx id) + 6, if open_ then 1 else 0, .sound⟩]) :
    (runOn s fun _ _ => e).mem.byte (ctxRecord (modelCtx id) + 6) = if open_ then 1 else 0 := by
  rw [runOn_mem, h, putAll_append]
  exact Mem.byte_put_same _ ⟨ctxRecord (modelCtx id) + 6, if open_ then 1 else 0, .sound⟩

section
variable {s : State} {r : Req} {x : Session}

/-- What an unload leaves: the entry empty, the context closed, and what depends on the models renewed. -/
def unloaded (d : Dev) (id : Nat) : Dev := ((d.putModel id .empty).setContext (modelCtx id) false).replan.configDigest

theorem unloaded_follows (d : Dev) (id : Nat) : Follows 72 ((d.putModel id .empty).setContext (modelCtx id) false) (unloaded d id) :=
  (replan_follows _).trans (configDigest_follows _)

theorem modelUnload_frees (h : Claims.Admitted s 0x39 r x) {id : Nat} (hi : id = beAt r.payload 0 2) (hl : (s.dev.model id).state = 2)
    (hu : s.dev.modelUsers id = 0) : Yields (exec (.modelUnload r) s) (fun t => t.dev.model id = .empty ∧
      t.mem.byte (ctxRecord (modelCtx id) + 6) = 0 ∧ ∃ q, Claims.Answers t r 0x39 0 [] q) := by
  subst hi
  have hfollow := unloaded_follows (Claims.entered s r x) (beAt r.payload 0 2)
  have hop : (Claims.entered s r x).operate 0x39 r.session r.reqId { x with lastAt := s.dev.now } r.payload =
      (.reply 0 [], unloaded (Claims.entered s r x) (beAt r.payload 0 2)) := by
    have hl' : ¬ ((Claims.entered s r x).model (beAt r.payload 0 2)).state != 2 := fun hne => bne_iff_ne.mp hne hl
    have hu' : ¬ (Claims.entered s r x).modelUsers (beAt r.payload 0 2) != 0 := fun hne => bne_iff_ne.mp hne hu
    exact (if_neg hl').trans (if_neg hu')
  generalize unloaded (Claims.entered s r x) (beAt r.payload 0 2) = e at hfollow hop
  have hrun : s.dev.request 0x39 r = (e.reply r.session r.reqId 0x39 0 r.payload []).seqLimit r.session := by
    have hafter : ∀ d : Dev, d.afterReply 0x39 r.session = d := fun _ => rfl
    rw [request_admitted h (by decide)]
    simp only [Dev.runRequest, hop, hafter, ite_self]
  have hsaid := reply_said e r.session r.reqId 0x39 0 r.payload []
  obtain ⟨hmodels, hmem⟩ := seqLimit_models (e.reply r.session r.reqId 0x39 0 r.payload []) r.session
  obtain ⟨y, hy, -⟩ := hfollow.speaks _ _ (entered_session s r x)
  refine yields_imp (yields_and (request_reports h (by decide) (fun _ => rfl) hop) (run_body h.1.1 hrun (P := fun t =>
    t.dev.model (beAt r.payload 0 2) = .empty ∧ t.mem.byte (ctxRecord (modelCtx (beAt r.payload 0 2)) + 6) = 0) ⟨?_, ?_⟩))
    (fun t ht => ⟨ht.2.1, ht.2.2, _, ht.1.1 y hy⟩)
  · rw [model_runOn, Dev.model, hmodels, hsaid.arr, hfollow.arr]
    exact model_putModel_same _ _ _
  · exact context_written s _ _ (Claims.entered s r x).memsys.writes false
      ((congrArg MemSys.writes (hmem.trans (hsaid.memsys.trans hfollow.memsys))).trans rfl)

theorem modelUnload_notLoaded (h : Claims.Admitted s 0x39 r x) (hl : (s.dev.model (beAt r.payload 0 2)).state ≠ 2) :
    Yields (exec (.modelUnload r) s) (Claims.Replies s r x 0x39 0x0106 (beBytes 2 0)) := by
  have hop : (Claims.entered s r x).operate 0x39 r.session r.reqId { x with lastAt := s.dev.now } r.payload =
      (.reply 0x0106 (beBytes 2 0), Claims.entered s r x) := if_pos (bne_iff_ne.mpr hl)
  exact request_declined h (by decide) (fun _ => rfl) hop

theorem modelUnload_used (h : Claims.Admitted s 0x39 r x) (hl : (s.dev.model (beAt r.payload 0 2)).state = 2)
    (hu : s.dev.modelUsers (beAt r.payload 0 2) ≠ 0) : Yields (exec (.modelUnload r) s) (Claims.Replies s r x 0x39 0x020A []) := by
  have hop : (Claims.entered s r x).operate 0x39 r.session r.reqId { x with lastAt := s.dev.now } r.payload =
      (.reply 0x020A [], Claims.entered s r x) :=
    (if_neg (fun hne => bne_iff_ne.mp hne hl)).trans (if_pos (bne_iff_ne.mpr hu))
  exact request_declined h (by decide) (fun _ => rfl) hop

/-! HPPR. -/

/-- A repair waits for its end. -/
def underRepair (d : Dev) (job : Nat × Nat × List Nat) : Dev := { d with boot := { d.boot with hppr := some job } }

/-- A page can be repaired: it is logged, the device is in maintenance, and no other repair runs. -/
def repairReady (d : Dev) (i : Nat) : Bool := d.on SEC.STATE_MAINT && d.boot.hppr.isNone && d.on (MEM.RETIRE_PAGE_VALID i)

theorem repairReady_iff (d : Dev) (i : Nat) : (!d.on SEC.STATE_MAINT || d.boot.hppr.isSome || !d.on (MEM.RETIRE_PAGE_VALID i)) = !repairReady d i := by
  rw [repairReady, Bool.not_and, Bool.not_and, Option.not_isNone]

theorem hppr_begins (h : Claims.Admitted s 0x8A r x) (hx : x.rxHigh < 281474976710656) (ht : x.txSeq + 64 < 281474976710656)
    (hready : repairReady s.dev (beAt r.payload 0 1) = true) : Yields (exec (.hppr r) s) (fun t =>
      t.dev.boot.hppr = some (r.session, r.reqId, [beAt r.payload 0 1]) ∧ Claims.Answers t r 0x8A 1 [] (x.txSeq + 1)) := by
  have hop : (Claims.entered s r x).operate 0x8A r.session r.reqId { x with lastAt := s.dev.now } r.payload =
      (.pending, underRepair (Claims.entered s r x) (r.session, r.reqId, [beAt r.payload 0 1])) := by
    refine if_neg ?_
    rw [repairReady_iff]
    show ¬ (!repairReady s.dev (beAt r.payload 0 1)) = true
    rw [hready]
    exact Bool.false_ne_true
  refine yields_imp (request_pends hx ht h (by decide) (by decide) hop ((Speaks.same rfl).mono (by omega))
    (P := fun t => t.dev.boot.hppr = some (r.session, r.reqId, [beAt r.payload 0 1])) (fun e' he => ?_)) (fun t hu => ⟨hu.2, hu.1.2 rfl⟩)
  rw [runOn_boot, he.boot]
  rfl

theorem hppr_refused (h : Claims.Admitted s 0x8A r x) (hready : repairReady s.dev (beAt r.payload 0 1) = false) :
    Yields (exec (.hppr r) s) (Claims.Replies s r x 0x8A 0x0106 (beBytes 2 0)) := by
  have hop : (Claims.entered s r x).operate 0x8A r.session r.reqId { x with lastAt := s.dev.now } r.payload =
      (.reply 0x0106 (beBytes 2 0), Claims.entered s r x) := by
    refine if_pos ?_
    rw [repairReady_iff]
    show (!repairReady s.dev (beAt r.payload 0 1)) = true
    rw [hready]
    rfl
  exact request_declined h (by decide) (fun _ => rfl) hop

end

end Sys2Proof.Proofs.Scope
end

section
/-!
PROOF. The ends of loads, installs and repairs, each reported by OP_DONE (R176, R190, R247, R377, R459).
-/

namespace Sys2Proof.Proofs.Scope

open Sys2Proof.Machine Sys2Proof.Laws

/-! OP_DONE. -/

theorem opDone_said (d : Dev) (sess reqId status : Nat) (result : List Byte) : Said d (d.opDone sess reqId status result) := by
  unfold Dev.opDone
  split
  · exact .refl d
  · exact (withSession_said _ _ _).trans (event_said _ _ _ _)

/-- An event is queued for its session, where it is open. -/
theorem event_queued {d : Dev} {n : Nat} {y : Session} (op : Nat) (p : List Byte) (h : d.session n = some y) :
    ∃ m ∈ (d.event n op p).cmd.outbox, m.session = n ∧ m.opcode = op ∧ m.event = true ∧ m.payload = p := by
  simp only [Dev.event, h, Dev.post_outbox]
  exact ⟨_, List.mem_append_right _ (List.mem_singleton.mpr rfl), rfl, rfl, rfl, rfl⟩

theorem opDone_queued {d : Dev} {sess : Nat} {y : Session} (reqId status : Nat) (result : List Byte) (h : d.session sess = some y) :
    ∃ m ∈ (d.opDone sess reqId status result).cmd.outbox, m.session = sess ∧ m.opcode = 13 ∧ m.event = true ∧
      m.payload = beBytes 4 reqId ++ beBytes 2 status ++ [0, 0] ++ result := by
  unfold Dev.opDone
  rw [h]
  exact event_queued 13 _ (Dev.session_withSession_same _ _ _)

/-- The end of an operation is reported to its session, where what the end did left the sessions open. -/
theorem opDone_ends {s : State} {d : Dev} {k : Nat} (h : Speaks k s.dev d) (sess reqId status : Nat) (result : List Byte) :
    Claims.Ended s (runOn s fun _ _ => d.opDone sess reqId status result) sess reqId status result := fun y hy => by
  obtain ⟨z, hz, -⟩ := h sess y hy
  obtain ⟨m, hm, hsess, hop, hrest⟩ := opDone_queued reqId status result hz
  exact ⟨m, runOn_message s _ hm (by rw [hop]; decide), hsess, hop, hrest⟩

/-! The end of a load. -/

theorem setContext_rest (d : Dev) (ctx : Nat) (open_ : Bool) : (d.setContext ctx open_).arr = d.arr ∧ (d.setContext ctx open_).cmd = d.cmd ∧
    (d.setContext ctx open_).memsys.writes = d.memsys.writes ++ [⟨ctxRecord ctx + 6, if open_ then 1 else 0, .sound⟩] := ⟨rfl, rfl, rfl⟩

theorem store_rest (d : Dev) (ws : List MemWrite) : (d.store ws).arr = d.arr ∧ (d.store ws).cmd = d.cmd ∧
    (d.store ws).memsys.writes = d.memsys.writes ++ ws := ⟨rfl, rfl, rfl⟩

theorem putModel_rest (d : Dev) (id : Nat) (m : Model) : (d.putModel id m).arr.loads = d.arr.loads ∧ (d.putModel id m).cmd = d.cmd :=
  ⟨rfl, rfl⟩

theorem clearTensors_rest (d : Dev) (id : Nat) : (d.clearTensors id).arr.loads = d.arr.loads ∧ (d.clearTensors id).cmd = d.cmd := ⟨rfl, rfl⟩

/-- L takes a digest (R470). -/
def withLoaded (d : Dev) (l : List Byte) : Dev := { d with boot := { d.boot with loaded := l } }

/-- The image of a load is stored: its entry, its weights and its context. -/
def loadStored (d : Dev) (id : Nat) (m : Model) (ws : List MemWrite) : Dev :=
  (((d.clearTensors id).putModel id m).store ws).setContext (modelCtx id) true

/-- The entry of a model that is LOADED. -/
def loadedEntry (d : Dev) (m : Model) : Model := { m with state := 2, loadFrame := if d.running then d.frame else 0 }

theorem loadStored_rest (d : Dev) (id : Nat) (m : Model) (ws : List MemWrite) : (loadStored d id m ws).model id = m ∧
    (loadStored d id m ws).arr.loads = d.arr.loads ∧ (loadStored d id m ws).cmd = d.cmd ∧
    ∃ old, (loadStored d id m ws).memsys.writes = old ++ [⟨ctxRecord (modelCtx id) + 6, if true then 1 else 0, .sound⟩] := by
  have hclear := clearTensors_rest d id
  unfold loadStored
  generalize d.clearTensors id = d0 at hclear ⊢
  have hput := putModel_rest d0 id m
  have hentry := model_putModel_same d0 id m
  generalize d0.putModel id m = d1 at hput hentry ⊢
  have hstore := store_rest d1 ws
  generalize d1.store ws = d2 at hstore ⊢
  have hctx := setContext_rest d2 (modelCtx id) true
  obtain ⟨hl0, hc0⟩ := hclear
  obtain ⟨hl1, hc1⟩ := hput
  obtain ⟨ha2, hc2, -⟩ := hstore
  obtain ⟨ha3, hc3, hw3⟩ := hctx
  exact ⟨(model_congr (ha3.trans ha2) id).trans hentry, (congrArg Arr.loads (ha3.trans ha2)).trans (hl1.trans hl0),
    hc3.trans (hc2.trans (hc1.trans hc0)), _, hw3⟩

/-- The image of a load is kept, before the plan and the digest follow. -/
def loadKept (d : Dev) (id : Nat) (m : Model) (weights : List Byte) : Dev :=
  let e := loadStored d id (loadedEntry d m) (m.weightWrites weights)
  withLoaded e (shaBytes ((if e.boot.loaded = [] then zeroBytes 64 else e.boot.loaded) ++ (loadedEntry d m).digest))

theorem keepModel_follows (d : Dev) (id : Nat) (m : Model) (weights : List Byte) : Follows 72 (loadKept d id m weights) (d.keepModel id m weights) :=
  (replan_follows (loadKept d id m weights)).trans (configDigest_follows _)

theorem loadKept_rest (d : Dev) (id : Nat) (m : Model) (weights : List Byte) : ((loadKept d id m weights).model id).state = 2 ∧
    (loadKept d id m weights).arr.loads = d.arr.loads ∧ (loadKept d id m weights).cmd = d.cmd ∧
    ∃ old, (loadKept d id m weights).memsys.writes = old ++ [⟨ctxRecord (modelCtx id) + 6, if true then 1 else 0, .sound⟩] := by
  obtain ⟨hm, hl, hc, hw⟩ := loadStored_rest d id (loadedEntry d m) (m.weightWrites weights)
  unfold loadKept
  generalize loadStored d id (loadedEntry d m) (m.weightWrites weights) = e at *
  exact ⟨(congrArg Model.state hm).trans rfl, hl, hc, hw⟩

section
variable {s : State} {id : Nat} {j : LoadJob} {rest : List LoadJob} {d : Dev} (hd : s.dev.dead = false)
  (hj : takeLoad id s.dev.arr.loads = some (j, rest)) (he : d = { s.dev with arr := { s.dev.arr with loads := rest } })
include hd hj he

/-- A load whose image has failed ends, and changes no model. -/
theorem load_fails (hs : j.status ≠ 0) : Yields (exec (.modelLoadDone id) s) (fun t => t.dev.arr.loads = rest ∧
    t.dev.model id = s.dev.model id ∧ Claims.Ended s t j.session j.reqId (0x0200 + j.status) (beBytes 2 id)) := by
  have hrun : s.dev.loadDone id = d.opDone j.session j.reqId (0x0200 + j.status) (beBytes 2 id) := by
    unfold Dev.loadDone
    simp only [hj, ← he, hs, decide_false, Bool.false_and, Bool.false_eq_true, if_false, bne_iff_ne, ne_eq, not_false_eq_true, if_true]
  have hsaid := opDone_said d j.session j.reqId (0x0200 + j.status) (beBytes 2 id)
  refine run_body hd hrun ⟨?_, ?_, opDone_ends (.same (he ▸ rfl)) _ _ _ _⟩
  · rw [runOn_arr, hsaid.arr, he]
  · rw [model_runOn, model_congr hsaid.arr, he]
    rfl

/-- A load that is over budget ends with its entry EMPTY (R190). -/
theorem load_over (hs : j.status = 0) (ho : d.loadOver id (d.model id) = true) : Yields (exec (.modelLoadDone id) s) (fun t =>
    t.dev.arr.loads = rest ∧ t.dev.model id = .empty ∧ Claims.Ended s t j.session j.reqId 0x0209 (beBytes 2 id)) := by
  have hrun : s.dev.loadDone id = (d.putModel id .empty).opDone j.session j.reqId 0x0209 (beBytes 2 id) := by
    unfold Dev.loadDone
    simp only [hj, ← he, hs, ho, decide_true, Bool.true_and, if_true, bne_self_eq_false, Bool.false_eq_true, if_false]
  have hsaid := opDone_said (d.putModel id .empty) j.session j.reqId 0x0209 (beBytes 2 id)
  refine run_body hd hrun ⟨?_, ?_, opDone_ends (.same (he ▸ rfl)) _ _ _ _⟩
  · rw [runOn_arr, hsaid.arr, he]
    rfl
  · rw [model_runOn, model_congr hsaid.arr, model_putModel_same]

/-- A load that ends well leaves its model LOADED, with its context open. -/
theorem load_keeps (hs : j.status = 0) (ho : d.loadOver id (d.model id) = false) : Yields (exec (.modelLoadDone id) s) (fun t =>
    t.dev.arr.loads = rest ∧ (t.dev.model id).state = 2 ∧ t.mem.byte (ctxRecord (modelCtx id) + 6) = 1 ∧
    Claims.Ended s t j.session j.reqId 0x0200 (beBytes 2 id)) := by
  have hrun : s.dev.loadDone id = (d.keepModel id (d.model id) j.weights).opDone j.session j.reqId 0x0200 (beBytes 2 id) := by
    unfold Dev.loadDone
    simp only [hj, ← he, hs, ho, decide_true, Bool.and_false, bne_self_eq_false, Bool.false_eq_true, if_false, Nat.add_zero]
  have hfollow := keepModel_follows d id (d.model id) j.weights
  obtain ⟨hstate, hloads, hcmd, old, hwrites⟩ := loadKept_rest d id (d.model id) j.weights
  generalize d.keepModel id (d.model id) j.weights = e at hrun hfollow
  generalize loadKept d id (d.model id) j.weights = e0 at *
  have hsaid := opDone_said e j.session j.reqId 0x0200 (beBytes 2 id)
  have hopen : Speaks 72 s.dev e := Speaks.trans (j := 0) (.same ((congrArg Cmd.sessions hcmd).trans (he ▸ rfl))) hfollow.speaks
  refine run_body hd hrun ⟨?_, ?_, ?_, opDone_ends hopen _ _ _ _⟩
  · rw [runOn_arr, hsaid.arr, hfollow.arr, hloads, he]
  · rw [model_runOn, model_congr (hsaid.arr.trans hfollow.arr)]
    exact hstate
  · exact context_written s _ id _ true ((congrArg MemSys.writes (hsaid.memsys.trans hfollow.memsys)).trans hwrites)

end

/-! The end of an install. -/

/-- The firmware slot of an install holds its image, or one that fails. -/
def fwWritten (d : Dev) (i : Install) (rest : List Install) (ok : Bool) : Dev :=
  { d with boot := { d.boot with installs := rest, flashFw := tabSet [] d.boot.flashFw i.slot (if ok then i.image else []) } }

/-- The same of a Topcoat slot. -/
def tcStored (d : Dev) (i : Install) (rest : List Install) (ok : Bool) : Dev :=
  { d with boot := { d.boot with installs := rest, flashTc := tabSet [] d.boot.flashTc i.slot (if ok then i.image else []) } }

/-- A Topcoat slot that is written is no longer known to have failed. -/
def tcWritten (d : Dev) (i : Install) (rest : List Install) (ok : Bool) : Dev :=
  (tcStored d i rest ok).put SEC.BOOT_STAT_TC_FAIL
    (if bit (d.fld SEC.BOOT_STAT_TC_FAIL) i.slot then d.fld SEC.BOOT_STAT_TC_FAIL - 2 ^ i.slot else d.fld SEC.BOOT_STAT_TC_FAIL)

section
variable {d : Dev} {i : Install} {rest : List Install} (ok : Bool)

theorem fwWritten_rest (d : Dev) : (fwWritten d i rest ok).boot.installs = rest ∧
    tabGet [] (fwWritten d i rest ok).boot.flashFw i.slot = (if ok then i.image else []) ∧ (fwWritten d i rest ok).cmd = d.cmd :=
  ⟨rfl, tabGet_set_same _ _ _ _, rfl⟩

theorem tcStored_rest (d : Dev) : (tcStored d i rest ok).boot.installs = rest ∧
    tabGet [] (tcStored d i rest ok).boot.flashTc i.slot = (if ok then i.image else []) ∧ (tcStored d i rest ok).cmd = d.cmd :=
  ⟨rfl, tabGet_set_same _ _ _ _, rfl⟩

theorem installDone_fw (hi : takeInstall false d.boot.installs = some (i, rest)) :
    d.installDone false ok = (fwWritten d i rest ok).opDone i.session i.reqId (if ok then 0 else 0x010C) [] := by
  unfold Dev.installDone
  rw [hi]
  rfl

theorem installDone_tc (hi : takeInstall true d.boot.installs = some (i, rest)) :
    d.installDone true ok = (tcWritten d i rest ok).opDone i.session i.reqId (if ok then 0 else 0x010C) [] := by
  unfold Dev.installDone
  rw [hi]
  rfl

end

/-- A bit that is taken off a word is no longer set in it, however narrow the field. -/
theorem bit_cleared (v i w : Nat) : bit ((if bit v i then v - 2 ^ i else v) % 2 ^ w) i = false := by
  have hclear : bit (if bit v i then v - 2 ^ i else v) i = false := by
    split
    next h =>
      have hodd : v / 2 ^ i % 2 = 1 := beq_iff_eq.mp h
      have hle : 2 ^ i ≤ v := Nat.le_of_not_lt (fun hlt => by simp [Nat.div_eq_of_lt hlt] at hodd)
      have hdiv := Nat.div_eq_sub_div (Nat.two_pow_pos i) hle
      exact beq_eq_false_iff_ne.mpr (by omega)
    next h => exact Bool.eq_false_iff.mpr h
  rw [bit_eq_testBit] at hclear ⊢
  rw [Nat.testBit_mod_two_pow, hclear, Bool.and_false]

section
variable {s : State} {i : Install} {rest : List Install} (hd : s.dev.dead = false) (ok : Bool)
include hd

theorem fwInstall_ends (hi : takeInstall false s.dev.boot.installs = some (i, rest)) : Yields (exec (.fwInstallDone ok) s) (fun t =>
    t.dev.boot.installs = rest ∧ tabGet [] t.dev.boot.flashFw i.slot = (if ok then i.image else []) ∧
    Claims.Ended s t i.session i.reqId (if ok then 0 else 0x010C) []) := by
  have hrun := installDone_fw ok hi
  obtain ⟨hrest, hflash, hcmd⟩ := fwWritten_rest (i := i) (rest := rest) ok s.dev
  generalize fwWritten s.dev i rest ok = e at hrun hrest hflash hcmd
  have hboot := (opDone_said e i.session i.reqId (if ok then 0 else 0x010C) []).boot
  refine run_body hd hrun ⟨?_, ?_, opDone_ends (.same (congrArg Cmd.sessions hcmd)) _ _ _ _⟩
  · rw [runOn_boot, hboot, hrest]
  · rw [runOn_boot, hboot, hflash]

theorem topcoatInstall_ends (hi : takeInstall true s.dev.boot.installs = some (i, rest)) : Yields (exec (.topcoatInstallDone ok) s) (fun t =>
    t.dev.boot.installs = rest ∧ tabGet [] t.dev.boot.flashTc i.slot = (if ok then i.image else []) ∧
    bit (t.dev.fld SEC.BOOT_STAT_TC_FAIL) i.slot = false ∧ Claims.Ended s t i.session i.reqId (if ok then 0 else 0x010C) []) := by
  have hrun := installDone_tc ok hi
  obtain ⟨hrest, hflash, hcmd⟩ := tcStored_rest (i := i) (rest := rest) ok s.dev
  unfold tcWritten at hrun
  generalize tcStored s.dev i rest ok = e0 at hrun hrest hflash hcmd
  generalize hput : e0.put _ _ = e at hrun
  have hsaid := opDone_said e i.session i.reqId (if ok then 0 else 0x010C) []
  have hboot : e.boot = e0.boot := hput ▸ rfl
  refine run_body hd hrun ⟨?_, ?_, ?_, opDone_ends (.same ((hput ▸ rfl : e.cmd.sessions = e0.cmd.sessions).trans (congrArg Cmd.sessions hcmd))) _ _ _ _⟩
  · rw [runOn_boot, hsaid.boot, hboot, hrest]
  · rw [runOn_boot, hsaid.boot, hboot, hflash]
  · rw [runOn_fld _ _ (by decide), hsaid.fld, ← hput, Dev.fld_put_same]
    exact bit_cleared _ _ _

end

/-! The end of a repair. -/

theorem bad_put (m : Mem) (w : MemWrite) (a : Nat) (h : w.check = .double) : (m.put w).bad a = (m.bad a || w.addr == a) := by
  have hget := tabGet_set Check.sound m.check w.addr a w.check
  simp only [Mem.bad, Mem.checkAt, Mem.put]
  by_cases ha : a = w.addr
  · rw [hget, if_pos ha, h, ha]
    simp
  · rw [hget, if_neg ha, beq_eq_false_iff_ne.mpr (Ne.symm ha), Bool.or_false]

/-- Writes of poison alone leave a byte poisoned where it was, or where one of them aims. -/
theorem bad_putAll (ws : List MemWrite) (a : Nat) : ∀ m : Mem, (∀ w ∈ ws, w.check = .double) →
    (m.putAll ws).bad a = (m.bad a || ws.any (fun w => w.addr == a)) := by
  induction ws with
  | nil => exact fun m _ => (Bool.or_false _).symm
  | cons w ws ih =>
    intro m h
    have hw := bad_put m w a (h w List.mem_cons_self)
    have hws := ih (m.put w) (fun x hx => h x (List.mem_cons_of_mem _ hx))
    rw [List.any_cons, ← Bool.or_assoc, ← hw]
    exact hws

/-- The writes that the end of a repair makes for each of its pages. -/
def repairWrites (d : Dev) (is : List Nat) : List MemWrite := is.flatMap (fun i => poisonPage (d.fld (MEM.RETIRE_PAGE_PPN i)))

theorem repairWrites_double (d : Dev) (is : List Nat) : ∀ w ∈ repairWrites d is, w.check = .double := by
  intro w hw
  obtain ⟨i, -, hpage⟩ := List.mem_flatMap.mp hw
  obtain ⟨k, -, rfl⟩ := List.mem_map.mp hpage
  rfl

theorem repairWrites_covers {d : Dev} {is : List Nat} {i k : Nat} (hi : i ∈ is) (hk : k < 65536) :
    (repairWrites d is).any (fun w => w.addr == 65536 * d.fld (MEM.RETIRE_PAGE_PPN i) + k) = true := by
  refine List.any_eq_true.mpr ⟨⟨65536 * d.fld (MEM.RETIRE_PAGE_PPN i) + k, 0, .double⟩, List.mem_flatMap.mpr ⟨i, hi, ?_⟩, beq_self_eq_true _⟩
  exact List.mem_map.mpr ⟨k, List.mem_range.mpr hk, rfl⟩

/-- The pages of a repair are stored to one after another. -/
theorem repairStores (is : List Nat) : ∀ d : Dev,
    is.foldl (fun d i => d.store (poisonPage (d.fld (MEM.RETIRE_PAGE_PPN i)))) d = d.store (repairWrites d is) := by
  induction is with
  | nil =>
    intro d
    simp only [List.foldl_nil, Dev.store, repairWrites, List.flatMap_nil, List.append_nil]
  | cons i is ih =>
    intro d
    rw [List.foldl_cons, ih]
    simp only [Dev.store, repairWrites, List.flatMap_cons, List.append_assoc]
    rfl

/-- A repair ends: its pages read as uncorrectable errors until they are written. -/
theorem repair_ends {s : State} (hd : s.dev.dead = false) {h : Nat × Nat × List Nat} (hh : s.dev.boot.hppr = some h) :
    Yields (exec .hpprDone s) (fun t => t.dev.boot.hppr = none ∧ Claims.Ended s t h.1 h.2.1 0 [] ∧
      ∀ i ∈ h.2.2, ∀ k, k < 65536 → t.mem.bad (65536 * s.dev.fld (MEM.RETIRE_PAGE_PPN i) + k) = true) := by
  obtain ⟨n, reqId, is⟩ := h
  have hrun : s.dev.hpprDone = (({ s.dev with boot := { s.dev.boot with hppr := none } } : Dev).store (repairWrites s.dev is)).opDone n reqId 0 [] := by
    unfold Dev.hpprDone
    rw [hh]
    exact congrArg (fun d : Dev => d.opDone n reqId 0 []) (repairStores is _)
  generalize he : ({ s.dev with boot := { s.dev.boot with hppr := none } } : Dev).store (repairWrites s.dev is) = e at hrun
  have hsaid := opDone_said e n reqId 0 []
  have hwrites : e.memsys.writes = s.dev.memsys.writes ++ repairWrites s.dev is := he ▸ rfl
  refine run_body hd hrun ⟨?_, opDone_ends (.same (he ▸ rfl)) _ _ _ _, fun i hi k hk => ?_⟩
  · rw [runOn_boot, hsaid.boot, ← he]
    rfl
  · rw [runOn_mem, hsaid.memsys, hwrites, putAll_append, bad_putAll _ _ _ (repairWrites_double _ _), repairWrites_covers hi hk, Bool.or_true]

end Sys2Proof.Proofs.Scope
end

section
/-!
PROOF. The statement on the stages, loads, installs and repairs.
-/

namespace Sys2Proof.Proofs.Scope

open Sys2Proof.Machine Sys2Proof.Laws

/-- Settles O55: the stages, the requests that take an image, the unload and the repair, then the end of each operation. -/
theorem imagesAreStagedLoadedAndInstalled : Obligations.ImagesAreStagedLoadedAndInstalled := by
  unfold Obligations.ImagesAreStagedLoadedAndInstalled
  intro s r x
  refine ⟨fun h i hi hn hlow hheld hroom => imgOpen_opens h hi hn hlow hheld hroom,
    fun i g hi hg hs hx ht => ⟨imgChunk_fills hi hg hs hx ht, imgClose_frees hi hg hs hx ht, modelLoad_begins hi hg hs hx ht,
      fwInstall_begins hi hg hs hx ht, topcoatInstall_begins hi hg hs hx ht⟩,
    topcoatInstall_inForce, fun h id hid => ⟨?_, ?_, modelUnload_frees h hid⟩, fun h hx ht ready hready => ⟨?_, ?_⟩,
    fun hd => ⟨fun id j rest d hj he => ?_, fun ok i rest => fwInstall_ends hd ok, fun ok i rest => topcoatInstall_ends hd ok, fun h => repair_ends hd⟩⟩
  · exact hid ▸ modelUnload_notLoaded h
  · exact hid ▸ modelUnload_used h
  · exact fun hr => hppr_begins h hx ht (hready.symm.trans hr)
  · exact fun hr => hppr_refused h (hready.symm.trans hr)
  · by_cases hs : j.status = 0
    · cases ho : d.loadOver id (d.model id)
      · exact yields_imp (load_keeps hd hj he hs ho) (fun t ht => ⟨ht.1, fun hn => absurd hs hn, fun _ hb => (nomatch hb), fun _ _ => ht.2⟩)
      · exact yields_imp (load_over hd hj he hs ho) (fun t ht => ⟨ht.1, fun hn => absurd hs hn, fun _ _ => ht.2, fun _ hb => nomatch hb⟩)
    · exact yields_imp (load_fails hd hj he hs) (fun t ht => ⟨ht.1, fun _ => ht.2, fun hz => absurd hz hs, fun hz => absurd hz hs⟩)

end Sys2Proof.Proofs.Scope
end

section
/-!
PROOF. What a detection leaves beside its source (R108, R146, R192, R224, R225, R244, R418): no source is cleared and no heartbeat stops, and of
the counts of memory errors its own alone counts.
-/

namespace Sys2Proof.Proofs.Scope

open Sys2Proof.Machine Sys2Proof.Laws

/-! The counts of memory errors stay when an error is recorded. -/

/-- Holding the first uncorrectable error leaves every field but those of its record (Table 07.12). -/
theorem fld_ueInfo (d : Dev) (memory unit mid a : Nat) {g : Fld}
    (hg : g.key ∉ [MEM.UE_INFO_VALID.key, MEM.UE_INFO_MEMORY.key, MEM.UE_INFO_UNIT.key, MEM.UE_INFO_MID.key, MEM.UE_ADDR_LO_ADDR.key,
      MEM.UE_ADDR_HI_ADDR.key]) : (d.ueInfo memory unit mid a).fld g = d.fld g := by
  simp only [List.mem_cons, List.not_mem_nil, or_false, not_or] at hg
  obtain ⟨hvalid, hmemory, hunit, hmid, hlow, hhigh⟩ := hg
  refine ite_leaves (fun e => e.fld g) rfl ?_
  exact (Dev.fld_put_other _ _ hhigh).trans ((Dev.fld_put_other _ _ hlow).trans ((Dev.fld_put_other _ _ hmid).trans
    ((Dev.fld_put_other _ _ hunit).trans ((Dev.fld_put_other _ _ hmemory).trans (Dev.fld_flag_other _ _ hvalid)))))

/-- Scheduling a page leaves every field below the log of retired pages (R244). -/
theorem fld_schedulePage (d : Dev) (page cause : Nat) {g : Fld} (hg : g.key < 32 * MEM.RETIRE_PAGE 0) :
    (d.schedulePage page cause).fld g = d.fld g := by
  have hapart (n : Nat) : g.key ≠ (MEM.RETIRE_PAGE_VALID n).key ∧ g.key ≠ (MEM.RETIRE_PAGE_CAUSE n).key ∧
      g.key ≠ (MEM.RETIRE_PAGE_PPN n).key := by
    simp only [Fld.key, MEM.RETIRE_PAGE_VALID, MEM.RETIRE_PAGE_CAUSE, MEM.RETIRE_PAGE_PPN, MEM.RETIRE_PAGE] at hg ⊢
    omega
  obtain ⟨hvalid, hcause, hpage⟩ := hapart d.memsys.retired
  refine ite_leaves (fun e => e.fld g) rfl (ite_leaves (fun e => e.fld g) ?_ rfl)
  exact (Dev.fld_put_other _ _ hpage).trans ((Dev.fld_put_other _ _ hcause).trans (Dev.fld_flag_other _ _ hvalid))

theorem fld_rowError (d : Dev) (a : Nat) {g : Fld} (hg : g.key < 32 * MEM.RETIRE_PAGE 0) : (d.rowError a).fld g = d.fld g :=
  ite_leaves (fun e => e.fld g) (fld_schedulePage _ _ _ hg) rfl

theorem fld_drawN (d : Dev) (n : Nat) (g : Fld) : (d.drawN n).2.fld g = d.fld g := by
  rw [drawN_dev]
  rfl

/-- A counter after a count, in the terms of the statement. -/
theorem fld_count_satAdd (d : Dev) (f : Fld) (n : Nat) : (d.count f n).fld f = satAdd (2 ^ f.width - 1) (d.fld f) n := by
  rw [Dev.fld_count_same, satAdd]
  split <;> omega

/-- The counters of memory errors, with the sources that count in them (R224, R225, R227). -/
abbrev errorCounters : List (Nat × Fld) := [(80, MEM.SRAM_CNT_CE), (81, MEM.SRAM_CNT_UE), (82, MEM.DRAM_CE_CE), (83, MEM.DRAM_UE_UE)]

/-- A detected memory error counts in its counter. -/
theorem detectEffect_counts (d : Dev) : ∀ e ∈ errorCounters, (d.detectEffect e.1).fld e.2 = satAdd (2 ^ e.2.width - 1) (d.fld e.2) 1 := by
  have hdrawn (f : Fld) : ((d.drawN 4).2.count f 1).fld f = satAdd (2 ^ f.width - 1) (d.fld f) 1 :=
    (fld_count_satAdd _ f 1).trans (by rw [fld_drawN])
  have hsramCe : (d.detectEffect 80).fld MEM.SRAM_CNT_CE = _ := fld_count_satAdd d MEM.SRAM_CNT_CE 1
  have hsramUe : (d.detectEffect 81).fld MEM.SRAM_CNT_UE = _ := (fld_ueInfo _ _ _ _ _ (by decide)).trans (hdrawn MEM.SRAM_CNT_UE)
  have hdramCe : (d.detectEffect 82).fld MEM.DRAM_CE_CE = _ := (fld_rowError _ _ (by decide)).trans (hdrawn MEM.DRAM_CE_CE)
  have hdramUe : (d.detectEffect 83).fld MEM.DRAM_UE_UE = _ :=
    (fld_schedulePage _ _ _ (by decide)).trans ((fld_ueInfo _ _ _ _ _ (by decide)).trans (hdrawn MEM.DRAM_UE_UE))
  simp only [List.forall_mem_cons]
  exact ⟨hsramCe, hsramUe, hdramCe, hdramUe, by simp⟩

/-! No effect clears a source or stops a heartbeat. -/

/-- The attempt of an owner is given up, and its job's record replaced (R193, R197). -/
theorem keeps_endAttempt (d : Dev) (o : OpOwner) (w : Nat) (j : Job) :
    Keeps ownerKeys d ((((d.wasteAttempt o).dropOps o).dropStageDma o).putJob w j) := (keeps_abandon d o).trans (keeps_putJob _ w j)

/-- A block of a history is lost. -/
theorem keeps_historyLost (d : Dev) : Keeps stageKeys d d.historyLost := by
  unfold Dev.historyLost
  split
  · exact .refl d
  · have hdrawn := keeps_drawN (K := stageKeys) d 2
    exact .ite (hdrawn.trans (.same rfl rfl (fun h => h) rfl)) (hdrawn.trans (.same rfl rfl (fun h => h) rfl))

/-- HB_OK of a die is none of the fields that an effect may change. -/
theorem hbOk_stage (i : Nat) : (hbOkFld i).key ∉ stageKeys := by
  unfold hbOkFld
  split
  · decide
  · split <;> decide

theorem keeps_detectEffect (d : Dev) (n : Nat) : Keeps stageKeys d (d.detectEffect n) := by
  have hdrawn := keeps_drawN (K := stageKeys) d 4
  have hcount (e : Dev) (f : Fld) (hf : f.key ∈ readKeys) (hi : MEM.INJ_ARM.key ≠ f.key) : Reads e (e.count f 1) := (Reads.refl e).put f _ hf hi
  unfold Dev.detectEffect
  dsimp only
  split
  · split
    · exact .refl d
    -- A table read error abandons the attempt of the job that needed the table (R108, R192).
    · refine hdrawn.trans (Keeps.mono ?_ ownerKeys_stage)
      generalize (d.drawN 4).2 = e
      show Keeps ownerKeys e (match e.openJob _ _ with
        | none => e
        | some j => _)
      split
      · exact .refl e
      · refine .ite (.refl e) (.ite ?_ (keeps_endAttempt e _ _ _))
        exact ((keeps_endAttempt e _ _ _).put TCK.RESTART_RESTARTS _ (by decide) (by decide)).trans (.same rfl rfl (fun h => h) rfl)
  · exact keeps_historyLost d
  · exact hdrawn.raise .s _ (fun _ hk => ownerKeys_stage (by simp only [ownerKeys, List.mem_append, hk, true_or]))
  · exact (hcount _ MEM.SRAM_CNT_CE (by decide) (by decide)).keeps.mono readKeys_stage
  · exact hdrawn.trans (((hcount _ MEM.SRAM_CNT_UE (by decide) (by decide)).ueInfo _ _ _ _).keeps.mono readKeys_stage)
  · exact hdrawn.trans (((hcount _ MEM.DRAM_CE_CE (by decide) (by decide)).trans (reads_rowError _ _)).keeps.mono readKeys_stage)
  · exact hdrawn.trans ((((hcount _ MEM.DRAM_UE_UE (by decide) (by decide)).ueInfo _ _ _ _).trans
      (reads_schedulePage _ _ _)).keeps.mono readKeys_stage)
  · exact .refl d

/-- Only the history and table errors, the status parity error and the memory errors have an effect of their own. -/
theorem detectEffect_none (d : Dev) {n : Nat} (h : n ∉ [3, 73, 75, 80, 81, 82, 83]) : d.detectEffect n = d := by
  simp only [List.mem_cons, List.not_mem_nil, or_false, not_or] at h
  unfold Dev.detectEffect
  dsimp only
  split
  iterate 7 · omega
  · rfl

end Sys2Proof.Proofs.Scope
end

section
/-!
PROOF. An ALARM of a die puts the device into the safe state (R416, R418, R419).
-/

namespace Sys2Proof.Proofs.Scope

open Sys2Proof.Machine Sys2Proof.Laws

/-- An entry that reads as another value than an unlisted key is listed. -/
theorem mem_of_tabGet {α : Type} {z v : α} {t : Tab α} {k : Nat} (h : tabGet z t k = v) (hv : v ≠ z) : (k, v) ∈ t := by
  induction t with
  | nil => exact absurd h.symm hv
  | cons e t ih =>
    by_cases he : e.1 = k
    · rw [tabGet, if_pos he] at h
      exact List.mem_cons.mpr (.inl (by rw [← he, ← h]))
    · rw [tabGet, if_neg he] at h
      exact List.mem_cons_of_mem _ (ih h)

/-- A die that holds a source at SAFE or RESTART asks for the safe state. -/
theorem dieSafe_of_held {d : Dev} {i n : Nat} (hn : srcExists n = true) (hh : tabGet false d.snag.held (key2 i n) = true)
    (hs : sevSafe ≤ d.collSev i n) : d.dieSafe i = true := by
  have hlt := srcExists_lt hn
  have hdie : key2 i n / 4294967296 = i := by unfold key2; omega
  have hsource : key2 i n % 4294967296 = n := by unfold key2; omega
  refine List.any_eq_true.mpr ⟨_, mem_of_tabGet hh (by decide), ?_⟩
  simp [hdie, hsource, hs]

/-- The copy of a severity in a collector, where neither the copy nor a severity changes. -/
theorem collSev_congr {d e : Dev} {i n : Nat} (hn : srcExists n = true) (hc : e.snag.sevCopy = d.snag.sevCopy)
    (hf : e.fld (sevFld n) = d.fld (sevFld n)) : e.collSev i n = d.collSev i n := by
  simp only [Dev.collSev, Dev.sev, hn, if_true, hf, hc]

/-- The ALARM of a die that holds a source at SAFE or RESTART reads 1. -/
theorem setAlarms_on {d : Dev} {i n : Nat} (hi : i < 3) (hn : srcExists n = true) (hh : tabGet false d.snag.held (key2 i n) = true)
    (hs : sevSafe ≤ d.collSev i n) : d.setAlarms.on (alarmFld i) = true := by
  have hexpired := ((lineExpire_settles d 0).trans (lineExpire_settles _ 1)).trans (lineExpire_settles _ 2)
  unfold Dev.setAlarms
  dsimp only
  generalize ((d.lineExpire 0).lineExpire 1).lineExpire 2 = e at hexpired ⊢
  have hsafe : e.dieSafe i = true := dieSafe_of_held hn (hexpired.snag_held ▸ hh)
    (le_of_le_of_eq hs (collSev_congr hn hexpired.snag_sevCopy (hexpired.regs _ (sevFld_other hn _ (by decide)))).symm)
  have hnow : e.alarmNow i = true := by rw [Dev.alarmNow, hsafe, Bool.true_or, Bool.true_or]
  interval_cases i
  · rw [Dev.on_flag_other _ _ (by decide), Dev.on_flag_other _ _ (by decide), Dev.on_flag_same, hnow]
  · rw [Dev.on_flag_other _ _ (by decide), Dev.on_flag_same, hnow]
  · rw [Dev.on_flag_same, hnow]

/-- A change of the highest severity sends a status message alone (R412). -/
theorem sevChange_safeCause (d : Dev) : d.sevChange.safeCause = d.safeCause := by
  have h : Settles [ETH.CMD_INJ_ARM.key] d d.sevChange :=
    .ite (fun _ => .refl d) (fun _ => ((Settles.refl d).snag d.snag.hbUntil d.maxSev d.snag.resumePending d.snag.hbLevel d.snag.refused).trans
      (triggerStatus_settles (by decide) _ 3))
  exact h.safeCause (fun _ hn => sevFld_other hn _ (by decide)) (by decide)

/-- What holds the safe state is decided once the ALARM lines are taken in. -/
theorem settle_safeCause (d : Dev) : d.settle.safeCause = d.setAlarms.safeCause := by
  rw [settle_tail, ← sevChange_safeCause d.setAlarms]
  generalize d.setAlarms.sevChange = e
  have hentered : (if (e.safeCause && !e.on SNG.STAT_SAFE) = true then e.enterSafe else e).safeCause = e.safeCause :=
    ite_leaves Dev.safeCause (enterSafe_cause e) rfl
  exact (ite_leaves Dev.safeCause (safePins_cause _) rfl).trans hentered

theorem runOn_safeCause (s : State) (f : Mem → Dev → Dev) : (runOn s f).dev.safeCause = (f s.mem s.dev).setAlarms.safeCause := by
  rw [← settle_safeCause]
  unfold runOn
  dsimp only
  generalize (f s.mem s.dev).settle = e
  rfl

/-- A command that leaves a die holding a source at SAFE or RESTART leaves the device in the safe state. -/
theorem runOn_alarm {s : State} {f : Mem → Dev → Dev} {i n : Nat} (hi : i < 3) (hn : srcExists n = true)
    (hh : tabGet false (f s.mem s.dev).snag.held (key2 i n) = true) (hs : sevSafe ≤ (f s.mem s.dev).collSev i n) :
    (runOn s f).dev.on SNG.STAT_SAFE = true := by
  have halarm := setAlarms_on hi hn hh hs
  refine (runOn_safe s f).1 ((runOn_safeCause s f).trans ?_)
  unfold Dev.safeCause
  interval_cases i
  all_goals simp only [halarm, Bool.or_true, Bool.true_or]

end Sys2Proof.Proofs.Scope
end

section
/-!
PROOF. The statement on detected, alarmed and reported sources.
-/

namespace Sys2Proof.Proofs.Scope

open Sys2Proof.Machine Sys2Proof.Laws

/-- A detection on any die, with its detail (R415, R417). -/
theorem raiseInj_holds {d : Dev} {y : Die} {n : Nat} (detail : Nat) (inj : Bool) (hn : srcExists n = true) (hb : Claims.Beats d y) :
    Claims.Held (d.raiseInj y n detail inj) y n := by
  cases y
  case s => exact raiseInj_s_set d detail inj hn
  all_goals exact raiseInj_held d (by decide) detail inj hn hb

/-- Setting a source changes nothing beyond the Snag unit, the ladder, sessions and messages. -/
theorem eraseRaise_raises {d e : Dev} (h : Raises d e) : Claims.eraseRaise (Dev.beyond e) = Claims.eraseRaise (Dev.beyond d) := by
  have := congrArg (fun x : Dev => Claims.eraseRaise (Dev.beyond x)) h.bare
  exact this

/-- The frame of a command whose body sets sources. -/
theorem runOn_sourceFrame {s : State} {f : Mem → Dev → Dev} (hm : s.dev.memsys.writes = [])
    (hk : ∀ g : Fld, g.key ∉ Claims.sourceKeys → (f s.mem s.dev).fld g = s.dev.fld g)
    (hb : Claims.eraseRaise (Dev.beyond (f s.mem s.dev)) = Claims.eraseRaise (Dev.beyond s.dev)) :
    Frame Claims.sourceKeys Claims.eraseRaise s (runOn s f) :=
  runOn_frame (fun _ _ => rfl) hm hk (by have := congrArg Dev.memsys hb; exact this) hb

/-- The heartbeat of another die than the S-die. -/
theorem beats_on {d : Dev} {y : Die} (hy : y ≠ .s) (hb : Claims.Beats d y) : d.on (hbOkFld (dieIdx y)) = true := by
  cases y
  case s => exact absurd rfl hy
  all_goals exact hb

theorem dieIdx_lt {y : Die} (h : y ≠ .s) : dieIdx y < 3 := by
  cases y
  case s => exact absurd rfl h
  all_goals decide

/-- Where the condition of a detection lasts, the cause of its source is marked (R427); nothing else changes. -/
theorem detect_marks (d : Dev) {n : Nat} (hn : srcExists n = true) (lasting : Bool) :
    ∃ c, (if lasting && srcExists n then d.cause n true else d) = { d with snag := { d.snag with cause := c } } ∧
      (lasting = true → tabGet false c n = true) := by
  cases lasting
  · exact ⟨d.snag.cause, rfl, fun h => absurd h (by decide)⟩
  · exact ⟨tabSet false d.snag.cause n true, by rw [hn]; rfl, fun _ => tabGet_set_same _ _ _ _⟩

variable {s : State} {die : Die} {n : Nat}

/-- SNAG_SOURCE_DETECT (R412, R415, R224, R225). -/
theorem detection_isHeld (hd : s.dev.dead = false) (hm : s.dev.memsys.writes = []) (hn : srcExists n = true) (hb : Claims.Beats s.dev die)
    (detail : Nat) (lasting : Bool) : Yields (exec (.snagSourceDetect die n detail lasting) s) (fun t =>
      Claims.Held t.dev die n ∧ (lasting = true → tabGet false t.dev.snag.cause n = true) ∧
      (∀ m, s.dev.isSet m = true → t.dev.isSet m = true) ∧
      (∀ e ∈ errorCounters, n = e.1 → t.dev.fld e.2 = satAdd (2 ^ e.2.width - 1) (s.dev.fld e.2) 1) ∧
      (n ∉ [3, 73, 75, 80, 81, 82, 83] → Frame Claims.sourceKeys Claims.eraseRaise s t)) := by
  have heffect := keeps_detectEffect s.dev n
  have hbeats : Claims.Beats (s.dev.detectEffect n) die := beats_congr (fun i => heffect.on (hbOk_stage i)) hb
  have hraised := raiseInj_raises (s.dev.detectEffect n) die n detail false
  have hheld := raiseInj_holds detail false hn hbeats
  obtain ⟨c, hbody, hcause⟩ := detect_marks ((s.dev.detectEffect n).raiseInj die n detail false) hn lasting
  have hcounters : ∀ x ∈ errorCounters, x.2.key ∉ safeKeys ∧ x.2.key ∉ raiseKeys := by decide
  refine run_body hd hbody ⟨held_runOn (held_congr rfl rfl hheld), fun hl => ?_, fun m hset => ?_, fun x hx hnx => ?_, fun hplain => ?_⟩
  · rw [runOn_snag_cause]
    exact hcause hl
  · rw [isSet_runOn]
    exact hraised.set m (heffect.set m hset)
  · obtain ⟨hsafe, hraise⟩ := hcounters x hx
    subst hnx
    exact (runOn_fld s _ hsafe).trans ((hraised.regs _ hraise).trans (detectEffect_counts s.dev x hx))
  · have hnone := detectEffect_none s.dev hplain
    exact runOn_sourceFrame hm (fun g hg => (hraised.regs g hg).trans (by rw [hnone])) ((eraseRaise_raises hraised).trans (by rw [hnone]))

/-- ALARM_ASSERT (R416, R419). -/
theorem alarm_isHeld (hd : s.dev.dead = false) (hm : s.dev.memsys.writes = []) (hn : srcExists n = true) (hb : Claims.Beats s.dev die)
    (hy : die ≠ .s) (hsev : sevSafe ≤ s.dev.collSev (dieIdx die) n) (detail : Nat) :
    Yields (exec (.alarmAssert die n detail) s) (fun t =>
      Claims.Held t.dev die n ∧ t.dev.on SNG.STAT_SAFE = true ∧ Frame Claims.sourceKeys Claims.eraseRaise s t) := by
  have hbody : s.dev.alarmAssert die n detail = s.dev.raiseInj die n detail false := by
    cases die
    case s => exact absurd rfl hy
    all_goals exact if_pos hsev
  have hraised := raiseInj_raises s.dev die n detail false
  have hlisted := raiseInj_held s.dev hy detail false hn (beats_on hy hb)
  have hcopy := collSev_congr (i := dieIdx die) hn hraised.snag_sevCopy (hraised.regs _ (sevFld_other hn _ (by decide)))
  refine run_body hd hbody ⟨held_runOn (raiseInj_holds detail false hn hb), runOn_alarm (dieIdx_lt hy) hn hlisted (le_of_le_of_eq hsev hcopy.symm),
    runOn_sourceFrame hm hraised.regs (eraseRaise_raises hraised)⟩

/-- Reports that wait are part of what setting a source may change. -/
theorem raises_reports (d : Dev) (rs : List Report) : Raises d { d with snag := { d.snag with reports := rs } } :=
  ⟨fun _ _ => rfl, rfl, fun _ h => h, fun _ h => h⟩

/-- COLLECTOR_REPORT (R416, R417). -/
theorem report_sets (hd : s.dev.dead = false) (hm : s.dev.memsys.writes = []) (hn : srcExists n = true) (hb : Claims.Beats s.dev die)
    (hy : die ≠ .s) {r : Report} {rs : List Report} (hr : takeReport die n s.dev.snag.reports = some (r, rs)) :
    Yields (exec (.collectorReport die n) s) (fun t => t.dev.isSet n = true ∧ Frame Claims.sourceKeys Claims.eraseRaise s t) := by
  have hbody : s.dev.collectorReport die n =
      ({ s.dev with snag := { s.dev.snag with reports := rs } } : Dev).setSource n (r.detail % 65536) r.injected := by
    unfold Dev.collectorReport
    rw [hr]
    exact if_pos (beats_on hy hb)
  obtain ⟨hsource, hset⟩ := setSource_spec { s.dev with snag := { s.dev.snag with reports := rs } } n (r.detail % 65536) r.injected
  have hraised := (raises_reports s.dev rs).trans hsource
  exact run_body hd hbody ⟨(isSet_runOn s _ n).trans (hset hn), runOn_sourceFrame hm hraised.regs (eraseRaise_raises hraised)⟩

/-- Settles O14: the detection, the ALARM and the report that arrives. -/
theorem detectedSourceIsHeld : Obligations.DetectedSourceIsHeld := by
  unfold Obligations.DetectedSourceIsHeld
  intro s die n detail hd hm hn hb
  exact ⟨fun lasting => detection_isHeld hd hm hn hb detail lasting, fun hy hsev => alarm_isHeld hd hm hn hb hy hsev detail,
    fun hy r rs hr => report_sets hd hm hn hb hy hr⟩

end Sys2Proof.Proofs.Scope
end

section
/-!
PROOF. A port as its registers, or BOND, show it (R258 to R261, R285): its state, its epoch, its failed trainings, and what its link layer holds.
Each operation of the training has one equation for it, the same for the FJL ports and BOND.
-/

namespace Sys2Proof.Proofs.Scope

open Sys2Proof.Machine Sys2Proof.Laws

/-- What a port shows: BOND keeps in its link layer the first three, which an FJL port shows in registers. -/
structure PortView where
  st : Nat
  epoch : Nat
  fails : Nat
  layer : LinkPort

/-- The three that BOND keeps in its link layer. -/
def bondPart (l : LinkPort) : Nat × Nat × Nat := (l.bondState, l.bondEpoch, l.bondFails)

/-- The link layer without them. -/
def layerPart (l : LinkPort) : LinkPort := { l with bondState := 0, bondEpoch := 0, bondFails := 0 }

/-- What a port of the device shows. -/
def portView (d : Dev) (p : Nat) : PortView := ⟨d.linkSt p, d.linkEpoch p, d.trainFails p, layerPart (d.link p)⟩

/-- The registers in which an FJL port shows them. -/
abbrev viewFlds (p : Nat) : List Fld := [FJL.P_STAT_STATE p, FJL.P_STAT_EPOCH p, FJL.P_TRAIN_FAILS p]

/-- The registers of its lanes. -/
abbrev laneFlds (p : Nat) : List Fld := [FJL.P_LANES_LOCKED p, FJL.P_LANES_SIGNAL p]

/-- The other fields that a port's training and its records give values or read. -/
abbrev portFlds (p : Nat) : List Fld :=
  [FJL.CTRL_EN, FJL.P_LANES_POLARITY p, FJL.P_STAT_REVERSED p, FJL.P_TRAIN_FULL p, FJL.P_TRAIN_LAST_FAIL p, FJL.P_LINKERR_FRAMING p,
    FJL.P_LINKERR_RETRAINS p, FJL.P_LINKERR_RESETS p, FJL.P_INJ_ARM p, FJL.P_INJ_MODE p, FJL.P_DROP_WINDOW p, FJL.P_DROP_STRAY p,
    FJL.P_PEER_VALID p, FJL.P_PEER_CODE p]

theorem flds_nodup : ∀ p < 4, ((viewFlds p ++ (laneFlds p ++ portFlds p)).map Fld.key).Nodup := by decide

theorem flds_outside : ∀ p < 4, ∀ f ∈ viewFlds p ++ (laneFlds p ++ portFlds p), f.key ∉ safeKeys ∧ f.key ∉ raiseKeys := by decide

/-- Two fields of a port in different ones of the lists have places of their own. -/
theorem key_ne_of_lists {k l : List Fld} (h : ((k ++ l).map Fld.key).Nodup) {f g : Fld} (hf : f ∈ k) (hg : g ∈ l) : f.key ≠ g.key := by
  rw [List.map_append, List.nodup_append] at h
  exact h.2.2 _ (List.mem_map_of_mem hf) _ (List.mem_map_of_mem hg)

variable {d e : Dev} {p : Nat}

/-- What a port shows stands in its registers and in its link layer. -/
theorem view_congr (hl : e.links = d.links) (hr : p < 4 → ∀ f ∈ viewFlds p, e.fld f = d.fld f) : portView e p = portView d p := by
  simp only [portView, Dev.linkSt, Dev.linkEpoch, Dev.trainFails, Dev.link, hl]
  split
  next hp => simp only [hr hp _ List.mem_cons_self, hr hp (FJL.P_STAT_EPOCH p) (by simp), hr hp (FJL.P_TRAIN_FAILS p) (by simp)]
  next => rfl

/-- Another register of the port. -/
theorem view_put (d : Dev) {f : Fld} (v : Nat) (hf : f ∈ laneFlds p ++ portFlds p) : portView (d.put f v) p = portView d p :=
  view_congr rfl (fun hp _ hg => d.fld_put_other v (key_ne_of_lists (flds_nodup p hp) hg hf))

theorem view_raises (h : Raises d e) : portView e p = portView d p :=
  view_congr h.links (fun hp f hf => h.regs f (flds_outside p hp f (List.mem_append_left _ hf)).2)

theorem view_runOn (s : State) (f : Mem → Dev → Dev) : portView (runOn s f).dev p = portView (f s.mem s.dev) p :=
  view_congr (runOn_links s f) (fun hp g hg => runOn_fld s f (flds_outside p hp g (List.mem_append_left _ hg)).1)

theorem view_putLink (d : Dev) {l : LinkPort} (h : bondPart l = bondPart (d.link p)) :
    portView (d.putLink p l) p = { portView d p with layer := layerPart l } := by
  simp only [bondPart, Prod.mk.injEq] at h
  obtain ⟨hstate, hepoch, hfails⟩ := h
  by_cases hp : p < 4
  · simp [portView, Dev.linkSt, Dev.linkEpoch, Dev.trainFails, hp]
  · by_cases h4 : p = 4
    · subst h4
      simp [portView, Dev.linkSt, Dev.linkEpoch, Dev.trainFails, hstate, hepoch, hfails]
    · have hother : (d.putLink p l).link 4 = d.link 4 := link_putLink_other d l (fun h => h4 h.symm)
      simp [portView, Dev.linkSt, Dev.linkEpoch, Dev.trainFails, hp, hother]

/-! The state, the epoch and the failed trainings are given values. -/

theorem view_putLinkSt (hp : p < 5) (d : Dev) {st : Nat} (hst : st < 16) : portView (d.putLinkSt p st) p = { portView d p with st := st } := by
  unfold Dev.putLinkSt
  split
  next h =>
    have hother (f : Fld) (hf : f.key ≠ (FJL.P_STAT_STATE p).key) := d.fld_put_other st hf
    simp only [portView, Dev.linkSt, Dev.linkEpoch, Dev.trainFails, h, if_true, Dev.fld_put_same, link_put,
      hother (FJL.P_STAT_EPOCH p) (by simp [Fld.key, FJL.P_STAT_EPOCH, FJL.P_STAT_STATE]),
      hother (FJL.P_TRAIN_FAILS p) (by simp [Fld.key, FJL.P_TRAIN_FAILS, FJL.P_STAT_STATE]; omega)]
    congr 1
    exact Nat.mod_eq_of_lt hst
  next h =>
    obtain rfl : p = 4 := by omega
    simp [portView, Dev.linkSt, Dev.linkEpoch, Dev.trainFails, layerPart]

theorem view_putFails (hp : p < 5) (d : Dev) (n : Nat) : portView (d.putFails p n) p = { portView d p with fails := min 255 n } := by
  unfold Dev.putFails
  split
  next h =>
    have hother (f : Fld) (hf : f.key ≠ (FJL.P_TRAIN_FAILS p).key) := d.fld_put_other (min 255 n) hf
    simp only [portView, Dev.linkSt, Dev.linkEpoch, Dev.trainFails, h, if_true, Dev.fld_put_same, link_put,
      hother (FJL.P_STAT_EPOCH p) (by simp [Fld.key, FJL.P_STAT_EPOCH, FJL.P_TRAIN_FAILS]; omega),
      hother (FJL.P_STAT_STATE p) (by simp [Fld.key, FJL.P_TRAIN_FAILS, FJL.P_STAT_STATE]; omega)]
    congr 1
    exact Nat.mod_eq_of_lt (show min 255 n < 256 by omega)
  next h =>
    obtain rfl : p = 4 := by omega
    simp [portView, Dev.linkSt, Dev.linkEpoch, Dev.trainFails, layerPart]

/-- What a new epoch starts anew in the link layer (R261). -/
def freshLayer (l : LinkPort) : LinkPort :=
  { l with newEpoch := true, expSeq := [], txSeq := [], replay := [], txQueue := [], rxLimit := [], rxUsed := [], txLimit := [], txUsed := [],
           held := [], inTime := [] }

theorem view_startEpoch (hp : p < 5) (d : Dev) :
    portView (d.startEpoch p) p = { portView d p with epoch := (d.linkEpoch p + 1) % 256, layer := layerPart (freshLayer (d.link p)) } := by
  unfold Dev.startEpoch
  dsimp only
  split
  next h =>
    have hother (e : Dev) (f : Fld) (hf : f.key ≠ (FJL.P_STAT_EPOCH p).key) := e.fld_put_other ((d.linkEpoch p + 1) % 256) hf
    simp only [portView, Dev.linkSt, Dev.trainFails, h, if_true, link_put, link_putLink_same, fld_putLink,
      hother _ (FJL.P_STAT_STATE p) (by simp [Fld.key, FJL.P_STAT_EPOCH, FJL.P_STAT_STATE]),
      hother _ (FJL.P_TRAIN_FAILS p) (by simp [Fld.key, FJL.P_TRAIN_FAILS, FJL.P_STAT_EPOCH]; omega)]
    congr 1
    rw [Dev.linkEpoch, if_pos h]
    exact (Dev.fld_put_same _ _ _).trans (Nat.mod_mod _ _)
  next h =>
    obtain rfl : p = 4 := by omega
    simp [portView, Dev.linkSt, Dev.linkEpoch, Dev.trainFails, layerPart, freshLayer]

/-! What the state of a port brings with it leaves every port as it is. -/

theorem twinCauses_links (d : Dev) : d.twinCauses.links = d.links := by
  have hcause (e : Dev) (n : Nat) (b : Bool) :
      (if b then (if tabGet false e.snag.cause n then e else (e.raise .s n).cause n true) else e.cause n false).links = e.links :=
    ite_leaves Dev.links (ite_leaves Dev.links rfl (raise_raises e .s n).links) rfl
  exact (hcause _ 678 _).trans ((hcause _ 677 _).trans (hcause d 672 _))

theorem twinRefresh_links (d : Dev) : d.twinRefresh.links = d.links := by
  unfold Dev.twinRefresh
  refine (twinCauses_links _).trans ?_
  exact ite_leaves Dev.links rfl (ite_leaves Dev.links (twinEvent_raises _ 2).links (ite_leaves Dev.links (twinEvent_raises _ 1).links rfl))

/-- An FJL port's cause follows; BOND's is the twin's. -/
theorem view_linkRefresh (hp : p < 5) (d : Dev) : portView (d.linkRefresh p) p = portView d p := by
  unfold Dev.linkRefresh
  split
  · exact view_congr rfl (fun _ _ _ => rfl)
  · exact view_congr (twinRefresh_links d) (fun h => by omega)

/-- The cause of FJL_LINK_DOWN is present while the port is enabled and not up (R283). -/
theorem linkRefresh_cause (hp : p < 4) (d : Dev) :
    tabGet false (d.linkRefresh p).snag.cause (364 + p) = (bit (d.fld FJL.CTRL_EN) p && d.linkSt p != 7 && d.linkSt p != 8) := by
  unfold Dev.linkRefresh
  rw [if_pos hp]
  exact cause_same _ _ _

theorem view_unlockLanes (d : Dev) (off : Bool) : portView (d.unlockLanes p off) p = portView d p := by
  unfold Dev.unlockLanes
  have hlocked : portView (d.put (FJL.P_LANES_LOCKED p) 0) p = portView d p := view_put d 0 (by simp)
  exact ite_leaves (portView · p) rfl (ite_leaves (portView · p) ((view_put _ 0 (by simp)).trans hlocked) hlocked)

theorem view_linkDown (d : Dev) : portView (d.linkDown p) p = portView d p :=
  ite_leaves (portView · p) (view_raises (raise_raises d _ _)) rfl

theorem mbxResetMaster_links (d : Dev) (mid : Nat) : (d.mbxResetMaster mid).links = d.links := by
  refine foldl_leaves Dev.links _ (fun d ch => ?_) _ d
  split <;> rfl

theorem link_unlockLanes (d : Dev) (off : Bool) : (d.unlockLanes p off).link p = d.link p :=
  ite_leaves (Dev.link · p) rfl (ite_leaves (Dev.link · p) rfl rfl)

/-! The operations of the training. -/

/-- A full training (R259). -/
theorem view_fullTraining (hp : p < 5) (d : Dev) :
    portView (d.fullTraining p) p = { portView d p with st := 1, layer := layerPart { (d.link p).quiet with training := 0 } } := by
  have hbond : bondPart { (d.link p).quiet with training := 0 } = bondPart ((d.unlockLanes p true).link p) := by
    rw [link_unlockLanes]
    rfl
  unfold Dev.fullTraining
  rw [view_linkRefresh hp, view_putLinkSt hp _ (by decide), view_putLink _ hbond, view_unlockLanes]

end Sys2Proof.Proofs.Scope
end

section
/-!
PROOF. Failed trainings, retrains, resets and the entry of ACTIVE, as a port shows them (R258 to R261, R278, R282, Table 08.9).
-/

namespace Sys2Proof.Proofs.Scope

open Sys2Proof.Machine Sys2Proof.Laws

variable {d : Dev} {p : Nat}

/-- A failed training is counted, with the state that it failed in. -/
def countFail (d : Dev) (p failedIn : Nat) : Dev :=
  if p < 4 then (d.putFails p (d.trainFails p + 1)).put (FJL.P_TRAIN_LAST_FAIL p) failedIn else d.putFails p (d.trainFails p + 1)

/-- A failed fast retrain, and the last failed training, report the link down (R259, R260). -/
def reportFail (d : Dev) (p failedIn : Nat) : Dev :=
  if d.linkSt p = 8 || d.trainMax p ≤ d.trainFails p + 1 then (countFail d p failedIn).linkDown p else countFail d p failedIn

theorem trainFail_eq (d : Dev) (p failedIn : Nat) : d.trainFail p failedIn =
    if d.trainMax p ≤ d.trainFails p + 1 then
      ((((reportFail d p failedIn).unlockLanes p true).putLink p ((reportFail d p failedIn).link p).quiet).putLinkSt p 9).linkRefresh p
    else (reportFail d p failedIn).fullTraining p := rfl

theorem view_reportFail (hp : p < 5) (d : Dev) (failedIn : Nat) :
    portView (reportFail d p failedIn) p = { portView d p with fails := min 255 (d.trainFails p + 1) } := by
  have hcounted : portView (countFail d p failedIn) p = { portView d p with fails := min 255 (d.trainFails p + 1) } :=
    ite_leaves (portView · p) ((view_put _ _ (by simp)).trans (view_putFails hp d _)) (view_putFails hp d _)
  exact ite_leaves (portView · p) ((view_linkDown _).trans hcounted) hcounted

/-- A failed training counts, and DETECT or DOWN follows (R259). -/
theorem view_trainFail (hp : p < 5) (d : Dev) (failedIn : Nat) : ∃ l, portView (d.trainFail p failedIn) p =
    ⟨if d.trainMax p ≤ d.trainFails p + 1 then 9 else 1, d.linkEpoch p, min 255 (d.trainFails p + 1), l⟩ := by
  have hreported := view_reportFail hp d failedIn
  rw [trainFail_eq]
  generalize reportFail d p failedIn = e at hreported ⊢
  split
  · refine ⟨layerPart (e.link p).quiet, ?_⟩
    have hbond : bondPart (e.link p).quiet = bondPart ((e.unlockLanes p true).link p) := by
      rw [link_unlockLanes]
      rfl
    rw [view_linkRefresh hp, view_putLinkSt hp _ (by decide), view_putLink _ hbond, view_unlockLanes, hreported]
    rfl
  · exact ⟨_, (view_fullTraining hp e).trans (by rw [hreported]; rfl)⟩

/-- A retrain (R278). -/
theorem view_retrain (hp : p < 5) (d : Dev) : ∃ l, portView (d.retrain p) p =
    ⟨if d.fastRetrain p then 8 else 1, d.linkEpoch p, d.trainFails p, l⟩ := by
  unfold Dev.retrain
  dsimp only
  have hcounted : portView (if p < 4 then (d.count (FJL.P_LINKERR_RETRAINS p) 1).raise (linkDie p) (356 + p) else d) p = portView d p :=
    ite_leaves (portView · p) ((view_raises (raise_raises _ _ _)).trans (view_put d _
      (by simp))) rfl
  generalize (if p < 4 then (d.count (FJL.P_LINKERR_RETRAINS p) 1).raise (linkDie p) (356 + p) else d) = d1 at hcounted ⊢
  have hstamped := view_putLink (p := p) d1 (l := { d1.link p with retrainAt := some d.now }) rfl
  generalize d1.putLink p { d1.link p with retrainAt := some d.now } = d2 at hstamped ⊢
  rw [hcounted] at hstamped
  split
  · refine ⟨layerPart { (d2.link p).quiet with training := 1 }, ?_⟩
    have hbond : bondPart { (d2.link p).quiet with training := 1 } = bondPart ((d2.unlockLanes p false).link p) := by
      rw [link_unlockLanes]
      rfl
    rw [view_linkRefresh hp, view_putLinkSt hp _ (by decide), view_putLink _ hbond, view_unlockLanes, hstamped]
    rfl
  · exact ⟨_, (view_fullTraining hp _).trans (by rw [view_linkDown, hstamped]; rfl)⟩

/-- The link layer after a reset, with the RESET block that the device sends, if any. -/
def resetLayer (l : LinkPort) (reason : Nat) : LinkPort :=
  if reason = 0 then { l.quiet with training := 2, retrainAt := none } else { l.quiet with training := 2, retrainAt := none, resetSent := reason }

theorem layerPart_resetLayer (l : LinkPort) (reason : Nat) : layerPart (resetLayer l reason) = resetLayer (layerPart l) reason := by
  unfold resetLayer
  split <;> rfl

theorem bondPart_resetLayer (l : LinkPort) (reason : Nat) : bondPart (resetLayer l reason) = bondPart l := by
  unfold resetLayer
  split <;> rfl

/-- A link reset (Table 08.9). -/
theorem view_linkReset (hp : p < 5) (d : Dev) (reason : Nat) : portView (d.linkReset p reason) p =
    ⟨5, (d.linkEpoch p + 1) % 256, d.trainFails p, layerPart (resetLayer (freshLayer (d.link p)) reason)⟩ := by
  have hcounted : portView (if p < 4 then d.count (FJL.P_LINKERR_RESETS p) 1 else d) p = portView d p :=
    ite_leaves (portView · p) (view_put d _
      (by simp)) rfl
  unfold Dev.linkReset
  dsimp only
  generalize (if p < 4 then d.count (FJL.P_LINKERR_RESETS p) 1 else d) = d1 at hcounted ⊢
  have hepoch : d1.linkEpoch p = d.linkEpoch p := congrArg PortView.epoch hcounted
  have hlayer : layerPart (d1.link p) = layerPart (d.link p) := congrArg PortView.layer hcounted
  have hfresh := view_startEpoch hp d1
  generalize d1.startEpoch p = d2 at hfresh ⊢
  have hreset : portView (((d2.putLink p (resetLayer (d2.link p) reason)).putLinkSt p 5).linkRefresh p) p =
      ⟨5, (d.linkEpoch p + 1) % 256, d.trainFails p, layerPart (resetLayer (freshLayer (d.link p)) reason)⟩ := by
    have hlinked : layerPart (d2.link p) = layerPart (freshLayer (d.link p)) :=
      (congrArg PortView.layer hfresh).trans (congrArg freshLayer hlayer)
    rw [view_linkRefresh hp, view_putLinkSt hp _ (by decide), view_putLink _ (bondPart_resetLayer _ _), hfresh, hcounted, hepoch,
      layerPart_resetLayer, layerPart_resetLayer, hlinked]
    rfl
  unfold resetLayer at hreset ⊢
  generalize ((d2.putLink p _).putLinkSt p 5).linkRefresh p = d3 at hreset ⊢
  split
  next h4 => exact (view_congr (mbxResetMaster_links d3 19) (fun h => by omega)).trans hreset
  next => exact hreset

/-- A protocol error resets the link (R282). -/
theorem view_protocolError (hp : p < 5) (d : Dev) : (d.protocolError p).linkSt p = 5 := congrArg PortView.st (view_linkReset hp _ 1)

/-- IDENT_REQ, which a new epoch may send, waits in the queue alone (R271). -/
theorem view_sendRecord (d : Dev) (kind vc watch frame slot fmt offset arg : Nat) (payload : List Byte) :
    ∃ q, portView (d.sendRecord p kind vc watch frame slot fmt offset arg payload) p =
      { portView d p with layer := { layerPart (d.link p) with txQueue := q } } := by
  unfold Dev.sendRecord
  split
  · exact ⟨(d.link p).txQueue, rfl⟩
  · exact ⟨_, view_putLink d rfl⟩

end Sys2Proof.Proofs.Scope
end

section
/-!
PROOF. The registers of an FJL port in a training (R258 to R261, R278, R283, Table 08.11): what each operation of the training leaves of the
other registers and of the sources that are held, and the entry of ACTIVE.
-/

namespace Sys2Proof.Proofs.Scope

open Sys2Proof.Machine Sys2Proof.Laws

/-- Keys of the fields that the operations of a port's training change, with those of setting a source. -/
abbrev trainKeys (p : Nat) : List Nat :=
  raiseKeys ++ (viewFlds p ++ laneFlds p).map Fld.key

theorem trainKeys_apart : ∀ p < 4, MTX.STAT_SUSPENDED.key ∉ trainKeys p ∧ ∀ i < 3, (hbOkFld i).key ∉ trainKeys p := by decide

theorem portSources_exist : ∀ p < 4, srcExists (356 + p) = true ∧ srcExists (364 + p) = true := by decide

variable {d e : Dev} {p : Nat}

theorem port_outside (hp : p < 4) {f : Fld} (hf : f ∈ portFlds p) : f.key ∉ safeKeys ∧ f.key ∉ raiseKeys :=
  flds_outside p hp f (List.mem_append_right _ (List.mem_append_right _ hf))

theorem Keeps.train (hp : p < 4) (h : Keeps (trainKeys p) d e) (f : Fld) (v : Nat) (hf : f.key ∈ trainKeys p) : Keeps (trainKeys p) d (e.put f v) :=
  h.put f v hf (fun hk => (trainKeys_apart p hp).1 (hk ▸ hf))

theorem Keeps.putLink {K : List Nat} (h : Keeps K d e) (l : LinkPort) : Keeps K d (e.putLink p l) := h.trans (.same rfl rfl (fun h => h) rfl)

theorem Keeps.refresh (hp : p < 4) {K : List Nat} (h : Keeps K d e) : Keeps K d (e.linkRefresh p) := by
  unfold Dev.linkRefresh
  rw [if_pos hp]
  exact h.trans ⟨fun _ _ => rfl, fun _ h => h, fun _ h => h, fun h => h, fun h => h, rfl⟩

theorem Keeps.linkSt (hp : p < 4) (h : Keeps (trainKeys p) d e) (st : Nat) : Keeps (trainKeys p) d (e.putLinkSt p st) := by
  unfold Dev.putLinkSt
  rw [if_pos hp]
  exact h.train hp _ _ (by simp)

theorem Keeps.fails (hp : p < 4) (h : Keeps (trainKeys p) d e) (n : Nat) : Keeps (trainKeys p) d (e.putFails p n) := by
  unfold Dev.putFails
  rw [if_pos hp]
  exact h.train hp _ _ (by simp)

theorem Keeps.unlock (hp : p < 4) (h : Keeps (trainKeys p) d e) (off : Bool) : Keeps (trainKeys p) d (e.unlockLanes p off) := by
  have hlocked := h.train hp (FJL.P_LANES_LOCKED p) 0 (by simp)
  exact .ite h (.ite (hlocked.train hp (FJL.P_LANES_SIGNAL p) 0 (by simp)) hlocked)

theorem Keeps.raises (h : Keeps (trainKeys p) d e) (y : Die) (n : Nat) : Keeps (trainKeys p) d (e.raise y n) :=
  h.raise y n (List.subset_append_left _ _)

theorem Keeps.down (h : Keeps (trainKeys p) d e) : Keeps (trainKeys p) d (e.linkDown p) := .ite (h.raises _ _) h

theorem Keeps.full (hp : p < 4) (h : Keeps (trainKeys p) d e) : Keeps (trainKeys p) d (e.fullTraining p) :=
  (((h.unlock hp true).putLink _).linkSt hp 1).refresh hp

theorem Keeps.epoch (hp : p < 4) (h : Keeps (trainKeys p) d e) : Keeps (trainKeys p) d (e.startEpoch p) := by
  unfold Dev.startEpoch
  dsimp only
  rw [if_pos hp]
  exact (h.putLink _).train hp _ _ (by simp)

/-- A value given before the training's operations is read after them. -/
theorem Keeps.port (hp : p < 4) (h : Keeps (trainKeys p) d e) {f : Fld} (hf : f ∈ portFlds p) : e.fld f = d.fld f := by
  refine h.regs f (fun hk => ?_)
  rcases List.mem_append.mp hk with hk | hk
  · exact (port_outside hp hf).2 hk
  · obtain ⟨g, hg, hgf⟩ := List.mem_map.mp hk
    have hn := flds_nodup p hp
    rw [← List.append_assoc] at hn
    exact key_ne_of_lists hn hg hf hgf

/-- The detectors of the port's die still reach its collector. -/
theorem Keeps.beats (hp : p < 4) (h : Keeps (trainKeys p) d e) {y : Die} (hb : Claims.Beats d y) : Claims.Beats e y := by
  cases y
  case s => trivial
  all_goals exact (h.on ((trainKeys_apart p hp).2 _ (by decide))).trans hb

/-- Another field of the port may have been given a value before. -/
theorem beats_port (hp : p < 4) {f : Fld} (hf : f ∈ portFlds p) (v : Nat) {y : Die} (hb : Claims.Beats d y) : Claims.Beats (d.put f v) y :=
  beats_congr (fun i => Dev.on_put_other d v
    (fun hk : (hbOkFld i).key = f.key => (port_outside hp hf).1 (hk ▸ die_keys.2.1))) hb

theorem linkDie_fjl (hp : p < 4) : linkDie p = clusterDie p := if_pos hp

/-! What a failed training, a retrain and a reset count, record and hold. -/

theorem trainFail_keeps (hp : p < 4) (d : Dev) (failedIn : Nat) : Keeps (trainKeys p) (reportFail d p failedIn) (d.trainFail p failedIn) := by
  rw [trainFail_eq]
  generalize reportFail d p failedIn = e
  exact .ite (((((Keeps.refl e).unlock hp true).putLink _).linkSt hp 9).refresh hp) ((Keeps.refl e).full hp)

/-- The state that the training failed in is recorded. -/
theorem reportFail_records (hp : p < 4) (d : Dev) (failedIn : Nat) :
    (reportFail d p failedIn).fld (FJL.P_TRAIN_LAST_FAIL p) = failedIn % 2 ^ (FJL.P_TRAIN_LAST_FAIL p).width := by
  have hcounted : (countFail d p failedIn).fld (FJL.P_TRAIN_LAST_FAIL p) = failedIn % 2 ^ (FJL.P_TRAIN_LAST_FAIL p).width := by
    rw [countFail, if_pos hp, Dev.fld_put_same]
  exact ite_leaves (Dev.fld · _) (((Keeps.refl (countFail d p failedIn)).down.port hp (by simp)).trans hcounted) hcounted

/-- After TRAIN_MAX failed trainings the link down is held where the die's heartbeat runs. -/
theorem reportFail_holds (hp : p < 4) {failedIn : Nat} (hmax : d.trainMax p ≤ d.trainFails p + 1) (hb : Claims.Beats d (clusterDie p)) :
    Claims.Held (reportFail d p failedIn) (clusterDie p) (364 + p) := by
  rw [reportFail, if_pos (by simp [hmax]), Dev.linkDown, if_pos hp, linkDie_fjl hp, countFail, if_pos hp]
  exact raise_holds (portSources_exist p hp).2 (beats_port hp (by simp) _ (((Keeps.refl d).fails hp _).beats hp hb))

theorem retrain_keeps (hp : p < 4) (d : Dev) :
    Keeps (trainKeys p) ((d.count (FJL.P_LINKERR_RETRAINS p) 1).raise (clusterDie p) (356 + p)) (d.retrain p) := by
  unfold Dev.retrain
  dsimp only
  rw [if_pos hp, linkDie_fjl hp]
  generalize (d.count (FJL.P_LINKERR_RETRAINS p) 1).raise (clusterDie p) (356 + p) = d1
  have hstamped := (Keeps.refl (K := trainKeys p) d1).putLink (p := p) { d1.link p with retrainAt := some d.now }
  exact .ite ((((hstamped.unlock hp false).putLink _).linkSt hp 8).refresh hp) (hstamped.down.full hp)

/-- The retrain is held where the die's heartbeat runs (R278). -/
theorem retrain_holds (hp : p < 4) (hb : Claims.Beats d (clusterDie p)) : Claims.Held (d.retrain p) (clusterDie p) (356 + p) :=
  (retrain_keeps hp d).holds (raise_holds (portSources_exist p hp).1 (beats_port hp (f := FJL.P_LINKERR_RETRAINS p) (by simp) _ hb))

theorem linkReset_keeps (hp : p < 4) (d : Dev) (reason : Nat) :
    Keeps (trainKeys p) (d.count (FJL.P_LINKERR_RESETS p) 1) (d.linkReset p reason) := by
  unfold Dev.linkReset
  dsimp only
  rw [if_pos hp, if_neg (show ¬ p = 4 by omega)]
  generalize d.count (FJL.P_LINKERR_RESETS p) 1 = d1
  exact ((((Keeps.refl d1).epoch hp).putLink _).linkSt hp 5).refresh hp

/-! CONFIG ends (R258 to R261, R278). -/

/-- Entries that read as an unlisted key need not be listed. -/
theorem tabGet_filter_ne {α : Type} [DecidableEq α] (z : α) (i : Nat) :
    ∀ t : Tab α, (t.map Prod.fst).Nodup → tabGet z (t.filter (fun e => e.2 != z)) i = tabGet z t i
  | [], _ => rfl
  | e :: t, h => by
    rw [List.map_cons, List.nodup_cons] at h
    have ih := tabGet_filter_ne z i t h.2
    by_cases he : e.2 = z
    · have hskip : tabGet z (e :: t) i = tabGet z t i := by
        by_cases hi : e.1 = i
        · have hno : ∀ x ∈ t, x.1 ≠ i := fun x hx hxi => h.1 (hi.trans hxi.symm ▸ List.mem_map_of_mem hx)
          rw [tabGet, if_pos hi, he]
          by_contra hne
          exact hno _ (mem_of_tabGet (z := z) rfl (Ne.symm hne)) rfl
        · rw [tabGet, if_neg hi]
      rw [List.filter_cons, if_neg (by simp [he]), ih, hskip]
    · rw [List.filter_cons, if_pos (by simpa using he), tabGet, tabGet, ih]

/-- The peer's limits in CONFIG (Table 08.5). -/
abbrev configLimits (config : List Nat) : Tab Nat :=
  [(0, config.getD 3 0 % 65536), (1, config.getD 5 0 % 65536), (2, config.getD 4 0 % 65536), (3, config.getD 6 0 % 65536)]

/-- The link layer as ACTIVE begins (R261, R278). -/
def activeLayer (l : LinkPort) (config : List Nat) : LinkPort :=
  if l.training = 1 then { l.quiet with cause := 4 }
  else { l.quiet with txLimit := (configLimits config).filter (fun e => e.2 != 0), txUsed := [], newEpoch := false }

theorem bondPart_activeLayer (l : LinkPort) (config : List Nat) : bondPart (activeLayer l config) = bondPart l := by
  unfold activeLayer
  split <;> rfl

theorem fjlArmed_keeps (h : p < 4 → Keeps (trainKeys p) d e) (mode : Nat) : e.fjlArmed p mode = d.fjlArmed p mode := by
  unfold Dev.fjlArmed
  by_cases hp : p < 4
  · have hk := h hp
    rw [hk.port hp (f := FJL.P_INJ_MODE p) (by simp), Dev.on_fld (hk.port hp (f := FJL.P_INJ_ARM p) (by simp))]
  · simp [hp]

/-- An injection of invalid sync headers that is not armed does nothing. -/
theorem lockInjection_unarmed (h : d.fjlArmed p 3 = false) : d.lockInjection p = d := by
  unfold Dev.lockInjection
  rw [h, Bool.and_false]
  rfl

/-- A full training is counted (Table 08.11). -/
def countFull (d : Dev) (p : Nat) (l : LinkPort) : Dev := if p < 4 && l.training = 0 then d.count (FJL.P_TRAIN_FULL p) 1 else d

/-- A fast retrain has kept its lanes. -/
def lockFast (d : Dev) (p : Nat) (l : LinkPort) : Dev := if l.training = 1 && p < 4 then d.put (FJL.P_LANES_LOCKED p) 255 else d

/-- The first entry of ACTIVE in an epoch asks the peer for its identity (R271). -/
def askIdent (d : Dev) (p : Nat) (l : LinkPort) : Dev :=
  if !decide (l.training = 1) && l.newEpoch && p < 4 then d.sendRecord p 0x20 3 0 0 0 0 0 0 [] else d

/-- CONFIG has ended: the port is ACTIVE, and has sent nothing yet. -/
def configured (d : Dev) (p : Nat) (config : List Nat) : Dev :=
  (((lockFast (countFull d p (d.link p)) p (d.link p)).putLink p (activeLayer (d.link p) config)).putFails p 0).putLinkSt p 7

/-- The entry of ACTIVE, before the causes and the injections that follow it. -/
def entersActive (d : Dev) (p : Nat) (config : List Nat) : Dev := askIdent (configured d p config) p (d.link p)

theorem linkActive_eq (d : Dev) (p : Nat) (config : List Nat) :
    d.linkActive p config = ((entersActive d p config).linkRefresh p).lockInjection p := rfl

theorem view_countFull (d : Dev) (l : LinkPort) : portView (countFull d p l) p = portView d p :=
  ite_leaves (portView · p) (view_put d _
    (by simp)) rfl

theorem view_lockFast (d : Dev) (l : LinkPort) : portView (lockFast d p l) p = portView d p :=
  ite_leaves (portView · p) (view_put d _
    (by simp)) rfl

theorem link_countFull (d : Dev) (l : LinkPort) : (countFull d p l).link p = d.link p := ite_leaves (Dev.link · p) rfl rfl

theorem link_lockFast (d : Dev) (l : LinkPort) : (lockFast d p l).link p = d.link p := ite_leaves (Dev.link · p) rfl rfl

theorem view_askIdent (d : Dev) (l : LinkPort) :
    ∃ q, portView (askIdent d p l) p = { portView d p with layer := { layerPart (d.link p) with txQueue := q } } := by
  unfold askIdent
  split
  · exact view_sendRecord d ..
  · exact ⟨(d.link p).txQueue, rfl⟩

theorem view_configured (hp : p < 5) (d : Dev) (config : List Nat) :
    portView (configured d p config) p = ⟨7, d.linkEpoch p, 0, layerPart (activeLayer (d.link p) config)⟩ := by
  have hbond : bondPart (activeLayer (d.link p) config) = bondPart ((lockFast (countFull d p (d.link p)) p (d.link p)).link p) := by
    rw [bondPart_activeLayer, link_lockFast, link_countFull]
  rw [configured, view_putLinkSt hp _ (by decide), view_putFails hp, view_putLink _ hbond, view_lockFast, view_countFull]
  rfl

/-- The port is ACTIVE with FAILS 0 and the link layer that CONFIG gives it, but for what it sends at once. -/
theorem view_entersActive (hp : p < 5) (d : Dev) (config : List Nat) : ∃ q, portView (entersActive d p config) p =
    ⟨7, d.linkEpoch p, 0, layerPart { activeLayer (d.link p) config with txQueue := q }⟩ := by
  have hactive := view_configured hp d config
  obtain ⟨q, hq⟩ := view_askIdent (p := p) (configured d p config) (d.link p)
  have hlayer : layerPart ((configured d p config).link p) = layerPart (activeLayer (d.link p) config) := congrArg PortView.layer hactive
  exact ⟨q, hq.trans (by rw [hactive, hlayer]; rfl)⟩

theorem Keeps.sends {K : List Nat} (h : Keeps K d e) (kind vc watch frame slot fmt offset arg : Nat) (payload : List Byte) :
    Keeps K d (e.sendRecord p kind vc watch frame slot fmt offset arg payload) := .ite h (h.putLink _)

theorem entersActive_keeps (hp : p < 4) (d : Dev) (config : List Nat) :
    Keeps (trainKeys p) (countFull d p (d.link p)) (entersActive d p config) := by
  have hlocked : Keeps (trainKeys p) (countFull d p (d.link p)) (lockFast (countFull d p (d.link p)) p (d.link p)) :=
    .ite ((Keeps.refl _).train hp _ _ (by simp)) (.refl _)
  have hactive := ((hlocked.putLink (p := p) (activeLayer (d.link p) config)).fails hp 0).linkSt hp 7
  exact .ite (hactive.sends ..) hactive

/-- A CONFIG that agrees leaves the port ACTIVE where no injection retrains it at once. -/
theorem linkActive_unarmed (harm : d.fjlArmed p 3 = false) (config : List Nat) :
    d.linkActive p config = (entersActive d p config).linkRefresh p := by
  rw [linkActive_eq]
  refine lockInjection_unarmed ?_
  by_cases hp : p < 4
  · have hk := (entersActive_keeps hp d config).refresh hp
    rw [fjlArmed_keeps (fun _ => hk), ← harm]
    refine ite_leaves (Dev.fjlArmed · p 3) ?_ rfl
    have hkeys : (FJL.P_INJ_MODE p).key ≠ (FJL.P_TRAIN_FULL p).key ∧ (FJL.P_INJ_ARM p).key ≠ (FJL.P_TRAIN_FULL p).key := by
      simp [Fld.key, FJL.P_TRAIN_FULL, FJL.P_INJ_MODE, FJL.P_INJ_ARM]; omega
    unfold Dev.fjlArmed
    rw [Dev.fld_count_other d 1 hkeys.1, Dev.on_fld (d.fld_count_other 1 hkeys.2)]
  · simp [Dev.fjlArmed, hp]

end Sys2Proof.Proofs.Scope
end

section
/-!
PROOF. EN of a port is set and cleared (R258, R259, R286).
-/

namespace Sys2Proof.Proofs.Scope

open Sys2Proof.Machine Sys2Proof.Laws

/-! EN of FJL_CTRL has a bit for each port. -/

theorem bit_mod_en (v : Nat) {q : Nat} (hq : q < 4) : bit (v % 16) q = bit v q := by
  rw [bit_eq_testBit, bit_eq_testBit, show 16 = 2 ^ 4 from rfl, Nat.testBit_mod_two_pow, decide_eq_true hq, Bool.true_and]

theorem en_sets : ∀ r < 16, ∀ p < 4, bit r p = false → ∀ q < 4, bit ((r + 2 ^ p) % 16) q = (q == p || bit r q) := by decide

theorem en_clears : ∀ r < 16, ∀ p < 4, bit r p = true → 2 ^ p ≤ r ∧ ∀ q < 4, bit ((r - 2 ^ p) % 16) q = (q != p && bit r q) := by decide

theorem bit_enabled {v p q : Nat} (hp : p < 4) (hq : q < 4) (h : bit v p = false) : bit ((v + 2 ^ p) % 16) q = (q == p || bit v q) := by
  have hset := en_sets (v % 16) (Nat.mod_lt v (by decide)) p hp ((bit_mod_en v hp).trans h) q hq
  rwa [Nat.mod_add_mod, bit_mod_en v hq] at hset

theorem bit_disabled {v p q : Nat} (hp : p < 4) (hq : q < 4) (h : bit v p = true) : bit ((v - 2 ^ p) % 16) q = (q != p && bit v q) := by
  obtain ⟨hle, hclear⟩ := en_clears (v % 16) (Nat.mod_lt v (by decide)) p hp ((bit_mod_en v hp).trans h)
  have hmod : (v - 2 ^ p) % 16 = (v % 16 - 2 ^ p) % 16 := by omega
  rw [hmod, hclear q hq, bit_mod_en v hq]

variable {s : State} {d e : Dev} {p : Nat}

/-! What is read of a port after a command. -/

theorem shows_runOn (s : State) {v : PortView} (h : portView e p = v) : (runOn s (fun _ _ => e)).dev.linkSt p = v.st ∧
    (runOn s (fun _ _ => e)).dev.linkEpoch p = v.epoch ∧ (runOn s (fun _ _ => e)).dev.trainFails p = v.fails ∧
    layerPart ((runOn s (fun _ _ => e)).dev.link p) = v.layer := by
  have hv : portView (runOn s (fun _ _ => e)).dev p = v := (view_runOn s _).trans h
  generalize (runOn s (fun _ _ => e)).dev = t at hv ⊢
  subst hv
  exact ⟨rfl, rfl, rfl, rfl⟩

/-- Any other part of the link layer is read as it is. -/
theorem layer_read {β : Type} (part : LinkPort → β) (hpart : ∀ l, part (layerPart l) = part l) {x l : LinkPort} (h : layerPart x = l) :
    part x = part l := (hpart x).symm.trans (congrArg part h)

theorem view_answer (d : Dev) (r : Resp) : portView (d.answer r) p = portView d p := rfl

theorem port_runOn (s : State) (hp : p < 4) {f : Fld} (hf : f ∈ portFlds p) : (runOn s (fun _ _ => e)).dev.fld f = e.fld f :=
  runOn_fld s _ (port_outside hp hf).1

theorem lane_runOn (s : State) (hp : p < 4) {f : Fld} (hf : f ∈ laneFlds p) : (runOn s (fun _ _ => e)).dev.fld f = e.fld f :=
  runOn_fld s _ (flds_outside p hp f (List.mem_append_right _ (List.mem_append_left _ hf))).1

/-- The registers of the lanes and the others stay when a port changes its state. -/
theorem fld_putLinkSt (hp : p < 4) (d : Dev) (st : Nat) {f : Fld} (hf : f ∈ laneFlds p ++ portFlds p) : (d.putLinkSt p st).fld f = d.fld f := by
  unfold Dev.putLinkSt
  rw [if_pos hp]
  exact d.fld_put_other st (key_ne_of_lists (flds_nodup p hp) (f := FJL.P_STAT_STATE p) (by simp) hf).symm

theorem fld_linkRefresh (hp : p < 4) (d : Dev) (f : Fld) : (d.linkRefresh p).fld f = d.fld f := by
  unfold Dev.linkRefresh
  rw [if_pos hp]
  rfl

/-- Lanes that a port no longer drives (R286). -/
theorem unlockLanes_off (hp : p < 4) (d : Dev) {f : Fld} (hf : f ∈ laneFlds p) : (d.unlockLanes p true).fld f = 0 := by
  have hapart : (FJL.P_LANES_LOCKED p).key ≠ (FJL.P_LANES_SIGNAL p).key := by simp [Fld.key, FJL.P_LANES_LOCKED, FJL.P_LANES_SIGNAL]
  unfold Dev.unlockLanes
  rw [if_neg (by omega)]
  simp only [List.mem_cons, List.not_mem_nil, or_false] at hf
  rcases hf with rfl | rfl
  · exact (Dev.fld_put_other _ 0 hapart).trans ((Dev.fld_put_same _ _ _).trans (Nat.zero_mod _))
  · exact (Dev.fld_put_same _ _ _).trans (Nat.zero_mod _)

/-! The operations. -/

/-- FJL_LINK_DOWN's cause is present in the training of a port that is enabled. -/
theorem fullTraining_cause (hp : p < 4) (d : Dev) : tabGet false (d.fullTraining p).snag.cause (364 + p) = bit (d.fld FJL.CTRL_EN) p := by
  have hview := congrArg PortView.st (view_fullTraining (by omega : p < 5) d)
  have hkept := ((Keeps.refl d).full hp).port hp (f := FJL.CTRL_EN) List.mem_cons_self
  unfold Dev.fullTraining at hview hkept ⊢
  generalize ((d.unlockLanes p true).putLink p { (d.link p).quiet with training := 0 }).putLinkSt p 1 = e at hview hkept ⊢
  have hst : e.linkSt p = 1 := (congrArg PortView.st (view_linkRefresh (by omega) e)).symm.trans hview
  rw [linkRefresh_cause hp, hst, (fld_linkRefresh hp e _).symm.trans hkept]
  simp

/-- A port that is enabled starts a full training at DETECT. -/
theorem portOn_starts (hp : p < 4) (h : bit (d.fld FJL.CTRL_EN) p = false) :
    (∃ l : LinkPort, portView (d.portOn p) p =
      ⟨1, d.linkEpoch p, if (d.link p).wasDown then 0 else d.trainFails p, layerPart { l with training := 0 }⟩) ∧
    (d.portOn p).fld FJL.CTRL_EN = (d.fld FJL.CTRL_EN + 2 ^ p) % 16 ∧ tabGet false (d.portOn p).snag.cause (364 + p) = true := by
  have hp5 : p < 5 := by omega
  have hen : portView (d.put FJL.CTRL_EN (d.fld FJL.CTRL_EN + 2 ^ p)) p = portView d p := view_put d _ (by simp)
  have hvalue : (d.put FJL.CTRL_EN (d.fld FJL.CTRL_EN + 2 ^ p)).fld FJL.CTRL_EN = (d.fld FJL.CTRL_EN + 2 ^ p) % 16 := Dev.fld_put_same _ _ _
  unfold Dev.portOn
  rw [if_neg (by simp [h])]
  dsimp only [link_put]
  generalize d.put FJL.CTRL_EN (d.fld FJL.CTRL_EN + 2 ^ p) = d1 at hen hvalue ⊢
  have hfails : portView (if (d.link p).wasDown = true then d1.putFails p 0 else d1) p =
      { portView d p with fails := if (d.link p).wasDown then 0 else d.trainFails p } := by
    split
    · rw [view_putFails hp5, hen]
      rfl
    · exact hen
  have hkept : Keeps (trainKeys p) d1 (if (d.link p).wasDown = true then d1.putFails p 0 else d1) := .ite ((Keeps.refl d1).fails hp 0) (.refl d1)
  generalize (if (d.link p).wasDown = true then d1.putFails p 0 else d1) = d2 at hfails hkept ⊢
  have hctrl := ((hkept.putLink (p := p) { d2.link p with wasDown := false }).port hp (f := FJL.CTRL_EN) List.mem_cons_self).trans hvalue
  have hbegun := view_putLink (p := p) d2 (l := { d2.link p with wasDown := false }) rfl
  generalize d2.putLink p { d2.link p with wasDown := false } = d3 at hctrl hbegun ⊢
  refine ⟨⟨(d3.link p).quiet, ?_⟩, (((Keeps.refl d3).full hp).port hp List.mem_cons_self).trans hctrl, ?_⟩
  · rw [view_fullTraining hp5, hbegun, hfails]
    rfl
  · rw [fullTraining_cause hp, hctrl, bit_enabled hp hp h]
    simp

/-- The link layer of a port that is disabled, with whether it was in DOWN (R259, R286). -/
def offLayer (l : LinkPort) (down : Bool) : LinkPort :=
  { l.quiet with held := [], inTime := [], txQueue := [], replay := [], expSeq := [], txSeq := [], wasDown := down, rxLimit := [], rxUsed := [],
                 txLimit := [], txUsed := [] }

theorem linkOff_eq (d : Dev) (p : Nat) :
    d.linkOff p = (((d.unlockLanes p true).putLink p (offLayer (d.link p) (d.linkSt p == 9))).putLinkSt p 0).linkRefresh p := rfl

/-- A port that is disabled holds nothing and drives no lane (R286). -/
theorem portOff_ends (hp : p < 4) (h : bit (d.fld FJL.CTRL_EN) p = true) :
    (∃ l down, portView (d.portOff p) p = ⟨0, d.linkEpoch p, d.trainFails p, layerPart (offLayer l down)⟩) ∧
    (d.portOff p).fld FJL.CTRL_EN = (d.fld FJL.CTRL_EN - 2 ^ p) % 16 ∧ (∀ f ∈ laneFlds p, (d.portOff p).fld f = 0) ∧
    tabGet false (d.portOff p).snag.cause (364 + p) = false := by
  have hp5 : p < 5 := by omega
  have hen : portView (d.put FJL.CTRL_EN (d.fld FJL.CTRL_EN - 2 ^ p)) p = portView d p := view_put d _ (by simp)
  have hvalue : (d.put FJL.CTRL_EN (d.fld FJL.CTRL_EN - 2 ^ p)).fld FJL.CTRL_EN = (d.fld FJL.CTRL_EN - 2 ^ p) % 16 := Dev.fld_put_same _ _ _
  unfold Dev.portOff
  rw [if_pos h, linkOff_eq]
  generalize d.put FJL.CTRL_EN (d.fld FJL.CTRL_EN - 2 ^ p) = d1 at hen hvalue ⊢
  have hlanes (f : Fld) (hf : f ∈ laneFlds p) := unlockLanes_off hp d1 hf
  have hctrl := (((Keeps.refl d1).unlock hp true).port hp (f := FJL.CTRL_EN) List.mem_cons_self).trans hvalue
  have hunlocked := (view_unlockLanes (p := p) d1 true).trans hen
  have hbond : bondPart (offLayer (d1.link p) (d1.linkSt p == 9)) = bondPart ((d1.unlockLanes p true).link p) := by
    rw [link_unlockLanes]
    rfl
  generalize d1.unlockLanes p true = d2 at hlanes hctrl hunlocked hbond ⊢
  have hfld (e : Dev) {f : Fld} (hf : f ∈ laneFlds p ++ portFlds p) : ((e.putLinkSt p 0).linkRefresh p).fld f = e.fld f :=
    (fld_linkRefresh hp _ f).trans (fld_putLinkSt hp e 0 hf)
  refine ⟨⟨d1.link p, d1.linkSt p == 9, ?_⟩, (hfld _ (by simp)).trans hctrl,
    fun f hf => (hfld _ (List.mem_append_left _ hf)).trans (hlanes f hf), ?_⟩
  · rw [view_linkRefresh hp5, view_putLinkSt hp5 _ (by decide), view_putLink _ hbond, hunlocked]
    rfl
  · rw [linkRefresh_cause hp, fld_putLinkSt hp _ 0 (by simp), fld_putLink, hctrl, bit_disabled hp hp h]
    simp

/-! The commands. -/

section
variable (hd : s.dev.dead = false) (hm : s.dev.memsys.writes = []) (hp : p < 4) (hr : s.dev.reach .c0 = true ∨ s.dev.reach .c1 = true)

include hr in
theorem fjl_atC (k : Dev → Dev) : s.dev.atC k = k s.dev := atC_reach (by simpa using hr) k

include hd hp hr

theorem portEnable_starts (h : bit (s.dev.fld FJL.CTRL_EN) p = false) : Yields (exec (.fjlPortEnable p) s) (fun t =>
    (∀ q, q < 4 → bit (t.dev.fld FJL.CTRL_EN) q = (q == p || bit (s.dev.fld FJL.CTRL_EN) q)) ∧ t.dev.linkSt p = 1 ∧
    (t.dev.link p).training = 0 ∧ t.dev.trainFails p = (if (s.dev.link p).wasDown then 0 else s.dev.trainFails p) ∧
    tabGet false t.dev.snag.cause (364 + p) = true ∧ t.dev.resp = .done) := by
  obtain ⟨⟨l, hview⟩, hctrl, hcause⟩ := portOn_starts hp h
  obtain ⟨hst, -, hfails, hlayer⟩ := shows_runOn s ((view_answer (s.dev.portOn p) .done).trans hview)
  refine run_body (e := (s.dev.portOn p).answer .done) hd ((fjl_atC hr _).trans (by rw [if_pos hp]))
    ⟨fun q hq => ?_, hst, layer_read LinkPort.training (fun _ => rfl) hlayer, hfails, ?_, by simp⟩
  · rw [port_runOn s hp List.mem_cons_self, Dev.fld_answer, hctrl, bit_enabled hp hq h]
  · rw [runOn_snag_cause]
    exact hcause

theorem portDisable_ends (h : bit (s.dev.fld FJL.CTRL_EN) p = true) : Yields (exec (.fjlPortDisable p) s) (fun t =>
    (∀ q, q < 4 → bit (t.dev.fld FJL.CTRL_EN) q = (q != p && bit (s.dev.fld FJL.CTRL_EN) q)) ∧ t.dev.linkSt p = 0 ∧
    (t.dev.link p).held = [] ∧ (t.dev.link p).txQueue = [] ∧ (t.dev.link p).replay = [] ∧ (t.dev.link p).expSeq = [] ∧
    t.dev.fld (FJL.P_LANES_LOCKED p) = 0 ∧ t.dev.fld (FJL.P_LANES_SIGNAL p) = 0 ∧
    tabGet false t.dev.snag.cause (364 + p) = false ∧ t.dev.resp = .done) := by
  obtain ⟨⟨l, down, hview⟩, hctrl, hlanes, hcause⟩ := portOff_ends hp h
  obtain ⟨hst, -, -, hlayer⟩ := shows_runOn s ((view_answer (s.dev.portOff p) .done).trans hview)
  refine run_body (e := (s.dev.portOff p).answer .done) hd ((fjl_atC hr _).trans (by rw [if_pos hp]))
    ⟨fun q hq => ?_, hst, layer_read LinkPort.held (fun _ => rfl) hlayer, layer_read LinkPort.txQueue (fun _ => rfl) hlayer,
    layer_read LinkPort.replay (fun _ => rfl) hlayer, layer_read LinkPort.expSeq (fun _ => rfl) hlayer,
    (lane_runOn s hp (by simp)).trans (hlanes _ (by simp)), (lane_runOn s hp (by simp)).trans (hlanes _ (by simp)), ?_, by simp⟩
  · rw [port_runOn s hp List.mem_cons_self, Dev.fld_answer, hctrl, bit_disabled hp hq h]
  · rw [runOn_snag_cause]
    exact hcause

include hm

/-- A port that is already as the command asks stays. -/
theorem portEnable_again (h : bit (s.dev.fld FJL.CTRL_EN) p = true) :
    Yields (exec (.fjlPortEnable p) s) (fun t => t.dev.resp = .done ∧ RegsOnly [] s t) := by
  have hbody : s.dev.portOn p = s.dev := if_pos h
  exact run_body (e := s.dev.answer .done) hd ((fjl_atC hr _).trans (by rw [if_pos hp, hbody])) ⟨by simp, runOn_regsOnly hm (fun _ _ => rfl) rfl⟩

theorem portDisable_again (h : bit (s.dev.fld FJL.CTRL_EN) p = false) :
    Yields (exec (.fjlPortDisable p) s) (fun t => t.dev.resp = .done ∧ RegsOnly [] s t) := by
  have hbody : s.dev.portOff p = s.dev := if_neg (by simp [h])
  exact run_body (e := s.dev.answer .done) hd ((fjl_atC hr _).trans (by rw [if_pos hp, hbody])) ⟨by simp, runOn_regsOnly hm (fun _ _ => rfl) rfl⟩

end

end Sys2Proof.Proofs.Scope
end

section
/-!
PROOF. The commands of a port's training (R258 to R261, R278, R282, R283): what each leaves of the port, of the counters of Table 08.11 and of the
sources that it holds.
-/

namespace Sys2Proof.Proofs.Scope

open Sys2Proof.Machine Sys2Proof.Laws

variable {s : State} {d e : Dev} {p : Nat}

/-! The exits of the training states (R258). -/

/-- A register that only an FJL port has. -/
def putFjl (d : Dev) (p : Nat) (f : Fld) (v : Nat) : Dev := if p < 4 then d.put f v else d

theorem view_putFjl (d : Dev) {f : Fld} (v : Nat) (hf : f ∈ laneFlds p ++ portFlds p) : portView (putFjl d p f v) p = portView d p :=
  ite_leaves (portView · p) (view_put d v hf) rfl

theorem fld_putFjl (hp : p < 4) (d : Dev) (f : Fld) (v : Nat) : (putFjl d p f v).fld f = v % 2 ^ f.width := by
  unfold putFjl
  rw [if_pos hp]
  exact d.fld_put_same f v

theorem fld_putFjl_other (d : Dev) {f g : Fld} (v : Nat) (h : g.key ≠ f.key) : (putFjl d p f v).fld g = d.fld g :=
  ite_leaves (Dev.fld · g) (d.fld_put_other v h) rfl

/-- What the exit of a state before DESKEW records of the lanes. -/
def exitLanes (d : Dev) (p polarity : Nat) : Dev :=
  match d.linkSt p with
  | 1 => putFjl d p (FJL.P_LANES_SIGNAL p) 255
  | 3 => putFjl (putFjl d p (FJL.P_LANES_LOCKED p) 255) p (FJL.P_LANES_POLARITY p) polarity
  | _ => d

theorem view_exitLanes (d : Dev) (polarity : Nat) : portView (exitLanes d p polarity) p = portView d p := by
  unfold exitLanes
  split
  · exact view_putFjl d _ (by simp)
  · exact (view_putFjl _ _ (by simp)).trans (view_putFjl d _ (by simp))
  · rfl

/-- The exits before DESKEW lead to the next state. -/
theorem trainingExit_moves (h1 : 1 ≤ d.linkSt p) (h4 : d.linkSt p ≤ 4) (polarity : Nat) (reversed : Bool) (config : List Nat) :
    d.trainingExit p polarity reversed config = ((exitLanes d p polarity).putLinkSt p (d.linkSt p + 1)).linkRefresh p := by
  have hst : d.linkSt p = 1 ∨ d.linkSt p = 2 ∨ d.linkSt p = 3 ∨ d.linkSt p = 4 := by omega
  unfold Dev.trainingExit exitLanes
  rcases hst with hst | hst | hst | hst <;> rw [hst] <;> rfl

theorem trainingExit_deskew (h5 : d.linkSt p = 5) (polarity : Nat) (reversed : Bool) (config : List Nat) :
    d.trainingExit p polarity reversed config =
      ((if (d.link p).training = 0 then (putFjl d p (FJL.P_STAT_REVERSED p) (b2n reversed)).startEpoch p
        else putFjl d p (FJL.P_STAT_REVERSED p) (b2n reversed)).putLinkSt p 6).linkRefresh p := by
  unfold Dev.trainingExit
  rw [h5]
  rfl

theorem trainingExit_config (h : d.linkSt p = 6 ∨ d.linkSt p = 8) (polarity : Nat) (reversed : Bool) (config : List Nat) :
    d.trainingExit p polarity reversed config = if d.configAgrees p config then d.linkActive p config else d.trainFail p 6 := by
  unfold Dev.trainingExit
  rcases h with h | h <;> rw [h] <;> rfl

section
variable (hd : s.dev.dead = false) (hp : p < 5) (hr : s.dev.reach (linkDie p) = true)
include hd hp hr

/-- What the command leaves is what the exit leaves. -/
theorem stateExit_yields {polarity : Nat} {reversed : Bool} {config : List Nat} {P : State → Prop}
    (he : s.dev.trainingExit p polarity reversed config = e) (h : P (runOn s (fun _ _ => e))) :
    Yields (exec (.trainingStateExit p polarity reversed config) s) P :=
  run_body (e := e) hd ((if_pos (by simp [hp, hr])).trans he) h

theorem stateExit_moves (h1 : 1 ≤ s.dev.linkSt p) (h4 : s.dev.linkSt p ≤ 4) (polarity : Nat) (reversed : Bool) (config : List Nat) :
    Yields (exec (.trainingStateExit p polarity reversed config) s) (fun t =>
      t.dev.linkSt p = s.dev.linkSt p + 1 ∧ (p < 4 → (s.dev.linkSt p = 1 → t.dev.fld (FJL.P_LANES_SIGNAL p) = 255) ∧
        (s.dev.linkSt p = 3 → t.dev.fld (FJL.P_LANES_LOCKED p) = 255 ∧ t.dev.fld (FJL.P_LANES_POLARITY p) = polarity % 256))) := by
  have hview : portView (((exitLanes s.dev p polarity).putLinkSt p (s.dev.linkSt p + 1)).linkRefresh p) p =
      { portView s.dev p with st := s.dev.linkSt p + 1 } := by
    rw [view_linkRefresh hp, view_putLinkSt hp _ (by omega), view_exitLanes]
  have hfld (hp4 : p < 4) {f : Fld} (hf : f ∈ laneFlds p ++ portFlds p) :
      (((exitLanes s.dev p polarity).putLinkSt p (s.dev.linkSt p + 1)).linkRefresh p).fld f = (exitLanes s.dev p polarity).fld f :=
    (fld_linkRefresh hp4 _ f).trans (fld_putLinkSt hp4 _ _ hf)
  refine stateExit_yields hd hp hr (trainingExit_moves h1 h4 _ _ _)
    ⟨(shows_runOn s hview).1, fun hp4 => ⟨fun hst => ?_, fun hst => ⟨?_, ?_⟩⟩⟩
  · rw [lane_runOn s hp4 (by simp), hfld hp4 (by simp), exitLanes, hst]
    exact fld_putFjl hp4 _ _ _
  · rw [lane_runOn s hp4 (by simp), hfld hp4 (by simp), exitLanes, hst]
    exact (fld_putFjl_other _ _ (by simp [Fld.key, FJL.P_LANES_LOCKED, FJL.P_LANES_POLARITY])).trans (fld_putFjl hp4 _ _ _)
  · rw [port_runOn s hp4 (by simp), hfld hp4 (by simp), exitLanes, hst]
    exact fld_putFjl hp4 _ _ _

/-- DESKEW leads to CONFIG, in a full training with a new epoch (log entry 18). -/
theorem stateExit_deskew (h5 : s.dev.linkSt p = 5) (polarity : Nat) (reversed : Bool) (config : List Nat) :
    Yields (exec (.trainingStateExit p polarity reversed config) s) (fun t => t.dev.linkSt p = 6 ∧
      t.dev.linkEpoch p = if (s.dev.link p).training = 0 then (s.dev.linkEpoch p + 1) % 256 else s.dev.linkEpoch p) := by
  have hput := view_putFjl (p := p) s.dev (b2n reversed) (f := FJL.P_STAT_REVERSED p) (by simp)
  have hview := trainingExit_deskew h5 polarity reversed config
  generalize putFjl s.dev p (FJL.P_STAT_REVERSED p) (b2n reversed) = d1 at hput hview
  have hepoch : d1.linkEpoch p = s.dev.linkEpoch p := congrArg PortView.epoch hput
  obtain ⟨hst, hnew, -⟩ := shows_runOn (p := p) s ((view_linkRefresh hp _).trans (view_putLinkSt hp
    (if (s.dev.link p).training = 0 then d1.startEpoch p else d1) (st := 6) (by decide)))
  refine stateExit_yields hd hp hr hview ⟨hst, hnew.trans ?_⟩
  split
  · exact (congrArg PortView.epoch (view_startEpoch hp d1)).trans (by rw [hepoch])
  · exact hepoch

/-- A CONFIG that does not agree is a failed training, in CONFIG (R259). -/
theorem stateExit_fails (h : s.dev.linkSt p = 6 ∨ s.dev.linkSt p = 8) (polarity : Nat) (reversed : Bool) (config : List Nat)
    (hno : s.dev.configAgrees p config = false) : Yields (exec (.trainingStateExit p polarity reversed config) s) (fun t =>
      t.dev.linkSt p = (if s.dev.trainMax p ≤ s.dev.trainFails p + 1 then 9 else 1) ∧
      t.dev.trainFails p = min 255 (s.dev.trainFails p + 1) ∧ (p < 4 → t.dev.fld (FJL.P_TRAIN_LAST_FAIL p) = 6)) := by
  obtain ⟨l, hview⟩ := view_trainFail hp s.dev 6
  obtain ⟨hst, -, hfails, -⟩ := shows_runOn s hview
  refine stateExit_yields hd hp hr ((trainingExit_config h _ _ _).trans (by rw [hno]; rfl)) ⟨hst, hfails, fun hp4 => ?_⟩
  exact (port_runOn s hp4 (by simp)).trans (((trainFail_keeps hp4 s.dev 6).port hp4 (by simp)).trans (reportFail_records hp4 s.dev 6))

/-- A CONFIG that agrees makes the port ACTIVE (R258 to R261, R278). -/
theorem stateExit_active (h : s.dev.linkSt p = 6 ∨ s.dev.linkSt p = 8) (polarity : Nat) (reversed : Bool) (config : List Nat)
    (hagrees : s.dev.configAgrees p config = true) (harm : s.dev.fjlArmed p 3 = false) :
    Yields (exec (.trainingStateExit p polarity reversed config) s) (fun t =>
      t.dev.linkSt p = 7 ∧ t.dev.trainFails p = 0 ∧ ((s.dev.link p).training = 1 → (t.dev.link p).cause = 4) ∧
      ((s.dev.link p).training ≠ 1 → ∀ e ∈ ([(0, 3), (1, 5), (2, 4), (3, 6)] : List (Nat × Nat)),
        tabGet 0 (t.dev.link p).txLimit e.1 = config.getD e.2 0 % 65536) ∧
      (p < 4 → tabGet false t.dev.snag.cause (364 + p) = false ∧ t.dev.fld (FJL.P_TRAIN_FULL p) =
        (if (s.dev.link p).training = 0 then satAdd (2 ^ (FJL.P_TRAIN_FULL p).width - 1) (s.dev.fld (FJL.P_TRAIN_FULL p)) 1
          else s.dev.fld (FJL.P_TRAIN_FULL p)))) := by
  obtain ⟨q, hview⟩ := view_entersActive hp s.dev config
  have hactive : (entersActive s.dev p config).linkSt p = 7 := congrArg PortView.st hview
  obtain ⟨hst, -, hfails, hlayer⟩ := shows_runOn s ((view_linkRefresh hp _).trans hview)
  refine stateExit_yields hd hp hr ((trainingExit_config h _ _ _).trans (by rw [if_pos hagrees, linkActive_unarmed harm]))
    ⟨hst, hfails, fun hfast => ?_, fun hfull e he => ?_, fun hp4 => ⟨?_, ?_⟩⟩
  · rw [layer_read LinkPort.cause (fun _ => rfl) hlayer, activeLayer, if_pos hfast]
    rfl
  · have hlimits : (activeLayer (s.dev.link p) config).txLimit = (configLimits config).filter (fun e => e.2 != 0) := by
      rw [activeLayer, if_neg hfull]
    rw [layer_read LinkPort.txLimit (fun _ => rfl) hlayer]
    refine (congrArg (tabGet 0 · e.1) hlimits).trans ((tabGet_filter_ne 0 e.1 (configLimits config) (show [0, 1, 2, 3].Nodup by decide)).trans ?_)
    simp only [List.mem_cons, List.not_mem_nil, or_false] at he
    rcases he with rfl | rfl | rfl | rfl <;> rfl
  · rw [runOn_snag_cause, linkRefresh_cause hp4, hactive]
    simp
  · rw [port_runOn s hp4 (by simp), fld_linkRefresh hp4, (entersActive_keeps hp4 s.dev config).port hp4 (by simp), countFull, decide_eq_true hp4, Bool.true_and,
      ← fld_count_satAdd]
    simp only [decide_eq_true_eq]
    split <;> rfl

/-- A training that takes too long fails in its state (R259). -/
theorem timeout_fails (hst : (2 ≤ s.dev.linkSt p ∧ s.dev.linkSt p ≤ 6) ∨ s.dev.linkSt p = 8) : Yields (exec (.trainingTimeout p) s) (fun t =>
    t.dev.linkSt p = (if s.dev.trainMax p ≤ s.dev.trainFails p + 1 then 9 else 1) ∧
    t.dev.trainFails p = min 255 (s.dev.trainFails p + 1) ∧ (p < 4 → t.dev.fld (FJL.P_TRAIN_LAST_FAIL p) = s.dev.linkSt p ∧
      (s.dev.trainMax p ≤ s.dev.trainFails p + 1 → Claims.Beats s.dev (clusterDie p) → Claims.Held t.dev (clusterDie p) (364 + p)))) := by
  obtain ⟨l, hview⟩ := view_trainFail hp s.dev (s.dev.linkSt p)
  obtain ⟨hnext, -, hfails, -⟩ := shows_runOn s hview
  refine run_body hd (if_pos (by simpa [hp, hr] using hst)) ⟨hnext, hfails, fun hp4 => ?_⟩
  have hkept := trainFail_keeps hp4 s.dev (s.dev.linkSt p)
  refine ⟨?_, fun hmax hb => held_runOn (hkept.holds (reportFail_holds hp4 hmax hb))⟩
  rw [port_runOn s hp4 (by simp), hkept.port hp4 (by simp), reportFail_records hp4]
  exact Nat.mod_eq_of_lt (show s.dev.linkSt p < 16 by omega)

end

/-! Retrains and resets (R278, R282, Table 08.9). -/

section
variable (hd : s.dev.dead = false) (hp : p < 5)
include hd hp

/-- BLOCK_LOCK_LOSS: an ACTIVE port retrains, which is counted and held. -/
theorem lockLoss_retrains (h7 : s.dev.linkSt p = 7) : Yields (exec (.blockLockLoss p) s) (fun t =>
    t.dev.linkSt p = (if s.dev.fastRetrain p then 8 else 1) ∧ (p < 4 → t.dev.fld (FJL.P_LINKERR_RETRAINS p) =
        satAdd (2 ^ (FJL.P_LINKERR_RETRAINS p).width - 1) (s.dev.fld (FJL.P_LINKERR_RETRAINS p)) 1 % 2 ^ (FJL.P_LINKERR_RETRAINS p).width ∧
      (Claims.Beats s.dev (clusterDie p) → Claims.Held t.dev (clusterDie p) (356 + p)))) := by
  obtain ⟨l, hview⟩ := view_retrain hp s.dev
  refine run_body hd (if_pos (by simp [hp, h7])) ⟨(shows_runOn s hview).1, fun hp4 => ⟨?_, fun hb => held_runOn (retrain_holds hp4 hb)⟩⟩
  have hraised := raise_raises (s.dev.count (FJL.P_LINKERR_RETRAINS p) 1) (clusterDie p) (356 + p)
  rw [port_runOn s hp4 (by simp), (retrain_keeps hp4 s.dev).port hp4 (by simp), hraised.regs _ (port_outside hp4 (by simp)).2]
  exact Dev.fld_put_same _ _ _

/-- RESET_BLOCK: the port enters DESKEW with a new epoch and sends no RESET block. -/
theorem resetBlock_resets (hst : s.dev.linkSt p = 7 ∨ s.dev.linkSt p = 8) {reason : Nat} (hreason : 1 ≤ reason) :
    Yields (exec (.resetBlock p reason) s) (fun t => t.dev.linkSt p = 5 ∧ t.dev.linkEpoch p = (s.dev.linkEpoch p + 1) % 256 ∧
      (t.dev.link p).held = [] ∧ (t.dev.link p).expSeq = [] ∧ (t.dev.link p).replay = [] ∧
      (t.dev.link p).resetSent = (s.dev.link p).resetSent ∧ (p < 4 → t.dev.fld (FJL.P_LINKERR_RESETS p) =
        satAdd (2 ^ (FJL.P_LINKERR_RESETS p).width - 1) (s.dev.fld (FJL.P_LINKERR_RESETS p)) 1 % 2 ^ (FJL.P_LINKERR_RESETS p).width)) := by
  obtain ⟨hnext, hepoch, -, hlayer⟩ := shows_runOn s (view_linkReset hp s.dev 0)
  refine run_body hd (if_pos (by simp [hp, hreason, hst])) ⟨hnext, hepoch, layer_read LinkPort.held (fun _ => rfl) hlayer,
    layer_read LinkPort.expSeq (fun _ => rfl) hlayer, layer_read LinkPort.replay (fun _ => rfl) hlayer,
    (layer_read LinkPort.resetSent (fun _ => rfl) hlayer).trans rfl, fun hp4 => ?_⟩
  rw [port_runOn s hp4 (by simp), (linkReset_keeps hp4 s.dev 0).port hp4 (by simp)]
  exact Dev.fld_put_same _ _ _

end

/-! The commands of FJL_P_CMD. -/

theorem fjlCmdWrite_retrain (d : Dev) (p : Nat) : d.fjlCmdWrite p 1 = (d.cmdRetrain p).answer .done := rfl

theorem fjlCmdWrite_reset (d : Dev) (p : Nat) : d.fjlCmdWrite p 2 = (d.cmdReset p).answer .done := rfl

theorem fjlCmdWrite_clrPeer (d : Dev) (p : Nat) : d.fjlCmdWrite p 4 = (d.clrPeer p).answer .done := rfl

section
variable (hd : s.dev.dead = false) (hp : p < 4) (hr : s.dev.reach (clusterDie p) = true)
include hd hp hr

/-- What a command that writes FJL_P_CMD leaves. -/
theorem fjlCmd_yields {v : Nat} {P : State → Prop} (he : s.dev.fjlCmdWrite p v = e) (h : P (runOn s (fun _ _ => e))) :
    Yields (run s fun _ d => if p < 4 then d.at (clusterDie p) (fun d => d.fjlCmdWrite p v) else d) P :=
  run_body (e := e) hd ((if_pos hp).trans ((at_reach hr _).trans he)) h

/-- RETRAIN starts DOWN anew (R259). -/
theorem cmdRetrain_down (h9 : s.dev.linkSt p = 9) :
    Yields (exec (.fjlCmdRetrain p) s) (fun t => t.dev.linkSt p = 1 ∧ t.dev.trainFails p = 0 ∧ t.dev.resp = .done) := by
  have hp5 : p < 5 := by omega
  have hbody : s.dev.fjlCmdWrite p 1 = ((s.dev.putFails p 0).fullTraining p).answer .done := by
    rw [fjlCmdWrite_retrain, Dev.cmdRetrain, if_pos h9]
  have hview := view_fullTraining hp5 (s.dev.putFails p 0)
  rw [view_putFails hp5] at hview
  obtain ⟨hst, -, hfails, -⟩ := shows_runOn s ((view_answer ((s.dev.putFails p 0).fullTraining p) .done).trans hview)
  exact fjlCmd_yields hd hp hr hbody ⟨hst, hfails, by simp⟩

/-- RETRAIN retrains an ACTIVE port. -/
theorem cmdRetrain_active (h7 : s.dev.linkSt p = 7) : Yields (exec (.fjlCmdRetrain p) s) (fun t =>
    t.dev.linkSt p = (if s.dev.fastRetrain p then 8 else 1) ∧ t.dev.resp = .done ∧
    (Claims.Beats s.dev (clusterDie p) → Claims.Held t.dev (clusterDie p) (356 + p))) := by
  have hbody : s.dev.fjlCmdWrite p 1 = (s.dev.retrain p).answer .done := by
    rw [fjlCmdWrite_retrain, Dev.cmdRetrain, if_neg (by omega), if_pos h7]
  obtain ⟨l, hview⟩ := view_retrain (by omega : p < 5) s.dev
  obtain ⟨hst, -⟩ := shows_runOn s ((view_answer (s.dev.retrain p) .done).trans hview)
  exact fjlCmd_yields hd hp hr hbody ⟨hst, by simp, fun hb => held_runOn (held_congr rfl rfl (retrain_holds hp hb))⟩

/-- RESET resets the link and sends a RESET block with reason 2. -/
theorem cmdReset_resets (hst : s.dev.linkSt p = 7 ∨ s.dev.linkSt p = 8) : Yields (exec (.fjlCmdReset p) s) (fun t =>
    t.dev.linkSt p = 5 ∧ t.dev.linkEpoch p = (s.dev.linkEpoch p + 1) % 256 ∧ (t.dev.link p).resetSent = 2 ∧ t.dev.resp = .done) := by
  have hbody : s.dev.fjlCmdWrite p 2 = (s.dev.linkReset p 2).answer .done := by
    rw [fjlCmdWrite_reset, Dev.cmdReset, if_pos (by simpa using hst)]
  obtain ⟨hnext, hepoch, -, hlayer⟩ := shows_runOn s ((view_answer (s.dev.linkReset p 2) .done).trans (view_linkReset (by omega : p < 5) s.dev 2))
  exact fjlCmd_yields hd hp hr hbody ⟨hnext, hepoch, layer_read LinkPort.resetSent (fun _ => rfl) hlayer, by simp⟩

/-- CLR_PEER clears the peer's alert and its cause (R283). -/
theorem clrPeer_clears : Yields (exec (.clrPeer p) s) (fun t =>
    t.dev.on (FJL.P_PEER_VALID p) = false ∧ t.dev.fld (FJL.P_PEER_CODE p) = 0 ∧ tabGet false t.dev.snag.cause (376 + p) = false ∧
    t.dev.resp = .done ∧ RegsKept [(FJL.P_PEER_VALID p).key, (FJL.P_PEER_CODE p).key] s.dev t.dev) := by
  have hapart : (FJL.P_PEER_VALID p).key ≠ (FJL.P_PEER_CODE p).key := by simp [Fld.key, FJL.P_PEER_VALID, FJL.P_PEER_CODE]
  refine fjlCmd_yields hd hp hr (fjlCmdWrite_clrPeer s.dev p) ⟨?_, ?_, ?_, by simp, fun f hf hs => ?_⟩
  · exact (Dev.on_fld (port_runOn s hp (by simp))).trans ((Dev.on_put_other _ 0 hapart).trans (Dev.on_flag_same _ _ _))
  · exact (port_runOn s hp (by simp)).trans ((Dev.fld_put_same _ _ _).trans (Nat.zero_mod _))
  · rw [runOn_snag_cause]
    exact cause_same _ _ _
  · simp only [List.mem_cons, List.not_mem_nil, or_false, not_or] at hf
    obtain ⟨hvalid, hcode⟩ := hf
    exact (runOn_fld s _ hs).trans ((Dev.fld_put_other _ 0 hcode).trans (Dev.fld_flag_other _ _ hvalid))

end

/-- Settles O28: each command by the case of its operation that the clause names, and one equation for what the port shows after it. -/
theorem linksTrainRetrainAndReset : Obligations.LinksTrainRetrainAndReset := by
  unfold Obligations.LinksTrainRetrainAndReset
  intro s p hd hm
  refine ⟨fun hp hr => ⟨fun hoff => ⟨portEnable_starts hd hp hr hoff, portDisable_again hd hm hp hr hoff⟩,
      fun hon => ⟨portEnable_again hd hm hp hr hon, portDisable_ends hd hp hr hon⟩⟩,
    fun hp hr => ⟨fun pol rev config => ⟨fun h1 h4 => stateExit_moves hd hp hr h1 h4 pol rev config,
      fun h5 => stateExit_deskew hd hp hr h5 pol rev config,
      fun hst => ⟨stateExit_active hd hp hr hst pol rev config, stateExit_fails hd hp hr hst pol rev config⟩⟩, timeout_fails hd hp hr⟩,
    fun hp => ⟨lockLoss_retrains hd hp, fun hst reason => resetBlock_resets hd hp hst⟩,
    fun hp hr => ⟨cmdRetrain_down hd hp hr, cmdRetrain_active hd hp hr, cmdReset_resets hd hp hr, clrPeer_clears hd hp hr⟩⟩

end Sys2Proof.Proofs.Scope
end

section
/-!
PROOF. What the other side's service rows and MARK blocks do on an ACTIVE port (R256, R264, R274 to R277, R282).
-/

namespace Sys2Proof.Proofs.Scope

open Sys2Proof.Machine Sys2Proof.Laws

variable {s : State} {d : Dev} {p : Nat}

/-! An ACTIVE port judges what arrives, and has not gone to retrain. -/

theorem retrainNow_active (h7 : d.linkSt p = 7) : d.retrainNow p = false := by simp [Dev.retrainNow, h7]

theorem judged_active (h7 : d.linkSt p = 7) : d.judged p = true := by simp [Dev.judged, h7]

/-- The link layer that a command gives a port, and the frame of such a command. -/
theorem link_given (s : State) (p : Nat) (l : LinkPort) : (runOn s (fun _ _ => s.dev.putLink p l)).dev.link p = l :=
  (link_runOn s _ p).trans (link_putLink_same s.dev p l)

theorem putLink_frame (hm : s.dev.memsys.writes = []) (p : Nat) (l : LinkPort) :
    Frame [] (fun d => { d with links := [] }) s (runOn s (fun _ _ => s.dev.putLink p l)) :=
  runOn_frame (fun _ _ => rfl) hm (fun _ _ => rfl) rfl rfl

/-! RESYNC and acknowledgements. -/

/-- RESYNC ends a loss of framing, and changes nothing else of the link layer (R275). -/
theorem resyncSeen_part {β : Type} (part : LinkPort → β)
    (hpart : ∀ (l : LinkPort) (f : Bool) (c : Nat) (n : List Nat), part { l with framingLost := f, cause := c, nacked := n } = part l)
    (l : LinkPort) (resync : Bool) : part (l.resyncSeen resync) = part l := by
  unfold LinkPort.resyncSeen
  split
  · exact hpart l false 0 []
  · rfl

theorem resyncSeen_framing (l : LinkPort) (resync : Bool) :
    (l.resyncSeen resync).framingLost = (l.framingLost && !(resync && [0, 1, 2, 3].all l.nacked.contains)) := by
  unfold LinkPort.resyncSeen
  split
  next h =>
    simp only [Bool.and_eq_true] at h
    obtain ⟨⟨hresync, -⟩, hall⟩ := h
    rw [hresync, hall]
    simp
  next h =>
    cases hlost : l.framingLost with
    | false => rfl
    | true =>
      rw [hlost, Bool.and_true, Bool.not_eq_true] at h
      rw [h]
      rfl

/-- On BOND the block with an acknowledgement carries RESYNC too (R284). -/
def bondResync (p : Nat) (l : LinkPort) (resync : Bool) : LinkPort := if p = 4 then l.resyncSeen resync else l

theorem bondResync_part {β : Type} (part : LinkPort → β)
    (hpart : ∀ (l : LinkPort) (f : Bool) (c : Nat) (n : List Nat), part { l with framingLost := f, cause := c, nacked := n } = part l)
    (p : Nat) (l : LinkPort) (resync : Bool) : part (bondResync p l resync) = part l := by
  unfold bondResync
  split
  · exact resyncSeen_part part hpart l resync
  · rfl

/-- The link layer without the records of a channel that an acknowledgement covers (R274). -/
def ackLayer (l : LinkPort) (vc k : Nat) : LinkPort := { l with replay := dropVc vc k l.replay }

/-- The link layer with the NACK of a channel noted; once every channel has one, all that is held is sent again (R276). -/
def nackLayer (p : Nat) (l : LinkPort) (vc next : Nat) : LinkPort :=
  if (sendChannels p).all (fun c => (tabGet none (tabSet none l.nacks vc (some next)) c).isSome)
  then { l with nacks := tabSet none l.nacks vc (some next) }.replayAll else { l with nacks := tabSet none l.nacks vc (some next) }

/-- A channel has a NACK, or this is its NACK. -/
theorem nacks_noted (p : Nat) (nacks : Tab (Option Nat)) (vc next : Nat) :
    (sendChannels p).all (fun c => (tabGet none (tabSet none nacks vc (some next)) c).isSome) =
      (sendChannels p).all (fun c => c == vc || (tabGet none nacks c).isSome) := by
  congr 1
  funext c
  rw [tabGet_set]
  by_cases h : c = vc <;> simp [h]

section
variable (hd : s.dev.dead = false) (hm : s.dev.memsys.writes = []) (hp : p < 5) (h7 : s.dev.linkSt p = 7) {vc : Nat} (hvc : vc < 4)

include hd hp in
/-- A protocol error resets the link. -/
theorem protocolError_yields {f : Mem → Dev → Dev} (hf : f s.mem s.dev = s.dev.protocolError p) : Yields (run s f) (fun t => t.dev.linkSt p = 5) :=
  run_body hd hf ((congrArg PortView.st (view_runOn s _)).trans (view_protocolError hp s.dev))

include hp h7 hvc

/-- The guard of a block that names a channel. -/
theorem channel_judged : (decide (p < 5) && decide (vc < 4) && s.dev.judged p) = true := by simp [hp, hvc, judged_active h7]

theorem nack_judged {cause : Nat} (hcause : cause = 1 ∨ cause = 2 ∨ cause = 4) :
    (decide (p < 5) && decide (vc < 4) && (decide (cause = 1) || decide (cause = 2) || decide (cause = 4)) && s.dev.judged p) = true := by
  simp [hp, hvc, judged_active h7, or_assoc, hcause]

include hd

/-- An acknowledgement that covers nothing held is a protocol error (R274, R282). -/
theorem ack_uncovered {next : Nat} (h : (s.dev.link p).covered vc next = none) (resync : Bool) :
    Yields (exec (.ack p vc next resync) s) (fun t => t.dev.linkSt p = 5) := by
  refine protocolError_yields hd hp ((if_pos (channel_judged hp h7 hvc)).trans ?_)
  rw [Dev.ackTaken, h]
  rfl

theorem nack_uncovered {next cause : Nat} (h : (s.dev.link p).covered vc next = none) (hcause : cause = 1 ∨ cause = 2 ∨ cause = 4) (resync : Bool) :
    Yields (exec (.nack p vc next cause resync) s) (fun t => t.dev.linkSt p = 5) := by
  refine protocolError_yields hd hp ((if_pos (nack_judged hp h7 hvc hcause)).trans ?_)
  rw [Dev.ackTaken, h]
  rfl

/-- A NACK that covers what is held (R276). -/
theorem nack_covered {next k cause : Nat} (h : (s.dev.link p).covered vc next = some k) (hcause : cause = 1 ∨ cause = 2 ∨ cause = 4) (resync : Bool)
    {P : State → Prop} (hP : P (runOn s (fun _ _ =>
      s.dev.putLink p (nackLayer p (bondResync p (ackLayer (s.dev.link p) vc k) resync) vc next)))) :
    Yields (exec (.nack p vc next cause resync) s) P := by
  refine run_body hd ((if_pos (nack_judged hp h7 hvc hcause)).trans ?_) hP
  rw [Dev.ackTaken, h]
  exact if_neg (by simp [retrainNow_active h7])

/-- While another channel has no NACK yet, the NACK is noted. -/
theorem nack_waits {next k cause : Nat} (h : (s.dev.link p).covered vc next = some k) (hcause : cause = 1 ∨ cause = 2 ∨ cause = 4) (resync : Bool)
    (hall : (sendChannels p).all (fun c => c == vc || (tabGet none (s.dev.link p).nacks c).isSome) = false) :
    Yields (exec (.nack p vc next cause resync) s) (fun t => tabGet none (t.dev.link p).nacks vc = some next) := by
  refine nack_covered hd hp h7 hvc h hcause resync ?_
  have hnacks : (bondResync p (ackLayer (s.dev.link p) vc k) resync).nacks = (s.dev.link p).nacks :=
    bondResync_part LinkPort.nacks (fun _ _ _ _ => rfl) p _ resync
  rw [link_given, nackLayer, nacks_noted, hnacks, hall]
  exact tabGet_set_same none _ vc (some next)

/-- With a NACK for every channel that the device sends on, all that is held is sent again. -/
theorem nack_replays {next k cause : Nat} (h : (s.dev.link p).covered vc next = some k) (hcause : cause = 1 ∨ cause = 2 ∨ cause = 4) (resync : Bool)
    (hall : (sendChannels p).all (fun c => c == vc || (tabGet none (s.dev.link p).nacks c).isSome) = true) :
    Yields (exec (.nack p vc next cause resync) s) (fun t =>
      (t.dev.link p).txQueue = (dropVc vc k (s.dev.link p).replay).map (fun r => r.2.2) ++ (s.dev.link p).txQueue ∧
      (t.dev.link p).replay = [] ∧ (t.dev.link p).resync = true) := by
  refine nack_covered hd hp h7 hvc h hcause resync ?_
  have hparts := bondResync_part (fun l => (l.nacks, l.replay, l.txQueue)) (fun _ _ _ _ => rfl) p (ackLayer (s.dev.link p) vc k) resync
  simp only [Prod.mk.injEq] at hparts
  obtain ⟨hnacks, hreplay, hqueue⟩ := hparts
  have hnew : (ackLayer (s.dev.link p) vc k).nacks = (s.dev.link p).nacks := rfl
  rw [link_given, nackLayer, nacks_noted, hnacks, hnew, hall]
  refine ⟨?_, rfl, rfl⟩
  show (bondResync p _ resync).replay.map (fun r => r.2.2) ++ (bondResync p _ resync).txQueue = _
  rw [hreplay, hqueue]
  rfl

include hm

/-- CREDIT sets the limit of its channel (R264). -/
theorem credit_limits (limit : Nat) : Yields (exec (.credit p vc limit) s) (fun t =>
    tabGet 0 (t.dev.link p).txLimit vc = limit % 65536 ∧ (∀ c, c ≠ vc → tabGet 0 (t.dev.link p).txLimit c = tabGet 0 (s.dev.link p).txLimit c) ∧
    Frame [] (fun d => { d with links := [] }) s t) := by
  refine run_body hd (if_pos (by simp [hp, hvc, h7])) ⟨?_, fun c hc => ?_, putLink_frame hm p _⟩
  · rw [link_given]
    exact tabGet_set_same _ _ _ _
  · rw [link_given]
    exact tabGet_set_other _ _ _ hc

/-- An acknowledgement frees what it covers (R274). -/
theorem ack_frees {next k : Nat} (h : (s.dev.link p).covered vc next = some k) (resync : Bool) :
    Yields (exec (.ack p vc next resync) s) (fun t => (t.dev.link p).replay = dropVc vc k (s.dev.link p).replay ∧
      Frame [] (fun d => { d with links := [] }) s t) := by
  refine run_body (e := s.dev.putLink p (bondResync p (ackLayer (s.dev.link p) vc k) resync)) hd
    ((if_pos (channel_judged hp h7 hvc)).trans ?_) ⟨?_, putLink_frame hm p _⟩
  · rw [Dev.ackTaken, h]
    exact if_neg (by simp [retrainNow_active h7])
  · rw [link_given]
    exact bondResync_part LinkPort.replay (fun _ _ _ _ => rfl) p _ resync

end

/-! MARK (R256). -/

section
variable (hd : s.dev.dead = false) (hp : p < 4) (h7 : s.dev.linkSt p = 7) {epoch : Nat} (resync : Bool)
include hp h7

theorem mark_guard : (decide (p < 4) && s.dev.judged p) = true := by simp [hp, judged_active h7]

include hd

theorem mark_otherEpoch (h : epoch ≠ s.dev.linkEpoch p) : Yields (exec (.mark p epoch resync) s) (fun t => t.dev.linkSt p = 5) :=
  protocolError_yields hd (by omega) ((if_pos (mark_guard hp h7)).trans (if_pos (by simpa using h)))

theorem mark_ownEpoch (h : epoch = s.dev.linkEpoch p) : Yields (exec (.mark p epoch resync) s) (fun t =>
    (t.dev.link p).framingLost = ((s.dev.link p).framingLost && !(resync && [0, 1, 2, 3].all (s.dev.link p).nacked.contains)) ∧
    t.dev.linkSt p = 7) := by
  have hsame : ¬ (epoch != s.dev.linkEpoch p) = true := by simp [h]
  have hview := view_putLink (p := p) s.dev (l := (s.dev.link p).resyncSeen resync) (resyncSeen_part bondPart (fun _ _ _ _ => rfl) _ _)
  refine run_body hd ((if_pos (mark_guard hp h7)).trans ((if_neg hsame).trans (if_neg (by simp [retrainNow_active h7]))))
    ⟨?_, (shows_runOn s hview).1.trans h7⟩
  rw [link_given]
  exact resyncSeen_framing _ _

end

end Sys2Proof.Proofs.Scope
end

section
/-!
PROOF. Records sent and received on an ACTIVE port, and the service rows that it sends (R255, R263 to R265, R272 to R278).
-/

namespace Sys2Proof.Proofs.Scope

open Sys2Proof.Machine Sys2Proof.Laws

variable {s : State} {d : Dev} {p : Nat}

/-- A loss of framing that does not yet retrain the port (R275, R278). -/
theorem loseFraming_link {cause : Nat} (h : (d.link p).losses + 1 < d.retryMax p) : (d.loseFraming p cause).link p =
    { d.link p with framingLost := true, cause := cause, nacked := [], losses := (d.link p).losses + 1 } := by
  unfold Dev.loseFraming
  dsimp only
  rw [if_neg (by omega)]
  refine (ite_leaves (Dev.link · p) ?_ rfl).trans (link_putLink_same d p _)
  exact link_raiseInj _ _ _ _ _ p

section
variable (hd : s.dev.dead = false) (hp : p < 5) (hr : s.dev.reach (linkDie p) = true) (h7 : s.dev.linkSt p = 7)

include hp hr in
/-- The guard of what a port sends and receives. -/
theorem port_reached : (decide (p < 5) && s.dev.reach (linkDie p)) = true := by simp [hp, hr]

include hd hp hr h7

/-- RECORD_TRANSMIT (R264, R272, R277): the record leaves the queue for the replay buffer, with its trailer. -/
theorem record_transmitted (harm : s.dev.fjlArmed p 2 = false) {r : LinkRecord}
    (hfind : (s.dev.link p).txQueue.find? (fun r => (s.dev.link p).startable.contains r) = some r) (hresync : (s.dev.link p).resync = false)
    (hroom : ((s.dev.link p).replay.map (fun x => recordBytes x.2.2)).foldl (· + ·) 0 + recordBytes r ≤ 65536)
    {seq : Nat} (hseq : seq = tabGet 0 (s.dev.link p).txSeq r.vc) : Yields (exec (.recordTransmit p) s) (fun t =>
      (t.dev.link p).txQueue = (s.dev.link p).txQueue.erase r ∧ tabGet 0 (t.dev.link p).txSeq r.vc = (seq + 1) % 4294967296 ∧
      (t.dev.link p).replay = (s.dev.link p).replay ++ [(r.vc, seq, { r with trailer := trailerOf seq (headerBytes r ++ r.payload) })]) := by
  have hbody : ∃ l, s.dev.transmitRecord p = s.dev.putLink p l ∧ l.txQueue = (s.dev.link p).txQueue.erase r ∧
      tabGet 0 l.txSeq r.vc = (seq + 1) % 4294967296 ∧
      l.replay = (s.dev.link p).replay ++ [(r.vc, seq, { r with trailer := trailerOf seq (headerBytes r ++ r.payload) })] := by
    unfold Dev.transmitRecord
    dsimp only
    rw [if_neg (by simp [h7, hresync]), hfind]
    dsimp only
    rw [if_neg (by omega), harm, ← hseq]
    exact ⟨_, rfl, rfl, tabGet_set_same _ _ _ _, rfl⟩
  obtain ⟨l, hbody, hqueue, hnext, hreplay⟩ := hbody
  refine run_body hd ((if_pos (port_reached hp hr)).trans hbody) ?_
  rw [link_given]
  exact ⟨hqueue, hnext, hreplay⟩

/-- SERVICE_ROW_TRANSMIT (R255, R275, R276). -/
theorem serviceRow_sent : Yields (exec (.serviceRowTransmit p) s) (fun t =>
    (t.dev.link p).rotation = ((s.dev.link p).rotation + 1) % 8 ∧ (t.dev.link p).resync = false ∧
    (t.dev.link p).lastRow.getD 1 0 = rotationVc (s.dev.link p).rotation ∧
    (t.dev.link p).lastRow.getD 2 0 = tabGet 0 (s.dev.link p).expSeq (rotationVc (s.dev.link p).rotation) ∧
    ((s.dev.link p).framingLost = true → (t.dev.link p).lastRow.getD 0 0 = 0x55) ∧
    ((s.dev.link p).framingLost = false → (s.dev.link p).cause ≠ 4 → (t.dev.link p).lastRow.getD 0 0 = 0x4B)) := by
  refine run_body hd ((if_pos (port_reached hp hr)).trans (if_neg (by simp [h7]))) ?_
  rw [link_given]
  refine ⟨rfl, rfl, rfl, rfl, fun hlost => if_pos ?_, fun hlost hcause => if_neg ?_⟩
  · simp [hlost]
  · simp [hlost, hcause]

/-! A received record (R264, R273 to R275). -/

/-- The link layer with the credits of a record taken. -/
def takeCredits (l : LinkPort) (vc n : Nat) : LinkPort := { l with rxUsed := tabSet 0 l.rxUsed vc (tabGet 0 l.rxUsed vc + recCredits n) }

section
variable (harm : ∀ m, s.dev.fjlArmed p m = false) {r : LinkRecord} (hvc : r.vc < 4) (hframed : (s.dev.link p).framingLost = false)
  (hfree : recCredits r.payload.length ≤ (s.dev.link p).rxFree (p = 4) r.vc)
include harm hvc hframed hfree

omit hd hp hr in
/-- What becomes of a record for which the port has room. -/
theorem recordIn_framed : s.dev.recordIn p r =
    if (r.trailer != trailerOf (tabGet 0 (s.dev.link p).expSeq r.vc) (headerBytes r ++ r.payload) || r.kind = 0 || 4096 < r.length || !r.padZero) then
      (s.dev.putLink p ((takeCredits (s.dev.link p) r.vc r.payload.length).free r.vc r.payload.length)).loseFraming p
        (if r.trailer != trailerOf (tabGet 0 (s.dev.link p).expSeq r.vc) (headerBytes r ++ r.payload) then 1 else 2)
    else if s.dev.headerOk p r then
      s.dev.putLink p { takeCredits (s.dev.link p) r.vc r.payload.length with
        expSeq := tabSet 0 (s.dev.link p).expSeq r.vc ((tabGet 0 (s.dev.link p).expSeq r.vc + 1) % 4294967296), losses := 0,
        held := (s.dev.link p).held ++ [r], inTime := (s.dev.link p).inTime ++ [s.dev.inWindow p r.frame] }
    else (s.dev.putLink p { takeCredits (s.dev.link p) r.vc r.payload.length with
        expSeq := tabSet 0 (s.dev.link p).expSeq r.vc ((tabGet 0 (s.dev.link p).expSeq r.vc + 1) % 4294967296), losses := 0 }).protocolError p := by
  unfold Dev.recordIn
  dsimp only
  rw [Nat.mod_eq_of_lt hvc, if_neg (by simp [h7, retrainNow_active h7]), if_neg (by simp [h7]), if_neg (by simp [hframed]),
    if_neg (by simp [harm]; omega), harm 1]
  simp only [Bool.or_false, Bool.false_eq_true, if_false]
  rfl

/-- A sound record that passes check 1 is held, with whether its frame's window was open. -/
theorem record_held (hgood : r.trailer = trailerOf (tabGet 0 (s.dev.link p).expSeq r.vc) (headerBytes r ++ r.payload)) (hkind : r.kind ≠ 0)
    (hlen : r.length ≤ 4096) (hpad : r.padZero = true) (hheader : s.dev.headerOk p r = true) : Yields (exec (.recordReceived p r) s) (fun t =>
      (t.dev.link p).held = (s.dev.link p).held ++ [r] ∧ (t.dev.link p).inTime = (s.dev.link p).inTime ++ [s.dev.inWindow p r.frame] ∧
      tabGet 0 (t.dev.link p).expSeq r.vc = (tabGet 0 (s.dev.link p).expSeq r.vc + 1) % 4294967296) := by
  have hsound : ¬ (r.trailer != trailerOf (tabGet 0 (s.dev.link p).expSeq r.vc) (headerBytes r ++ r.payload) || r.kind = 0 || 4096 < r.length ||
      !r.padZero) = true := by simp [← hgood, hkind, hlen, hpad]
  refine run_body hd ((if_pos (port_reached hp hr)).trans ((recordIn_framed h7 harm hvc hframed hfree).trans
    ((if_neg hsound).trans (if_pos hheader)))) ?_
  rw [link_given]
  exact ⟨rfl, rfl, tabGet_set_same _ _ _ _⟩

/-- A record with another trailer loses framing, and is not held. -/
theorem record_lost (hbad : r.trailer ≠ trailerOf (tabGet 0 (s.dev.link p).expSeq r.vc) (headerBytes r ++ r.payload))
    (hlosses : (s.dev.link p).losses + 1 < s.dev.retryMax p) : Yields (exec (.recordReceived p r) s) (fun t =>
      (t.dev.link p).framingLost = true ∧ (t.dev.link p).cause = 1 ∧ (t.dev.link p).held = (s.dev.link p).held) := by
  have hlost : (r.trailer != trailerOf (tabGet 0 (s.dev.link p).expSeq r.vc) (headerBytes r ++ r.payload)) = true := by simpa using hbad
  refine run_body hd ((if_pos (port_reached hp hr)).trans ((recordIn_framed h7 harm hvc hframed hfree).trans
    (if_pos (by rw [hlost]; rfl)))) ?_
  rw [hlost, if_pos rfl, link_runOn, loseFraming_link (by rw [link_putLink_same]; exact hlosses), link_putLink_same]
  exact ⟨rfl, rfl, rfl⟩

end

end

end Sys2Proof.Proofs.Scope
end

section
/-!
PROOF. What becomes of the records that a port holds (R140, R208, R271, R279, R280, Table 08.8).
-/

namespace Sys2Proof.Proofs.Scope

open Sys2Proof.Machine Sys2Proof.Laws

variable {s : State} {d : Dev} {p : Nat}

/-! A held record is taken off; its consumer, or the count of its drop, leaves the links as they are. -/

theorem unhold_link (d : Dev) (p : Nat) (r : LinkRecord) (free : Bool) :
    ((d.unhold p r free).link p).held = (d.link p).held.erase r ∧ ((d.unhold p r free).link p).deliver = (d.link p).deliver := by
  unfold Dev.unhold
  dsimp only
  rw [link_putLink_same]
  cases free <;> exact ⟨rfl, rfl⟩

theorem accepted_link (d : Dev) (p n : Nat) :
    ((d.accepted p n).link p).held = (d.link p).held ∧ ((d.accepted p n).link p).deliver = (d.link p).deliver := by
  unfold Dev.accepted
  dsimp only
  rw [link_putLink_same]
  exact ⟨rfl, rfl⟩

theorem seqTensor_links (d : Dev) (p watch k : Nat) : (d.seqTensor p watch k).links = d.links := by
  refine foldl_leaves Dev.links _ (fun d w => ?_) _ d
  split <;> rfl

theorem seqHeartbeat_links (d : Dev) (w k counter : Nat) : (d.seqHeartbeat w k counter).links = d.links := by
  have hinjected (c : Prop) [Decidable c] : (if c then d.sigDisarm else d).links = d.links := ite_leaves Dev.links rfl rfl
  exact hinjected _

theorem checkinFjl_links (d : Dev) (p w task : Nat) : (d.checkinFjl p w task).links = d.links :=
  ite_leaves Dev.links (congrArg Prod.fst (intake_checkIn d w task)) rfl

theorem windowDrop_links (d : Dev) (p : Nat) : (d.windowDrop p).links = d.links := (raise_raises _ _ _).links

theorem strayDrop_links (d : Dev) (p : Nat) : (d.strayDrop p).links = d.links := (raise_raises _ _ _).links

/-- A drop counts in its counter. -/
theorem windowDrop_counts (hp : p < 4) (d : Dev) : (d.windowDrop p).fld (FJL.P_DROP_WINDOW p) =
    satAdd (2 ^ (FJL.P_DROP_WINDOW p).width - 1) (d.fld (FJL.P_DROP_WINDOW p)) 1 % 2 ^ (FJL.P_DROP_WINDOW p).width :=
  ((raise_raises _ _ _).regs _ (port_outside hp (by simp)).2).trans (Dev.fld_put_same _ _ _)

theorem strayDrop_counts (hp : p < 4) (d : Dev) : (d.strayDrop p).fld (FJL.P_DROP_STRAY p) =
    satAdd (2 ^ (FJL.P_DROP_STRAY p).width - 1) (d.fld (FJL.P_DROP_STRAY p)) 1 % 2 ^ (FJL.P_DROP_STRAY p).width :=
  ((raise_raises _ _ _).regs _ (port_outside hp (by simp)).2).trans (Dev.fld_put_same _ _ _)

/-! DATA (R279). -/

section
variable {vc : Nat} {r : LinkRecord} (hheld : d.heldRec p vc 1 = some r)
include hheld

theorem dataIn_untimely (ht : d.timely p r = false) : d.dataIn p vc = (d.unhold p r true).windowDrop p := by
  unfold Dev.dataIn
  rw [hheld]
  exact if_pos (by simp [ht])

theorem dataIn_stray (ht : d.timely p r = true) (hw : (d.namedWatch p r.watch r.frame && d.takesData r.watch vc r.frame) = false) :
    d.dataIn p vc = (d.unhold p r true).strayDrop p := by
  unfold Dev.dataIn
  rw [hheld]
  refine (if_neg (by simp [ht])).trans (if_pos ?_)
  rw [← Bool.not_and, hw]
  rfl

/-- A timely record of a watch that takes it goes to its consumer. -/
theorem dataIn_delivers (ht : d.timely p r = true) (hw : (d.namedWatch p r.watch r.frame && d.takesData r.watch vc r.frame) = true) :
    ((d.dataIn p vc).link p).held = (d.link p).held.erase r ∧ ((d.dataIn p vc).link p).deliver = (d.link p).deliver ++ [r] := by
  unfold Dev.dataIn
  rw [hheld]
  dsimp only
  rw [if_neg (by simp [ht]), if_neg (by rw [← Bool.not_and, hw]; decide)]
  obtain ⟨hrest, hqueue⟩ := unhold_link d p r false
  obtain ⟨hsame, hdeliver⟩ := accepted_link (d.unhold p r false) p r.payload.length
  generalize (d.unhold p r false).accepted p r.payload.length = e at hsame hdeliver ⊢
  have hlink : (if vc = 0 then (e.putLink p { e.link p with deliver := (e.link p).deliver ++ [r] }).seqTensor p r.watch r.frame
      else e.putLink p { e.link p with deliver := (e.link p).deliver ++ [r] }).link p = { e.link p with deliver := (e.link p).deliver ++ [r] } :=
    (ite_leaves (Dev.link · p) (link_congr (seqTensor_links _ _ _ _) p) rfl).trans (link_putLink_same e p _)
  rw [hlink]
  exact ⟨hsame.trans hrest, congrArg (· ++ [r]) (hdeliver.trans hqueue)⟩

end

/-! IDENT_RSP (R271). -/

/-- The words of IDENT_RSP with their registers. -/
def identFields (p : Nat) (payload : List Byte) : List (Fld × Nat) := (List.range 16).map (fun j => (FJL.P_IDENT_IDENT p j, leAt payload (4 * j) 4))

theorem identFields_apart : ∀ p < 4, (((List.range 16).map (FJL.P_IDENT_IDENT p)).map Fld.key).Nodup ∧
    ∀ j < 16, (FJL.P_IDENT_IDENT p j).key ∉ safeKeys := by decide

theorem leAt_lt (bs : List Byte) (off n : Nat) : leAt bs off n < 256 ^ n :=
  lt_of_lt_of_le (leNat_lt _) (Nat.pow_le_pow_right (by decide) (List.length_take_le n _))

theorem putEach_links (d : Dev) (l : List (Fld × Nat)) : (putEach d l).links = d.links := by
  have h := congrArg Dev.links (putEach_regs l d)
  exact h

/-! The commands. -/

section
variable (hd : s.dev.dead = false) (hp : p < 4) {r : LinkRecord}
include hd hp

/-- DATA goes to its watch, or is dropped and counted. -/
theorem data_routed {vc : Nat} (hvc : vc = 0 ∨ vc = 2) (hheld : s.dev.heldRec p vc 1 = some r) : Yields (exec (.data p vc) s) (fun t =>
    (t.dev.link p).held = (s.dev.link p).held.erase r ∧
    (s.dev.timely p r = false → t.dev.fld (FJL.P_DROP_WINDOW p) =
      satAdd (2 ^ (FJL.P_DROP_WINDOW p).width - 1) (s.dev.fld (FJL.P_DROP_WINDOW p)) 1 % 2 ^ (FJL.P_DROP_WINDOW p).width ∧
      (t.dev.link p).deliver = (s.dev.link p).deliver) ∧
    (s.dev.timely p r = true →
      ((s.dev.namedWatch p r.watch r.frame && s.dev.takesData r.watch vc r.frame) = true →
        (t.dev.link p).deliver = (s.dev.link p).deliver ++ [r]) ∧
      ((s.dev.namedWatch p r.watch r.frame && s.dev.takesData r.watch vc r.frame) = false →
        (t.dev.link p).deliver = (s.dev.link p).deliver ∧ t.dev.fld (FJL.P_DROP_STRAY p) =
          satAdd (2 ^ (FJL.P_DROP_STRAY p).width - 1) (s.dev.fld (FJL.P_DROP_STRAY p)) 1 % 2 ^ (FJL.P_DROP_STRAY p).width))) := by
  obtain ⟨hrest, hqueue⟩ := unhold_link s.dev p r true
  have hguard : (decide (p < 4) && (decide (vc = 0) || decide (vc = 2))) = true := by simp [hp, hvc]
  cases ht : s.dev.timely p r with
  | false =>
    have hlink := link_congr (windowDrop_links (s.dev.unhold p r true) p) p
    refine run_body hd ((if_pos hguard).trans (dataIn_untimely hheld ht)) ⟨?_, fun _ => ⟨?_, ?_⟩, fun h => absurd h (by decide)⟩
    · rw [link_runOn, hlink, hrest]
    · exact (port_runOn s hp (by simp)).trans (windowDrop_counts hp _)
    · rw [link_runOn, hlink, hqueue]
  | true =>
    cases hw : s.dev.namedWatch p r.watch r.frame && s.dev.takesData r.watch vc r.frame with
    | false =>
      have hlink := link_congr (strayDrop_links (s.dev.unhold p r true) p) p
      refine run_body hd ((if_pos hguard).trans (dataIn_stray hheld ht hw))
        ⟨?_, fun h => absurd h (by decide), fun _ => ⟨fun h => absurd h (by decide), fun _ => ⟨?_, ?_⟩⟩⟩
      · rw [link_runOn, hlink, hrest]
      · rw [link_runOn, hlink, hqueue]
      · exact (port_runOn s hp (by simp)).trans (strayDrop_counts hp _)
    | true =>
      obtain ⟨hheldRest, hdelivered⟩ := dataIn_delivers hheld ht hw
      refine run_body hd (if_pos hguard) ⟨?_, fun h => absurd h (by decide), fun _ => ⟨fun _ => ?_, fun h => absurd h (by decide)⟩⟩
      · rw [link_runOn, hheldRest]
      · rw [link_runOn, hdelivered]

omit hp in
/-- A command that takes a held record off, whatever else it does beside the links. -/
theorem used_yields {f : Mem → Dev → Dev} (h : (f s.mem s.dev).links = (s.dev.unhold p r true).links) :
    Yields (run s f) (fun t => (t.dev.link p).held = (s.dev.link p).held.erase r) :=
  run_yields hd (by rw [link_runOn, link_congr h p, (unhold_link s.dev p r true).1])

/-- HEARTBEAT is used up (R140). -/
theorem heartbeat_used (hheld : s.dev.heldRec p 1 0x12 = some r) : Yields (exec (.heartbeat p) s) (fun t =>
    (t.dev.link p).held = (s.dev.link p).held.erase r) := by
  refine used_yields hd ((congrArg Dev.links (if_pos hp)).trans ?_)
  unfold Dev.heartbeatIn
  rw [hheld]
  exact ite_leaves Dev.links (windowDrop_links _ p) (ite_leaves Dev.links (strayDrop_links _ p) (seqHeartbeat_links _ _ _ _))

/-- CHECKIN is used up (R208). -/
theorem checkin_used (hheld : s.dev.heldRec p 1 0x13 = some r) : Yields (exec (.checkin p) s) (fun t =>
    (t.dev.link p).held = (s.dev.link p).held.erase r) := by
  refine used_yields hd ((congrArg Dev.links (if_pos hp)).trans ?_)
  unfold Dev.checkinIn
  rw [hheld]
  exact checkinFjl_links _ _ _ _

/-- IDENT_RSP fills the 16 words (R271). -/
theorem identRsp_fills (hheld : s.dev.heldRec p 3 0x21 = some r) : Yields (exec (.identRsp p) s) (fun t =>
    (t.dev.link p).held = (s.dev.link p).held.erase r ∧ ∀ j, j < 16 → t.dev.fld (FJL.P_IDENT_IDENT p j) = leAt r.payload (4 * j) 4) := by
  obtain ⟨hapart, hsafe⟩ := identFields_apart p hp
  have hbody : s.dev.identIn p = putEach ((s.dev.unhold p r true).accepted p r.payload.length) (identFields p r.payload) := by
    unfold Dev.identIn putEach identFields
    rw [hheld, List.foldl_map]
  refine run_body hd ((if_pos hp).trans hbody) ⟨?_, fun j hj => ?_⟩
  · rw [link_runOn, link_congr (putEach_links _ _) p, (accepted_link _ p _).1, (unhold_link s.dev p r true).1]
  · have hmem : (FJL.P_IDENT_IDENT p j, leAt r.payload (4 * j) 4) ∈ identFields p r.payload := List.mem_map.mpr ⟨j, List.mem_range.mpr hj, rfl⟩
    have hnodup : ((identFields p r.payload).map (fun q => q.1.key)).Nodup := by
      rw [identFields, List.map_map]
      rwa [List.map_map] at hapart
    exact (runOn_fld s _ (hsafe j hj)).trans ((putEach_value hnodup hmem _).trans (Nat.mod_eq_of_lt (leAt_lt _ _ 4)))

/-- PEER_ALERT is kept with its cause (R271, R283). -/
theorem peerAlert_kept (hheld : s.dev.heldRec p 3 0x22 = some r) (ht : s.dev.timely p r = true) : Yields (exec (.peerAlert p) s) (fun t =>
    t.dev.on (FJL.P_PEER_VALID p) = true ∧ t.dev.fld (FJL.P_PEER_CODE p) = r.arg % 65536 ∧ tabGet false t.dev.snag.cause (376 + p) = true) := by
  have hapart : (FJL.P_PEER_VALID p).key ≠ (FJL.P_PEER_CODE p).key := by simp [Fld.key, FJL.P_PEER_VALID, FJL.P_PEER_CODE]
  have hbody : s.dev.alertIn p = ((((s.dev.unhold p r true).accepted p r.payload.length).flag (FJL.P_PEER_VALID p) true).put (FJL.P_PEER_CODE p)
      (r.arg % 65536)).raiseCause (linkDie p) (376 + p) := by
    unfold Dev.alertIn
    rw [hheld]
    exact if_neg (by simp [ht])
  generalize (s.dev.unhold p r true).accepted p r.payload.length = e at hbody
  have hvalid : ((e.flag (FJL.P_PEER_VALID p) true).put (FJL.P_PEER_CODE p) (r.arg % 65536)).on (FJL.P_PEER_VALID p) = true :=
    (Dev.on_put_other _ _ hapart).trans (Dev.on_flag_same _ _ _)
  have hcode : ((e.flag (FJL.P_PEER_VALID p) true).put (FJL.P_PEER_CODE p) (r.arg % 65536)).fld (FJL.P_PEER_CODE p) = r.arg % 65536 :=
    (Dev.fld_put_same _ _ _).trans (Nat.mod_mod _ _)
  generalize (e.flag (FJL.P_PEER_VALID p) true).put (FJL.P_PEER_CODE p) (r.arg % 65536) = x at hbody hvalid hcode
  have hkept {f : Fld} (hf : f ∈ portFlds p) : (x.raiseCause (linkDie p) (376 + p)).fld f = x.fld f :=
    (Dev.fld_cause _ _ _ f).trans ((raise_raises x _ _).regs f (port_outside hp hf).2)
  refine run_body hd ((if_pos hp).trans hbody) ⟨?_, ?_, ?_⟩
  · exact (Dev.on_fld ((port_runOn s hp (by simp)).trans (hkept (by simp)))).trans hvalid
  · exact (port_runOn s hp (by simp)).trans ((hkept (by simp)).trans hcode)
  · rw [runOn_snag_cause]
    exact cause_same _ _ _

end

/-- Settles O29: each command by the case of its operation that the clause names, and what that case leaves of the link layer. -/
theorem linkRecordsAreSequencedCheckedAndRouted : Obligations.LinkRecordsAreSequencedCheckedAndRouted := by
  unfold Obligations.LinkRecordsAreSequencedCheckedAndRouted
  intro s p hd hm hp h7
  refine ⟨fun vc hvc => ⟨credit_limits hd hm hp h7 hvc, fun next resync => ⟨fun k hk => ⟨ack_frees hd hm hp h7 hvc hk resync,
      fun cause hcause => ⟨nack_replays hd hp h7 hvc hk hcause resync, nack_waits hd hp h7 hvc hk hcause resync⟩⟩,
      fun hno => ⟨ack_uncovered hd hp h7 hvc hno resync, fun cause hcause => nack_uncovered hd hp h7 hvc hno hcause resync⟩⟩⟩,
    fun hp4 epoch resync => ⟨mark_otherEpoch hd hp4 h7 resync, mark_ownEpoch hd hp4 h7 resync⟩,
    fun hr harm => ⟨fun r hfind hresync hroom seq hseq => record_transmitted hd hp hr h7 (harm 2) hfind hresync hroom hseq,
      serviceRow_sent hd hp hr h7, ?_⟩,
    fun hp4 => ⟨fun vc r => data_routed hd hp4, fun r => heartbeat_used hd hp4, fun r => checkin_used hd hp4, fun r => identRsp_fills hd hp4,
      fun r => peerAlert_kept hd hp4⟩⟩
  rintro r hvc hframed hfree good rfl
  exact ⟨record_held hd hp hr h7 harm hvc hframed hfree, record_lost hd hp hr h7 harm hvc hframed hfree⟩

end Sys2Proof.Proofs.Scope
end

section
/-!
PROOF. The locks of the TDM ports, and the enabling and disabling of a port (R291, R294, R313, R317).
-/

namespace Sys2Proof.Proofs.Scope

open Sys2Proof.Machine Sys2Proof.Laws

/-! A step of a fold that stands for one member alone. -/

theorem foldl_leaves_mem {α β : Type} (part : Dev → β) (g : Dev → α → Dev) (l : List α) (hg : ∀ d, ∀ a ∈ l, part (g d a) = part d) (d : Dev) :
    part (l.foldl g d) = part d := by
  induction l generalizing d with
  | nil => rfl
  | cons a l ih => exact (ih (fun d b hb => hg d b (List.mem_cons_of_mem _ hb)) _).trans (hg d a List.mem_cons_self)

/-- A part of the device that only the step of one member of the list moves is, after the fold, as that step leaves it. -/
theorem foldl_at {α β : Type} (part : Dev → β) (g : Dev → α → Dev) {l : List α} (hn : l.Nodup) {a : α} (ha : a ∈ l)
    (hg : ∀ d, ∀ b ∈ l, b ≠ a → part (g d b) = part d) (d : Dev) : ∃ e, part e = part d ∧ part (l.foldl g d) = part (g e a) := by
  induction l generalizing d with
  | nil => cases ha
  | cons b l ih =>
    obtain ⟨hb, hn⟩ := List.nodup_cons.mp hn
    have hrest : ∀ d, ∀ c ∈ l, c ≠ a → part (g d c) = part d := fun d c hc => hg d c (List.mem_cons_of_mem _ hc)
    by_cases hab : b = a
    · subst hab
      exact ⟨d, rfl, foldl_leaves_mem part g l (fun d c hc => hrest d c hc (fun h => hb (h ▸ hc))) _⟩
    · obtain ⟨e, he, hlast⟩ := ih hn ((List.mem_cons.mp ha).resolve_left (Ne.symm hab)) hrest (g d b)
      exact ⟨e, he.trans (hg d b List.mem_cons_self hab), hlast⟩

/-! PORT_EN has a bit for each port. -/

theorem bit_add_two_pow {v p : Nat} (h : bit v p = false) (q : Nat) : bit (v + 2 ^ p) q = (q == p || bit v q) := by
  have hlow : v % 2 ^ p < 2 ^ p := Nat.mod_lt v (Nat.two_pow_pos p)
  have heven : v / 2 ^ p % 2 ≠ 1 := beq_eq_false_iff_ne.mp h
  have hadd : v + 2 ^ p = 2 ^ p * (v / 2 ^ p + 1) + v % 2 ^ p := by rw [Nat.mul_add, Nat.add_right_comm, Nat.div_add_mod, Nat.mul_one]
  have hv : bit v q = (2 ^ p * (v / 2 ^ p) + v % 2 ^ p).testBit q := by rw [Nat.div_add_mod, bit_eq_testBit]
  rw [hv, hadd, bit_eq_testBit, Nat.testBit_two_pow_mul_add _ hlow, Nat.testBit_two_pow_mul_add _ hlow]
  by_cases hlt : q < p
  · simp [hlt, hlt.ne]
  · obtain ⟨k, rfl⟩ := Nat.exists_eq_add_of_le (Nat.le_of_not_lt hlt)
    simp only [Nat.not_lt.mpr (Nat.le_add_right p k), if_false, Nat.add_sub_cancel_left]
    cases k with
    | zero => simp [Nat.testBit_zero]; omega
    | succ k =>
      rw [Nat.testBit_succ, Nat.testBit_succ, show (v / 2 ^ p + 1) / 2 = v / 2 ^ p / 2 by omega]
      simp

variable {s : State} {d e : Dev} {p q : Nat} {b : Bool}

/-- PORT_EN as a command that changes the bit of one port writes it. -/
theorem bit_sgtEnBit (h : d.tdmEn p = !b) (q : Nat) : bit (d.sgtEnBit p b) q = if q = p then b else d.tdmEn q := by
  unfold Dev.tdmEn at h
  unfold Dev.sgtEnBit Dev.tdmEn
  generalize d.fld SGT.CTRL_PORT_EN = v at h ⊢
  cases b with
  | true =>
    have hset : bit v p = false := h
    simp only [hset, Bool.false_eq_true, if_false, if_true, bit_add_two_pow hset]
    by_cases hq : q = p <;> simp [hq]
  | false =>
    have hset : bit v p = true := h
    have hle : 2 ^ p ≤ v := Nat.le_of_not_lt (fun hlt => by simp [bit, Nat.div_eq_of_lt hlt] at hset)
    have hclear : bit (v - 2 ^ p) p = false := by
      have hbit := bit_cleared v p (p + 1)
      rwa [if_pos hset, bit_eq_testBit, Nat.testBit_mod_two_pow, decide_eq_true (Nat.lt_succ_self p), Bool.true_and, ← bit_eq_testBit] at hbit
    have hback := bit_add_two_pow hclear q
    rw [Nat.sub_add_cancel hle] at hback
    simp only [hset, Bool.true_eq_false, Bool.false_eq_true, if_false]
    by_cases hq : q = p
    · simp [hq, hclear]
    · simp [hq, hback]

theorem tdmEn_fld (h : e.fld SGT.CTRL_PORT_EN = d.fld SGT.CTRL_PORT_EN) (q : Nat) : e.tdmEn q = d.tdmEn q := by simp only [Dev.tdmEn, h]

/-! The locks that SGT_P_STAT shows. -/

/-- What the lock of a port that does not follow another turns on. -/
abbrev lockFlds (p : Nat) : List Fld := [SGT.CTRL_PORT_EN, SGT.P_CFG_CLK p, SGT.P_STAT_LOCKED p]

theorem lockFlds_outside : ∀ p < 6, ∀ f ∈ lockFlds p, f.key ∉ safeKeys ∧ f.key ∉ raiseKeys := by decide

theorem ownLock_congr (h : ∀ f ∈ lockFlds p, e.fld f = d.fld f) : e.ownLock p = d.ownLock p := by
  simp only [List.forall_mem_cons] at h
  obtain ⟨hen, hclk, hlocked, -⟩ := h
  simp only [Dev.ownLock, Dev.tdmEn, Dev.on, hen, hclk, hlocked]

/-- A port that does not follow another, or is disabled, is locked by itself. -/
theorem portLocked_own (h : d.fld (SGT.P_CFG_CLK p) ≠ 2 ∨ d.tdmEn p = false) : d.portLocked p = d.ownLock p := by
  unfold Dev.portLocked
  split
  next hclk => simp [Dev.ownLock, h.resolve_left (fun hne => hne hclk)]
  next => rfl

theorem showLocks_fld (d : Dev) {f : Fld} (hf : ∀ q, f.key ≠ (SGT.P_STAT_LOCKED q).key) : d.showLocks.fld f = d.fld f :=
  foldl_leaves (fun e => e.fld f) _ (fun _ q => Dev.fld_flag_other _ _ (hf q)) _ d

@[simp] theorem showLocks_gate (d : Dev) : d.showLocks.gate = d.gate := by
  unfold Dev.showLocks
  exact foldl_leaves Dev.gate (fun e q => e.flag (SGT.P_STAT_LOCKED q) (e.portLocked q)) (fun _ _ => rfl) _ d

@[simp] theorem showLocks_snag (d : Dev) : d.showLocks.snag = d.snag := by
  unfold Dev.showLocks
  exact foldl_leaves Dev.snag (fun e q => e.flag (SGT.P_STAT_LOCKED q) (e.portLocked q)) (fun _ _ => rfl) _ d

theorem locked_key_ne (h : q ≠ p) : (SGT.P_STAT_LOCKED q).key ≠ (SGT.P_STAT_LOCKED p).key := by
  simp only [Fld.key, SGT.P_STAT_LOCKED, SGT.P_STAT]
  omega

theorem clk_apart (p q : Nat) : (SGT.P_CFG_CLK p).key ≠ (SGT.P_STAT_LOCKED q).key := by
  simp only [Fld.key, SGT.P_CFG_CLK, SGT.P_STAT_LOCKED, SGT.P_STAT, SGT.P_CFG]
  omega

theorem en_apart (q : Nat) : SGT.CTRL_PORT_EN.key ≠ (SGT.P_STAT_LOCKED q).key := by
  simp only [Fld.key, SGT.CTRL_PORT_EN, SGT.P_STAT_LOCKED, SGT.P_STAT]
  omega

theorem showLocks_locked (hp : p < 6) (hclk : d.fld (SGT.P_CFG_CLK p) ≠ 2 ∨ d.tdmEn p = false) :
    d.showLocks.on (SGT.P_STAT_LOCKED p) = d.ownLock p := by
  obtain ⟨e, he, hlast⟩ := foldl_at (fun e : Dev => (e.fld SGT.CTRL_PORT_EN, e.fld (SGT.P_CFG_CLK p), e.fld (SGT.P_STAT_LOCKED p)))
    (fun d q => d.flag (SGT.P_STAT_LOCKED q) (d.portLocked q)) (List.nodup_range (n := 6)) (List.mem_range.mpr hp)
    (fun d q _ hq => by
      rw [Dev.fld_flag_other _ _ (en_apart q), Dev.fld_flag_other _ _ (clk_apart p q), Dev.fld_flag_other _ _ (locked_key_ne hq.symm)]) d
  simp only [Prod.mk.injEq] at he hlast
  obtain ⟨hen, hclock, hown⟩ := he
  obtain ⟨-, -, hshown⟩ := hlast
  calc d.showLocks.on (SGT.P_STAT_LOCKED p)
      = (e.flag (SGT.P_STAT_LOCKED p) (e.portLocked p)).on (SGT.P_STAT_LOCKED p) := Dev.on_fld hshown
    _ = e.portLocked p := Dev.on_flag_same _ _ _
    _ = e.ownLock p := portLocked_own (by rwa [hclock, tdmEn_fld hen])
    _ = d.ownLock p := ownLock_congr (by simp only [List.forall_mem_cons, hen, hclock, hown]; simp)

/-! A command that changes the bit of one port. -/

/-- The device with one port enabled or disabled, before the locks are shown. -/
def switched (d : Dev) (p : Nat) (b : Bool) : Dev :=
  if b then (d.put SGT.CTRL_PORT_EN (d.sgtEnBit p b)).portEnable p else (d.put SGT.CTRL_PORT_EN (d.sgtEnBit p b)).portDisable p

theorem sgtCtrlWrite_switches (hp : p < 6) (h : d.tdmEn p = !b) : d.sgtCtrlWrite (d.sgtEnBit p b) = (switched d p b).showLocks.answer .done := by
  have hstep : ∀ e : Dev, ∀ q ∈ List.range 6, (if bit (d.sgtEnBit p b) q = d.tdmEn q then e
      else if bit (d.sgtEnBit p b) q then e.portEnable q else e.portDisable q) =
      if q = p then (if b then e.portEnable q else e.portDisable q) else e := by
    intro e q _
    rw [bit_sgtEnBit h]
    by_cases hq : q = p
    · subst hq
      simp [h]
    · simp [hq]
  unfold Dev.sgtCtrlWrite switched
  dsimp only
  rw [List.foldl_ext _ _ _ hstep, foldl_range_single (fun (e : Dev) q => if b then e.portEnable q else e.portDisable q), if_pos hp]

theorem portEnable_fld (d : Dev) {f : Fld} (h : f.key ≠ (SGT.P_STAT_LOCKED p).key) : (d.portEnable p).fld f = d.fld f :=
  Dev.fld_flag_other _ _ h

theorem portDisable_regs (d : Dev) (p : Nat) : (d.portDisable p).regs =
    (((d.flag (SGT.P_STAT_LOCKED p) false).flag (SGT.P_STAT_VALID p) false).flag (SGT.P_STAT_MUTED p) true).regs := rfl

theorem portDisable_fld (d : Dev) {f : Fld} (hl : f.key ≠ (SGT.P_STAT_LOCKED p).key) (hv : f.key ≠ (SGT.P_STAT_VALID p).key)
    (hm : f.key ≠ (SGT.P_STAT_MUTED p).key) : (d.portDisable p).fld f = d.fld f :=
  (Dev.fld_regs (portDisable_regs d p) f).trans
    ((Dev.fld_flag_other _ _ hm).trans ((Dev.fld_flag_other _ _ hv).trans (Dev.fld_flag_other _ _ hl)))

/-- LOCKED, VALID and MUTED of a port stand at places of their own. -/
theorem shown_apart (p : Nat) : (SGT.P_STAT_LOCKED p).key ≠ (SGT.P_STAT_VALID p).key ∧ (SGT.P_STAT_LOCKED p).key ≠ (SGT.P_STAT_MUTED p).key ∧
    (SGT.P_STAT_VALID p).key ≠ (SGT.P_STAT_MUTED p).key := by
  simp only [Fld.key, SGT.P_STAT_LOCKED, SGT.P_STAT_VALID, SGT.P_STAT_MUTED]
  omega

theorem portDisable_cause (d : Dev) (p : Nat) : tabGet false (d.portDisable p).snag.cause (384 + p) = false :=
  tabGet_set_same false d.snag.cause (384 + p) false

theorem switched_locked (d : Dev) (p : Nat) (b : Bool) : (switched d p b).on (SGT.P_STAT_LOCKED p) = false := by
  obtain ⟨hvalid, hmuted, -⟩ := shown_apart p
  cases b with
  | true => exact Dev.on_flag_same _ _ _
  | false =>
    exact (Dev.on_fld (Dev.fld_regs (portDisable_regs _ p) _)).trans <| (Dev.on_flag_other _ _ hmuted).trans ((Dev.on_flag_other _ _ hvalid).trans (Dev.on_flag_same _ _ _))

theorem switched_measured (d : Dev) (p : Nat) (b : Bool) : ((switched d p b).tdm p).measured = 0 := by
  cases b <;> exact congrArg TdmPort.measured (tdm_putTdm_same _ _ _)

theorem switched_tdmEn (h : d.tdmEn p = !b) (hq : q < 6) : (switched d p b).tdmEn q = if q = p then b else d.tdmEn q := by
  have hen : (switched d p b).fld SGT.CTRL_PORT_EN = d.sgtEnBit p b % 2 ^ 6 := by
    refine Eq.trans ?_ (Dev.fld_put_same d SGT.CTRL_PORT_EN (d.sgtEnBit p b))
    cases b with
    | true => exact portEnable_fld _ (en_apart p)
    | false =>
      refine portDisable_fld _ (en_apart p) ?_ ?_
      · simp only [Fld.key, SGT.CTRL_PORT_EN, SGT.P_STAT_VALID]
        omega
      · simp only [Fld.key, SGT.CTRL_PORT_EN, SGT.P_STAT_MUTED]
        omega
  have hbit : bit (d.sgtEnBit p b % 2 ^ 6) q = bit (d.sgtEnBit p b) q := by
    rw [bit_eq_testBit, bit_eq_testBit, Nat.testBit_mod_two_pow, decide_eq_true hq, Bool.true_and]
  rw [Dev.tdmEn, hen, hbit, bit_sgtEnBit h]

theorem switched_clk (d : Dev) (p : Nat) (b : Bool) : (switched d p b).fld (SGT.P_CFG_CLK p) = d.fld (SGT.P_CFG_CLK p) := by
  have hput : (d.put SGT.CTRL_PORT_EN (d.sgtEnBit p b)).fld (SGT.P_CFG_CLK p) = d.fld (SGT.P_CFG_CLK p) := by
    refine Dev.fld_put_other _ _ ?_
    simp only [Fld.key, SGT.CTRL_PORT_EN, SGT.P_CFG_CLK]
    omega
  refine Eq.trans ?_ hput
  cases b with
  | true => exact portEnable_fld _ (clk_apart p p)
  | false =>
    refine portDisable_fld _ (clk_apart p p) ?_ ?_
    · simp only [Fld.key, SGT.P_CFG_CLK, SGT.P_STAT_VALID]
      omega
    · simp only [Fld.key, SGT.P_CFG_CLK, SGT.P_STAT_MUTED]
      omega

theorem lock_runOn (s : State) (hp : p < 6) {f : Fld} (hf : f ∈ lockFlds p) : (runOn s (fun _ _ => e)).dev.fld f = e.fld f :=
  runOn_fld s _ (lockFlds_outside p hp f hf).1

/-- What a command that changes the bit of one port leaves of the ports; the rest of its claim is shown of the state it leaves. -/
theorem switch_yields {P : State → Prop} (hd : s.dev.dead = false) (hp : p < 6) (h : s.dev.tdmEn p = !b)
    (hP : P (runOn s fun _ _ => (switched s.dev p b).showLocks.answer .done)) :
    Yields (run s fun _ d => if p < 6 then d.sgtCtrlWrite (d.sgtEnBit p b) else d) (fun t =>
      t.dev.tdmEn p = b ∧ (∀ q, q < 6 → q ≠ p → t.dev.tdmEn q = s.dev.tdmEn q) ∧ (t.dev.tdm p).measured = 0 ∧ t.dev.resp = .done ∧ P t) := by
  have hen (q : Nat) (hq : q < 6) :
      (runOn s fun _ _ => (switched s.dev p b).showLocks.answer .done).dev.tdmEn q = if q = p then b else s.dev.tdmEn q := by
    have hkept : (runOn s fun _ _ => (switched s.dev p b).showLocks.answer .done).dev.fld SGT.CTRL_PORT_EN =
        (switched s.dev p b).fld SGT.CTRL_PORT_EN :=
      (lock_runOn s hp (f := SGT.CTRL_PORT_EN) (by simp)).trans ((Dev.fld_answer _ _ _).trans (showLocks_fld _ en_apart))
    exact (tdmEn_fld hkept q).trans (switched_tdmEn h hq)
  refine run_body hd ((if_pos hp).trans (sgtCtrlWrite_switches hp h)) ⟨?_, fun q hq hne => ?_, ?_, ?_, hP⟩
  · exact (hen p hp).trans (if_pos rfl)
  · exact (hen q hq).trans (if_neg hne)
  · rw [tdm_runOn, tdm_answer, tdm_congr (congrArg Gate.ports (showLocks_gate _)), switched_measured]
  · exact (runOn_resp _ _).trans (Dev.answer_resp _ _)

/-- LOCKED of the port after the command, where the port does not follow another or is disabled. -/
theorem switch_locked (s : State) (hp : p < 6) (h : s.dev.tdmEn p = !b) (hclk : s.dev.fld (SGT.P_CFG_CLK p) ≠ 2 ∨ b = false) :
    (runOn s fun _ _ => (switched s.dev p b).showLocks.answer .done).dev.on (SGT.P_STAT_LOCKED p) = (b && s.dev.fld (SGT.P_CFG_CLK p) == 0) := by
  have hen := (switched_tdmEn h hp).trans (if_pos rfl)
  have hown : (switched s.dev p b).ownLock p = (b && s.dev.fld (SGT.P_CFG_CLK p) == 0) := by
    simp [Dev.ownLock, hen, switched_clk, switched_locked]
  refine (Dev.on_fld (lock_runOn s hp (by simp))).trans ((Dev.on_answer _ _ _).trans ((showLocks_locked hp ?_).trans hown))
  rwa [switched_clk, hen]

end Sys2Proof.Proofs.Scope
end

section
/-!
PROOF. A silent port stays silent at the end of a command (R419, R420), and the loss of S_CORE silences every port (R444).
-/

namespace Sys2Proof.Proofs.Scope

open Sys2Proof.Machine Sys2Proof.Laws

/-- Port `p` shows VALID low and MUTE_n low. -/
def Silent (p : Nat) (d : Dev) : Prop := d.on (SGT.P_STAT_VALID p) = false ∧ d.on (SGT.P_STAT_MUTED p) = true

variable {s : State} {d e : Dev} {p : Nat}

theorem silent_congr (hv : e.fld (SGT.P_STAT_VALID p) = d.fld (SGT.P_STAT_VALID p)) (hm : e.fld (SGT.P_STAT_MUTED p) = d.fld (SGT.P_STAT_MUTED p))
    (h : Silent p d) : Silent p e := ⟨(Dev.on_fld hv).trans h.1, (Dev.on_fld hm).trans h.2⟩

theorem silent_answer (d : Dev) (r : Resp) : Silent p (d.answer r) ↔ Silent p d := Iff.rfl

theorem portDisable_silent (d : Dev) (p : Nat) : Silent p (d.portDisable p) := by
  obtain ⟨-, -, hvm⟩ := shown_apart p
  have hfld (f : Fld) := Dev.on_fld (Dev.fld_regs (portDisable_regs d p) f)
  exact ⟨(hfld _).trans ((Dev.on_flag_other _ _ hvm).trans (Dev.on_flag_same _ _ _)), (hfld _).trans (Dev.on_flag_same _ _ _)⟩

/-- Keys of SNG_FL_STAT but REACHABLE, and of what entry into the safe state changes: the pins of the ports are not among them. -/
abbrev linesKeys : List Nat :=
  [(lineFaultFld 0).key, (lineFaultFld 1).key, (lineFaultFld 2).key, (hbOkFld 0).key, (hbOkFld 1).key, (hbOkFld 2).key,
    (alarmFld 0).key, (alarmFld 1).key, (alarmFld 2).key] ++ enterKeys

theorem lines_apart : ∀ p < 6, (SGT.P_STAT_VALID p).key ∉ linesKeys ∧ (SGT.P_STAT_MUTED p).key ∉ linesKeys := by decide

theorem Silent.settles (hp : p < 6) (hs : Silent p d) (h : Settles linesKeys d e) : Silent p e := by
  obtain ⟨hvalid, hmuted⟩ := lines_apart p hp
  exact silent_congr (h.regs _ hvalid) (h.regs _ hmuted) hs

theorem lineExpire_lines (d : Dev) {i : Nat} (hi : i < 3) : Settles linesKeys d (d.lineExpire i) := by
  have hkeys : ∀ i < 3, (lineFaultFld i).key ∈ linesKeys ∧ (hbOkFld i).key ∈ linesKeys := by decide
  obtain ⟨hline, hbeat⟩ := hkeys i hi
  have hfault : Settles linesKeys d (if d.on (lineFaultFld i) && tabGet 0 d.snag.lineUntil i ≤ d.now then d.flag (lineFaultFld i) false else d) :=
    .ite (fun _ => (Settles.refl d).flag _ false hline) (fun _ => .refl d)
  unfold Dev.lineExpire
  generalize (if d.on (lineFaultFld i) && tabGet 0 d.snag.lineUntil i ≤ d.now then d.flag (lineFaultFld i) false else d) = e at hfault ⊢
  exact .ite (fun _ => (hfault.flag _ true hbeat).snag _ e.snag.lastSev e.snag.resumePending e.snag.hbLevel e.snag.refused) (fun _ => hfault)

theorem setAlarms_lines (d : Dev) : Settles linesKeys d d.setAlarms :=
  (((((lineExpire_lines d (by decide)).trans (lineExpire_lines _ (by decide))).trans (lineExpire_lines _ (by decide))).flag (alarmFld 0) _
    (by decide)).flag (alarmFld 1) _ (by decide)).flag (alarmFld 2) _ (by decide)

theorem sevChange_lines (d : Dev) : Settles linesKeys d d.sevChange :=
  .ite (fun _ => .refl d) (fun _ => ((Settles.refl d).snag d.snag.hbUntil d.maxSev d.snag.resumePending d.snag.hbLevel d.snag.refused).trans
    (triggerStatus_settles (by decide) _ 3))

/-- The safe state's pins of any port leave a silent one silent. -/
theorem Silent.safePort (hs : Silent p d) (q : Nat) : Silent p (d.safePort q) := by
  obtain ⟨hv, hm⟩ := hs
  by_cases hq : q = p
  · subst hq
    obtain ⟨-, -, hvm⟩ := shown_apart q
    refine ⟨safePort_valid d q, ?_⟩
    have hlow : (d.flag (SGT.P_STAT_VALID q) false).on (SGT.P_STAT_MUTED q) = true := (Dev.on_flag_other _ _ hvm.symm).trans hm
    exact ite_leaves (fun e : Dev => e.on (SGT.P_STAT_MUTED q)) (Dev.on_flag_same _ _ _) hlow
  · refine ⟨(safePort_other d q ?_ ?_).trans hv, (safePort_other d q ?_ ?_).trans hm⟩
    all_goals
      simp only [Fld.key, SGT.P_STAT_VALID, SGT.P_STAT_MUTED, SGT.P_STAT]
      omega

theorem Silent.safePins (hp : p < 6) (hs : Silent p d) : Silent p d.safePins := by
  have hlow : Silent p (d.flag SNG.STAT_SAFE_OK false) := hs.settles hp ((Settles.refl d).flag _ false (by decide))
  have hpins : Silent p { d.flag SNG.STAT_SAFE_OK false with snag := { d.snag with hbLevel := false } } := hlow
  unfold Dev.safePins
  exact (((((hpins.safePort 0).safePort 1).safePort 2).safePort 3).safePort 4).safePort 5

/-- After a command a port is silent that its body leaves silent. -/
theorem silent_runOn (f : Mem → Dev → Dev) (hp : p < 6) (h : Silent p (f s.mem s.dev)) : Silent p (runOn s f).dev := by
  have hsettled : Silent p (f s.mem s.dev).settle := by
    rw [settle_tail]
    have hlines := (h.settles hp (setAlarms_lines _)).settles hp (sevChange_lines _)
    generalize (f s.mem s.dev).setAlarms.sevChange = e at hlines
    have hentered : Silent p (if e.safeCause && !e.on SNG.STAT_SAFE then e.enterSafe else e) := by
      split
      · exact hlines.settles hp ((enterSafe_settles e).mono (List.subset_append_right _ _))
      · exact hlines
    unfold settleTail
    dsimp only
    generalize (if e.safeCause && !e.on SNG.STAT_SAFE then e.enterSafe else e) = x at hentered
    have hpins : Silent p (if x.on SNG.STAT_SAFE then x.safePins else x) := by
      split
      · exact hentered.safePins hp
      · exact hentered
    generalize (if x.on SNG.STAT_SAFE then x.safePins else x) = y at hpins
    exact hpins
  unfold runOn
  dsimp only
  generalize (f s.mem s.dev).settle = y at hsettled
  exact hsettled

/-! The loss of S_CORE (R444). -/

/-- What the S_RC monitor forces of port `p`. -/
def portPins (p : Nat) (d : Dev) : Bool × Bool × Bool × TdmPort :=
  (d.on (SGT.P_STAT_VALID p), d.on (SGT.P_STAT_MUTED p), d.on (SGT.P_STAT_DRIVING p), d.tdm p)

/-- The device with a port forced low, as far as its registers go. -/
theorem forcePort_regs (paired : Bool) (d : Dev) (p : Nat) : (Dev.forcePort paired d p).regs =
    (if paired then ((d.flag (SGT.P_STAT_VALID p) false).flag (SGT.P_STAT_MUTED p) true).flag (SGT.P_STAT_DRIVING p) false
      else (d.flag (SGT.P_STAT_VALID p) false).flag (SGT.P_STAT_MUTED p) true).regs := by
  cases paired <;> rfl

theorem forcePort_fld (paired : Bool) (d : Dev) {p : Nat} {f : Fld} (hv : f.key ≠ (SGT.P_STAT_VALID p).key) (hm : f.key ≠ (SGT.P_STAT_MUTED p).key)
    (hd : f.key ≠ (SGT.P_STAT_DRIVING p).key) : (Dev.forcePort paired d p).fld f = d.fld f := by
  rw [Dev.fld_regs (forcePort_regs paired d p)]
  cases paired with
  | true => exact (Dev.fld_flag_other _ _ hd).trans ((Dev.fld_flag_other _ _ hm).trans (Dev.fld_flag_other _ _ hv))
  | false => exact (Dev.fld_flag_other _ _ hm).trans (Dev.fld_flag_other _ _ hv)

theorem forcePort_tdm (paired : Bool) (d : Dev) (p : Nat) : (Dev.forcePort paired d p).gate.ports =
    tabSet TdmPort.reset d.gate.ports p { d.tdm p with forcedLow := true } := by
  cases paired <;> rfl

theorem forcePort_other (paired : Bool) (d : Dev) {q : Nat} (h : q ≠ p) : portPins p (Dev.forcePort paired d q) = portPins p d := by
  have hkept (f : Fld) (hf : f ∈ [SGT.P_STAT_VALID p, SGT.P_STAT_MUTED p, SGT.P_STAT_DRIVING p]) : (Dev.forcePort paired d q).on f = d.on f := by
    simp only [List.mem_cons, List.not_mem_nil, or_false] at hf
    refine Dev.on_fld (forcePort_fld paired d ?_ ?_ ?_)
    all_goals
      rcases hf with rfl | rfl | rfl
      all_goals
        simp only [Fld.key, SGT.P_STAT_VALID, SGT.P_STAT_MUTED, SGT.P_STAT_DRIVING, SGT.P_STAT]
        omega
  have htdm : (Dev.forcePort paired d q).tdm p = d.tdm p := by
    rw [Dev.tdm, forcePort_tdm]
    exact tabGet_set_other _ _ _ h.symm
  simp only [portPins, hkept _ (by simp : SGT.P_STAT_VALID p ∈ _), hkept _ (by simp : SGT.P_STAT_MUTED p ∈ _),
    hkept _ (by simp : SGT.P_STAT_DRIVING p ∈ _), htdm]

/-- Port `p` is silent and its data low; in a paired device it does not drive. -/
def Forced (paired : Bool) (p : Nat) (d : Dev) : Prop :=
  Silent p d ∧ (d.tdm p).forcedLow = true ∧ (paired = true → d.on (SGT.P_STAT_DRIVING p) = false)

theorem Forced.congr {paired : Bool} (hf : Forced paired p d) (h : portPins p e = portPins p d) : Forced paired p e := by
  simp only [portPins, Prod.mk.injEq] at h
  obtain ⟨hvalid, hmuted, hdriving, htdm⟩ := h
  obtain ⟨⟨hv, hm⟩, hlow, hd⟩ := hf
  exact ⟨⟨hvalid.trans hv, hmuted.trans hm⟩, htdm ▸ hlow, fun h => hdriving.trans (hd h)⟩

theorem forcePort_forces (paired : Bool) (d : Dev) (p : Nat) : Forced paired p (Dev.forcePort paired d p) := by
  obtain ⟨-, -, hvm⟩ := shown_apart p
  have hdriving : (SGT.P_STAT_VALID p).key ≠ (SGT.P_STAT_DRIVING p).key ∧ (SGT.P_STAT_MUTED p).key ≠ (SGT.P_STAT_DRIVING p).key := by
    simp only [Fld.key, SGT.P_STAT_VALID, SGT.P_STAT_MUTED, SGT.P_STAT_DRIVING]
    omega
  obtain ⟨hvd, hmd⟩ := hdriving
  have hvalid : ((d.flag (SGT.P_STAT_VALID p) false).flag (SGT.P_STAT_MUTED p) true).on (SGT.P_STAT_VALID p) = false :=
    (Dev.on_flag_other _ _ hvm).trans (Dev.on_flag_same _ _ _)
  have hmuted : ((d.flag (SGT.P_STAT_VALID p) false).flag (SGT.P_STAT_MUTED p) true).on (SGT.P_STAT_MUTED p) = true := Dev.on_flag_same _ _ _
  have htdm : ((Dev.forcePort paired d p).tdm p).forcedLow = true := by rw [Dev.tdm, forcePort_tdm, tabGet_set_same]
  have hon (f : Fld) := Dev.on_fld (Dev.fld_regs (forcePort_regs paired d p) f)
  cases paired with
  | true =>
    exact ⟨⟨(hon _).trans ((Dev.on_flag_other _ _ hvd).trans hvalid), (hon _).trans ((Dev.on_flag_other _ _ hmd).trans hmuted)⟩, htdm,
      fun _ => (hon _).trans (Dev.on_flag_same _ _ _)⟩
  | false => exact ⟨⟨(hon _).trans hvalid, (hon _).trans hmuted⟩, htdm, fun h => absurd h (by decide)⟩

/-- The device with every port forced, before source 6 is raised. -/
def coreForced (d : Dev) : Dev :=
  if d.on TWN.CTRL_PAIR then
    ((List.range 6).foldl (Dev.forcePort (d.on TWN.CTRL_PAIR)) { d with ladder := { d.ladder with coreLost := true } }).flag TWN.STAT_OWN_OUT false
  else (List.range 6).foldl (Dev.forcePort (d.on TWN.CTRL_PAIR)) { d with ladder := { d.ladder with coreLost := true } }

theorem coreLoss_eq (d : Dev) (inj : Bool) : d.coreLoss inj = (coreForced d).raiseInj .s 6 0 inj := rfl

theorem pins_apart : ∀ p < 6, ∀ f ∈ [SGT.P_STAT_VALID p, SGT.P_STAT_MUTED p, SGT.P_STAT_DRIVING p],
    f.key ∉ raiseKeys ∧ f.key ≠ TWN.STAT_OWN_OUT.key := by decide

theorem portPins_congr (hf : ∀ f ∈ [SGT.P_STAT_VALID p, SGT.P_STAT_MUTED p, SGT.P_STAT_DRIVING p], e.fld f = d.fld f)
    (hg : e.gate.ports = d.gate.ports) : portPins p e = portPins p d := by
  simp only [List.forall_mem_cons] at hf
  obtain ⟨hv, hm, hd, -⟩ := hf
  simp only [portPins, Dev.on_fld hv, Dev.on_fld hm, Dev.on_fld hd, tdm_congr hg]

theorem coreForced_forces (d : Dev) (hp : p < 6) : Forced (d.on TWN.CTRL_PAIR) p (coreForced d) := by
  obtain ⟨e, -, hlast⟩ := foldl_at (portPins p) (Dev.forcePort (d.on TWN.CTRL_PAIR)) (List.nodup_range (n := 6)) (List.mem_range.mpr hp)
    (fun d q _ hq => forcePort_other _ d hq) { d with ladder := { d.ladder with coreLost := true } }
  refine (forcePort_forces (d.on TWN.CTRL_PAIR) e p).congr (Eq.trans ?_ hlast)
  exact ite_leaves (portPins p) (portPins_congr (fun f hf => Dev.fld_flag_other _ _ (pins_apart p hp f hf).2) rfl) rfl

theorem coreForced_lost (d : Dev) : (coreForced d).ladder.coreLost = true := by
  have hfold : ((List.range 6).foldl (Dev.forcePort (d.on TWN.CTRL_PAIR)) { d with ladder := { d.ladder with coreLost := true } }).ladder.coreLost =
      true := foldl_leaves (fun e : Dev => e.ladder.coreLost) _ (fun e q => by cases d.on TWN.CTRL_PAIR <;> rfl) _ _
  exact ite_leaves (fun e : Dev => e.ladder.coreLost) hfold hfold

/-- The loss of S_CORE that the monitor detects. -/
theorem coreLoss_silences (hd : s.dev.dead = false) (hlost : s.dev.ladder.coreLost = false) (hcause : tabGet false s.dev.snag.cause 7 = false) :
    Yields (exec .sCoreLoss s) (fun t =>
      t.dev.ladder.coreLost = true ∧ t.dev.isSet 6 = true ∧ t.dev.on SNG.STAT_SAFE = true ∧
      (∀ p, p < 6 → t.dev.on (SGT.P_STAT_VALID p) = false ∧ t.dev.on (SGT.P_STAT_MUTED p) = true ∧ (t.dev.tdm p).forcedLow = true ∧
        (s.dev.on TWN.CTRL_PAIR = true → t.dev.on (SGT.P_STAT_DRIVING p) = false)) ∧
      (s.dev.on TWN.CTRL_PAIR = true → t.dev.on TWN.STAT_OWN_OUT = false)) := by
  have hbody : (if s.dev.ladder.coreLost || tabGet false s.dev.snag.cause 7 then s.dev else s.dev.coreLoss false) =
      (coreForced s.dev).raiseInj .s 6 0 false := (if_neg (by simp [hlost, hcause])).trans (coreLoss_eq _ _)
  have hraised := raiseInj_raises (coreForced s.dev) .s 6 0 false
  have hset := raiseInj_s_set (coreForced s.dev) (n := 6) 0 false (by decide)
  have hforced (p : Nat) (hp : p < 6) : Forced (s.dev.on TWN.CTRL_PAIR) p ((coreForced s.dev).raiseInj .s 6 0 false) :=
    (coreForced_forces s.dev hp).congr (portPins_congr (fun f hf => hraised.regs f (pins_apart p hp f hf).1) (congrArg Gate.ports hraised.gate))
  have hlow (hpair : s.dev.on TWN.CTRL_PAIR = true) : ((coreForced s.dev).raiseInj .s 6 0 false).on TWN.STAT_OWN_OUT = false := by
    rw [hraised.on (by decide), coreForced, if_pos hpair, Dev.on_flag_same]
  have hcore : ((coreForced s.dev).raiseInj .s 6 0 false).ladder.coreLost = true := hraised.ladder_coreLost.trans (coreForced_lost _)
  generalize (coreForced s.dev).raiseInj .s 6 0 false = e at hbody hset hforced hlow hcore
  have hstays : (runOn s fun _ _ => e).dev.ladder.coreLost = true := by rw [runOn_ladder]; exact hcore
  refine run_body hd hbody ⟨hstays, (isSet_runOn s _ 6).trans hset, (runOn_safe s _).1 (by rw [Dev.safeCause, hstays, Bool.or_true]),
    fun p hp => ?_, fun hpair => (runOn_on s _ (by decide)).trans (hlow hpair)⟩
  obtain ⟨hsilent, hzero, hdrive⟩ := hforced p hp
  obtain ⟨hvalid, hmuted⟩ := silent_runOn (s := s) (fun _ _ => e) hp hsilent
  have houtside : ∀ p < 6, (SGT.P_STAT_DRIVING p).key ∉ safeKeys := by decide
  exact ⟨hvalid, hmuted, (congrArg TdmPort.forcedLow (tdm_runOn s _ p)).trans hzero,
    fun hpair => (runOn_on s _ (houtside p hp)).trans (hdrive hpair)⟩

end Sys2Proof.Proofs.Scope
end

section
/-!
PROOF. Samples arrive (R288, R297): what the intake of a sample leaves alone, and where a frame's samples go.
-/

namespace Sys2Proof.Proofs.Scope

open Sys2Proof.Machine Sys2Proof.Laws

variable {d e : Dev} {p : Nat} {f : Fld}

/-- A field, and what the tests of an arriving sample leave of the gates and the Snag unit. -/
def sampled (f : Fld) (d : Dev) : Nat × Gate × Snag := (d.fld f, { d.gate with outs := [], badEcc := [] }, d.snag)

/-- Keys of ARM in the two injections that a sample may use up. -/
abbrev sampleKeys : List Nat := [WCH.SIG_INJ_ARM.key, SGT.INJ_ARM.key]

theorem sampled_cutChannels (f : Fld) (d : Dev) (w k : Nat) : sampled f (d.cutChannels w k) = sampled f d := by
  unfold Dev.cutChannels
  dsimp only
  refine (foldl_leaves (sampled f) _ ?_ _ _).trans rfl
  exact fun _ _ => rfl

theorem sampled_flag (d : Dev) {g : Fld} (b : Bool) (h : f.key ≠ g.key) : sampled f (d.flag g b) = sampled f d :=
  congrArg (·, _) (Dev.fld_flag_other d b h)

theorem sampled_bndTest (hf : f.key ∉ sampleKeys) (d : Dev) (c n : Nat) (x : Int) (w : Nat) : sampled f (d.bndTest c n x w) = sampled f d := by
  have harm : f.key ≠ WCH.SIG_INJ_ARM.key := fun h => hf (by simp [h])
  have hdisarm (b : Bool) : sampled f (if b then d.sigDisarm else d) = sampled f d := ite_leaves (sampled f) (sampled_flag d false harm) rfl
  have hfail (b : Bool) (e : Dev) : sampled f (if b then e.sigFail w n 1 0 else e) = sampled f e := ite_leaves (sampled f) rfl rfl
  unfold Dev.bndTest
  dsimp only
  refine ite_leaves (sampled f) rfl (ite_leaves (sampled f) ((sampled_cutChannels f _ _ _).trans ?_) ?_)
  all_goals exact (hfail _ _).trans (hdisarm _)

/-- Sample `n` of input channel `c` in the store of samples. -/
def arrived (d : Dev) (c n : Nat) (x : Int) : Dev := { d with gate := { d.gate with inputs := tabSet none d.gate.inputs (inKey c n) (some x) } }

/-- Of the part, an arriving sample changes the store alone. -/
theorem sampled_takeSample (hf : f.key ∉ sampleKeys) (d : Dev) (c n : Nat) (x : Int) :
    sampled f (d.takeSample c n x) = sampled f (arrived d c n x) := by
  have harm : f.key ≠ SGT.INJ_ARM.key := fun h => hf (by simp [h])
  have hinj (b : Bool) (t : Tab Bool) (e : Dev) : sampled f (if b then { e.flag SGT.INJ_ARM false with gate := { e.gate with badEcc := t } } else e) =
      sampled f e := ite_leaves (sampled f) (sampled_flag e false harm) rfl
  unfold Dev.takeSample
  refine ite_leaves (sampled f) ((foldl_leaves (sampled f) _ (fun d w => sampled_bndTest hf d c n x w) _ _).trans ?_) ?_
  all_goals exact hinj _ _ _

theorem takeSample_fld (hf : f.key ∉ sampleKeys) (d : Dev) (c n : Nat) (x : Int) : (d.takeSample c n x).fld f = d.fld f :=
  congrArg Prod.fst (sampled_takeSample hf d c n x)

/-- A field that no sample uses up. -/
theorem listEn_key : AVT.CTRL_LIST_EN.key ∉ sampleKeys := by decide

theorem takeSample_gate (d : Dev) (c n : Nat) (x : Int) :
    { (d.takeSample c n x).gate with outs := [], badEcc := [] } = { (arrived d c n x).gate with outs := [], badEcc := [] } :=
  congrArg (fun y => y.2.1) (sampled_takeSample listEn_key d c n x)

theorem takeSample_inputs (d : Dev) (c n : Nat) (x : Int) :
    (d.takeSample c n x).gate.inputs = tabSet none d.gate.inputs (inKey c n) (some x) := congrArg Gate.inputs (takeSample_gate d c n x)

theorem takeSample_tick (d : Dev) (c n : Nat) (x : Int) : (d.takeSample c n x).gate.tick = d.gate.tick := by
  have := congrArg Gate.tick (takeSample_gate d c n x)
  exact this

/-! The frame of a port (R288, R301). -/

/-- Channel `c` takes its slot's sample. -/
def channelSample (slots : List Nat) (d : Dev) (c : Nat) : Dev :=
  if d.gate.tick < d.fld (SGT.IN_LAG c) then d
  else d.takeSample c (d.gate.tick - d.fld (SGT.IN_LAG c)) (signedOf 32 (slots.getD (d.fld (SGT.IN_SLOT c)) 0))

/-- The input channels that take a slot of port `p`. -/
def portIns (d : Dev) (p : Nat) : List Nat :=
  (List.range 128).filter (fun c => d.on (SGT.IN_EN c) && d.fld (SGT.IN_TYPE c) == 0 && d.fld (SGT.IN_UNIT c) == p
    && d.fld (SGT.IN_SLOT c) ≤ d.fld (SGT.P_CFG_SLOTS_M1 p))

theorem takeFrame_eq (d : Dev) (p : Nat) (slots : List Nat) : d.takeFrame p slots = (portIns d p).foldl (channelSample slots) d := rfl

theorem channelSample_fld (slots : List Nat) (hf : f.key ∉ sampleKeys) (d : Dev) (c : Nat) : (channelSample slots d c).fld f = d.fld f :=
  ite_leaves (fun e : Dev => e.fld f) rfl (takeSample_fld hf _ _ _ _)

theorem takeFrame_fld (hf : f.key ∉ sampleKeys) (d : Dev) (p : Nat) (slots : List Nat) : (d.takeFrame p slots).fld f = d.fld f :=
  foldl_leaves (fun e : Dev => e.fld f) _ (channelSample_fld slots hf) _ _

/-- Slot and lag of a channel, the current tick, and one place of the store. -/
def channelView (c k : Nat) (d : Dev) : Nat × Nat × Nat × Option Int :=
  (d.fld (SGT.IN_SLOT c), d.fld (SGT.IN_LAG c), d.gate.tick, tabGet none d.gate.inputs k)

theorem in_apart (c : Nat) : (SGT.IN_SLOT c).key ∉ sampleKeys ∧ (SGT.IN_LAG c).key ∉ sampleKeys := by
  simp [Fld.key, SGT.IN_SLOT, SGT.IN_LAG, WCH.SIG_INJ_ARM, SGT.INJ_ARM]
  omega

/-- Samples of two channels have places of their own. -/
theorem inKey_ne {b c n m : Nat} (hb : b < 128) (hc : c < 128) (h : b ≠ c) : inKey c n ≠ inKey b m := by
  unfold inKey
  omega

theorem channelSample_other (slots : List Nat) (d : Dev) {b c : Nat} (n : Nat) (hb : b < 128) (hc : c < 128) (h : b ≠ c) :
    channelView c (inKey c n) (channelSample slots d b) = channelView c (inKey c n) d := by
  obtain ⟨hslot, hlag⟩ := in_apart c
  refine ite_leaves (channelView c (inKey c n)) rfl ?_
  simp only [channelView, takeSample_fld hslot, takeSample_fld hlag, takeSample_tick, takeSample_inputs, tabGet_set_other _ _ _ (inKey_ne hb hc h)]

/-- A channel that takes a slot of the port, and whose sample is not from before the start, has it in the store. -/
theorem takeFrame_stores {c : Nat} (hc : c ∈ portIns d p) (hlag : d.fld (SGT.IN_LAG c) ≤ d.gate.tick) (slots : List Nat) :
    tabGet none (d.takeFrame p slots).gate.inputs (inKey c (d.gate.tick - d.fld (SGT.IN_LAG c))) =
      some (signedOf 32 (slots.getD (d.fld (SGT.IN_SLOT c)) 0)) := by
  have hlt : ∀ b ∈ portIns d p, b < 128 := fun b hb => List.mem_range.mp (List.mem_filter.mp hb).1
  obtain ⟨e, he, hlast⟩ := foldl_at (channelView c (inKey c (d.gate.tick - d.fld (SGT.IN_LAG c)))) (channelSample slots)
    (List.nodup_range.filter _) hc (fun x b hb hne => channelSample_other slots x _ (hlt b hb) (hlt c hc) hne) d
  simp only [channelView, Prod.mk.injEq] at he hlast
  obtain ⟨hslot, hlags, htick, -⟩ := he
  obtain ⟨-, -, -, hplace⟩ := hlast
  rw [takeFrame_eq]
  refine hplace.trans ?_
  rw [channelSample, hlags, htick, if_neg (Nat.not_lt.mpr hlag), takeSample_inputs, tabGet_set_same, hslot]

/-! The packets of a listener (R297). -/

/-- A field, and what the samples of a packet leave of the gates and the Snag unit. -/
def heard (f : Fld) (d : Dev) : Nat × Gate × Snag := (d.fld f, { d.gate with outs := [], badEcc := [], inputs := [] }, d.snag)

theorem heard_listenSample {l : Nat} (hf : f.key ∉ sampleKeys) (hl : f.key ≠ (AVT.L_CNT_LATE l).key) (d : Dev) (t : Int) (c : Nat) (x : Int) :
    heard f (d.listenSample l t c x) = heard f d := by
  have hsample (n : Nat) : heard f (d.takeSample c n x) = heard f d :=
    congrArg (fun y : Nat × Gate × Snag => (y.1, { y.2.1 with inputs := [] }, y.2.2)) (sampled_takeSample hf d c n x)
  unfold Dev.listenSample
  exact ite_leaves (heard f) (congrArg (·, _) (Dev.fld_count_other _ _ hl)) (hsample _)

/-- The device once a packet has locked its listener, before its samples are taken in. -/
def packetSeen (d : Dev) (l : Nat) (k : AafPacket) : Dev :=
  let d1 := if d.on (AVT.L_STAT_LOCKED l) && tabGet 0 d.gate.listenSeq l != k.seq then d.count (AVT.L_CNT_SEQ_GAP l) 1 else d
  (({ d1 with gate := { d1.gate with
        listenAt := tabSet 0 d1.gate.listenAt l d1.now, listenSeq := tabSet 0 d1.gate.listenSeq l ((k.seq + 1) % 256) } }).flag
    (AVT.L_STAT_LOCKED l) true).cause (392 + l) false

theorem listen_other {l : Nat} {k : AafPacket} (h : d.aafMatches l k = false) : d.listen l k = d := by
  unfold Dev.listen
  exact if_pos (by simp [h])

/-- Of the part, a packet of the listener leaves what locking leaves. -/
theorem heard_listen {l : Nat} {k : AafPacket} (hf : f.key ∉ sampleKeys) (hl : f.key ≠ (AVT.L_CNT_LATE l).key) (hr : d.reach .x = true)
    (hm : d.aafMatches l k = true) : heard f (d.listen l k) = heard f (packetSeen d l k) := by
  have hopen : ¬ (!d.reach .x || !d.aafMatches l k) = true := by simp [hr, hm]
  unfold Dev.listen
  rw [if_neg hopen]
  refine ite_leaves (heard f) rfl ?_
  exact (foldl_leaves (heard f) _ (fun d _ => foldl_leaves (heard f) _ (fun d c => heard_listenSample hf hl d _ c _) _ d) _ _)

end Sys2Proof.Proofs.Scope
end

section
/-!
PROOF. The statement on ports, listeners and the loss of S_CORE.
-/

namespace Sys2Proof.Proofs.Scope

open Sys2Proof.Machine Sys2Proof.Laws

/-! Frames and locks of a port (R288, R294, R301, R316). -/

section
variable {s : State} {p : Nat} (hd : s.dev.dead = false) (hp : p < 6)
include hd hp

theorem portEnable_yields (hen : s.dev.tdmEn p = false) : Yields (exec (.sgtPortEnable p) s) (fun t =>
    t.dev.tdmEn p = true ∧ (∀ q, q < 6 → q ≠ p → t.dev.tdmEn q = s.dev.tdmEn q) ∧ (t.dev.tdm p).measured = 0 ∧
    (s.dev.fld (SGT.P_CFG_CLK p) = 0 → t.dev.on (SGT.P_STAT_LOCKED p) = true) ∧
    (s.dev.fld (SGT.P_CFG_CLK p) = 1 → t.dev.on (SGT.P_STAT_LOCKED p) = false) ∧ t.dev.resp = .done) := by
  have hlock (hclk : s.dev.fld (SGT.P_CFG_CLK p) ≠ 2) := switch_locked (b := true) s hp hen (.inl hclk)
  refine yields_imp (switch_yields (b := true) (P := fun t => (s.dev.fld (SGT.P_CFG_CLK p) = 0 → t.dev.on (SGT.P_STAT_LOCKED p) = true) ∧
      (s.dev.fld (SGT.P_CFG_CLK p) = 1 → t.dev.on (SGT.P_STAT_LOCKED p) = false)) hd hp hen
    ⟨fun hclk => ?_, fun hclk => ?_⟩) (fun t ⟨hown, hothers, hmeasured, hresp, hmaster, hslave⟩ => ⟨hown, hothers, hmeasured, hmaster, hslave, hresp⟩)
  all_goals
    rw [hlock (by omega), hclk]
    rfl

theorem portDisable_yields (hen : s.dev.tdmEn p = true) : Yields (exec (.sgtPortDisable p) s) (fun t =>
    t.dev.tdmEn p = false ∧ (∀ q, q < 6 → q ≠ p → t.dev.tdmEn q = s.dev.tdmEn q) ∧ (t.dev.tdm p).measured = 0 ∧
    t.dev.on (SGT.P_STAT_LOCKED p) = false ∧ t.dev.on (SGT.P_STAT_VALID p) = false ∧ t.dev.on (SGT.P_STAT_MUTED p) = true ∧
    tabGet false t.dev.snag.cause (384 + p) = false ∧ t.dev.resp = .done) := by
  have hshown : Silent p (switched s.dev p false).showLocks := by
    refine silent_congr (showLocks_fld _ (fun q => ?_)) (showLocks_fld _ (fun q => ?_)) (portDisable_silent _ p)
    all_goals
      simp only [Fld.key, SGT.P_STAT_VALID, SGT.P_STAT_MUTED, SGT.P_STAT_LOCKED, SGT.P_STAT]
      omega
  obtain ⟨hvalid, hmuted⟩ := silent_runOn (s := s) (fun _ _ => (switched s.dev p false).showLocks.answer .done) hp
    ((silent_answer _ _).mpr hshown)
  have hcause : tabGet false (runOn s fun _ _ => (switched s.dev p false).showLocks.answer .done).dev.snag.cause (384 + p) = false := by
    rw [runOn_snag_cause, Dev.answer_snag, showLocks_snag]
    exact portDisable_cause _ p
  refine yields_imp (switch_yields (b := false) (P := fun t => t.dev.on (SGT.P_STAT_LOCKED p) = false ∧ t.dev.on (SGT.P_STAT_VALID p) = false ∧
      t.dev.on (SGT.P_STAT_MUTED p) = true ∧ tabGet false t.dev.snag.cause (384 + p) = false) hd hp hen
    ⟨switch_locked (b := false) s hp hen (.inr rfl), hvalid, hmuted, hcause⟩)
    (fun t ⟨hown, hothers, hmeasured, hresp, hlocked, hv, hm, hc⟩ => ⟨hown, hothers, hmeasured, hlocked, hv, hm, hc, hresp⟩)

/-- A frame whose meaning is to set what the port has measured. -/
theorem frame_measures {x : TdmPort} {edge : Option Nat} {second : Bool} {slots : List Nat} {P : TdmPort → Prop} (hP : P x)
    (h : s.dev.tdmFrame p edge second slots = s.dev.putTdm p x) :
    Yields (exec (.tdmInputFrame p edge second slots) s) (fun t => P (t.dev.tdm p)) := by
  refine run_body hd ((if_pos hp).trans h) ?_
  rw [tdm_runOn, tdm_putTdm_same]
  exact hP

end

/-- A frame of a disabled port has no effect. -/
theorem frame_disabled {d : Dev} {p : Nat} (hen : d.tdmEn p = false) (edge : Option Nat) (second : Bool) (slots : List Nat) :
    d.tdmFrame p edge second slots = d := by
  unfold Dev.tdmFrame
  exact if_pos (by simp [hen])

/-- A frame of an enabled SLAVE port (R294). -/
theorem tdmFrame_slave {d : Dev} {p : Nat} (hen : d.tdmEn p = true) (hclk : d.fld (SGT.P_CFG_CLK p) = 1) (slots : List Nat) :
    (d.on (SGT.P_STAT_LOCKED p) = false →
      (∀ second, d.tdmFrame p none second slots = d.putTdm p { d.tdm p with measured := 0 }) ∧
      (∀ a, d.tdmFrame p (some a) true slots = d.putTdm p { d.tdm p with measured := 0 } ∧
        ((d.tdm p).measured = 0 → d.tdmFrame p (some a) false slots = d.putTdm p { d.tdm p with measured := 1, phase := a }) ∧
        ((d.tdm p).measured ≠ 0 → d.tdmFrame p (some a) false slots = d.putTdm p
          { d.tdm p with measured := if d.samePhase a (d.tdm p).phase then min 16 ((d.tdm p).measured + 1) else 0 }))) ∧
    (d.on (SGT.P_STAT_LOCKED p) = true →
      (∀ edge second, edge = none ∨ second = true ∨ (∃ a, edge = some a ∧ d.samePhase a (d.tdm p).phase = false) →
        d.tdmFrame p edge second slots = d.clockFault p) ∧
      (∀ a, d.samePhase a (d.tdm p).phase = true → d.tdmFrame p (some a) false slots = d.takeFrame p slots)) := by
  unfold Dev.tdmFrame
  refine ⟨fun hlocked => ⟨fun second => ?_, fun a => ⟨?_, fun h => ?_, fun h => ?_⟩⟩, fun hlocked => ⟨fun edge second h => ?_, fun a h => ?_⟩⟩
  · simp [hen, hclk, hlocked]
  · simp [hen, hclk, hlocked]
  · simp [hen, hclk, hlocked, h]
  · cases hphase : d.samePhase a (d.tdm p).phase with
    | true => simp [hen, hclk, hlocked, h, hphase]
    | false => simp [hen, hclk, hlocked, h, hphase]
  · cases edge with
    | none => simp [hen, hclk, hlocked]
    | some a =>
      have hbad : (second || !d.samePhase a (d.tdm p).phase) = true := by simpa using h
      simp [hen, hclk, hlocked, hbad]
  · simp [hen, hclk, hlocked, h]

/-- The device with a clock fault counted and the phase to be measured again, before the source is raised. -/
def faultSeen (d : Dev) (p : Nat) : Dev :=
  let d1 := ((d.count (SGT.P_STAT_CLKFAULTS p) 1).flag (SGT.P_STAT_LOCKED p) false).putTdm p { d.tdm p with measured := 0 }
  { d1 with gate := { d1.gate with inputs := d1.gate.inputs.filter (fun e =>
      !(d.on (SGT.IN_EN (e.1 % 128)) && d.fld (SGT.IN_TYPE (e.1 % 128)) == 0 && d.fld (SGT.IN_UNIT (e.1 % 128)) == p
        && e.1 / 128 + d.fld (SGT.IN_LAG (e.1 % 128)) == d.gate.tick)) } }

theorem clockFault_eq (d : Dev) (p : Nat) : d.clockFault p = ((faultSeen d p).raiseCause .s (384 + p)).showLocks := rfl

theorem faultSeen_measured (d : Dev) (p : Nat) : ((faultSeen d p).tdm p).measured = 0 := congrArg TdmPort.measured (tdm_putTdm_same _ _ _)

theorem faultSeen_fld (d : Dev) (p : Nat) (f : Fld) :
    (faultSeen d p).fld f = ((d.count (SGT.P_STAT_CLKFAULTS p) 1).flag (SGT.P_STAT_LOCKED p) false).fld f := rfl

theorem clkFaults_apart (p q : Nat) : (SGT.P_STAT_CLKFAULTS p).key ≠ (SGT.P_STAT_LOCKED q).key := by
  simp only [Fld.key, SGT.P_STAT_CLKFAULTS, SGT.P_STAT_LOCKED, SGT.P_STAT]
  omega

theorem clkFaults_outside : ∀ p < 6, (SGT.P_STAT_CLKFAULTS p).key ∉ safeKeys ∧ (SGT.P_STAT_CLKFAULTS p).key ∉ raiseKeys ∧
    (SGT.P_STAT_CLKFAULTS p).key ∉ sampleKeys := by decide

theorem portSource_exists : ∀ p < 6, srcExists (384 + p) = true := by decide

section
variable {s : State} {p : Nat} (hd : s.dev.dead = false) (hp : p < 6)
include hd hp

/-- A clock fault of a port that does not follow another (R294, R316). -/
theorem clockFault_yields {f : Mem → Dev → Dev} (hclk : s.dev.fld (SGT.P_CFG_CLK p) = 1) (hf : f s.mem s.dev = s.dev.clockFault p) :
    Yields (run s f) (fun t =>
      t.dev.on (SGT.P_STAT_LOCKED p) = false ∧ t.dev.fld (SGT.P_STAT_CLKFAULTS p) = min 65535 (s.dev.fld (SGT.P_STAT_CLKFAULTS p) + 1) ∧
      (t.dev.tdm p).measured = 0 ∧ t.dev.isSet (384 + p) = true ∧ tabGet false t.dev.snag.cause (384 + p) = true) := by
  have hmeasured := faultSeen_measured s.dev p
  have hunlocked : (faultSeen s.dev p).on (SGT.P_STAT_LOCKED p) = false := (Dev.on_fld (faultSeen_fld _ _ _)).trans (Dev.on_flag_same _ _ _)
  have hclock : (faultSeen s.dev p).fld (SGT.P_CFG_CLK p) = 1 := by
    refine (faultSeen_fld _ _ _).trans ((Dev.fld_flag_other _ _ (clk_apart p p)).trans ((Dev.fld_count_other _ _ ?_).trans hclk))
    simp only [Fld.key, SGT.P_CFG_CLK, SGT.P_STAT_CLKFAULTS, SGT.P_CFG, SGT.P_STAT]
    omega
  have hcount : (faultSeen s.dev p).fld (SGT.P_STAT_CLKFAULTS p) = min 65535 (s.dev.fld (SGT.P_STAT_CLKFAULTS p) + 1) :=
    (faultSeen_fld _ _ _).trans ((Dev.fld_flag_other _ _ (clkFaults_apart p p)).trans ((Dev.fld_count_same _ _ _).trans (Nat.min_comm _ _)))
  generalize hx : faultSeen s.dev p = x at hmeasured hunlocked hclock hcount
  have hraised := raise_raises x .s (384 + p)
  have hset := raise_s_set x (portSource_exists p hp)
  have hlocks (g : Fld) (hg : g ∈ lockFlds p) : (x.raiseCause .s (384 + p)).fld g = x.fld g :=
    (Dev.fld_cause _ _ _ g).trans (hraised.regs g (lockFlds_outside p hp g hg).2)
  obtain ⟨hsafe, hraise, -⟩ := clkFaults_outside p hp
  have hbody : f s.mem s.dev = (x.raiseCause .s (384 + p)).showLocks := by rw [hf, clockFault_eq, hx]
  refine run_body hd hbody ⟨?_, ?_, ?_, ?_, ?_⟩
  · have hcfg := (hlocks (SGT.P_CFG_CLK p) (by simp)).trans hclock
    refine (Dev.on_fld (lock_runOn s hp (f := SGT.P_STAT_LOCKED p) (by simp))).trans ((showLocks_locked hp (.inl (by omega))).trans ?_)
    rw [ownLock_congr hlocks]
    simp [Dev.ownLock, hclock, hunlocked]
  · exact (runOn_fld s _ hsafe).trans ((showLocks_fld _ (clkFaults_apart p)).trans ((hraised.regs _ hraise).trans hcount))
  · rw [tdm_runOn, tdm_congr (congrArg Gate.ports (showLocks_gate _)), Dev.raiseCause, tdm_cause, tdm_congr (congrArg Gate.ports hraised.gate)]
    exact hmeasured
  · rw [isSet_runOn, isSet_congr (congrArg Snag.set (showLocks_snag _)), Dev.raiseCause, isSet_cause]
    exact hset
  · rw [runOn_snag_cause, showLocks_snag]
    exact cause_same _ _ _

/-- PORT_LOCK of a port that has measured 16 frames (R294, R316). -/
theorem portLock_locks (hen : s.dev.tdmEn p = true) (hclk : s.dev.fld (SGT.P_CFG_CLK p) = 1) (hlocked : s.dev.on (SGT.P_STAT_LOCKED p) = false)
    (hm : (s.dev.tdm p).measured = 16) : Yields (exec (.portLock p) s) (fun t =>
      t.dev.on (SGT.P_STAT_LOCKED p) = true ∧ tabGet false t.dev.snag.cause (384 + p) = false ∧
      RegsKept ((List.range 6).map (fun q => (SGT.P_STAT_LOCKED q).key)) s.dev t.dev) := by
  have hbody : s.dev.portLock p = ((s.dev.flag (SGT.P_STAT_LOCKED p) true).cause (384 + p) false).showLocks := by
    unfold Dev.portLock
    exact if_pos (by simp [hen, hclk, hlocked, hm])
  have hclock : (s.dev.flag (SGT.P_STAT_LOCKED p) true).fld (SGT.P_CFG_CLK p) = 1 := (Dev.fld_flag_other _ _ (clk_apart p p)).trans hclk
  refine run_body hd ((if_pos hp).trans hbody) ⟨?_, ?_, runOn_regsKept (fun g hg => ?_)⟩
  · have hen' : (s.dev.flag (SGT.P_STAT_LOCKED p) true).tdmEn p = true := (tdmEn_fld (Dev.fld_flag_other _ _ (en_apart p)) p).trans hen
    have hshown : ((s.dev.flag (SGT.P_STAT_LOCKED p) true).cause (384 + p) false).showLocks.on (SGT.P_STAT_LOCKED p) =
        (s.dev.flag (SGT.P_STAT_LOCKED p) true).ownLock p := showLocks_locked hp (.inl (by rw [Dev.fld_cause]; omega))
    refine (Dev.on_fld (lock_runOn s hp (f := SGT.P_STAT_LOCKED p) (by simp))).trans (hshown.trans ?_)
    simp [Dev.ownLock, hen', hclock]
  · rw [runOn_snag_cause, showLocks_snag]
    exact cause_same _ _ _
  · have hother : ∀ q ∈ List.range 6, g.key ≠ (SGT.P_STAT_LOCKED q).key := fun q hq h => hg (List.mem_map.mpr ⟨q, hq, h.symm⟩)
    have hshow := foldl_leaves_mem (fun e : Dev => e.fld g) (fun d q => d.flag (SGT.P_STAT_LOCKED q) (d.portLocked q)) (List.range 6)
      (fun d q hq => Dev.fld_flag_other _ _ (hother q hq)) ((s.dev.flag (SGT.P_STAT_LOCKED p) true).cause (384 + p) false)
    exact hshow.trans ((Dev.fld_cause _ _ _ _).trans (Dev.fld_flag_other _ _ (hother p (List.mem_range.mpr hp))))

end

/-- PORT_LOCK of a port that has not measured 16 frames. -/
theorem portLock_waits {d : Dev} {p : Nat} (hm : (d.tdm p).measured ≠ 16) : d.portLock p = d := by
  unfold Dev.portLock
  exact if_neg (by simp [hm])

/-- A command whose body leaves the device as it is. -/
theorem unchanged_yields {s : State} {f : Mem → Dev → Dev} (hd : s.dev.dead = false) (hm : s.dev.memsys.writes = []) (hf : f s.mem s.dev = s.dev) :
    Yields (run s f) (fun t => RegsOnly [] s t) := run_body hd hf (runOn_regsOnly hm (fun _ _ => rfl) rfl)

/-- A frame of a MASTER port, or of a locked SLAVE port in phase, is taken. -/
theorem tdmFrame_takes {d : Dev} {p a : Nat} (hen : d.tdmEn p = true) (hclk : d.fld (SGT.P_CFG_CLK p) = 0 ∨
    (d.fld (SGT.P_CFG_CLK p) = 1 ∧ d.on (SGT.P_STAT_LOCKED p) = true ∧ d.samePhase a (d.tdm p).phase = true)) (slots : List Nat) :
    d.tdmFrame p (some a) false slots = d.takeFrame p slots := by
  rcases hclk with hmaster | ⟨hslave, hlocked, hphase⟩
  · have hlock : d.portLocked p = true := by
      rw [portLocked_own (.inl (by omega))]
      simp [Dev.ownLock, hen, hmaster]
    simp [Dev.tdmFrame, hen, hmaster, hlock]
  · exact ((tdmFrame_slave hen hslave slots).2 hlocked).2 a hphase

/-- The sample of a channel that takes a slot of the port (R288, R301). -/
theorem frame_taken {s : State} {p a c : Nat} (hd : s.dev.dead = false) (hp : p < 6) {slots : List Nat}
    (h : s.dev.tdmFrame p (some a) false slots = s.dev.takeFrame p slots) (hc : c ∈ portIns s.dev p)
    (hlag : s.dev.fld (SGT.IN_LAG c) ≤ s.dev.gate.tick) : Yields (exec (.tdmInputFrame p (some a) false slots) s) (fun t =>
      tabGet none t.dev.gate.inputs (inKey c (s.dev.gate.tick - s.dev.fld (SGT.IN_LAG c))) =
        some (signedOf 32 (slots.getD (s.dev.fld (SGT.IN_SLOT c)) 0)) ∧
      t.dev.fld (SGT.P_STAT_CLKFAULTS p) = s.dev.fld (SGT.P_STAT_CLKFAULTS p)) := by
  obtain ⟨hsafe, -, hsample⟩ := clkFaults_outside p hp
  refine run_body hd ((if_pos hp).trans h) ⟨?_, (runOn_fld s _ hsafe).trans (takeFrame_fld hsample _ _ _)⟩
  rw [runOn_gate_inputs]
  exact takeFrame_stores hc hlag slots

/-! Packets and streams of a listener (R297). -/

/-- The fields of a listener that its packets change. -/
abbrev listenFlds (l : Nat) : List Fld := [AVT.L_STAT_LOCKED l, AVT.L_CNT_SEQ_GAP l]

theorem listenFlds_outside : ∀ l < 16, ∀ f ∈ listenFlds l, f.key ∉ safeKeys ∧ f.key ∉ raiseKeys ∧ f.key ∉ sampleKeys ∧
    f.key ≠ (AVT.L_CNT_LATE l).key := by decide

theorem listenSource_exists : ∀ l < 16, srcExists (392 + l) = true := by decide

theorem seqGap_apart (l : Nat) : (AVT.L_CNT_SEQ_GAP l).key ≠ (AVT.L_STAT_LOCKED l).key := by
  simp only [Fld.key, AVT.L_CNT_SEQ_GAP, AVT.L_STAT_LOCKED]
  omega

/-- The count of gaps once a packet has locked its listener. -/
theorem packetSeen_gaps (d : Dev) (l : Nat) (k : AafPacket) : (packetSeen d l k).fld (AVT.L_CNT_SEQ_GAP l) =
    if d.on (AVT.L_STAT_LOCKED l) = true ∧ tabGet 0 d.gate.listenSeq l ≠ k.seq then min 65535 (d.fld (AVT.L_CNT_SEQ_GAP l) + 1)
    else d.fld (AVT.L_CNT_SEQ_GAP l) := by
  refine (Dev.fld_cause _ _ _ _).trans ((Dev.fld_flag_other _ _ (seqGap_apart l)).trans ?_)
  have hcount : (d.count (AVT.L_CNT_SEQ_GAP l) 1).fld (AVT.L_CNT_SEQ_GAP l) = min 65535 (d.fld (AVT.L_CNT_SEQ_GAP l) + 1) :=
    (Dev.fld_count_same _ _ _).trans (Nat.min_comm _ _)
  rw [← hcount]
  by_cases hgap : d.on (AVT.L_STAT_LOCKED l) = true ∧ tabGet 0 d.gate.listenSeq l ≠ k.seq
  · rw [if_pos hgap, if_pos (by simpa using hgap)]
    rfl
  · rw [if_neg hgap, if_neg (by simpa using hgap)]
    rfl

theorem packet_locks {s : State} {l : Nat} (hd : s.dev.dead = false) (hl : l < 16) {k : AafPacket} (hr : s.dev.reach .x = true)
    (hm : s.dev.aafMatches l k = true) : Yields (exec (.avtpListenerPacket l k) s) (fun t =>
      t.dev.on (AVT.L_STAT_LOCKED l) = true ∧ tabGet false t.dev.snag.cause (392 + l) = false ∧
      tabGet 0 t.dev.gate.listenSeq l = (k.seq + 1) % 256 ∧ tabGet 0 t.dev.gate.listenAt l = s.dev.now ∧
      t.dev.fld (AVT.L_CNT_SEQ_GAP l) =
        (if s.dev.on (AVT.L_STAT_LOCKED l) = true ∧ tabGet 0 s.dev.gate.listenSeq l ≠ k.seq then min 65535 (s.dev.fld (AVT.L_CNT_SEQ_GAP l) + 1)
          else s.dev.fld (AVT.L_CNT_SEQ_GAP l))) := by
  have hheard (f : Fld) (hf : f ∈ listenFlds l) : heard f (s.dev.listen l k) = heard f (packetSeen s.dev l k) := by
    obtain ⟨-, -, hsample, hlate⟩ := listenFlds_outside l hl f hf
    exact heard_listen hsample hlate hr hm
  have hfld (f : Fld) (hf : f ∈ listenFlds l) : (runOn s fun _ _ => s.dev.listen l k).dev.fld f = (packetSeen s.dev l k).fld f :=
    (runOn_fld s _ (listenFlds_outside l hl f hf).1).trans (congrArg Prod.fst (hheard f hf))
  have hgate := congrArg (fun y : Nat × Gate × Snag => y.2.1) (hheard (AVT.L_STAT_LOCKED l) (by simp))
  have hsnag : (s.dev.listen l k).snag = (packetSeen s.dev l k).snag :=
    congrArg (fun y : Nat × Gate × Snag => y.2.2) (hheard (AVT.L_STAT_LOCKED l) (by simp))
  have hseq : (s.dev.listen l k).gate.listenSeq = (packetSeen s.dev l k).gate.listenSeq := by
    have := congrArg Gate.listenSeq hgate
    exact this
  have hat : (s.dev.listen l k).gate.listenAt = (packetSeen s.dev l k).gate.listenAt := by
    have := congrArg Gate.listenAt hgate
    exact this
  have hnow (b : Bool) : (if b then s.dev.count (AVT.L_CNT_SEQ_GAP l) 1 else s.dev).now = s.dev.now := ite_leaves Dev.now rfl rfl
  refine run_body hd (if_pos hl) ⟨?_, ?_, ?_, ?_, ?_⟩
  · exact (Dev.on_fld (hfld _ (by simp))).trans ((Dev.on_cause _ _ _ _).trans (Dev.on_flag_same _ _ _))
  · rw [runOn_snag_cause, hsnag]
    exact cause_same _ _ _
  · rw [runOn_gate_listenSeq, hseq]
    exact tabGet_set_same 0 _ _ _
  · rw [runOn_gate_listenAt, hat]
    exact (tabGet_set_same 0 _ _ _).trans (hnow _)
  · exact (hfld _ (by simp)).trans (packetSeen_gaps _ _ _)

/-- On another die than the S-die a detector changes no register. -/
theorem raise_x_regs (d : Dev) (n : Nat) : (d.raise .x n).regs = d.regs := ite_leaves Dev.regs rfl rfl

theorem streamLost_waits {d : Dev} {l : Nat} (ht : d.now < tabGet 0 d.gate.listenAt l + msCycles 1) : d.streamLost l = d := by
  unfold Dev.streamLost
  exact if_neg (by simp [Nat.not_le.mpr ht])

/-- No packet for 1 ms (R297, R316). -/
theorem stream_lost {s : State} {l : Nat} (hd : s.dev.dead = false) (hl : l < 16) (hr : s.dev.reach .x = true)
    (hen : bit (s.dev.fld AVT.CTRL_LIST_EN) l = true) (hc : tabGet false s.dev.snag.cause (392 + l) = false)
    (ht : tabGet 0 s.dev.gate.listenAt l + msCycles 1 ≤ s.dev.now) : Yields (exec (.avtStreamLost l) s) (fun t =>
      t.dev.on (AVT.L_STAT_LOCKED l) = false ∧ tabGet false t.dev.snag.cause (392 + l) = true ∧
      (Claims.Beats s.dev .x → Claims.Held t.dev .x (392 + l)) ∧ RegsKept [(AVT.L_STAT_LOCKED l).key] s.dev t.dev) := by
  obtain ⟨hsafe, hraise, -⟩ := listenFlds_outside l hl (AVT.L_STAT_LOCKED l) (by simp)
  have hbody : s.dev.streamLost l = (s.dev.flag (AVT.L_STAT_LOCKED l) false).raiseCause .x (392 + l) := by
    unfold Dev.streamLost
    exact if_pos (by simp [hr, hen, hc, ht])
  have hraised := raise_raises (s.dev.flag (AVT.L_STAT_LOCKED l) false) .x (392 + l)
  refine run_body hd ((if_pos hl).trans hbody) ⟨?_, ?_, fun hbeat => ?_, runOn_regsKept (fun g hg => ?_)⟩
  · exact (runOn_on s _ hsafe).trans ((Dev.on_cause _ _ _ _).trans ((hraised.on hraise).trans (Dev.on_flag_same _ _ _)))
  · rw [runOn_snag_cause]
    exact cause_same _ _ _
  · exact held_runOn (held_congr rfl rfl (raise_holds (listenSource_exists l hl) (beats_flag false hsafe hbeat)))
  · exact (Dev.fld_cause _ _ _ g).trans ((Dev.fld_regs (raise_x_regs _ _) g).trans (Dev.fld_flag_other s.dev false (by simpa using hg)))

/-- Settles O35: enabling and disabling by `switch_yields`, each frame by the case of `tdmFrame` that the clause names, the packets by what
locking a listener leaves, and the loss of S_CORE by `coreLoss_silences`. -/
theorem portsLockTakeFramesAndLoseTheirClock : Obligations.PortsLockTakeFramesAndLoseTheirClock := by
  unfold Obligations.PortsLockTakeFramesAndLoseTheirClock
  intro s hd hm
  refine ⟨fun p hp => ⟨fun hen => ⟨portEnable_yields hd hp hen, fun edge second slots => ?_⟩, portDisable_yields hd hp, fun hen hclk => ?_, ?_⟩,
    fun l hl => ⟨fun k hr hk => packet_locks hd hl hr hk, fun k hk => ?_, fun hr hen hc => ⟨stream_lost hd hl hr hen hc, fun ht => ?_⟩⟩,
    coreLoss_silences hd, fun h => ?_⟩
  · exact unchanged_yields hd hm ((if_pos hp).trans (frame_disabled hen edge second slots))
  · have hframes (slots : List Nat) := tdmFrame_slave hen hclk slots
    refine ⟨fun hlocked => ⟨fun slots => ?_, portLock_locks hd hp hen hclk hlocked,
      fun hmeasured => unchanged_yields hd hm ((if_pos hp).trans (portLock_waits hmeasured))⟩, fun hlocked edge second slots hfault => ?_⟩
    · obtain ⟨hmissing, hedge⟩ := (hframes slots).1 hlocked
      refine ⟨frame_measures hd hp (P := fun x => x.measured = 0) rfl (hmissing false), fun a => ?_⟩
      obtain ⟨hdouble, hfirst, hnext⟩ := hedge a
      exact ⟨frame_measures hd hp (P := fun x => x.measured = 0) rfl hdouble,
        fun h => frame_measures hd hp (P := fun x => x.measured = 1 ∧ x.phase = a) ⟨rfl, rfl⟩ (hfirst h),
        fun h => frame_measures hd hp (P := fun x => x.measured = _) rfl (hnext h)⟩
    · exact clockFault_yields hd hp hclk ((if_pos hp).trans (((hframes slots).2 hlocked).1 edge second hfault))
  · intro a slots c hen hclk hc hon htype hunit hslot hlag
    have hmem : c ∈ portIns s.dev p := List.mem_filter.mpr ⟨List.mem_range.mpr hc, by simp [hon, htype, hunit, hslot]⟩
    exact frame_taken hd hp (tdmFrame_takes hen hclk slots) hmem hlag
  · exact unchanged_yields hd hm ((if_pos hl).trans (listen_other hk))
  · exact unchanged_yields hd hm ((if_pos hl).trans (streamLost_waits ht))
  · exact unchanged_yields hd hm (if_pos (by simpa using h))

end Sys2Proof.Proofs.Scope
end
